-- ==== Sys2Proof/Word.lean ====
section
/-!
DEFINITION. Word.lean: the plain word types of the model and the one sparse table type the state is built from.
Nothing here can be mended later, so nothing here computes a meaning.
-/
namespace Sys2Proof

/-- A byte. -/
abbrev Byte := BitVec 8

/-- A 32-bit register, link payload or memory word. -/
abbrev Word := BitVec 32

/-- A sparse table: pairs of a key and a value, the keys strictly rising, no value equal to the one an
absent key stands for. `Machine.tget` reads it and `Machine.tset` writes it. -/
abbrev Tab (α : Type) := List (Nat × α)

end Sys2Proof
end

