-- ==== Sys2Proof/Syntax.lean ====
section
/-!
DEFINITION. Syntax.lean: the commands the block takes, one constructor per row of the table of operations and events.
An operand names an instance of a block (a tile, a lane, a stream) or carries what comes from outside the device.
-/
namespace Sys2Proof

/-- A physical tile, p = 16 y + x (R36). -/
abbrev TileIx := Fin 256
/-- A directed link by its receiving end: 20 × home position + input, or 5,120 + 64 × side + 4 × y + k for the
egress direction of an edge port (R24, R52). -/
abbrev LinkIx := Fin 5248
/-- A sector SEC_n. -/
abbrev SecIx := Fin 8
/-- A partition. -/
abbrev PartIx := Fin 16
/-- A recipient of commands and events: a partition, or 16 for the platform owner (R354). -/
abbrev Recip := Fin 17
/-- A device task number T = 2,048 n + e (R186). -/
abbrev TaskIx := Fin 16384
/-- A lane. -/
abbrev LaneIx := Fin 64
/-- A stream. -/
abbrev StreamIx := Fin 8192

/-- A mesh request at its target (R284 to R286): the fields of its header and its data. A request that the device
itself injected is named by the same fields. -/
structure MeshReq where
  /-- partition of its virtual channel; 16 is the system partition -/
  part : Recip
  addr : BitVec 48
  len : BitVec 9
  data : List Byte
  /-- bit f: its flit f has POISON = 1 -/
  poison : BitVec 9
  tag : BitVec 17
  epoch : BitVec 4
  /-- SRC: router and port of the requester -/
  src : BitVec 9
  sub : BitVec 2
  /-- it comes from the SECURE domain (R39) -/
  secure : Bool
  /-- it has waited 16 sector cycles or more for its bank or tap memory (R74, R141) -/
  waited : Bool := false
  deriving DecidableEq, Repr

/-- The SecTAG of a received MACsec frame, and whether its ICV verifies under its association's key (R243). -/
structure SecTag where
  sci : Option (BitVec 64)
  /-- E = 1: the frame is encrypted -/
  enc : Bool
  an : Fin 4
  pn : BitVec 64
  icv : Bool
  deriving DecidableEq, Repr

/-- A frame as a lane receives it: bytes from the destination address to the last before the FCS, MACsec removed. -/
structure RxFrame where
  bytes : List Byte
  /-- cut short by the lane leaving UP or by reconfiguration (R223) -/
  cut : Bool
  /-- its FCS holds -/
  fcs : Bool
  sec : Option SecTag
  deriving DecidableEq, Repr

/-- The ring whose gather row is written, and whether memory port 1 writes its bank in the same cycle (R309). -/
structure RingRow where
  k : Fin 4
  portB : Bool
  deriving DecidableEq, Repr

/-- A read of DEQ_POP_k: whether it has waited 16 sector cycles (R173), and whether a word comes to the queue in the same
cycle (Table 05-2). -/
structure PopRead where
  waited : Bool
  pushed : Bool
  deriving DecidableEq, Repr

/-- A doorbell: the word written, and whether EN = 0 of the queue was written in the same cycle (Table 11-13). -/
structure Doorbell where
  word : Word
  off : Bool
  deriving DecidableEq, Repr

/-- What the board gives at the release of device reset: rails in range for 1 ms, SYS_RST_N, TEST_EN, the address
straps (R488, R520, R523), and what it has programmed into the flash while the pins were released (R506): offset, bytes. -/
structure BoardIn where
  rails : Bool
  rstN : Bool
  testEn : Bool
  smb : Fin 8
  flash : List (BitVec 32 × List Byte)
  deriving DecidableEq, Repr

/-- What a boot stage meets outside the logic the specification fixes (R459, R492, R504, R520). -/
structure BootIn where
  /-- the fuses are sensed -/
  fuses : Bool
  /-- 0 the self-test passes; 1 to 4 the test of Table 14-7 that fails -/
  selfTest : Fin 5
  /-- tiles with a bank that has no spare row left -/
  badTiles : List TileIx
  /-- the calibration resistor of the west and of the east lanes is in range -/
  calW : Bool
  calE : Bool
  /-- the flash answers, and its table leads to 8D-8D-8D -/
  flash : Bool
  profile : Bool
  /-- the slot is read without error -/
  slot : Bool
  /-- VPP_FUSE is in its programming range -/
  vpp : Bool
  /-- every fuse bit programmed reads back -/
  readback : Bool
  /-- the firmware reports ready -/
  firmware : Bool
  deriving DecidableEq, Repr

/-- What an upset strikes (R98): a stored bit of an SRAM word (data bits 0 to 31, check bits 32 to 38), a stored bit of
a DRAM line (beat × 72 + bit), or a bit of one copy of Percolator's latches. -/
inductive UpsetAt where
  | sram (addr : BitVec 44) (bit : Nat)
  | dram (addr : BitVec 44) (bit : Nat)
  | latch (copy : Nat) (bit : Nat)
  deriving DecidableEq, Repr

/-- The commands of the block: one constructor per row of the table of operations and events.
Each docstring names the row and the rule of the specification that governs it. -/
inductive Instr where
  /-- CROSSBAR_WORD_MOVE (R59): A source word moves through the crossbar in the first cycle in which every consumer of it can accept, and each consumer takes a copy. -/
  | crossbarWordMove (p : TileIx) (src : BitVec 6)
  /-- LINK_WORD_ARRIVE (R55): A link word lands in the receiver's input register one cycle after sending on a neighbour link, or two on an express link. -/
  | linkWordArrive (l : LinkIx)
  /-- LINK_CREDIT_RETURN (R54): A credit returns to the sender of a link after a word leaves the receiver's input register. -/
  | linkCreditReturn (l : LinkIx)
  /-- ALU_NOP (R63): The ALU does nothing; a reserved OP or a reserved COND for CMP or CSEL also acts as NOP and sets BAD_CODE. -/
  | aluNop (p : TileIx) (n : Fin 4)
  /-- ALU_MOV (R63): The ALU passes operand A to its result. -/
  | aluMov (p : TileIx) (n : Fin 4)
  /-- ALU_ADD (R63): The ALU adds A and B modulo 2^32. -/
  | aluAdd (p : TileIx) (n : Fin 4)
  /-- ALU_SUB (R63): The ALU subtracts B from A modulo 2^32. -/
  | aluSub (p : TileIx) (n : Fin 4)
  /-- ALU_ADDS (R64): The ALU adds A and B with saturation per SGN. -/
  | aluAdds (p : TileIx) (n : Fin 4)
  /-- ALU_SUBS (R64): The ALU subtracts B from A with saturation per SGN. -/
  | aluSubs (p : TileIx) (n : Fin 4)
  /-- ALU_AND (R63): The ALU forms A AND B. -/
  | aluAnd (p : TileIx) (n : Fin 4)
  /-- ALU_OR (R63): The ALU forms A OR B. -/
  | aluOr (p : TileIx) (n : Fin 4)
  /-- ALU_XOR (R63): The ALU forms A XOR B. -/
  | aluXor (p : TileIx) (n : Fin 4)
  /-- ALU_ANDN (R63): The ALU forms A AND NOT B. -/
  | aluAndn (p : TileIx) (n : Fin 4)
  /-- ALU_SLL (R63): The ALU shifts A left by B[4:0]. -/
  | aluSll (p : TileIx) (n : Fin 4)
  /-- ALU_SRL (R63): The ALU shifts A right by B[4:0] with zero or sign fill. -/
  | aluSrl (p : TileIx) (n : Fin 4)
  /-- ALU_ROL (R63): The ALU rotates A left by B[4:0]. -/
  | aluRol (p : TileIx) (n : Fin 4)
  /-- ALU_ROR (R63): The ALU rotates A right by B[4:0]. -/
  | aluRor (p : TileIx) (n : Fin 4)
  /-- ALU_CMP (R63): The ALU gives all ones when A COND B holds, else zero. -/
  | aluCmp (p : TileIx) (n : Fin 4)
  /-- ALU_CSEL (R63): The ALU gives A when A COND IMM holds, else B. -/
  | aluCsel (p : TileIx) (n : Fin 4)
  /-- ALU_MIN (R63): The ALU gives the smaller of A and B per SGN. -/
  | aluMin (p : TileIx) (n : Fin 4)
  /-- ALU_MAX (R63): The ALU gives the larger of A and B per SGN. -/
  | aluMax (p : TileIx) (n : Fin 4)
  /-- ALU_POPCNT (R63): The ALU counts the 1 bits of A. -/
  | aluPopcnt (p : TileIx) (n : Fin 4)
  /-- ALU_SHUF (R64): The ALU builds a byte shuffle of A and B under IMM. -/
  | aluShuf (p : TileIx) (n : Fin 4)
  /-- ALU_CRC32 (R64): The ALU updates its running CRC-32 state with A and gives the current CRC. -/
  | aluCrc32 (p : TileIx) (n : Fin 4)
  /-- ALU_GFMUL (R64): The ALU forms four GF(2^8) products of the bytes of A and B. -/
  | aluGfmul (p : TileIx) (n : Fin 4)
  /-- ALU_CRCAPP (R64): The ALU passes A, updates the CRC state, and after a LAST word schedules the CRC word. -/
  | aluCrcapp (p : TileIx) (n : Fin 4)
  /-- CRCAPP_APPEND (R64): In the cycle after a LAST word, CRCAPP produces the CRC word with LAST = 1 and resets its state. -/
  | crcappAppend (p : TileIx) (n : Fin 4)
  /-- ALU_RESULT_READY (R65): An ALU operation of latency n presents its result at the crossbar input n cycles after issue. -/
  | aluResultReady (p : TileIx) (n : Fin 4)
  /-- PORT_READ (R71): A memory port in READ mode reads the addressed word when its bank grants the request. -/
  | portRead (p : TileIx) (k : Fin 2)
  /-- PORT_WRITE (R71): A memory port in WRITE mode writes its write data at the address when granted. -/
  | portWrite (p : TileIx) (k : Fin 2) (both : Bool)
  /-- GEN_READ (R71): A memory port reads at the next generator address. -/
  | genRead (p : TileIx) (k : Fin 2)
  /-- GEN_WRITE (R71): A memory port writes its write data at the next generator address. -/
  | genWrite (p : TileIx) (k : Fin 2) (both : Bool)
  /-- PORT_SET (R71): A memory port ORs a mask into the addressed word atomically, holding the bank two cycles. -/
  | portSet (p : TileIx) (k : Fin 2)
  /-- PORT_CLEAR (R71): A memory port ANDs the NOT of a mask into the addressed word atomically. -/
  | portClear (p : TileIx) (k : Fin 2)
  /-- PORT_READ_RETURN (R73): Read data reaches the port's return queue two cycles after the address was taken. -/
  | portReadReturn (p : TileIx) (k : Fin 2)
  /-- GET_WORK (R82): A tile's GET_WORK reaches its sector dispatcher and makes the tile a candidate. -/
  | getWork (p : TileIx)
  /-- GRANT (R82): A grant reaches the tile; it switches to a VALID slot or enters LOAD for a filling one. -/
  | grant (p : TileIx)
  /-- TILE_DRAINED (R84): The tile finishes draining and in the next cycle sends DONE and a new GET_WORK. -/
  | tileDrained (p : TileIx)
  /-- TILE_ABORT (R86): An abort reaches the tile, discards in-flight state and sends DONE with the abort code. -/
  | tileAbort (p : TileIx)
  /-- YIELD_REQUEST (R86): A yield reaches a running tile and waits to be accepted at a yield point. -/
  | yieldRequest (p : TileIx)
  /-- YIELD_ACCEPT (R158): Every enabled MAC unit reaches a yield point or halts, so the yield is accepted and the tile drains. -/
  | yieldAccept (p : TileIx)
  /-- HOLDOFF_EXPIRE (R159): A yield not accepted within the hold-off limit is withdrawn and MAC_UNIT_STICKY.HOLDOFF is set. -/
  | holdoffExpire (p : TileIx)
  /-- FILL_REQUEST (R111): A requester places a cache, store or refill request in a tile's fill queue. -/
  | fillRequest (p : TileIx)
  /-- FILL_START (R112): The fill unit starts the head request once it is free and R113 no longer refuses it. -/
  | fillStart (p : TileIx)
  /-- CACHE_FILL_COMPLETE (R114): A cache fill finishes its 32 rows and its CRC check, making the slot VALID or starting a repair. -/
  | cacheFillComplete (p : TileIx)
  /-- STORE_FILL_RESPONSE (R115): A 256-bit mesh response of a store fill arrives and its row is written; after the last, the CRC is checked. -/
  | storeFillResponse (p : TileIx)
  /-- CACHE_FRAME_WRITE_RESUME (R118): A mesh write to a cache frame that was the source of a running fill lands after the fill completes. -/
  | cacheFrameWriteResume (p : TileIx)
  /-- CTX_CTRL_FENCE_WRITE (R126): A write of CTX_CTRL.FENCE requests a fence, issuing a yield if needed, or releases the fence. -/
  | ctxCtrlFenceWrite (p : TileIx) (v : Bool)
  /-- FENCE_APPLY (R126): A requested tile fence takes effect in the cycle after the tile's DONE. -/
  | fenceApply (p : TileIx)
  /-- CTX_CTRL_ZEROIZE (R128): A write of CTX_CTRL.ZEROIZE to a fenced tile starts zeroization of all its state. -/
  | ctxCtrlZeroize (p : TileIx)
  /-- ZEROIZE_COMPLETE (R129): Zeroization finishes its read-back verify and reports pass or fail in ZRES. -/
  | zeroizeComplete (p : TileIx)
  /-- MAC_NOP (R143): The MAC unit issues a NOP; a reserved opcode also acts as NOP and sets BAD_CODE. -/
  | macNop (p : TileIx) (u : Fin 4)
  /-- MAC (R143): Each slice of SMASK adds or subtracts the product of two tap operands into ACC. -/
  | macMul (p : TileIx) (u : Fin 4)
  /-- MACK (R143): Each slice adds or subtracts a tap operand times its current coefficient. -/
  | mack (p : TileIx) (u : Fin 4)
  /-- FIRD (R143): Each slice multiplies a tap sample by its coefficient and shifts the sample one place up the delay line. -/
  | fird (p : TileIx) (u : Fin 4)
  /-- MAXA (R143): Each slice keeps the largest magnitude seen in ACC. -/
  | maxa (p : TileIx) (u : Fin 4)
  /-- LDA (R143): Each slice loads ACC from a tap word and clears WC. -/
  | lda (p : TileIx) (u : Fin 4)
  /-- IN (R146): The unit takes one word from its stream input and writes it to tap memory. -/
  | inWord (p : TileIx) (u : Fin 4)
  /-- OUT (R147): The unit forms one result word from slice stores in the chosen format. -/
  | outWord (p : TileIx) (u : Fin 4)
  /-- MAC_OUT_ENQUEUE (R147): An OUT word enters the unit's output queue two issue slots after the OUT, or later when the queue is full. -/
  | macOutEnqueue (p : TileIx) (u : Fin 4)
  /-- STT (R143): The unit schedules a 16-bit store of ACC with shift K to tap memory. -/
  | stt (p : TileIx) (u : Fin 4)
  /-- STT_TAP_WRITE (R152): The STT value is written in slot B two issue slots after the STT. -/
  | sttTapWrite (p : TileIx) (u : Fin 4)
  /-- NORM (R149): The unit sets SH of its slices to the shift that fits the largest magnitude into the target width. -/
  | norm (p : TileIx) (u : Fin 4)
  /-- SETP (R150): The unit loads a pointer, offset, coefficient index or SH register of each slice in SMASK. -/
  | setp (p : TileIx) (u : Fin 4)
  /-- REPT (R155): The unit starts a repeat block of LEN instructions run COUNT times, followed by an end slot. -/
  | rept (p : TileIx) (u : Fin 4)
  /-- JMP (R143): The unit sets PC to TARGET. -/
  | jmp (p : TileIx) (u : Fin 4)
  /-- HALT (R143): The unit stops issuing until the next switch. -/
  | haltUnit (p : TileIx) (u : Fin 4)
  /-- TAP_STEAL (R141): A mesh access that has waited 16 sector cycles takes slot B and stalls the whole unit for one cycle. -/
  | tapSteal (p : TileIx) (u : Fin 4) (r : MeshReq)
  /-- RING_ROW_WRITE (R166): A ring's full gather row is written to its bank in one access when the bank grants it. -/
  | ringRowWrite (p : TileIx) (r : RingRow)
  /-- RING_ROW_READ (R166): A ring reads its oldest bank row when the read rows have room and the bank grants it. -/
  | ringRowRead (p : TileIx) (k : Fin 4)
  /-- RING_ROW_ARRIVE (R167): A granted row read lands in the ring's read rows three cycles after the grant. -/
  | ringRowArrive (p : TileIx) (k : Fin 4)
  /-- DEQ_POP_READ (R173): A read of DEQ_POP_k pops the head word when it is served, or returns the last popped word on an underrun. -/
  | deqPopRead (p : TileIx) (k : Fin 4) (r : PopRead)
  /-- DEQ_GEOMETRY_APPLY (R164): A held new geometry takes effect in the first cycle in which the queue is empty. -/
  | deqGeometryApply (p : TileIx) (k : Fin 4)
  /-- BOUNDARY_WRITE_SYNC (R177): A word written to a boundary queue becomes visible to the reader after its pointer passes the synchroniser. -/
  | boundaryWriteSync (l : LinkIx)
  /-- BOUNDARY_CREDIT_SYNC (R177): A word read from a boundary queue returns its credit to the writer after the synchroniser lag. -/
  | boundaryCreditSync (l : LinkIx)
  /-- DISPATCHER_FLAG_SET (R189): A flag set from any source reaches the dispatcher and sets the named task's flag. -/
  | dispatcherFlagSet (n : SecIx)
  /-- TASK_READY (R194): At the start of a cycle an ARMED task whose flag condition holds becomes READY with a new seq. -/
  | taskReady (t : TaskIx)
  /-- DISPATCH_SELECT (R197): The dispatcher selects a READY task and a candidate tile of a partition, chooses a slot, consumes flags and sends a grant. -/
  | dispatchSelect (q : PartIx) (n : SecIx)
  /-- AHEAD_FILL (R201): With PREFETCH set, the dispatcher requests a fill ahead of a grant for a top-ranked task with no candidate tile. -/
  | aheadFill (q : PartIx) (n : SecIx)
  /-- DISPATCH_DONE (R205): A DONE reaches the dispatcher and moves its task by completion code, with NOTIFY and re-check. -/
  | dispatchDone (n : SecIx)
  /-- NOTIFY_ARRIVE (R192): A NOTIFY from another sector arrives over the notify link and sets the target flag. -/
  | notifyArrive (n : SecIx)
  /-- TIMER_FIRE (R191): An enabled dispatcher timer reaches PERIOD ticks and sets its target flag. -/
  | timerFire (n : SecIx) (t : Fin 16)
  /-- AGE_TICK (R203): The age counter wraps, raising AGE of every READY task and marking tasks urgent at URG_q. -/
  | ageTick (n : SecIx)
  /-- FLAGS_SET_WRITE (R187): A write to FLAGS_SET sets the flags named by its 1 bits. -/
  | flagsSetWrite (t : TaskIx) (w : Word)
  /-- LANE_CTRL_WRITE (R218): A write to LANE_CTRL that changes MODE, FEC, MACSEC, polarity or LOOP takes the lane down with RECONFIG and restarts it. -/
  | laneCtrlWrite (l : LaneIx) (w : Word)
  /-- LANE_SIGNAL_PRESENT (R222): Signal energy present for 1 µs moves the lane from WAIT_SIGNAL to LOCKING. -/
  | laneSignalPresent (l : LaneIx)
  /-- LANE_SIGNAL_LOST (R222): Signal energy absent for 2 µs returns the lane to WAIT_SIGNAL, recording LOS from UP. -/
  | laneSignalLost (l : LaneIx)
  /-- LANE_LOCKED (R222): Clock recovery locks and the lane moves from LOCKING to ALIGNING. -/
  | laneLocked (l : LaneIx)
  /-- LANE_UP (R222): Alignment completes, the lane enters UP and first restates any XOFF classes. -/
  | laneUp (l : LaneIx)
  /-- CDR_LOSS (R222): Loss of clock recovery takes an UP lane to LOCKING. -/
  | cdrLoss (l : LaneIx)
  /-- ALIGN_LOSS (R222): Loss of alignment takes an UP lane to ALIGNING. -/
  | alignLoss (l : LaneIx)
  /-- HI_BER (R222): The standard's high-BER condition takes an UP lane to ALIGNING. -/
  | hiBer (l : LaneIx)
  /-- REMOTE_FAULT (R222): The partner signals remote fault and the lane leaves UP for ALIGNING. -/
  | remoteFault (l : LaneIx)
  /-- REMOTE_FAULT_END (R222): The partner's remote-fault signalling ends and the lane returns to UP. -/
  | remoteFaultEnd (l : LaneIx)
  /-- MLF_DATA_RX (R231): A received MLF DATA frame is checked, sequenced against SEQ and placed in its stream's cells. -/
  | mlfDataRx (l : LaneIx) (f : RxFrame)
  /-- MLF_CREDIT_RX (R229): A received CREDIT frame applies its credit records to egress streams. -/
  | mlfCreditRx (l : LaneIx) (f : RxFrame)
  /-- MLF_CONTROL_RX (R227): A received CONTROL frame applies its control records in order. -/
  | mlfControlRx (l : LaneIx) (f : RxFrame)
  /-- MLF_COMMAND_RX (R351): A COMMAND frame from an in-band host delivers its command packets to their bound queues. -/
  | mlfCommandRx (l : LaneIx) (f : RxFrame)
  /-- ETH_FRAME_RX (R234): A plain Ethernet frame is classified to a stream and placed as one packet with a descriptor word. -/
  | ethFrameRx (l : LaneIx) (f : RxFrame)
  /-- PFC_FRAME_RX (R238): A received PFC frame pauses or releases egress classes. -/
  | pfcFrameRx (l : LaneIx) (f : RxFrame)
  /-- PAUSE_FRAME_RX (R236): A received IEEE 802.3 PAUSE frame is ignored and counted in RX_OTHER. -/
  | pauseFrameRx (l : LaneIx) (f : RxFrame)
  /-- PFC_PAUSE_EXPIRE (R238): A received pause timer runs out and its class is released. -/
  | pfcPauseExpire (l : LaneIx) (c : Fin 8)
  /-- PFC_XOFF_TX (R237): Occupancy of a class reaching XOFF_c sends a PFC frame pausing that class. -/
  | pfcXoffTx (l : LaneIx) (c : Fin 8)
  /-- PFC_REPEAT_TX (R237): While occupancy stays at or above XON_c, the PFC pause is repeated every QUANTA / 2 quanta. -/
  | pfcRepeatTx (l : LaneIx) (c : Fin 8)
  /-- PFC_XON_TX (R237): Occupancy falling below XON_c sends a PFC frame with time 0 for the class. -/
  | pfcXonTx (l : LaneIx) (c : Fin 8)
  /-- EDGE_EGRESS_PACKET (R261): A whole packet gathered from an edge port in an assembly buffer is bound to its egress stream or discarded. -/
  | edgeEgressPacket (e : Fin 128)
  /-- DATA_FRAME_TX (R226): A lane starts a ready data frame in priority and round-robin order once credits and pauses allow. -/
  | dataFrameTx (l : LaneIx)
  /-- CREDIT_FRAME_TX (R229): An advanced ingress credit total not piggybacked within 500 ns, or reaching 16,384 cells, is sent in a CREDIT frame. -/
  | creditFrameTx (l : LaneIx)
  /-- CREDIT_REPEAT (R229): The total of each ingress stream with outstanding credit is repeated each HB_PERIOD. -/
  | creditRepeat (k : StreamIx)
  /-- HEARTBEAT_TX (R232): An UP MLF lane that has sent nothing for HB_PERIOD sends a HEARTBEAT. -/
  | heartbeatTx (l : LaneIx)
  /-- SEQ_SYNC_TX (R228): HB_PERIOD after an egress stream's last DATA frame, the device sends SEQ_SYNC. -/
  | seqSyncTx (k : StreamIx)
  /-- PARTNER_SILENT (R232): No valid MLF frame for 4 × HB_PERIOD sets PARTNER_SILENT. -/
  | partnerSilent (l : LaneIx)
  /-- INBAND_REPLY_TX (R351): Gathered replies and events of an in-band queue are sent in a COMMAND frame within 2 µs. -/
  | inbandReplyTx (q : Fin 192)
  /-- TIME_NS_READ (R239): A read of TIME_NS returns nanoseconds and latches the seconds registers. -/
  | timeNsRead
  /-- TIME_ADJ_WRITE (R239): A write of TIME_ADJ adds signed nanoseconds to the counter at the next TIME cycle. -/
  | timeAdjWrite (w : Word)
  /-- LOAD_SEC_HI_WRITE (R239): A write of LOAD_SEC_HI loads the staged time into the counter at the next TIME cycle. -/
  | loadSecHiWrite (w : Word)
  /-- PPS_EDGE (R239): A rising edge of PPS_IN captures the counter and sends a PPS event. -/
  | ppsEdge
  /-- PPS_STATUS_READ (R239): A read of PPS_STATUS returns and clears the new-edge bit. -/
  | ppsStatusRead
  /-- TIME_PLL_LOCK (R240): The TIME PLL locks, the counter starts, pending TIME_SET operations apply and the tick source moves to TIME. -/
  | timePllLock
  /-- TIME_PLL_LOSS (R240): Loss of TIME_REF clears LOCKED, holds the counter and moves the tick to the CTRL divider. -/
  | timePllLoss
  /-- CARAFE_SPILL_WRITE (R273): The line block writes a staged cell to its Carafe position in DRAM. -/
  | carafeSpillWrite (k : StreamIx)
  /-- CARAFE_SPILL_DONE (R273): A spill write completes and its staged line-buffer cell is freed. -/
  | carafeSpillDone (k : StreamIx)
  /-- CARAFE_REFILL_READ (R273): The line block reads the next Carafe position into a free cell while room and quota allow, setting DRAIN. -/
  | carafeRefillRead (k : StreamIx)
  /-- CARAFE_REFILL_DONE (R273): A refill read completes, spos advances in order and DRAIN clears when the Carafe is empty. -/
  | carafeRefillDone (k : StreamIx)
  /-- CREDIT_ENGINE_VISIT (R264): The credit engine visits an MLF ingress stream and grants every cell that R263 allows. -/
  | creditEngineVisit (k : StreamIx)
  /-- EDGE_INJECT_PACKET (R258): The edge injector pushes a visible packet of an ingress stream into its edge port. -/
  | edgeInjectPacket (k : StreamIx)
  /-- BYPASS_FRAME (R262): The bypass switch frames a whole visible packet toward the target egress stream's lane. -/
  | bypassFrame (k : StreamIx)
  /-- REQUEST_TRANSLATE_RETRY (R46): A request waiting at translation on a MIGRATING tile retries once MIGRATING clears. -/
  | requestTranslateRetry (r : Recip)
  /-- TAG_GRANT (R292): A freed tag goes to a waiting requester of the partition, and its request enters the mesh. -/
  | tagGrant (q : Recip)
  /-- MESH_FLIT_FORWARD (R288): A router output sends one flit of the slot owner's VCs, responses first and round robin among inputs; the link flips the bits of it that the operand names (data bits 0 to 255, then sideband bits 0 to 17). -/
  | meshFlitForward (r : Fin 64) (o : Fin 8) (flips : List (Fin 274))
  /-- MESH_CREDIT_RETURN (R287): A VC credit returns to the upstream sender after a flit leaves the buffer. -/
  | meshCreditReturn (r : Fin 64) (a : Fin 8) (v : Fin 34)
  /-- MESH_RD (R286): A RD request reaches its target, which reads LEN bytes and answers RD_RSP. -/
  | meshRd (r : MeshReq)
  /-- MESH_WR (R286): A WR request reaches its target, which writes the data and answers ACK. -/
  | meshWr (r : MeshReq) (portA : List (Fin 65))
  /-- ALIAS_BIT_SET (R310): A WR through the bit-set alias ORs each byte into the target atomically per word or line. -/
  | aliasBitSet (r : MeshReq)
  /-- ALIAS_BIT_CLEAR (R310): A WR through the bit-clear alias ANDs NOT of each byte into the target atomically. -/
  | aliasBitClear (r : MeshReq)
  /-- ATOM_SWAP (R312): An ATOM SWAP writes OPA and returns the old value. -/
  | atomSwap (r : MeshReq)
  /-- ATOM_CAS (R312): An ATOM CAS writes OPB when the old value equals OPA and returns the old value. -/
  | atomCas (r : MeshReq)
  /-- ATOM_FADD (R312): An ATOM FADD adds OPA modulo its width and returns the old value. -/
  | atomFadd (r : MeshReq)
  /-- ATOM_FOR (R312): An ATOM FOR ORs OPA into the value and returns the old value. -/
  | atomFor (r : MeshReq)
  /-- ATOM_FAND (R312): An ATOM FAND ANDs OPA into the value and returns the old value. -/
  | atomFand (r : MeshReq)
  /-- ATOM_FXOR (R312): An ATOM FXOR XORs OPA into the value and returns the old value. -/
  | atomFxor (r : MeshReq)
  /-- ATOM_UMIN (R312): An ATOM UMIN stores the unsigned smaller of old and OPA. -/
  | atomUmin (r : MeshReq)
  /-- ATOM_UMAX (R312): An ATOM UMAX stores the unsigned larger of old and OPA. -/
  | atomUmax (r : MeshReq)
  /-- MESH_CMD (R290): A CMD packet reaches Barista and is taken into the partition's buffer or answered QUEUE_FULL. -/
  | meshCmd
  /-- MESH_EVT (R290): An EVT packet reaches Barista and is taken into its queue. -/
  | meshEvt (r : MeshReq)
  /-- MESH_RPL (R339): An RPL packet from Barista reaches a host port or line block for delivery. -/
  | meshRpl
  /-- MESH_RESPONSE (R293): An RD_RSP or ACK reaches its requester, which frees the tag or discards a stale-epoch response. -/
  | meshResponse
  /-- PROXY_PASS_HELD (R294): A request held by a fence proxy is passed once its sector is back in Brew. -/
  | proxyPassHeld (r : Fin 64) (a : Fin 8) (v : Fin 34)
  /-- RT_CTRL_APPLY (R295): A write of RT_CTRL.APPLY starts a drain that withholds new heads of affected partitions. -/
  | rtCtrlApply (r : Fin 64)
  /-- ROUTER_REOPEN (R295): Once no affected flit remains, the next slot table and VC enables become active and the router reopens. -/
  | routerReopen (r : Fin 64)
  /-- SYSTEM_REQUEST_REISSUE (R441): A system-partition transaction lost to sideband parity is re-issued after 50 µs without a response. -/
  | systemRequestReissue
  /-- DRAM_SLOT (R319): In each slot the controller issues the oldest ready request of the slot's owner and direction, with sealed checks. -/
  | dramSlot (c : Fin 12)
  /-- DRAM_READ_DATA (R320): A DRAM read's data returns to the mesh interface after decode and decryption. -/
  | dramReadData (c : Fin 12)
  /-- DRAM_REFRESH (R318): The refresh window of each frame refreshes one bank of every rank. -/
  | dramRefresh (c : Fin 12)
  /-- DC_APPLY_WRITE (R332): A write of DC_APPLY schedules the slot table to apply at the next frame boundary. -/
  | dcApplyWrite (c : Fin 12)
  /-- SLOT_TABLE_APPLY (R332): At a frame boundary SLOT_NEXT moves into the active slot table, or BAD_CONFIG is set. -/
  | slotTableApply (c : Fin 12)
  /-- BANK_OWNER_WRITE (R332): A write of BANK_OWNER_b waits for accepted requests to the region to complete. -/
  | bankOwnerWrite (c : Fin 12) (b : Fin 16) (w : Word)
  /-- BANK_OWNER_APPLY (R332): The new bank owner and SEALED take effect once earlier requests to the region complete. -/
  | bankOwnerApply (c : Fin 12) (b : Fin 16)
  /-- SEALED_INIT (R330): A region newly sealed initialises its counter lines in the owner's write slots while INIT_BUSY reads 1. -/
  | sealedInit (c : Fin 12) (b : Fin 16)
  /-- SEALED_INIT_DONE (R330): Metadata initialisation finishes and waiting requests to the region proceed. -/
  | sealedInitDone (c : Fin 12) (b : Fin 16)
  /-- DRAM_CALIBRATION_DONE (R315): A controller finishes initialising its parts and calibration, ending READY or FAILED. -/
  | dramCalibrationDone (c : Fin 12) (ok : Bool)
  /-- SQ_TAIL_WRITE (R338): A write of a submission doorbell is accepted as the new tail or faults the queue. -/
  | sqTailWrite (n : Fin 4) (m : Fin 64) (b : Doorbell)
  /-- CQ_HEAD_WRITE (R338): A write of a completion doorbell is accepted as the new head or faults the queue. -/
  | cqHeadWrite (n : Fin 4) (m : Fin 64) (b : Doorbell)
  /-- Q_CTRL_WRITE (R337): A write of Q_CTRL.EN opens the queue, or faults it at enable, or stops its fetching. -/
  | qCtrlWrite (n : Fin 4) (m : Fin 64) (w : Word)
  /-- QUEUE_DISABLE_DONE (R337): After EN = 0, the last fetched command completes and ACTIVE becomes 0. -/
  | queueDisableDone (n : Fin 4) (m : Fin 64)
  /-- COMMAND_FETCH (R339): A host port reads up to 8 submission entries and advances SQ_HEAD. -/
  | commandFetch (n : Fin 4) (m : Fin 64)
  /-- COMPLETION_WRITE (R339): A reply or event is written at CQ_TAIL with its phase bit once the ring has room. -/
  | completionWrite (n : Fin 4) (m : Fin 64) (err : Bool)
  /-- PERST_ASSERT (R340): Assertion of PERST_N deactivates the port's queues and returns BAR0 to reset values. -/
  | perstAssert (n : Fin 4)
  /-- HOST_LINK_DOWN (R340): The port's PCI Express link goes down with the same effect as PERST_N. -/
  | hostLinkDown (n : Fin 4)
  /-- PERST_DEASSERT (R491): Release of PERST_N lets the port start link training once its width is known. -/
  | perstDeassert (n : Fin 4)
  /-- BARISTA_SLICE_END (R347): A Barista slice ends and the core saves state and switches to the next slice's owner. -/
  | baristaSliceEnd (c : Fin 4)
  /-- SMBUS_COMMAND_WRITE (R352): An SMBus block write with code 0x10 submits one 64-byte command. -/
  | smbusCommandWrite (a : BitVec 7) (data : List Byte) (pec : Bool)
  /-- SMBUS_REPLY_READ (R352): An SMBus block read with code 0x11 returns the oldest waiting reply or event. -/
  | smbusReplyRead (a : BitVec 7)
  /-- SMBUS_STATUS_READ (R352): An SMBus read with code 0x12 returns boot status, READY and waiting counts. -/
  | smbusStatusRead (a : BitVec 7)
  /-- SMBUS_CLOCK_TIMEOUT (R534): The device releases the SMBus after the clock has been low for 25 to 35 ms. -/
  | smbusClockTimeout
  /-- EVENT_DELIVER (R354): A waiting event is delivered to its subscribed completion ring once the ring has room. -/
  | eventDeliver (r : Recip)
  /-- UNKNOWN_OPCODE (R357): A command with an unlisted opcode is answered UNKNOWN_OPCODE. -/
  | unknownOpcode (r : Recip)
  /-- NOP (R361): NOP does nothing and replies OK. -/
  | nop (r : Recip)
  /-- IDENTIFY (R361): IDENTIFY returns family, part, stepping, firmware version and active slot. -/
  | identify (r : Recip)
  /-- GET_STATUS (R362): GET_STATUS returns boot status, readiness, partition state and the caller's counts. -/
  | getStatus (r : Recip)
  /-- READ_TELEMETRY (R363): READ_TELEMETRY returns a sensor's value, minimum and maximum and resets the extremes. -/
  | readTelemetry (r : Recip)
  /-- PART_CREATE (R364): PART_CREATE brings partition q into existence with fresh keys and no resources. -/
  | partCreate (r : Recip)
  /-- PART_GRANT (R365): PART_GRANT adds a kind of resource to partition q or sets its quota. -/
  | partGrant (r : Recip)
  /-- PART_REVOKE (R365): PART_REVOKE removes a kind of resource from partition q or sets its quota. -/
  | partRevoke (r : Recip)
  /-- PART_DESTROY (R367): PART_DESTROY ends q's commands and dispatches, closes its streams, unloads, revokes everything and erases its keys. -/
  | partDestroy (r : Recip)
  /-- PART_QUERY (R368): PART_QUERY writes a description of q's holding of one resource kind. -/
  | partQuery (r : Recip)
  /-- OWNER_ENROLL (R418): OWNER_ENROLL verifies a signed request, writes a signed response and installs the role's session. -/
  | ownerEnroll (r : Recip)
  /-- LANE_CONFIG (R370): LANE_CONFIG writes one page of a lane's registers. -/
  | laneConfig (r : Recip)
  /-- LANE_STATE (R371): LANE_STATE returns a lane's status, sticky bits and counters to a permitted caller. -/
  | laneState (r : Recip)
  /-- PARTNER_DEFINE (R372): PARTNER_DEFINE writes a partner entry and binds lanes to it. -/
  | partnerDefine (r : Recip)
  /-- DRAM_DESCRIBE (R373): DRAM_DESCRIBE checks a description block and starts initialisation and calibration of every channel. -/
  | dramDescribe (r : Recip)
  /-- ENV_SET (R374): ENV_SET sets TJ_MAX, TJ_WARN and the airflow class. -/
  | envSet (r : Recip)
  /-- TIME_SET (R375): TIME_SET loads, adjusts or re-rates the time counter, or holds the operation pending until lock. -/
  | timeSet (r : Recip)
  /-- MEM_WRITE (R376): MEM_WRITE writes a range through translation as ascending mesh writes. -/
  | memWrite (r : Recip)
  /-- MEM_READ (R376): MEM_READ reads a range, reporting where poison was met. -/
  | memRead (r : Recip)
  /-- MEM_FILL (R376): MEM_FILL writes a repeated pattern over a range. -/
  | memFill (r : Recip)
  /-- MEM_ATOMIC (R377): MEM_ATOMIC performs one ATOM and returns the old value. -/
  | memAtomic (r : Recip)
  /-- PERS_LOAD (R379): PERS_LOAD verifies an image and writes its contexts, task entries, SIGMAP and essential-bit map. -/
  | persLoad (r : Recip)
  /-- PERS_UNLOAD (R380): PERS_UNLOAD frees a personality's tasks, pins, SIGMAP entries, frames and store area. -/
  | persUnload (r : Recip)
  /-- CTX_PIN (R381): CTX_PIN pins a context into a hot slot and fills it, or unpins the slot. -/
  | ctxPin (r : Recip)
  /-- GRAPH_START (R382): GRAPH_START releases a personality's tile fences and arms its tasks. -/
  | graphStart (r : Recip)
  /-- GRAPH_STOP (R383): GRAPH_STOP cancels a personality's tasks, stops its streams, fences its tiles and discards their held words. -/
  | graphStop (r : Recip)
  /-- STREAM_OPEN (R250): STREAM_OPEN checks and opens a stream with its path, sizes, task and Carafe. -/
  | streamOpen (r : Recip)
  /-- STREAM_CLOSE (R276): STREAM_CLOSE stops a stream, frees its cells and reservations and makes it CLOSED. -/
  | streamClose (r : Recip)
  /-- STREAM_CLASSIFY (R386): STREAM_CLASSIFY writes or invalidates a classifier rule of the caller. -/
  | streamClassify (r : Recip)
  /-- STREAM_CREDIT_SET (R264): STREAM_CREDIT_SET changes CRED_LIMIT of an MLF ingress stream. -/
  | streamCreditSet (r : Recip)
  /-- MARK_SET (R269): MARK_SET moves the mark to rpos or keeps it, and makes it valid. -/
  | markSet (r : Recip)
  /-- MARK_ADVANCE (R269): MARK_ADVANCE moves the mark forward by n cells or to rpos, releasing cells. -/
  | markAdvance (r : Recip)
  /-- STREAM_REPLAY (R272): STREAM_REPLAY restarts a STOPPED stream from its mark or its current packet. -/
  | streamReplay (r : Recip)
  /-- STREAM_STATS (R385): STREAM_STATS writes a stream's counters and positions and may clear its sticky bits. -/
  | streamStats (r : Recip)
  /-- TASK_ARM (R207): TASK_ARM moves an IDLE or CANCELLED task to ARMED. -/
  | taskArm (r : Recip)
  /-- TASK_CANCEL (R207): TASK_CANCEL cancels a task, yielding a running one and completing when it is CANCELLED. -/
  | taskCancel (r : Recip)
  /-- TASK_SIGNAL (R207): TASK_SIGNAL sets the named flags of a task. -/
  | taskSignal (r : Recip)
  /-- TASK_QUERY (R387): TASK_QUERY returns a task's status, flags and grant count. -/
  | taskQuery (r : Recip)
  /-- AGING_SET (R388): AGING_SET writes URG_q in every dispatcher. -/
  | agingSet (r : Recip)
  /-- LATENCY_TOLERANCE_SET (R389): LATENCY_TOLERANCE_SET sets q's wake tolerance and hold-off limit. -/
  | latencyToleranceSet (r : Recip)
  /-- POWER_QUERY (R390): POWER_QUERY returns a partition's tolerance or a sector's power state, clock, supply and power. -/
  | powerQuery (r : Recip)
  /-- POWER_CAP_SET (R391): POWER_CAP_SET sets the device power cap. -/
  | powerCapSet (r : Recip)
  /-- SCRUB_RANGE (R454): SCRUB_RANGE reads a range through the check code, writes back corrections, poisons uncorrectable data and writes a summary. -/
  | scrubRange (r : Recip)
  /-- PERCOLATOR_CONTROL (R393): PERCOLATOR_CONTROL reloads Percolator from ROM or reports its status. -/
  | percolatorControl (r : Recip)
  /-- CUPPING_CONTROL (R394): CUPPING_CONTROL enables Cupping and sets its period, or reports its status. -/
  | cuppingControl (r : Recip)
  /-- FAULT_LOG_READ (R395): FAULT_LOG_READ writes the fault-log entries the caller may see. -/
  | faultLogRead (r : Recip)
  /-- FAULT_INJECT (R396): FAULT_INJECT flips bits, poisons data, upsets a frame or latch, or raises a partition fault. -/
  | faultInject (r : Recip)
  /-- ATTEST (R426): ATTEST writes a signed report of the device and the caller's partition, with certificates. -/
  | attest (r : Recip)
  /-- KEY_LOAD (R398): KEY_LOAD unwraps and installs one MACsec association on a lane. -/
  | keyLoad (r : Recip)
  /-- KEY_DESTROY (R399): KEY_DESTROY erases one installed MACsec association. -/
  | keyDestroy (r : Recip)
  /-- SESSION_REKEY (R421): SESSION_REKEY derives new session keys from a signed request and restarts LAST and RSEQ. -/
  | sessionRekey (r : Recip)
  /-- DEBUG_UNLOCK (R439): DEBUG_UNLOCK verifies a token, destroys every partition, erases keys and opens debug access. -/
  | debugUnlock (r : Recip)
  /-- FW_UPDATE_STAGE (R509): FW_UPDATE_STAGE checks an image and writes it into an inactive flash slot. -/
  | fwUpdateStage (r : Recip)
  /-- FW_ACTIVATE (R510): FW_ACTIVATE writes a boot control copy preferring the slot and resets into it. -/
  | fwActivate (r : Recip)
  /-- EVENT_SUBSCRIBE (R404): EVENT_SUBSCRIBE routes an event code to a completion ring, or removes the route. -/
  | eventSubscribe (r : Recip)
  /-- EVENT_ACK (R405): EVENT_ACK frees delivered events up to an ESEQ. -/
  | eventAck (r : Recip)
  /-- SECURE_SLOT_END (R430): A security-engine slot ends; the bank's operation pauses and the next bank's slot begins. -/
  | secureSlotEnd
  /-- PARTITION_FAULT (R442): A partition fault quiesces q: epoch advance, aborts, fences, stopped streams, cleared flags and a fault event. -/
  | partitionFault (q : PartIx)
  /-- RECOVERY_CHECK (R442): Recovery discards q's held words, checks its frames, restores task entries and waits for its tags. -/
  | recoveryCheck (q : PartIx)
  /-- RECOVERY_REFILL (R442): Recovery refills every damaged or named frame from its golden copy. -/
  | recoveryRefill (q : PartIx)
  /-- RECOVERY_RESUME (R444): Recovery resets task states, releases fences and returns q to its earlier state with a RESUMED event. -/
  | recoveryResume (q : PartIx)
  /-- PERCOLATOR_FRAME_CHECK (R448): Percolator checks a frame's CRC and raises an essential fault or a silent repair. -/
  | percolatorFrameCheck
  /-- PERCOLATOR_REPAIR (R448): After reading the golden copy, Percolator rewrites the upset words in place. -/
  | percolatorRepair
  /-- PERCOLATOR_LATCH_VOTE (R449): Every microsecond Percolator compares its latch copies, rewriting one odd copy or halting. -/
  | percolatorLatchVote (rom : Bool)
  /-- CUPPING_STEP (R450): A sector's Cupping step starts the test of its spare tile, or is skipped if the sector is not in Brew. -/
  | cuppingStep (n : SecIx)
  /-- SPARE_TEST_DONE (R450): The spare's test ends; a pass starts migration of the next candidate, a fail marks the spare failed. -/
  | spareTestDone (n : SecIx) (ok : Bool)
  /-- CUPPING_MIGRATION (R451): After the candidate yields, Cupping fences it, sets MIGRATING and copies its state onto the spare. -/
  | cuppingMigration (n : SecIx)
  /-- MIGRATION_DONE (R451): The copy completes, LOGICAL fields swap, steering switches and the fence is released. -/
  | migrationDone (n : SecIx)
  /-- TILE_FAULT (R453): A hard-failed tile is replaced by the sector's spare during recovery of its owner. -/
  | tileFault
  /-- SECTOR_POWER_CHOOSE (R469): After 100 µs idle, the power manager chooses a deeper state and the sector fences and gates its clock into Steep. -/
  | sectorPowerChoose (n : SecIx)
  /-- POINT_OF_NO_RETURN (R473): With no tags held and nothing pending, the proxies answer, isolation engages and the PLL stops. -/
  | pointOfNoReturn (n : SecIx)
  /-- SLEEP_STATE_REACHED (R473): The LDO reaches its Cool or Cold target and the sector is in that state. -/
  | sleepStateReached (n : SecIx)
  /-- WAKE_REQUEST (R472): A wake source reaches the sector's wake controller and starts a wake. -/
  | wakeRequest (n : SecIx)
  /-- STEEP_WAKE_DONE (R466): 40 ns after a wake from Steep the fence is released, proxies pass and the flag inbox is applied. -/
  | steepWakeDone (n : SecIx)
  /-- DEEP_WAKE_DONE (R466): A wake from Cool or Cold completes its phases, Cold refills included, and the sector is in Brew. -/
  | deepWakeDone (n : SecIx) (late : Bool)
  /-- TIMER_WAKE (R471): The power manager starts a sector's wake in time for an enabled timer to fire in Brew. -/
  | timerWake (n : SecIx)
  /-- SEC_FORCE_WRITE (R474): A write of SEC_FORCE.AWAKE holds the sector in Brew, waking it if needed. -/
  | secForceWrite (n : SecIx) (w : Word)
  /-- CLOCK_STEP (R477): A sector's clock moves one 25 MHz step toward its ceiling, with the LDO moved first when raising. -/
  | clockStep (n : SecIx)
  /-- POWER_CAP_UPDATE (R480): Every 10 µs the power manager moves the ceiling P against the cap. -/
  | powerCapUpdate (watts : BitVec 32) (sectors : List (BitVec 32))
  /-- THERMAL_UPDATE (R481): Every 10 µs the thermal ceiling of each awake sector moves by temperature and neighbour difference. -/
  | thermalUpdate (temps : List (BitVec 16))
  /-- CRITICAL_ALARM (R482): A sensor at TJ_MAX + 5 °C for 100 µs drops every ceiling to 400 MHz and asserts FAULT_N. -/
  | criticalAlarm
  /-- CRITICAL_CLEAR (R482): Once every sensor reads TJ_MAX − 3 °C or less, FAULT_N is released and thermal control resumes. -/
  | criticalClear
  /-- DEVICE_RESET (R488): Power-on, SYS_RST_N, FW_ACTIVATE or a rail out of range resets the device. -/
  | deviceReset
  /-- SUPPLY_MONITOR_TRIP (R523): A rail beyond its threshold for 2 µs trips the monitor and holds device reset. -/
  | supplyMonitorTrip
  /-- BOOT_STAGE (R489): A boot stage completes and the boot ROM runs the next stage of Table 16-1. -/
  | bootStage (e : BootIn)
  /-- TAP_RESET (R535): TRST_N low or five TCK cycles with TMS high reset the test access port. -/
  | tapReset
  /-- JTAG_BYPASS (R535): The BYPASS instruction selects the one-bit bypass register. -/
  | jtagBypass (bits : List Bool)
  /-- JTAG_IDCODE (R535): The IDCODE instruction shifts out the device identification code. -/
  | jtagIdcode
  /-- JTAG_SAMPLE_PRELOAD (R535): SAMPLE/PRELOAD captures and loads the boundary register. -/
  | jtagSamplePreload (pins : List Bool) (load : List Bool)
  /-- JTAG_EXTEST (R535): EXTEST drives the balls from the boundary register. -/
  | jtagExtest (pins : List Bool) (load : List Bool)
  /-- JTAG_EXTEST_PULSE (R535): EXTEST_PULSE tests AC-coupled lane and host pairs by IEEE 1149.6. -/
  | jtagExtestPulse (pins : List Bool) (load : List Bool)
  /-- JTAG_EXTEST_TRAIN (R535): EXTEST_TRAIN tests AC-coupled pairs with a pulse train by IEEE 1149.6. -/
  | jtagExtestTrain (pins : List Bool) (load : List Bool)
  /-- JTAG_PRIVATE (R535): A private test instruction acts only while TAP_OPEN is 1 and otherwise acts as BYPASS. -/
  | jtagPrivate (bits : List Bool)
  /-- REGISTER_WRITE (R14): A write to a register without behaviour of its own stores or clears bits per its access code, or is discarded and logged. -/
  | registerWrite (bar : Option (Fin 4)) (a : BitVec 48) (w : Word)
  /-- COMMAND_TIMEOUT (R357): A command that reaches its opcode's time limit ends with TIMEOUT and the effect its entry gives. -/
  | commandTimeout (r : Recip) (k : Fin 4096)
  /-- RESET_RELEASE (R488): Device reset is released once every rail has been in range for 1 ms and SYS_RST_N is high, straps are sampled and boot stage 0 begins. -/
  | resetRelease (b : BoardIn)
  /-- UPSET (R98): A stored bit in SRAM, DRAM or Percolator's configuration latches flips of itself and acts until a check code, Percolator or a fill finds it. -/
  | upset (u : UpsetAt)
  /-- FRAME_SENT_WHOLE (R262): A frame's last bit leaves the lane, counting TX_FRAMES and SENT_FRAMES and letting rpos pass a bypass packet's cells. -/
  | frameSentWhole (l : LaneIx)
  /-- EQ_LIMIT (R220): Continuous receiver adaptation asks for a value beyond a window edge, holds the element at the edge and sets LANE_STICKY.EQ_LIMIT. -/
  | eqLimit (l : LaneIx) (e : Fin 10) (up : Bool)
  /-- FEC_CODEWORD (R212): A received FEC codeword is corrected or found uncorrectable, counting FEC_CORR_CW or FEC_UNCORR_CW and setting FEC_UNCORR. -/
  | fecCodeword (l : LaneIx) (ok : Bool)
  /-- HOST_READ_COMPLETION (R339): Host memory returns the data of a fetch or a SPACE 0 payload read, or a PCI Express error, and SQ_HEAD advances or the queue faults with FCODE 5. -/
  | hostReadCompletion (n : Fin 4) (k : Fin 256) (data : List Byte) (err : Bool)
  /-- SMBUS_ALERT_RESPONSE (R352): A read of the SMBus Alert Response Address while a reply or event waits returns the device's address. -/
  | smbusAlertResponse
  deriving DecidableEq, Repr

end Sys2Proof
end

