-- ==== Sys2Proof/Decode.lean ====
section
/-!
DEFINITION. Decode.lean: the table of operations gives no row any bits, since the block has no instruction words: its
commands come from outside and from its own engines. So no word spells a command.
-/
namespace Sys2Proof

/-- The command a word of the table's bits spells: none, since spec/opcode_table.json gives no row any bits. -/
def decodeTableWord (_nbits _w : Nat) : Option Instr := none

end Sys2Proof
end

