-- ==== Sys2Proof/Config.lean ====
section
/-!
DEFINITION. Config.lean: what the specification leaves open: free values (opaque, no body) and the cryptographic and
random functions it names without giving their values. Nothing here can be evaluated, so no statement can rest on a value.
-/
namespace Sys2Proof.Config

/-- The n-th value drawn from the device's random number generator, or any other value the specification leaves
undefined at the n-th place the model needs one. -/
opaque free (n : Nat) : Nat

/-- The byte stored at a DRAM address that nothing has written since calibration (R315), as it lies there, encrypted. -/
opaque dramByte (addr : Nat) : Byte

/-- The write of a command's output to host memory, at the n-th place where a value is open, meets a PCI Express error (R359). -/
opaque hostWriteFails (n : Nat) : Bool

/-- The read-back of a boot control copy, at the n-th place where a value is open, fails (R510). -/
opaque flashReadFails (n : Nat) : Bool

/-- A byte of a record of Barista or of the mesh whose layout the specification does not give (R291, R346): the address, and
what the record is about. -/
opaque recordByte (addr : Nat) (about : List Nat) : Byte

/-! ## Cryptographic functions that the specification names by their standards (R321, R325, R343, R415). -/

/-- AES-256 of one block, and its inverse (R321, R325), under the keys of a number: use 0 the data key of the XTS pair, 1 its
tweak key, 2 the MAC key. The first byte of a block is its most significant. -/
opaque aes (use key : Nat) (block : BitVec 128) : BitVec 128
opaque aesInv (use key : Nat) (block : BitVec 128) : BitVec 128
/-- AES-256-GMAC: key, IV, authenticated data. -/
opaque gmac (key iv data : List Byte) : List Byte
/-- AES-256-GCM decryption: key, IV, authenticated data, ciphertext, tag; `none`: the tag fails. -/
opaque gcmOpen (key iv aad text tag : List Byte) : Option (List Byte)
/-- AES-256-GCM encryption: byte i of the ciphertext and the tag that follows it, from key, IV, authenticated data, text. -/
opaque gcmSealByte (key iv aad text : List Byte) (i : Nat) : Byte
/-- SHA-384. -/
opaque sha384 (m : List Byte) : List Byte
/-- HKDF-Extract and HKDF-Expand with SHA-384. -/
opaque hkdfExtract (salt ikm : List Byte) : List Byte
opaque hkdfExpand (prk info : List Byte) (len : Nat) : List Byte
/-- P-384: the scalar of a seed, its public key, the validity of a key, ECDH, ECDSA with the n-th random nonce. -/
opaque ecScalar (seed : List Byte) : List Byte
opaque ecPublic (scalar : List Byte) : List Byte
opaque ecValid (pub : List Byte) : Bool
opaque ecdh (scalar pub : List Byte) : List Byte
opaque ecdsaSign (scalar m : List Byte) (n : Nat) : List Byte
opaque ecdsaVerify (pub m sig : List Byte) : Bool
/-- ML-DSA-65. -/
opaque pqPublic (seed : List Byte) : List Byte
opaque pqValid (pub : List Byte) : Bool
opaque pqSign (seed m : List Byte) (n : Nat) : List Byte
opaque pqVerify (pub m sig : List Byte) : Bool
/-- ML-KEM-768: encapsulation key of a seed, its validity, encapsulation with the n-th random value (ciphertext and
shared secret), decapsulation. -/
opaque kemPublic (seed : List Byte) : List Byte
opaque kemValid (ek : List Byte) : Bool
opaque kemEncaps (ek : List Byte) (n : Nat) : List Byte × List Byte
opaque kemDecaps (seed ct : List Byte) : List Byte
/-- LMS verification with the parameter sets of R497. -/
opaque lmsVerify (pub m sig : List Byte) : Bool

/-! ## What one device has and the specification does not give: its fuses and masks. -/

/-- Byte i of SERIAL, and of the unique device secret (R412). -/
opaque serialByte (i : Nat) : Byte
opaque udsByte (i : Nat) : Byte
/-- STEPPING, 0 to 15. -/
opaque steppingCode : Nat
/-- FIRMWARE_KEY (R500), the measurement of the boot ROM, and the hashes of the keys it holds (R438, R497). -/
opaque firmwareKey : List Byte
opaque romHash : List Byte
opaque vendorEcHash : List Byte
opaque vendorLmsHash : List Byte
opaque debugEcHash : List Byte
opaque debugPqHash : List Byte

end Sys2Proof.Config
end

