-- ==== Sys2Proof/Machine/StateArray.lean ====
section
/-!
DEFINITION. Machine/StateArray.lean: the state of the array (chapters 02 to 06): links, tiles with their function
units, MAC units, dequeue endpoints, contexts and fills, and the eight dispatchers with their task entries.
Plain data only. The reset value of every field is its default value here.
-/
namespace Sys2Proof.Machine

/-- A link word that is present (R50, Table 02-2); an absent word is `none` wherever one could stand. -/
structure LinkWord where
  data : Word := 0
  last : Bool := false
  poison : Bool := false
  deriving DecidableEq, Repr

/-- One directed link, with the register or boundary queue at its receiving end (R54, R176).
`spent` counts the sender's credits that are out; it is 0 at reset, when the sender holds all of them. -/
structure Link where
  /-- sent, not yet landed (or not yet through the write synchroniser of a boundary queue), oldest first -/
  flight : List LinkWord := []
  /-- held at the receiver, oldest first -/
  held : List LinkWord := []
  /-- credits on their way back to the sender -/
  credBack : Nat := 0
  /-- credits the sender has spent and not got back -/
  spent : Nat := 0
  deriving DecidableEq, Repr

/-- One ALU: its CRC state, result register and operations in flight (R64, R65). -/
structure Alu where
  crc : Word := 0xFFFFFFFF#32
  result : Option LinkWord := none
  flight : List LinkWord := []
  /-- CRCAPP owes the CRC word after a LAST word -/
  append : Bool := false
  deriving DecidableEq, Repr

/-- One port of the memory unit: generator accesses made in this dispatch, reads in flight, return queue (R70 to R73). -/
structure MemPort where
  gen : Nat := 0
  flight : List LinkWord := []
  queue : List LinkWord := []
  deriving DecidableEq, Repr

/-- The geometry of a dequeue endpoint (R164): KIND, BANK, BASE, SIZE. -/
structure DeqGeom where
  kind : Nat := 0
  bank : Nat := 0
  base : Nat := 0
  size : Nat := 0
  deriving DecidableEq, Repr

/-- One dequeue endpoint (R77, R164 to R173). A flop FIFO keeps its words in `rows`. -/
structure Deq where
  geom : DeqGeom := {}
  held : Option DeqGeom := none
  /-- the read rows of a ring, or the words of a flop FIFO, oldest first -/
  rows : List LinkWord := []
  /-- words read from the bank by a granted row read, not yet in the read rows -/
  landing : List LinkWord := []
  /-- words of the ring that lie in its bank region -/
  inBank : Nat := 0
  /-- the gather row, oldest first -/
  gather : List LinkWord := []
  /-- ring position of the next word accepted -/
  pos : Nat := 0
  /-- the LAST map, indexed by ring position (R166) -/
  lastMap : Tab Bool := []
  isOpen : Bool := false
  /-- the depth has been below the effective threshold since the last signal (R80, R170) -/
  armed : Bool := true
  /-- the last popped word (R172) -/
  popped : LinkWord := {}
  /-- DEQ_POP_FLAGS: UNDERRUN, POISON, LAST -/
  popFlags : BitVec 32 := 0
  /-- DEQ_UNDERRUN_COUNT, which zeroization keeps -/
  underruns : Word := 0
  deriving DecidableEq, Repr

/-- The accumulator part of a slice, as a store reads it (R152). -/
structure AccView where
  acc : BitVec 40 := 0
  wc : BitVec 6 := 0
  lostD : Bool := false
  /-- WC reached its limit and does not change until CLR, LDA or the next switch (R153) -/
  wcHeld : Bool := false
  deriving DecidableEq, Repr

/-- One slice (R133, Table 04-1). -/
structure Slice where
  av : AccView := {}
  ap : Vector (BitVec 9) 4 := Vector.replicate 4 0
  off : Vector (BitVec 9) 4 := Vector.replicate 4 0
  ci : BitVec 4 := 0
  sh : BitVec 5 := 0
  satD : Bool := false
  deriving DecidableEq, Repr

/-- One 16-bit write an STT has computed: slice, tap word, value. -/
structure TapStore where
  slice : Fin 4
  word : BitVec 9
  value : BitVec 16
  deriving DecidableEq, Repr

/-- What an issue slot left in the unit's pipeline (R134, R147, R152). -/
inductive PipeOp where
  | bubble
  | out (w : LinkWord)
  | stt (ws : List TapStore)
  deriving DecidableEq, Repr

/-- A repeat block in progress (R155): iterations left, first body instruction, body length, position in the body. -/
structure RepeatState where
  left : Nat
  first : BitVec 4
  len : Nat
  at_ : Nat
  deriving DecidableEq, Repr

/-- One MAC unit (R134). `view1` and `view2` are the accumulators as left one and two issue slots before the
last issued slot's result, which is what R152 lets a store read. -/
structure Mac where
  pc : BitVec 4 := 0
  slices : Vector Slice 4 := Vector.replicate 4 {}
  view1 : Vector AccView 4 := Vector.replicate 4 {}
  view2 : Vector AccView 4 := Vector.replicate 4 {}
  /-- what the last two issue slots left, newest first -/
  pipe : List PipeOp := []
  /-- what is due at the end of the slot just issued -/
  due : List PipeOp := []
  outq : List LinkWord := []
  rep : Option RepeatState := none
  endSlot : Bool := false
  pendingLast : Bool := false
  halted : Bool := false
  stopped : Bool := false
  /-- whether the last and the last but one issued instructions were accumulating (R158) -/
  acc1 : Bool := false
  acc2 : Bool := false
  stalled : Bool := false
  deriving DecidableEq, Repr

/-- Sequencer states (Table 02-13). -/
inductive SeqState where
  | off | ask | load | run | drain
  deriving DecidableEq, Repr

/-- Hot slot states (R107). -/
inductive HotState where
  | empty | filling | valid
  deriving DecidableEq, Repr

/-- Where a fill reads its context (R111); `zero` is the clear of PERS_UNLOAD (R118). -/
inductive FillSrc where
  | cache (c : Nat)
  | store (addr : Nat)
  | zero
  deriving DecidableEq, Repr

/-- Who requested a fill (R111). -/
inductive FillWho where
  | dispatcher | barista | recovery | coldWake | percolator | cupping | unload
  deriving DecidableEq, Repr

/-- A fill request or running fill (R111 to R117). -/
structure Fill where
  hot : Option Nat := none
  cache : Option Nat := none
  src : FillSrc := .zero
  golden : Nat := 0
  ctxId : Nat := 0
  who : FillWho := .dispatcher
  /-- an ahead-fill of R201 -/
  ahead : Bool := false
  repaired : Bool := false
  /-- rows of a store fill whose response has not come -/
  rowsLeft : List Nat := []
  /-- a response came poisoned or with a status other than OK -/
  bad : Bool := false
  /-- a repair that waits for one of its partition's store fills to complete (R115) -/
  waits : Bool := false
  /-- the model's own number of a store fill, which its responses carry (R128, log entry 12) -/
  num : Nat := 0
  /-- the words that a Percolator repair rewrites in place; empty: the whole frame (R448) -/
  words : List Nat := []
  /-- rows of the golden copy that a Percolator repair has read -/
  got : List (Nat × List Word) := []
  deriving DecidableEq, Repr

/-- A grant (Table 06-7) on its way to a tile, or the one the tile runs. -/
structure Grant where
  task : Nat := 0
  slot : Nat := 0
  batch : Nat := 0
  stream : Nat := 0
  fill : Bool := false
  deriving DecidableEq, Repr

/-- A mesh write to a cache frame that waits for a fill from it (R118); `poison` marks its poisoned flits. -/
structure HeldWrite where
  frame : Nat
  addr : Nat
  data : List Byte
  poison : Nat
  deriving DecidableEq, Repr

/-- A physical tile: units, sequencer, contexts, status registers. -/
structure Tile where
  alu : Vector Alu 4 := Vector.replicate 4 {}
  /-- words held by ONCE outputs 20 to 35, keyed by output index -/
  once : Tab (Option LinkWord) := []
  port : Vector MemPort 2 := Vector.replicate 2 {}
  enq : Vector (List LinkWord) 4 := Vector.replicate 4 []
  deq : Vector Deq 4 := Vector.replicate 4 {}
  mac : Vector Mac 4 := Vector.replicate 4 {}
  seq : SeqState := .off
  fenced : Bool := true
  /-- CTX_CTRL.FENCE -/
  fenceReq : Bool := true
  hotSlot : Nat := 0
  grant : Grant := {}
  lastCode : Nat := 0
  batchCount : Nat := 0
  sticky : BitVec 32 := 0
  dispatches : Word := 0
  aborts : Word := 0
  /-- a yield has been sent to the tile and has not reached it -/
  yieldSent : Bool := false
  /-- a yield is pending at the tile (R159) -/
  yieldHere : Bool := false
  /-- the dispatch in DRAIN ends YIELDED -/
  yielded : Bool := false
  /-- the grant's context is the active one: the dispatch has switched to it (R82, R83) -/
  switched : Bool := false
  /-- an abort has been sent to the tile (completion code) and has not reached it -/
  abortSent : Option Nat := none
  hot : Vector HotState 16 := Vector.replicate 16 .empty
  /-- CTX_ID to which a hot slot is pinned -/
  pin : Tab (Option Nat) := []
  /-- the dispatcher's record of the CTX_ID in each frame (R200); the state of a hot slot is `hot` -/
  frameId : Tab (Option Nat) := []
  /-- hot slots in the order in which they were last made active, oldest first (R200) -/
  named : List Nat := []
  fill : Option Fill := none
  fillQ : List Fill := []
  /-- requesters that found the queue full, in order (R112) -/
  fillWait : List Fill := []
  fillSlot : Nat := 0
  fillStore : Bool := false
  /-- number of the tile's next store fill (log entry 12) -/
  fillNum : Nat := 0
  fillCount : Word := 0
  fillRepairs : Word := 0
  zres : BitVec 2 := 0
  zeroizing : Bool := false
  heldWrites : List HeldWrite := []
  macLost : BitVec 32 := 0
  macSat : BitVec 32 := 0
  macSticky : BitVec 32 := 0
  steals : Word := 0
  deriving DecidableEq, Repr

/-- Task states (Table 06-3). -/
inductive TaskState where
  | idle | armed | ready | running | cancelled
  deriving DecidableEq, Repr

/-- The static fields of a task entry (R188), of which Barista keeps an image. -/
structure TaskStatic where
  mask : Word := 0
  ctrl : Word := 0x1F000000#32
  batch : BitVec 16 := 0
  stream : BitVec 13 := 0
  ctxId : BitVec 16 := 0
  storeLo : Word := 0
  storeHi : BitVec 16 := 0
  eligible : BitVec 31 := 0
  notify : Word := 0
  deriving DecidableEq, Repr

/-- A task entry (Tables 06-1 to 06-3). -/
structure Task where
  st : TaskStatic := {}
  /-- PERS_LOAD has written the entry, so that Barista keeps an image of its static fields in system SRAM (R188) -/
  imaged : Bool := false
  flags : Word := 0
  state : TaskState := .idle
  age : Nat := 0
  urgent : Bool := false
  /-- URGENT as it was at the selection of the running dispatch (Table 06-8) -/
  wasUrgent : Bool := false
  lastCode : Nat := 0
  cancel : Bool := false
  lastTile : Nat := 0
  lastFlag : Nat := 31
  resid : BitVec 16 := 0
  grants : Word := 0
  seq : Nat := 0
  /-- the flags consumed at the selection of the running dispatch -/
  consumed : Word := 0
  /-- BATCH of the running dispatch's grant -/
  gbatch : Nat := 0
  deriving DecidableEq, Repr

/-- A dispatcher timer (R191, Table 06-5). -/
structure Timer where
  cfg : Word := 0
  tgt : Word := 0
  /-- ticks counted since EN was written to 1, or since it last fired -/
  count : Nat := 0
  deriving DecidableEq, Repr

/-- Power states of a sector (Table 15-1). -/
inductive PState where
  | brew | steep | cool | cold
  deriving DecidableEq, Repr

/-- One sector: its dispatcher (chapter 06) and its power and clock state (chapter 15). -/
structure Sector where
  dispCtrl : Word := 1
  agePhase : BitVec 10 := 0
  grants : Word := 0
  prefetches : Word := 0
  dropped : Word := 0
  urg : Tab (BitVec 8) := []
  seqCtr : Nat := 0
  setent : Tab (BitVec 16) := []
  sigmap : Tab Word := []
  timers : Tab Timer := []
  /-- in-sector logical tiles whose GET_WORK the dispatcher holds, oldest first -/
  ask : List Nat := []
  /-- flag sets on their way to this dispatcher: task entry, flag, origin partition (31: none), kind of Table 14-9 -/
  flagsIn : List (Nat × Nat × Nat × Nat) := []
  pstate : PState := .brew
  target : PState := .brew
  entering : Bool := false
  waking : Bool := false
  /-- the entry is past its point of no return (R473) -/
  committed : Bool := false
  /-- a wake source has been raised and waits (R472) -/
  wakeDue : Bool := false
  /-- the sector fence stands -/
  fenced : Bool := false
  clk : Nat := 400
  clkMax : Nat := 1600
  ldo : Nat := 600
  temp : Int := 0
  limit : Nat := 400
  force : Bool := false
  wakes : Word := 0
  /-- what lowered the thermal ceiling last: bit 0 TJ_MAX, bit 1 a neighbour (R479, R485) -/
  limitBy : Nat := 0
  /-- under-threshold samples counted by the thermal loop (R481) -/
  okCount : Nat := 0
  /-- flag sets held in the always-on inbox while the sector sleeps (R464) -/
  inbox : List (Nat × Nat × Nat × Nat) := []
  /-- the state that the entry past its point of no return goes to (R473) -/
  goal : PState := .cool
  /-- frames to refill at the wake from Cold: tile, frame, CTX_ID -/
  coldFrames : List (Nat × Nat × Nat) := []
  /-- Cupping (Table 14-10) -/
  cupPhase : Nat := 0
  cupSpare : Nat := 31
  noSpare : Bool := false
  cupNext : Nat := 0
  cupSteps : Word := 0
  cupSkips : Word := 0
  cupLastNs : Word := 0
  cupFailed : Word := 0
  /-- physical tile being migrated, and the spare that receives it -/
  cupMove : Option (Nat × Nat) := none
  /-- the fence of the tile being migrated is Cupping's own, and falls with the migration -/
  cupFence : Bool := false
  deriving DecidableEq, Repr

end Sys2Proof.Machine
end

