-- ==== Sys2Proof/Machine/StateHost.lean ====
section
/-!
DEFINITION. Machine/StateHost.lean: the state of the command transport (chapter 11), of the fault log and of recovery
(chapter 14). Plain data only. The reset value of every field is its default value here.
-/
namespace Sys2Proof.Machine

/-- An event (Table 11-10): code, status, object, DATA (12 bytes). -/
structure Event where
  code : Nat
  status : Nat := 0
  object : Nat := 0
  data : List Byte := []
  deriving DecidableEq, Repr

/-- An entry of an event buffer (R354). -/
structure EventEntry where
  eseq : Nat
  ev : Event
  delivered : Bool := false
  deriving DecidableEq, Repr

/-- The event buffer of a recipient, with its subscriptions (event code to queue identity). -/
structure EventBuf where
  entries : List EventEntry := []
  next : BitVec 16 := 0
  discarded : Nat := 0
  subs : Tab (Option Nat) := []
  deriving DecidableEq, Repr

/-- A reply or event packet waiting to be written to a completion ring (Table 11-7). -/
structure Reply where
  status : Nat
  /-- CID, or ESEQ of an event -/
  ident : Nat
  /-- OPCODE, or EVENT code -/
  opcode : Nat
  isEvent : Bool := false
  object : Nat := 0
  result : List Byte := []
  /-- the reply key that MACs it; `none`: MACV = 0 -/
  key : Option (List Byte) := none
  /-- RSEQ, when it was settled before the entry is written (R344) -/
  rseq : Option Nat := none
  /-- the recipient whose command or event it is -/
  stamp : Nat := 31
  /-- it answers the 16th consecutive authentication failure: FAULT is set once it is written (Table 11-13) -/
  faults : Bool := false
  deriving DecidableEq, Repr

/-- A command taken by the device: its queue identity, its stamp (R335) and its 64 bytes. -/
structure CmdRec where
  qid : Nat
  stamp : Nat
  bytes : List Byte
  /-- it was started and its port went (R340): its reply is discarded -/
  silent : Bool := false
  /-- it passed authentication -/
  auth : Bool := false
  /-- reply key of its role's session when it started -/
  key : Option (List Byte) := none
  /-- the core in whose slice it started, on which it goes on (R347) -/
  core : Nat := 0
  /-- the number of its start: earlier starts have lower ones (R349) -/
  no : Nat := 0
  deriving DecidableEq, Repr

/-- What a started command waits for (R357). -/
inductive Wait where
  /-- its payload in host memory -/
  | payload
  /-- a tile that migrates (R46) -/
  | translate
  /-- an earlier command that names the same object and has not taken effect (R349) -/
  | turn
  /-- a slot of the security engine for its key bank (R430), with the payload it has read -/
  | engine (payload : List (BitVec 8))
  /-- an effect that takes time; the numbers are the command's own progress -/
  | again (progress : List Nat)
  deriving DecidableEq, Repr

/-- A started command that has not been replied to. -/
structure Running where
  cmd : CmdRec
  wait : Wait
  deriving DecidableEq, Repr

/-- A command queue (Table 11-4, R334, R343, R344). -/
structure Queue where
  owner : Nat := 31
  sqBase : BitVec 64 := 0
  cqBase : BitVec 64 := 0
  sqSize : Nat := 0
  cqSize : Nat := 0
  en : Bool := false
  ien : Bool := false
  active : Bool := false
  fault : Bool := false
  fcode : Nat := 0
  sqHead : Nat := 0
  cqTail : Nat := 0
  sqTail : Nat := 0
  cqHead : Nat := 0
  last : BitVec 32 := 0
  rseq : BitVec 32 := 0
  authFails : Nat := 0
  /-- commands of this queue fetched or arrived and not yet replied to -/
  inFlight : Nat := 0
  /-- entries of the host read that is outstanding -/
  reading : Nat := 0
  /-- replies and delivered events that wait to be written, oldest first -/
  replies : List Reply := []
  /-- RPL packets sent on the mesh that have not reached the port -/
  sent : List Reply := []
  /-- lane of the last in-band command frame (R351) -/
  lane : Nat := 64
  /-- depth of an in-band queue, set at binding -/
  depth : Nat := 0
  deriving DecidableEq, Repr

/-- What the device has written toward a host: port, address, bytes. -/
structure HostWrite where
  port : Nat
  addr : Nat
  bytes : List Byte
  deriving DecidableEq, Repr

/-- One host port (Table 11-3). -/
structure HostPort where
  ctrl : Word := 0
  sticky : Word := 0
  perst : Bool := true
  /-- the port may train its link (R491) -/
  training : Bool := false
  /-- MSI-X table, keyed 4 × vector + word; a vector's control word is 1 (masked) where absent -/
  msix : Tab Word := []
  /-- pending bits of masked vectors -/
  pend : Tab Bool := []
  deriving DecidableEq, Repr

/-- A fault detected and not yet handled (R441): what PARTITION_FAULT or TILE_FAULT takes. -/
structure FaultRec where
  cls : Nat
  part : Nat
  source : Nat
  object : Nat := 0
  detail : Nat := 0
  addr : Nat := 0
  injected : Bool := false
  /-- the frame that the fault names: physical tile, frame, CTX_ID -/
  frame : Option (Nat × Nat × Nat) := none
  /-- the physical tile that has failed hard -/
  tile : Option Nat := none
  deriving DecidableEq, Repr

/-- A fault log entry (Table 14-8). -/
structure LogEntry where
  index : Nat
  cls : Nat
  part : Nat
  flags : Nat := 0
  source : Nat
  object : Nat := 0
  detail : Nat := 0
  addr : Nat := 0
  timeNs : Nat := 0
  timeSec : Nat := 0
  deriving DecidableEq, Repr

/-- The recovery of one partition (R442). -/
structure Recovery where
  /-- 1 to 5 of Table 14-2: the phase whose work comes next -/
  phase : Nat := 2
  /-- the state to return to (R409) -/
  back : Nat := 1
  /-- frames to refill: physical tile, frame, CTX_ID -/
  frames : List (Nat × Nat × Nat) := []
  refilled : Nat := 0
  /-- tiles that have taken over in it -/
  taken : List Nat := []
  /-- the tasks that were not IDLE at detection: task, whether it becomes CANCELLED -/
  tasks : List (Nat × Bool) := []
  /-- tiles that no one but recovery fences -/
  unfenced : List Nat := []
  /-- takeovers that are due: failed tile, spare -/
  takeover : List (Nat × Nat) := []
  /-- ingress streams that the fault stopped -/
  stopped : Nat := 0
  /-- another fault has joined -/
  again : Bool := false
  deriving DecidableEq, Repr

end Sys2Proof.Machine
end

