-- ==== Sys2Proof/Machine/StateLine.lean ====
section
/-!
DEFINITION. Machine/StateLine.lean: the state of the line datapath (chapters 07 and 08): lanes, MACsec associations,
streams, line-buffer cells, Carafe positions, assembly buffers, time unit. Plain data only. The reset value of every
field is its default value here.
-/
namespace Sys2Proof.Machine

/-- A line-buffer cell's record (R251); its bytes lie in memory. OWNER 31: the cell is free. -/
structure Cell where
  owner : Nat := 31
  len : Nat := 0
  sop : Bool := false
  eop : Bool := false
  bad : Bool := false
  poison : Bool := false
  cls : Nat := 0
  lane : Nat := 0
  /-- written from a plain Ethernet frame: it counts in the occupancy of its class (R237) -/
  eth : Bool := false
  /-- ingress timestamp of an SOP cell: word 0 + 2^32 × word 1 (R242) -/
  ts : Nat := 0
  deriving DecidableEq, Repr

/-- The record of a position held in the Carafe, from SPILL_POS up (R273). -/
structure FarCell where
  info : Cell := {}
  /-- the line-buffer cell that stages it before its write completes, or that its refill fills -/
  cell : Option Nat := none
  /-- 0 staged, 1 its write is in flight, 2 in DRAM, 3 its read is in flight, 4 read back, 5 given up -/
  stage : Nat := 0
  /-- responses of the running write or read still to come -/
  left : Nat := 0
  deriving DecidableEq, Repr

/-- A packet being pushed into an edge port (R258): port, first position, the position after its last, words pushed, and
whether its last word has entered. -/
structure Inject where
  port : Nat
  pos : Nat
  stop : Nat := 0
  word : Nat := 0
  done : Bool := false
  deriving DecidableEq, Repr

/-- A stream (Tables 08-1 to 08-5). Positions and totals are counts since the stream was opened. -/
structure Stream where
  ctrl : Word := 0x1F000000#32
  path : Word := 0
  size : Word := 0
  thresh : Word := 0
  task : Word := 0
  carafeBase : Word := 0
  carafeCells : Word := 0
  bypTarget : Word := 0
  wpos : Nat := 0
  vpos : Nat := 0
  rpos : Nat := 0
  mpos : Nat := 0
  spos : Nat := 0
  crTotal : Nat := 0
  seqNext : Nat := 0
  sticky : BitVec 32 := 0
  drain : Bool := false
  cnt : Tab Word := []
  /-- line-buffer cells of the positions from MARK_POS to SPILL_POS -/
  chip : List Nat := []
  /-- the positions from SPILL_POS to WR_POS -/
  far : List FarCell := []
  /-- packets that the edge injector pushes, in order; one whose last word has entered waits for those before it -/
  inj : List Inject := []
  /-- packets given to edge ports, or taken from them, since the stream was opened (R258, R261) -/
  packets : Nat := 0
  /-- CR_TOTAL as last sent to the partner (R229) -/
  crSent : Nat := 0
  /-- a DATA frame has been sent since the last SEQ_SYNC (R228) -/
  syncDue : Bool := false
  /-- the bypass switch has framed a packet of this stream that has not been sent whole -/
  bypBusy : Bool := false
  deriving DecidableEq, Repr

/-- A MACsec security association (R243): key, salt, SSCI and packet number: the next to send, or the next expected. -/
structure Sa where
  key : List Byte := []
  salt : List Byte := []
  ssci : Nat := 0
  pn : Nat := 1
  deriving DecidableEq, Repr

/-- A frame that a lane sends (R226): its kind, its bytes without FCS, and for a data frame its egress stream and
where it came from. -/
structure TxFrame where
  /-- 0 PFC, 1 MLF control or credit, 2 in-band replies, 3 data -/
  kind : Nat
  bytes : List Byte := []
  /-- the same frame as it stands on the wire: on a MACsec lane with its SecTAG, encrypted, and with its ICV (R243) -/
  wire : List Byte := []
  /-- association number and association that protect it -/
  sec : Option (Nat × Sa) := none
  stream : Option Nat := none
  /-- ingress stream of a bypass frame, and how many of its cells pass when it is sent (0: the stream was rewound or closed) -/
  bypass : Option (Nat × Nat) := none
  deriving DecidableEq, Repr

/-- A packet ready in an assembly buffer or bypass queue: egress stream, payload bytes, whether it is bypassed, from
which ingress stream and with how many cells, class. -/
structure Ready where
  stream : Nat
  bytes : List Byte
  bypass : Option (Nat × Nat) := none
  cls : Nat := 0
  deriving DecidableEq, Repr

/-- The assembly buffer of one edge port (R225): words of the packet being gathered, packets ready. -/
structure Asm where
  words : List Word := []
  poison : Bool := false
  tooLong : Bool := false
  ready : List Ready := []
  deriving DecidableEq, Repr

/-- A lane (Tables 07-4 to 07-9, 07-14). -/
structure Lane where
  ctrl : Word := 0x1F000000#32
  partner : Word := 0
  status : Nat := 0
  cause : Nat := 0
  paused : BitVec 8 := 0
  xoff : BitVec 8 := 0
  sticky : BitVec 32 := 0
  aux : Word := 0x25800000#32
  macLo : Word := 0
  macHi : Word := 0
  tsCorr : Word := 0
  eqTx : Word := 0x4000#32
  eqRx : Word := 0
  dfeA : Word := 0
  dfeB : Word := 0
  win : Word := 0
  nowRx : Word := 0
  nowA : Word := 0
  nowB : Word := 0
  /-- preset and windows in force since the last restart (R218) -/
  actTx : Word := 0x4000#32
  actRx : Word := 0
  actA : Word := 0
  actB : Word := 0
  actWin : Word := 0
  pfcTh : Tab Word := []
  pfcCfg : Word := 0xFFFF#32
  cnt : Tab Word := []
  /-- the partner signals remote fault -/
  remote : Bool := false
  msecCtrl : Word := 0
  txSciLo : Word := 0
  txSciHi : Word := 0
  replayWin : Word := 0
  pnWarnLo : Word := 0xFFFFFFFF#32
  pnWarnHi : Word := 0xFFFFFFFF#32
  rxSci : Tab Word := []
  /-- installed associations: a for transmit, 4 r + 4 + a for receive channel r -/
  sa : Tab (Option Sa) := []
  /-- the frame on the wire -/
  tx : Option TxFrame := none
  /-- classes whose PFC frame is due: XOFF or XON -/
  pfcDue : BitVec 8 := 0
  /-- control records due: OP, stream, VALUE -/
  ctlDue : List (Nat × Nat × Nat) := []
  /-- packets that the bypass switch has framed for this lane, oldest first -/
  byp : List Ready := []
  /-- source of the last data frame: assembly buffer, or 128 + ingress stream (R226) -/
  turn : Nat := 0
  deriving DecidableEq, Repr

/-- An operation on the time counter that waits for the next TIME cycle (R239, R240). -/
inductive TimeOp where
  | load (sec ns : Nat)
  | adjust (ns : Int)
  | incr (w : Word)
  deriving DecidableEq, Repr

/-- The time unit (R239, Table 07-16). -/
structure TimeUnit where
  sec : Nat := 0
  ns : Nat := 0
  frac : Nat := 0
  incr : Word := 0x0199999A#32
  locked : Bool := false
  latchLo : Word := 0
  latchHi : Word := 0
  loadNs : Word := 0
  loadLo : Word := 0
  ppsNs : Nat := 0
  ppsSec : Nat := 0
  ppsNew : Bool := false
  ops : List TimeOp := []
  deriving DecidableEq, Repr

/-- The allocator's and switch's registers that no other field gives (Table 08-6). -/
structure Allocator where
  quota : Tab Nat := []
  drops : Tab Word := []
  bypFrames : Word := 0
  bypDiscards : Word := 0
  edgeW : Word := 0
  edgeE : Word := 0
  /-- stream last served when the quota was the only limit, per partition (R264) -/
  turn : Tab Nat := []
  /-- stream last served on a shared edge port, keyed by edge port (R258) -/
  edgeTurn : Tab Nat := []
  deriving DecidableEq, Repr

end Sys2Proof.Machine
end

