-- ==== Sys2Proof/Machine/StateMesh.lean ====
section
/-!
DEFINITION. Machine/StateMesh.lean: the state of the transaction mesh (chapter 09) and of the memories (chapter 10):
packets and flits, router buffers and registers, tags, fence proxies, DRAM controllers, lines, sealed metadata.
Plain data only. The reset value of every field is its default value here.
-/
namespace Sys2Proof.Machine

/-- What a transaction that the device itself issued is for: what its response is given to. -/
inductive Purpose where
  /-- store-fill row of a tile (R115): physical tile, row, number of the store fill -/
  | fillRow (p : Nat) (row : Nat) (num : Nat)
  /-- spill of a Carafe position (R273): stream, position -/
  | spill (k : Nat) (n : Nat)
  /-- refill of a Carafe position: stream, position, which of its four lines -/
  | refill (k : Nat) (n : Nat) (line : Nat)
  /-- a CMD packet of a host port or line block (R339): recipient, queue identity, command -/
  | command (qid : Nat)
  /-- an RPL packet of Barista -/
  | reply (qid : Nat)
  /-- an event of the block at a port, for Barista -/
  | event (src : Nat)
  /-- a register write of Barista's to a sector that is not in Brew -/
  | register
  /-- a request of a requester whose inside the specification does not give -/
  | outside
  deriving DecidableEq, Repr

/-- A packet (Tables 09-5 and 09-6). Router, port triples are numbered as DST: 64 i + 8 j + port. -/
structure Packet where
  part : Nat := 16
  opc : Nat := 0
  addr : Nat := 0
  status : Nat := 0
  dst : Nat := 0
  src : Nat := 0
  sub : Nat := 0
  epoch : Nat := 0
  tag : Nat := 0
  len : Nat := 0
  data : List Byte := []
  /-- bit f: flit f, which carries data, has POISON = 1 (R282, R306) -/
  poison : Nat := 0
  purpose : Purpose := .outside
  /-- the request comes from the SECURE domain (R39) -/
  secure : Bool := false
  /-- the model's own number of the packet, by which its flits are told from others -/
  id : Nat := 0
  /-- sector cycles that a request has waited at its target (R74, R141) -/
  waited : Nat := 0
  deriving DecidableEq, Repr

/-- A flit in a buffer: the packet it belongs to, its index in it, and its POISON. -/
structure Flit where
  pkt : Packet
  idx : Nat := 0
  poison : Bool := false
  deriving DecidableEq, Repr

/-- One virtual channel of one input port of one router (R283, R287). -/
structure VcBuf where
  flits : List Flit := []
  /-- credits on their way back to the sender -/
  credBack : Nat := 0
  /-- the sender's credits that are out -/
  spent : Nat := 0
  /-- output taken by the packet whose head has left, until its tail leaves -/
  route : Option Nat := none
  /-- number of the packet whose head the sender has sent and whose tail it has not -/
  open_ : Option Nat := none
  /-- number of the packet that is discarded here as its flits arrive (R296, R297, R299) -/
  drop : Option Nat := none
  /-- the head flit is held by a fence proxy (R294) -/
  held : Bool := false
  deriving DecidableEq, Repr

/-- One virtual channel of the link from a router to a local port: what of the packet on it has left (R286, R287). -/
structure PortVc where
  /-- number of the packet whose head has left and whose tail has not -/
  open_ : Option Nat := none
  /-- the fence proxy answers it (Table 09-7) -/
  answer : Bool := false
  /-- it is discarded at the port (R297) -/
  drop : Bool := false
  /-- POISON of its flits so far -/
  acc : Nat := 0
  deriving DecidableEq, Repr

/-- Registers of one router (Table 09-9). Slot tables hold 64 owner bytes, keyed by slot. -/
structure Router where
  draining : Bool := false
  drainCycles : Nat := 0
  sticky : BitVec 32 := 0
  vcEn : BitVec 32 := 0x00010000#32
  vcEnNext : BitVec 32 := 0x00010000#32
  drainLast : Word := 0
  drainMax : Word := 0
  slot : Tab (BitVec 8) := []
  slotNext : Tab (BitVec 8) := []
  portFlits : Tab Word := []
  /-- port last served, keyed by 32 × output + partition (R288) -/
  turn : Tab Nat := []
  deriving DecidableEq, Repr

/-- A tag held (R292): its partition, TAG, EPOCH at issue and what its response is for. -/
structure Txn where
  part : Nat
  tag : Nat
  epoch : Nat
  purpose : Purpose
  deriving DecidableEq, Repr

/-- The mesh as a whole: buffers, requests waiting for a tag, tags, common registers (Table 09-10). -/
structure Mesh where
  /-- keyed by ((8 j + i) × 8 + input port) × 64 + VC -/
  vc : Tab VcBuf := []
  /-- keyed by ((8 j + i) × 8 + output port) × 64 + VC -/
  outs : Tab PortVc := []
  /-- keyed by 8 j + i -/
  routers : Tab Router := []
  /-- requests that wait for a tag, in order (R292) -/
  waiting : List Packet := []
  /-- packets that have their tag and flits still to inject: packet, next flit -/
  inject : List (Packet × Nat) := []
  /-- CMD and RPL packets that have their tag and no response yet (R290) -/
  unanswered : List Packet := []
  /-- requests that have reached their target's port, in order -/
  arrived : List Packet := []
  /-- responses that have reached their requester's port, in order -/
  answered : List Packet := []
  /-- the number of the next packet -/
  nextId : Nat := 0
  txns : List Txn := []
  tagQuota : Tab Nat := []
  epoch : Tab Nat := []
  tagWaits : Tab Word := []
  /-- port last given a freed tag, per partition (R292) -/
  tagTurn : Tab Nat := []
  slotCount : BitVec 6 := 0
  /-- system-partition transactions lost to a sideband parity error, to be re-issued (R441) -/
  lost : List Packet := []
  deriving DecidableEq, Repr

/-- A DRAM line as stored (R305, R321): the plaintext and the key whose ciphertext was written, whether its check bits are
those of poison, and the stored bits flipped since (0 to 575 of the 8 beats). -/
structure DramLine where
  data : List Byte
  key : Nat
  flips : List Nat := []
  poison : Bool := false
  deriving DecidableEq, Repr

/-- A counter line of a sealed region (R324): MAJOR and the minors. -/
structure CounterLine where
  major : Nat := 0
  minors : Tab Nat := []
  deriving DecidableEq, Repr

/-- A verified counter line in a metadata store (R328): its key (16 × region + level) × 2^21 + index, and whether it was
modified since it was read. -/
structure MetaLine where
  key : Nat
  line : CounterLine := {}
  dirty : Bool := false
  deriving DecidableEq, Repr

/-- A MAC line in a metadata store, at level 0 in the key. -/
structure MacLine where
  key : Nat
  data : List Byte := []
  dirty : Bool := false
  deriving DecidableEq, Repr

/-- The part of a request that falls on one line, in its DRAM controller's queue (R319). -/
structure DramReq where
  pkt : Packet
  /-- number of the request among those accepted -/
  num : Nat := 0
  /-- device address of the line -/
  line : Nat := 0
  /-- accepted after a write of its region's BANK_OWNER that has not taken effect (R332) -/
  late : Bool := false
  /-- a metadata line that it needs is poisoned or uncorrectable (R331) -/
  bad : Bool := false
  deriving DecidableEq, Repr

/-- A line read in a slot whose data has not yet returned (R320). -/
structure DramPart where
  num : Nat
  line : Nat
  data : List Byte := []
  bad : Bool := false
  deriving DecidableEq, Repr

/-- A request accepted by the controllers of its lines: the lines not yet done, those read, and whether one was poisoned. -/
structure DramJoin where
  num : Nat
  pkt : Packet
  left : List Nat := []
  got : List DramPart := []
  bad : Bool := false
  deriving DecidableEq, Repr

/-- One DRAM controller (Tables 10-9, 10-10). -/
structure DramCtl where
  state : Nat := 0
  sticky : BitVec 32 := 0
  apply : Bool := false
  frameCount : Word := 0
  corr : Word := 0
  uncorr : Word := 0
  sealFails : Word := 0
  errAddr : BitVec 48 := 0
  /-- BANK_OWNER_b in force, keyed by b -/
  owner : Tab (BitVec 32) := []
  /-- BANK_OWNER_b as written and waiting to take effect (R332) -/
  ownerNext : Tab (Option (BitVec 32)) := []
  slot : Tab (BitVec 8) := []
  slotNext : Tab (BitVec 8) := []
  /-- current slot of the frame, 0 to 63 -/
  slotPos : Nat := 0
  /-- requests of each partition, oldest first, at most 32 each (R319), keyed by partition -/
  queue : Tab (List DramReq) := []
  /-- metadata initialisation of a region (R330): 1 started, 2 written -/
  init : Tab Nat := []
  /-- lines read whose data has not yet returned (R320) -/
  reading : List DramPart := []
  /-- DRAM cycles since calibration up to the slot or window that comes next (R318) -/
  cyc : Nat := 0
  /-- the cycle from which a bank is ready (R319), keyed by 16 × rank + bank -/
  readyAt : Tab Nat := []
  /-- the top-level line of each region (R328) -/
  tops : Tab CounterLine := []
  /-- counter lines of the metadata store, least recently used first, at most 4 of a region (R328) -/
  store : List MetaLine := []
  /-- modified counter lines that left the store and are not yet written back (R326), the latest first -/
  out : List MetaLine := []
  /-- keys of the counter lines that failed verification since their region was initialised (R331) -/
  failed : List Nat := []
  /-- MAC lines of the metadata store, least recently used first, at most 2 of a region (R328) -/
  macStore : List MacLine := []
  deriving DecidableEq, Repr

/-- A Correction Tracker entry (R457). -/
structure TrackEntry where
  addr : Nat
  repaired : Bool := false
  count : Nat := 0
  deriving DecidableEq, Repr

/-- A Correction Tracker: its entries, oldest first, and its counters. -/
structure Tracker where
  entries : List TrackEntry := []
  repairs : Word := 0
  hard : Word := 0
  evict : Word := 0
  deriving DecidableEq, Repr

/-- DRAM as a running DRAM_DESCRIBE found it: capacity, description, lines, and STATE of each controller. -/
structure DramBefore where
  capacity : Nat
  desc : List Byte
  lines : Tab (Option DramLine)
  states : List Nat
  deriving DecidableEq, Repr

/-- On-chip SRAM and DRAM contents. -/
structure Memory where
  /-- every byte of on-chip SRAM that is not zero, by device address -/
  cells : List Host.Cell := []
  /-- stored check bits XOR the check bits of the stored data, by word address / 4 (R303) -/
  syn : Tab (BitVec 7) := []
  /-- DRAM lines written since calibration, by line address / 64 -/
  lines : Tab (Option DramLine) := []
  /-- requests that the DRAM controllers have accepted and not yet answered, and the number of the next -/
  joins : List DramJoin := []
  nextJoin : Nat := 0
  /-- rows replaced by spare rows, per bank (R300, R458) -/
  spared : Tab Nat := []
  trackers : Tab Tracker := []
  /-- what DRAM was before the DRAM_DESCRIBE that runs: a TIMEOUT leaves no change (R357) -/
  before : Option DramBefore := none
  /-- capacity in bytes once every channel is READY, and the description block; 0: a hole (R314) -/
  capacity : Nat := 0
  desc : List Byte := []
  ctl : Tab DramCtl := []
  /-- XTS and MAC key in force, by partition (16: system), as the number of the draw that made it (R322) -/
  key : Tab Nat := []
  deriving DecidableEq, Repr

end Sys2Proof.Machine
end

