-- ==== Sys2Proof/Machine/StateSystem.lean ====
section
/-!
DEFINITION. Machine/StateSystem.lean: the state of partitions, roles and sessions (chapters 12, 13), Barista's slices,
Percolator and Cupping (chapter 14), the power manager (chapter 15), boot, fuses and flash (chapter 16), straps and the
test port (chapter 17). Plain data only. The reset value of every field is its default value here.
-/
namespace Sys2Proof.Machine

/-- The keys of a session (R419). -/
structure Session where
  prk : List Byte := []
  kcmd : List Byte := []
  krpl : List Byte := []
  kwrp : List Byte := []
  sid : List Byte := []
  deriving DecidableEq, Repr

/-- A role: a partition owner, or the platform owner (R407): its session and the keys it enrolled. -/
structure Role where
  session : Option Session := none
  /-- INSTANCE_q, or BOOT_NONCE for the platform owner (R410, R414) -/
  inst : List Byte := []
  ownerHash : List Byte := []
  pqsig : Bool := false
  ecPub : List Byte := []
  pqPub : List Byte := []
  deriving DecidableEq, Repr

/-- A loaded personality (R378 to R383, R424, R425). -/
structure Pers where
  version : Nat := 0
  /-- PMEAS -/
  pmeas : List Byte := []
  /-- HOLDOFF_BOUND -/
  holdoff : Nat := 0
  started : Bool := false
  /-- CONTEXT records: logical tile (65,535: store only), cache frame (0: none), CTX_ID, frame of the context store -/
  ctxs : List (Nat × Nat × Nat × Nat) := []
  tasks : List Nat := []
  /-- logical tile, endpoint -/
  sigs : List (Nat × Nat) := []
  /-- sector, set -/
  sets : List (Nat × Nat) := []
  /-- sector, timer, EN of its record -/
  timers : List (Nat × Nat × Bool) := []
  deriving DecidableEq, Repr

/-- A partition (Table 13-2, R364, R366, R389). Block masks: bit k is block k of Table 12-3. -/
structure Part where
  /-- 0 ABSENT, 1 CREATED, 2 ENROLLED, 3 RECOVERING, 4 DESTROYING -/
  state : Nat := 0
  /-- MODE: sealed -/
  isSealed : Bool := false
  tol : Nat := 0
  pers : Tab (Option Pers) := []
  streams : Nat := 0
  rules : Nat := 0
  tasks : Nat := 0
  sets : Nat := 0
  timers : Nat := 0
  deriving DecidableEq, Repr

/-- A read of host memory that the device waits for (R339, R342): port, address, length, and what it is for: entries of
a queue, or the payload of the started command with the given queue identity and bytes. -/
structure HostRead where
  port : Nat
  addr : Nat
  len : Nat
  /-- a fetch of this queue, for this recipient -/
  fetch : Option (Nat × Nat) := none
  /-- the payload of this command -/
  payload : Option CmdRec := none
  /-- what the entries of this fetch are answered with when they arrive, their partition having met a fault or its end -/
  stop : Option Nat := none
  deriving DecidableEq, Repr

/-- Percolator (R447 to R449, Table 14-10). Each latch copy is held as its difference from what ROM loads. -/
structure Percolator where
  copies : Vector (BitVec 256) 3 := Vector.replicate 3 0
  /-- 0 running, 1 halted, 2 reloading -/
  status : Nat := 0
  romPar : Bool := false
  voteFail : Bool := false
  tile : Nat := 0
  frame : Nat := 0
  passes : Word := 0
  silent : Word := 0
  essential : Word := 0
  latchRepairs : Word := 0
  /-- physical tiles whose fill unit has read the golden copy of a silent repair, in order -/
  repairs : List Nat := []
  /-- tiles passed over while they migrated, with the next frame to visit (R447) -/
  later : List (Nat × Nat) := []
  deriving DecidableEq, Repr

/-- The power manager (Tables 15-7, 15-8) and the sensors' last readings. -/
structure Power where
  /-- ceiling P, MHz -/
  p : Nat := 400
  capUnmet : Bool := false
  crit : Bool := false
  sticky : BitVec 32 := 0
  cap : Nat := 185000
  tjMax : Nat := 105
  tjWarn : Nat := 0
  airflow : Nat := 0
  /-- W of R480, mW -/
  watts : Nat := 0
  /-- intervals of 10 µs under the cap -/
  under : Nat := 0
  /-- last reading, minimum and maximum since the last READ_TELEMETRY, by sensor (Table 12-2) -/
  now : Tab Int := []
  low : Tab (Option Int) := []
  high : Tab (Option Int) := []
  deriving DecidableEq, Repr

/-- What the shell configuration sets (Table 16-6). -/
structure Shell where
  /-- HP_WIDTH; 3 until it is known -/
  width : Nat := 3
  /-- PO_PORT; 255: none -/
  poPort : Nat := 255
  subsys : Nat := 0
  deriving DecidableEq, Repr

/-- Boot (R489 to R511, Table 16-10). -/
structure Boot where
  /-- device reset is held -/
  held : Bool := true
  /-- boot status code: the stage that runs, complete, or halted (Table 16-8) -/
  status : Nat := 0
  ready : Bool := false
  pref : Nat := 0
  active : Nat := 0
  ctrlValid : Bool := false
  /-- reasons of slots A and B -/
  reason : Vector Nat 2 := #v[15, 15]
  staged : Vector Bool 2 := #v[false, false]
  staging : Bool := false
  fwVersion : Nat := 0
  deferred : Bool := false
  done : Bool := false
  rejected : Bool := false
  /-- the five measurements of the attestation report (Table 13-11), in its order -/
  meas : List (List Byte) := []
  /-- the firmware's working copy of the certificate area (R489, R507) -/
  certs : List Byte := []
  /-- BOOT_NONCE (R414) -/
  nonce : List Byte := []
  /-- clocks of the shell configuration, MHz, by sector -/
  clocks : List Nat := []
  /-- lane tables of the active image -/
  lanes : List Byte := []
  shell : Shell := {}
  /-- FW_ACTIVATE has replied and the reset into the slot is due (R403) -/
  activate : Bool := false
  deriving DecidableEq, Repr

/-- The fuses that change (R433, R436): hashes of the platform-owner slots and the two counters. -/
structure Fuses where
  slots : Tab (Option (List Byte)) := []
  vendor : Nat := 0
  config : Nat := 0
  deriving DecidableEq, Repr

/-- Instructions of the test port (R535). -/
inductive TapInstr where
  | idcode | bypass | sample | extest | pulse | train
  deriving DecidableEq, Repr

/-- The test access port: its instruction, and the boundary register as last loaded, by ball. -/
structure Tap where
  instr : TapInstr := .idcode
  boundary : List Bool := []
  /-- the one-bit bypass register -/
  bypass : Bool := false
  deriving DecidableEq, Repr

/-- Debug access (Table 13-15). -/
structure Debug where
  unlocked : Bool := false
  tapOpen : Bool := false
  fwOpen : Bool := false
  deriving DecidableEq, Repr

end Sys2Proof.Machine
end

