-- ==== Sys2Proof/Machine/State.lean ====
section
/-!
DEFINITION. Machine/State.lean: the whole state of the block, the reasons a step can stop, and the state after reset.
-/
namespace Sys2Proof.Machine

/-- Why the machine stops with a fault. -/
inductive Fault where
  /-- UPSET names a bit that no memory of the device holds (R98, R300): nothing in the specification can flip it.
  Raised by UPSET alone; safe, since the specification has no such event. -/
  | noSuchBit
  deriving DecidableEq, Repr

/-- Why a command has no effect the model can give. -/
inductive Refusal where
  /-- the command is not modelled: its arm of `exec` rejects it by name. Safe: nothing is claimed of it. -/
  | notModelled (mnemonic : String)
  /-- a private test instruction with TAP_OPEN = 1 (R535): the specification does not describe what it does.
  Raised by JTAG_PRIVATE alone; safe. -/
  | privateTestInstruction
  deriving DecidableEq, Repr

/-- TILE_MAP_p (Table 01-9). -/
structure TileMapEntry where
  logical : Nat
  owner : Nat
  migrating : Bool := false
  deriving DecidableEq, Repr

/-- A window entry (Table 01-10). -/
structure Window where
  valid : Bool := false
  target : Nat := 0
  write : Bool := false
  logBase : Nat := 0
  devBase : Nat := 0
  pages : Nat := 0
  deriving DecidableEq, Repr

/-- A DONE on its way to a dispatcher (R85): physical tile, task entry, batch counter, completion code, and the
grant it ends. -/
structure Done where
  sector : Nat
  tile : Nat
  task : Nat
  counter : Nat
  code : Nat
  deriving DecidableEq, Repr

/-- A NOTIFY on the dispatcher notify link (R192): target task, flag, sender's partition. -/
structure Notify where
  task : Nat
  flag : Nat
  part : Nat
  deriving DecidableEq, Repr

/-- The state of the block. -/
structure State where
  /-- commands that wait, first in first out -/
  pending : List Instr := []
  tileMap : Tab TileMapEntry := []
  win : Tab Window := []
  links : Tab Link := []
  tiles : Tab Tile := []
  tasks : Tab Task := []
  sectors : Tab Sector := []
  /-- grants on their way to tiles (R197): physical tile, grant -/
  grants : List (Nat × Grant) := []
  dones : List Done := []
  /-- tiles whose GET_WORK is on its way to the dispatcher -/
  getWorks : List Nat := []
  notifies : List Notify := []
  mem : Memory := {}
  mesh : Mesh := {}
  events : Tab EventBuf := []
  queues : Tab Queue := []
  ports : Tab HostPort := []
  hostWrites : List HostWrite := []
  /-- command buffers, per recipient, oldest first (R346) -/
  buffers : Tab (List CmdRec) := []
  running : List Running := []
  /-- commands in flight, per recipient, from fetch to reply (R346) -/
  flights : Tab Nat := []
  /-- commands started so far: the model's own count, by which their starts are ordered (R349) -/
  starts : Nat := 0
  faults : List FaultRec := []
  recovery : Tab (Option Recovery) := []
  log : List LogEntry := []
  logNext : Nat := 0
  time : TimeUnit := {}
  /-- TIME cycles since the last 1 µs tick (R191) -/
  usPhase : Nat := 0
  cells : Tab Cell := []
  lanes : Tab Lane := []
  /-- partner entries, 128 bits each (Table 07-3) -/
  partners : Tab Nat := []
  /-- classifier words, keyed by 8 r + word (Table 07-15) -/
  rules : Tab Word := []
  streams : Tab Stream := []
  asm : Tab Asm := []
  alloc : Allocator := {}
  /-- hold-off limit of each partition, in sector cycles: 4,096 where absent (R159) -/
  holdoff : Tab Nat := []
  parts : Tab Part := []
  /-- roles: 0 to 15 the partition owners, 16 the platform owner -/
  roles : Tab Role := []
  /-- owner of slice s of core c, keyed 64 c + s (R347) -/
  slices : Tab Nat := []
  /-- current slice of each core -/
  sliceNow : Vector Nat 4 := Vector.replicate 4 0
  /-- current slot of the security engine's frame (R430) -/
  secSlot : Nat := 0
  hostReads : List HostRead := []
  /-- newest log index that a FAULT_LOG_READ of the platform owner has written, plus one, by log index (R362) -/
  logRead : Tab Bool := []
  perc : Percolator := {}
  /-- CUP_CTRL.EN and CUP_PERIOD -/
  cupEn : Bool := true
  cupPeriod : Nat := 10000
  power : Power := {}
  boot : Boot := {}
  fuses : Fuses := {}
  /-- the fuse shadow: the fuses as they stood at reset (R437) -/
  shadow : Fuses := {}
  /-- the boot flash: bytes that are not erased (255) -/
  flash : Tab Byte := []
  /-- SMB_ADDR as sampled at the release of device reset (R520) -/
  smbAddr : Nat := 0
  tap : Tap := {}
  dbgAccess : Debug := {}
  /-- what the last read through a register, SMBus or test-port command returned, least significant byte first -/
  readOut : List Byte := []
  /-- how many free values the model has drawn: the model's own counter, of no meaning to the device -/
  drawn : Nat := 0
  deriving DecidableEq, Repr

/-- The machine right after device reset (R488): every table at the reset values its readers give absent entries. -/
def State.reset : State := {}

end Sys2Proof.Machine
end

