-- ==== Sys2Proof/Machine/Ops.lean ====
section
/-!
DEFINITION. Machine/Ops.lean: the named operations over the state that every meaning is written with: sparse tables,
tiles and their homes, byte strings, events, the fault log, faults, SRAM words with their check codes.
-/
namespace Sys2Proof.Machine

/-! ## Sparse tables -/

/-- The value of a key; `d` is what an absent key stands for. -/
def tget {α : Type} (d : α) : Tab α → Nat → α
  | [], _ => d
  | (j, v) :: r, k => if j = k then v else tget d r k

/-- The table with a value that is no default put at its key, keys rising. -/
def tput {α : Type} : Tab α → Nat → α → Tab α
  | [], k, v => [(k, v)]
  | (j, w) :: r, k, v =>
    if k < j then (k, v) :: (j, w) :: r
    else if k = j then (k, v) :: r
    else (j, w) :: tput r k v

/-- The table with one key set, in canonical form: keys rising, no value equal to the default `d`. -/
def tset {α : Type} [DecidableEq α] (d : α) (t : Tab α) (k : Nat) (v : α) : Tab α :=
  if v = d then t.filter fun e => e.1 != k else tput t k v

/-! ## Byte strings and fields -/

/-- The `n` low bytes of a number, least significant first (R11). -/
def leBytes (n v : Nat) : List Byte := (List.range n).map fun i => BitVec.ofNat 8 (v / 2 ^ (8 * i))

/-- The number a little-endian byte string spells. -/
def leNat : List Byte → Nat
  | [] => 0
  | b :: r => b.toNat + 256 * leNat r

/-- Field `[lo + w - 1 : lo]` of a number. -/
def field (v lo w : Nat) : Nat := v / 2 ^ lo % 2 ^ w

/-- A number 0 or 1. -/
def bit (b : Bool) : Nat := if b then 1 else 0

/-- `n` bits from a list, bit 0 first. -/
def bitsOf (f : Nat → Bool) (n : Nat) : Nat := (List.range n).foldl (fun w i => w + bit (f i) * 2 ^ i) 0

/-! ## Bytes of on-chip SRAM -/

/-- The stored byte at an address; SRAM that nothing has written holds zero (R101, R489). -/
def Memory.byte (m : Memory) (a : Nat) : Byte := tget 0 m.cells a

def Memory.setByte (m : Memory) (a : Nat) (b : Byte) : Memory := { m with cells := tset 0 m.cells a b }

def Memory.setBytes (m : Memory) (a : Nat) : List Byte → Memory
  | [] => m
  | b :: r => (m.setByte a b).setBytes (a + 1) r

/-! ## Status codes (Table 11-11) -/

def stOk : Nat := 0x0000
def stUnknownOpcode : Nat := 0x0101
def stBadLength : Nat := 0x0102
def stReserved : Nat := 0x0103
def stZero : Nat := 0x0104
def stWrongPartition : Nat := 0x0201
def stAuth : Nat := 0x0202
def stWrongRole : Nat := 0x0203
def stTags : Nat := 0x0301
def stTiles : Nat := 0x0302
def stQueueFull : Nat := 0x0303
def stCells : Nat := 0x0304
def stNotLoaded : Nat := 0x0401
def stBusy : Nat := 0x0402
def stDomainOff : Nat := 0x0403
def stSignature : Nat := 0x0501
def stIdentity : Nat := 0x0502
def stRollback : Nat := 0x0503
def stPoison : Nat := 0x0504
def stDiscarded : Nat := 0x0601
def stMarkLost : Nat := 0x0602
def stDiscardedReset : Nat := 0x0603
def stTimeout : Nat := 0x0701

/-! ## Tiles, homes and sectors (R43, R90) -/

/-- The sector of a physical position (R43). -/
def sectorOf (p : Nat) : Nat := 2 * (p / 16 / 4) + p % 16 / 8

/-- The in-sector index of a physical position (R43). -/
def indexOf (p : Nat) : Nat := 8 * (p / 16 % 4) + p % 8

/-- The physical position of index `i` of sector `n`. -/
def posOf (n i : Nat) : Nat := 16 * (4 * (n / 2) + i / 8) + 8 * (n % 2) + i % 8

/-- A home position that is a spare home (R90). -/
def spareHome (h : Nat) : Bool := indexOf h == 31

/-- TILE_MAP_p after reset (R43, Table 01-9). -/
def tileMapReset (p : Nat) : TileMapEntry :=
  if indexOf p = 31 then { logical := 255, owner := 16 }
  else { logical := 31 * sectorOf p + indexOf p, owner := 31 }

def State.tm (s : State) (p : Nat) : TileMapEntry := tget (tileMapReset p) s.tileMap p
def State.setTm (s : State) (p : Nat) (e : TileMapEntry) : State :=
  { s with tileMap := tset (tileMapReset p) s.tileMap p e }

def State.part (s : State) (q : Nat) : Part := tget {} s.parts q
def State.tile (s : State) (p : Nat) : Tile := tget {} s.tiles p
def State.setTile (s : State) (p : Nat) (t : Tile) : State := { s with tiles := tset {} s.tiles p t }
def State.updTile (s : State) (p : Nat) (f : Tile → Tile) : State := s.setTile p (f (s.tile p))

def State.link (s : State) (l : Nat) : Link := tget {} s.links l
def State.setLink (s : State) (l : Nat) (k : Link) : State := { s with links := tset {} s.links l k }
def State.updLink (s : State) (l : Nat) (f : Link → Link) : State := s.setLink l (f (s.link l))

def State.task (s : State) (t : Nat) : Task := tget {} s.tasks t
def State.setTask (s : State) (t : Nat) (k : Task) : State := { s with tasks := tset {} s.tasks t k }
def State.updTask (s : State) (t : Nat) (f : Task → Task) : State := s.setTask t (f (s.task t))

def State.sector (s : State) (n : Nat) : Sector := tget {} s.sectors n
def State.setSector (s : State) (n : Nat) (k : Sector) : State := { s with sectors := tset {} s.sectors n k }
def State.updSector (s : State) (n : Nat) (f : Sector → Sector) : State := s.setSector n (f (s.sector n))

/-- The entry has a reserved LOGICAL: the tile is unallocated and stays fenced (Table 01-9). -/
def TileMapEntry.unnamed (e : TileMapEntry) : Bool := decide (247 < e.logical) && decide (e.logical < 255)

/-- The partition that owns a physical tile; reserved owners, and every owner of a tile with a reserved LOGICAL, act as
31 (Table 01-9). -/
def State.ownerOf (s : State) (p : Nat) : Nat :=
  let e := s.tm p
  if e.owner < 17 ∧ !e.unnamed then e.owner else 31

/-- The physical tile that holds logical tile `l`: it lies in sector `l` div 31 (R43). -/
def State.tileOfLogical (s : State) (l : Nat) : Option Nat :=
  if l < 248 then ((List.range 32).map (posOf (l / 31))).find? fun p => (s.tm p).logical == l else none

/-- The home position a physical tile holds, if any (R90, R91). -/
def State.homeOf (s : State) (p : Nat) : Option Nat :=
  let l := (s.tm p).logical
  if l < 248 then some (posOf (l / 31) (l % 31)) else none

/-- The physical tile joined to a home position by the steering network (R91). -/
def State.tileAtHome (s : State) (h : Nat) : Option Nat :=
  if spareHome h then none else s.tileOfLogical (31 * sectorOf h + indexOf h)

/-! ## Events (R354) -/

def State.evb (s : State) (r : Nat) : EventBuf := tget {} s.events r
def State.setEvb (s : State) (r : Nat) (b : EventBuf) : State := { s with events := tset {} s.events r b }

/-- A new event takes the recipient's next ESEQ, or is discarded and counted when the buffer is full. -/
def State.raiseEvent (s : State) (r : Nat) (e : Event) : State :=
  let b := s.evb r
  if b.entries.length < 256 then
    s.setEvb r { b with entries := b.entries ++ [{ eseq := b.next.toNat, ev := e }], next := b.next + 1 }
  else s.setEvb r { b with discarded := b.discarded + 1 }

/-! ## Places on the mesh (Table 09-2) -/

/-- A router and port numbered as DST is. -/
def meshPort (i j p : Nat) : Nat := 64 * i + 8 * j + p

/-- Port of the control block of a sector. -/
def sectorPort (n : Nat) : Nat := meshPort (if n % 2 = 0 then 0 else 7) (if n < 6 then n / 2 * 2 + 1 else 7) 5

/-- Port of the line block of a lane. -/
def lanePort (l : Nat) : Nat := if l < 32 then meshPort 0 (l / 4) 4 else meshPort 7 ((l - 32) / 4) 2

/-- Port of a DRAM controller. -/
def dramPort (c : Nat) : Nat := if c < 6 then meshPort (c + 1) 0 3 else meshPort (c - 5) 7 1

/-- Barista's port. -/
def baristaPort : Nat := meshPort 0 0 6

/-- A packet joins those that wait for a tag. -/
def State.enqueue (s : State) (k : Packet) : State :=
  let m := s.mesh
  { s with mesh := { m with waiting := m.waiting ++ [{ k with id := m.nextId }], nextId := m.nextId + 1 } }

/-- What an EVT packet carries of an event (Table 11-7); Barista numbers it. -/
def Event.bytes (e : Event) : List Byte :=
  leBytes 2 e.status ++ leBytes 2 0 ++ leBytes 2 e.code ++ leBytes 2 0 ++ leBytes 2 e.object ++ leBytes 4 0
    ++ (e.data ++ List.replicate 12 0).take 12 ++ leBytes 6 0

/-- A block at port `src` sends Barista an event for a recipient (R29, R290). -/
def State.sendEvent (s : State) (src r : Nat) (e : Event) : State :=
  s.enqueue { part := r, opc := 5, src := src, dst := baristaPort, len := 32, data := e.bytes, purpose := .event src }

/-- An event to a partition; nobody is told of something that no partition owns. -/
def State.tellOwner (s : State) (src q : Nat) (e : Event) : State := if q < 16 then s.sendEvent src q e else s

/-! ## The fault log and faults (R441, R460) -/

/-- The first 12 bytes of a log entry (Table 14-8). -/
def LogEntry.bytes12 (e : LogEntry) : List Byte :=
  leBytes 4 e.index ++ leBytes 1 e.cls ++ leBytes 1 e.part ++ leBytes 1 e.flags ++ leBytes 1 0
    ++ leBytes 2 e.source ++ leBytes 2 e.object

/-- All 32 bytes of a log entry. -/
def LogEntry.bytes (e : LogEntry) : List Byte :=
  e.bytes12 ++ leBytes 4 e.detail ++ leBytes 8 e.addr ++ leBytes 4 e.timeNs ++ leBytes 4 e.timeSec

/-- STATUS of the SYSTEM event of a log entry (Table 11-10). -/
def LogEntry.eventStatus (e : LogEntry) : Nat :=
  if e.source = 0x55 then stAuth else if e.source = 0x51 then e.detail else stOk

/-- The entry is written to its slot of the log in system SRAM, with correct check codes (R460). -/
def Memory.putLog (m : Memory) (e : LogEntry) : Memory :=
  let a := 0x20078000 + 32 * (e.index % 1024)
  let m := m.setBytes a e.bytes
  { m with syn := (List.range 8).foldl (fun t i => tset 0 t (a / 4 + i) 0) m.syn }

/-- A detected fault is written to the next entry of the log, a ring of 1,024, with times that read 0 while TIME is not
locked (R240); a SYSTEM fault also sends the platform owner its SYSTEM event. -/
def State.logFault (s : State) (cls part flags source object detail addr : Nat) : State :=
  let e : LogEntry :=
    { index := s.logNext, cls := cls, part := part, flags := flags, source := source, object := object % 2 ^ 16
      detail := detail % 2 ^ 32, addr := addr
      timeNs := if s.time.locked then s.time.ns else 0
      timeSec := if s.time.locked then s.time.sec % 2 ^ 32 else 0 }
  let s := { s with log := (e :: s.log).take 1024, logNext := (s.logNext + 1) % 2 ^ 32, mem := s.mem.putLog e }
  if cls = 5 then s.raiseEvent 16 { code := 0x50, status := e.eventStatus, object := e.index % 2 ^ 16, data := e.bytes12 }
  else s

/-- A SYSTEM fault (Table 14-1). -/
def State.sysFault (s : State) (source object detail : Nat) (addr : Nat := 0) (part : Nat := 31) : State :=
  s.logFault 5 part 0 source object detail addr

/-- A hole access is logged as a system event (R38). -/
def State.holeAccess (s : State) (addr : Nat) (status : Nat := stWrongPartition) : State :=
  s.sysFault 0x51 0 status addr 16

/-- A refused configuration write is logged with the register's offset in its region (Table 14-9). -/
def State.configRefused (s : State) (offset : Nat) : State := s.sysFault 0x52 0 offset 0 16

/-- A PARTITION or TILE fault is detected: it waits for the step that handles it. -/
def State.raiseFault (s : State) (f : FaultRec) : State := { s with faults := s.faults ++ [f] }

/-! ## Sticky bits of a tile (R89, R161) -/

/-- TILE_STICKY bits are set; when any is new on a tile a partition owns, its owner gets a TILE_STICKY event. -/
def State.stick (s : State) (p : Nat) (bits : BitVec 32) : State :=
  let old := (s.tile p).sticky
  let new := bits &&& ~~~old
  if new = 0 then s
  else
    (s.updTile p fun t => { t with sticky := t.sticky ||| bits }).tellOwner (sectorPort (sectorOf p)) (s.ownerOf p)
      { code := 1, object := (s.tm p).logical, data := leBytes 4 new.toNat ++ leBytes 8 0 }

def badSelect : BitVec 32 := 0x2#32
def badCode : BitVec 32 := 0x4#32
def memRange : BitVec 32 := 0x8#32
def dpConflict : BitVec 32 := 0x10#32
def aluOvf (n : Nat) : BitVec 32 := 0x100#32 <<< n
def underrunBit (k : Nat) : BitVec 32 := 0x1000#32 <<< k

/-- MAC sticky bits are set; LOST, HOLDOFF and CUT bits that are new raise one MAC_STICKY event, SAT none (R161). -/
def State.stickMac (s : State) (p : Nat) (lost sat unit : BitVec 32) : State :=
  let t := s.tile p
  let newLost := lost &&& ~~~t.macLost
  let newUnit := unit &&& ~~~t.macSticky
  let s := s.updTile p fun t =>
    { t with macLost := t.macLost ||| lost, macSat := t.macSat ||| sat, macSticky := t.macSticky ||| unit }
  if newLost = 0 ∧ newUnit = 0 then s
  else s.tellOwner (sectorPort (sectorOf p)) (s.ownerOf p)
    { code := 2, object := (s.tm p).logical, data := leBytes 4 newLost.toNat ++ leBytes 4 newUnit.toNat ++ leBytes 4 0 }

/-! ## Free values -/

/-- The model's counter of free values moves on; the value drawn is `Config.free` of the old count. -/
def State.draw (s : State) : Nat × State := (s.drawn, { s with drawn := s.drawn + 1 })

end Sys2Proof.Machine
end

