-- ==== Sys2Proof/Machine/Sram.lean ====
section
/-!
DEFINITION. Machine/Sram.lean: device addresses and areas (R36), on-chip SRAM words with SECDED(39,32) (R301 to R308),
the Correction Tracker (R457, R458).
-/
namespace Sys2Proof.Machine

/-! ## Areas of the device address map (Table 01-4) -/

/-- What a device address, alias bits 0, locates. -/
inductive Area where
  | data (p : Nat)
  | tap (p : Nat)
  | ctx (p : Nat)
  | line (cell : Nat)
  | sys
  | csr
  | dram
  | hole
  deriving DecidableEq, Repr

def dataBase (p : Nat) : Nat := 0x40000 * p
def tapBase (p slice : Nat) : Nat := 0x04000000 + 0x4000 * p + 0x400 * slice
def ctxBase (p frame : Nat) : Nat := 0x08000000 + 0x10000 * p + 0x400 * frame
def cellBase (n : Nat) : Nat := 0x10000000 + 0x100 * n
def dramBase : Nat := 0x1000000000

/-- Table 01-4, for an address whose alias bits are 0. -/
def areaOf (a : Nat) : Area :=
  if a < 0x04000000 then (if a % 0x40000 < 0x30000 then .data (a / 0x40000) else .hole)
  else if a < 0x04400000 then .tap ((a - 0x04000000) / 0x4000)
  else if 0x08000000 ≤ a ∧ a < 0x09000000 then .ctx ((a - 0x08000000) / 0x10000)
  else if 0x10000000 ≤ a ∧ a < 0x11800000 then .line ((a - 0x10000000) / 0x100)
  else if 0x20000000 ≤ a ∧ a < 0x20400000 then .sys
  else if 0x30000000 ≤ a ∧ a < 0x40000000 then .csr
  else if 0x1000000000 ≤ a ∧ a < 0x1300000000 then .dram
  else .hole

/-- An area made of SRAM words. -/
def Area.sram : Area → Bool
  | .data _ | .tap _ | .ctx _ | .line _ | .sys => true
  | _ => false

/-- The partition that owns the data at an on-chip address (R47): a tile's OWNER, a cell's OWNER, the system. -/
def State.sramOwner (s : State) (a : Nat) : Nat :=
  match areaOf a with
  | .data p | .tap p | .ctx p => s.ownerOf p
  | .line n => (tget {} s.cells n).owner
  | _ => 16

/-! ## SECDED(39,32) -/

/-- The columns of the 32 data bits (Table 10-2). -/
def columns : List Nat :=
  [0x07, 0x0B, 0x0D, 0x0E, 0x13, 0x15, 0x16, 0x19, 0x1A, 0x1C, 0x23, 0x25, 0x26, 0x29, 0x2A, 0x2C]
  ++ [0x31, 0x32, 0x34, 0x38, 0x43, 0x45, 0x46, 0x49, 0x4A, 0x4C, 0x51, 0x52, 0x54, 0x58, 0x61, 0x62]

/-- The column of codeword bit `b`: a data bit's column, or 2^j for check bit j (R302). -/
def columnOf (b : Nat) : BitVec 7 :=
  if b < 32 then BitVec.ofNat 7 (columns.getD b 0) else BitVec.ofNat 7 (2 ^ (b - 32))

/-- The check bits of a data word (R302): the XOR of the columns of its 1 bits. -/
def checkBits (d : Word) : BitVec 7 :=
  (List.range 32).foldl (fun c b => if d.getLsbD b then c ^^^ columnOf b else c) 0

/-- The syndrome of a poisoned word (R304). -/
def poisonSyn : BitVec 7 := 0x7F#7

/-- What a syndrome means (Table 10-3). -/
inductive Verdict where
  | clean | corrected | poisoned | uncorrectable
  deriving DecidableEq, Repr

/-- Table 10-3: the data delivered and the verdict. -/
def decodeWord (d : Word) (syn : BitVec 7) : Word × Verdict :=
  if syn = 0 then (d, .clean)
  else if syn = poisonSyn then (d, .poisoned)
  else if (List.range 7).any (fun j => syn = BitVec.ofNat 7 (2 ^ j)) then (d, .corrected)
  else match (List.range 32).find? (fun b => syn = columnOf b) with
    | some b => (d ^^^ (1#32 <<< b), .corrected)
    | none => (d, .uncorrectable)

def Verdict.isPoison : Verdict → Bool
  | .poisoned | .uncorrectable => true
  | _ => false

/-! ## Words of the SRAMs -/

/-- The 32-bit word at an aligned address, as stored. -/
def Memory.raw (m : Memory) (a : Nat) : Word :=
  m.byte (a + 3) ++ m.byte (a + 2) ++ m.byte (a + 1) ++ m.byte a

/-- The stored syndrome of a word. -/
def Memory.synOf (m : Memory) (a : Nat) : BitVec 7 := tget 0 m.syn (a / 4)

/-- A read through the check code (R303): data delivered, verdict. -/
def Memory.read (m : Memory) (a : Nat) : Word × Verdict := decodeWord (m.raw a) (m.synOf a)

/-- A whole-word write (R301, R308): new data with a correct code, or with the poison syndrome. -/
def Memory.write (m : Memory) (a : Nat) (d : Word) (poison : Bool) : Memory :=
  let m := m.setBytes a (leBytes 4 d.toNat)
  { m with syn := tset 0 m.syn (a / 4) (if poison then poisonSyn else 0) }

/-! ## Correction Trackers (R457, R458) -/

/-- The tracker that covers an on-chip address (R457). -/
def trackerOf (a : Nat) : Nat :=
  match areaOf a with
  | .data p | .tap p | .ctx p => p
  | .line n => 256 + n / 1024 / 8
  | _ => 268

/-- A number for the SRAM bank of an on-chip address (Table 10-1). -/
def bankOf (a : Nat) : Nat :=
  match areaOf a with
  | .data p => 16 * p + a % 0x40000 / 0x4000
  | .tap _ => 0x2000 + (a - 0x04000000) / 0x400
  | .ctx p => 0x4000 + 2 * p + (if a % 0x10000 < 0x4000 then 0 else 1)
  | .line n => 0x5000 + n / 1024
  | _ => 0x6000 + (a - 0x20000000) / 0x40000

/-- The bytes of one row of the bank (Table 10-1). -/
def rowBytes (a : Nat) : Nat :=
  match areaOf a with
  | .tap _ => 4
  | .ctx _ => 32
  | _ => 16

/-- The bank copies a row into a spare row: corrected words corrected, uncorrectable words poisoned (R458). -/
def Memory.spareRow (m : Memory) (a : Nat) : Memory :=
  let start := a / rowBytes a * rowBytes a
  (List.range (rowBytes a / 4)).foldl (fun m i =>
    let w := start + 4 * i
    match m.read w with
    | (_, .clean) | (_, .poisoned) => m
    | (d, .corrected) => m.write w d false
    | (d, .uncorrectable) => m.write w d true) m

def State.setMem (s : State) (m : Memory) : State := { s with mem := m }
def State.tracker (s : State) (g : Nat) : Tracker := tget {} s.mem.trackers g
def State.setTracker (s : State) (g : Nat) (t : Tracker) : State :=
  s.setMem { s.mem with trackers := tset {} s.mem.trackers g t }

/-- Logical address of a device address in a partition's own space, through its tile map and windows; 0 if nothing
maps to it (R460). -/
def State.logicalAddr (s : State) (q a : Nat) : Nat :=
  match areaOf a with
  | .data p => if s.ownerOf p = q ∧ (s.tm p).logical < 248 then dataBase (s.tm p).logical + a % 0x40000 else 0
  | .tap p => if s.ownerOf p = q ∧ (s.tm p).logical < 248 then tapBase (s.tm p).logical 0 + a % 0x4000 else 0
  | _ =>
    match (List.range 16).find? (fun e =>
        let w := tget {} s.win (16 * q + e)
        w.valid && decide (w.devBase * 4096 ≤ a) && decide (a < (w.devBase + w.pages) * 4096)) with
    | some e => let w := tget {} s.win (16 * q + e); w.logBase * 4096 + (a - w.devBase * 4096)
    | none => 0

/-- The INTEGRITY event of the newest log entry (R461). -/
def State.tellIntegrity (s : State) (q source a status : Nat) : State :=
  if 15 < q then s
  else s.raiseEvent q
    { code := 0x42, status := status, object := source,
      data := leBytes 4 ((s.logNext + 2 ^ 32 - 1) % 2 ^ 32) ++ leBytes 2 source ++ leBytes 6 (s.logicalAddr q a) }

/-- An uncorrectable word found in data that nobody requested: logged, and its owner told (R455).
Finder: 1 scrub, 2 Cupping copy, 3 partial write. -/
def State.unreqUncorr (s : State) (q finder a : Nat) : State :=
  (s.logFault 4 q 0 0x10 0 finder a).tellIntegrity q 0x10 a stPoison

/-- `hard_fault` of an SRAM word (R458). -/
def State.hardFault (s : State) (a : Nat) : State :=
  let g := trackerOf a
  let q := s.sramOwner a
  let b := bankOf a
  let used := tget 0 s.mem.spared b
  let t := s.tracker g
  let s := s.setTracker g { t with hard := t.hard + 1 }
  if used < 2 then
    let m := s.mem.spareRow a
    let s := s.setMem { m with spared := tset 0 m.spared b (used + 1) }
    (s.logFault 4 q 0 0x11 g 1 a).tellIntegrity q 0x11 a stOk
  else match areaOf a with
    | .data p | .tap p | .ctx p =>
      s.raiseFault { cls := 3, part := q, source := 5, object := (s.tm p).logical, detail := 2, addr := a, tile := some p }
    | _ => s.logFault 5 q 0 0x11 g 2 a

/-- The entry of R457 that an eviction takes: the WATCH entry with the lowest COUNT, oldest first, else the oldest. -/
def evictEntry (es : List TrackEntry) : List TrackEntry :=
  let watch := es.filter fun e => !e.repaired
  match watch with
  | [] => es.drop 1
  | e0 :: r =>
    let v := r.foldl (fun b e => if e.count < b.count then e else b) e0
    es.erase v

/-- A corrected read of the word or line at `a` (R457): 1 write it back, 2 a hard fault, 0 neither; the tracker after. -/
def Tracker.hit (t : Tracker) (a : Nat) : Nat × Tracker :=
  let t := if t.entries.any (fun e => e.addr == a) then t
    else
      let t := if t.entries.length < 64 then t
        else { t with entries := evictEntry t.entries, evict := t.evict + 1 }
      { t with entries := t.entries ++ [{ addr := a }] }
  let es := t.entries.map fun e => if e.addr = a then { e with count := e.count + 1 } else e
  match es.find? (fun e => e.addr == a) with
  | none => (0, t)
  | some e =>
    if !e.repaired && e.count == 4 then
      (1, { t with entries := es.map fun e => if e.addr = a then { e with repaired := true, count := 0 } else e, repairs := t.repairs + 1 })
    else if e.repaired && e.count == 2 then (2, { t with entries := es.filter fun e => e.addr != a })
    else (0, { t with entries := es })

/-- A corrected read of the word at `a` (R457). -/
def State.trackCorrected (s : State) (a : Nat) : State :=
  let (act, t) := (s.tracker (trackerOf a)).hit a
  let s := s.setTracker (trackerOf a) t
  if act = 1 then s.setMem (s.mem.write a (s.mem.read a).1 false) else if act = 2 then s.hardFault a else s

/-- A write by a requester frees the tracker entry of the word (R457). -/
def State.trackWrite (s : State) (a : Nat) : State :=
  let g := trackerOf a
  let t := s.tracker g
  if t.entries.any (fun e => e.addr == a) then
    s.setTracker g { t with entries := t.entries.filter fun e => e.addr != a }
  else s

/-! ## Accesses by requesters -/

/-- A read of an SRAM word by a requester: data, poison, and the state with the tracker told (R303, R307, R457). -/
def State.readWord (s : State) (a : Nat) : Word × Bool × State :=
  match s.mem.read a with
  | (d, .corrected) => (d, false, s.trackCorrected a)
  | (d, v) => (d, v.isPoison, s)

/-- A whole-word write by a requester (R308). -/
def State.writeWord (s : State) (a : Nat) (d : Word) (poison : Bool) : State :=
  (s.setMem (s.mem.write a d poison)).trackWrite a

/-- A partial write by a requester (R308): `f` merges into the old word. `false`: the word is poisoned or
uncorrectable, the write is discarded and the word is left poisoned. -/
def State.modifyWord (s : State) (a : Nat) (f : Word → Word) (poison : Bool) : Bool × State :=
  match s.mem.read a with
  | (_, .poisoned) => (false, s)
  | (d, .uncorrectable) =>
    (false, (s.setMem (s.mem.write a d true)).unreqUncorr (s.sramOwner a) 3 a)
  | (d, .corrected) => (true, (s.trackCorrected a).writeWord a (f d) poison)
  | (d, .clean) => (true, s.writeWord a (f d) poison)

/-- The bytes of a range as delivered through the check code, without telling the trackers. -/
def Memory.bytesAt (m : Memory) (a n : Nat) : List Byte :=
  (List.range n).map fun i =>
    let w := (m.read ((a + i) / 4 * 4)).1
    BitVec.ofNat 8 (w.toNat / 2 ^ (8 * ((a + i) % 4)))

/-- Some word of a range delivers poison. -/
def Memory.poisonAt (m : Memory) (a n : Nat) : Bool :=
  (List.range (((a + n + 3) / 4) - a / 4)).any fun i => (m.read (4 * (a / 4 + i))).2.isPoison

end Sys2Proof.Machine
end

