-- ==== Sys2Proof/Machine/Operands.lean ====
section
/-!
DEFINITION. Machine/Operands.lean: every field of a context (chapter 03, Tables 02-5, 02-7, 02-9, 02-12, 04-4, 04-6, 04-9),
the links between home positions (R52, R53, R92) and the fences over them (R120).
-/
namespace Sys2Proof.Machine

/-! ## Links between home positions -/

/-- Identity of the link into input `j` of home `h`. -/
def linkId (h j : Nat) : Nat := 20 * h + j

/-- Identity of the egress direction of edge port EDGE_W_y_k (side 0) or EDGE_E_y_k (side 1). -/
def edgeOut (side y k : Nat) : Nat := 5120 + 64 * side + 4 * y + k

/-- The link that output `j` of the tile at home `h` drives, by its receiving end; `none`: the link is absent
(R52, R53), with a spare home as the straight-through junction of R92. -/
def outLink (h j : Nat) : Option Nat :=
  let x := h % 16
  let y := h / 16
  let k := j % 4
  if spareHome h then none
  else if j < 4 then
    let y' := if spareHome (16 * (y + 1) + x) then y + 2 else y + 1
    if y' > 15 then none else some (linkId (16 * y' + x) (8 + k))
  else if j < 8 then
    let x' := if x < 15 ∧ spareHome (16 * y + (x + 1)) then x + 2 else x + 1
    if x' > 15 then some (edgeOut 1 y k) else some (linkId (16 * y + x') (12 + k))
  else if j < 12 then
    if y = 0 then none
    else
      let y' := if spareHome (16 * (y - 1) + x) then y - 2 else y - 1
      some (linkId (16 * y' + x) k)
  else if j < 16 then
    if x = 0 then some (edgeOut 0 y k)
    else
      let x' := if spareHome (16 * y + (x - 1)) then x - 2 else x - 1
      some (linkId (16 * y + x') (4 + k))
  else if j = 16 then
    if y + 4 > 15 ∨ spareHome (16 * (y + 4) + x) then none else some (linkId (16 * (y + 4) + x) 18)
  else if j = 17 then
    if x + 4 > 15 ∨ spareHome (16 * y + (x + 4)) then none else some (linkId (16 * y + (x + 4)) 19)
  else if j = 18 then
    if y < 4 ∨ spareHome (16 * (y - 4) + x) then none else some (linkId (16 * (y - 4) + x) 16)
  else if j = 19 then
    if x < 4 ∨ spareHome (16 * y + (x - 4)) then none else some (linkId (16 * y + (x - 4)) 17)
  else none

/-- The home position at the array end of an edge port (R24, R93). -/
def edgeHome (side y : Nat) : Nat :=
  if side = 0 then 16 * y else if spareHome (16 * y + 15) then 16 * y + 14 else 16 * y + 15

/-- The home position that sends on a link, if a tile does. Links come in opposite pairs (R52), so the sender of
input `j` is the tile that output `j` reaches. -/
def linkSender (l : Nat) : Option Nat :=
  if l < 5120 then
    match outLink (l / 20) (l % 20) with
    | some d => if d < 5120 then some (d / 20) else none
    | none => none
  else some (edgeHome ((l - 5120) / 64) ((l - 5120) % 64 / 4))

/-- The home position that receives a link, if a tile does. -/
def linkReceiver (l : Nat) : Option Nat := if l < 5120 then some (l / 20) else none

/-- The link has a boundary queue: it crosses a sector edge or is an edge port (R54, R176). -/
def linkBoundary (l : Nat) : Bool :=
  match linkSender l, linkReceiver l with
  | some a, some b => sectorOf a != sectorOf b
  | _, _ => true

/-- Capacity of the receiving register or queue (R54). -/
def linkCap (l : Nat) : Nat := if linkBoundary l then 32 else 4

/-- The tile joined to a home stands behind its fence; a home that no tile holds is clamped (R91). -/
def State.homeFenced (s : State) (h : Nat) : Bool :=
  match s.tileAtHome h with
  | some p => (s.tile p).fenced
  | none => true

/-- A fence stands across a link: a tile fence at either end, or a sector fence at a sector's edge (R120). -/
def State.linkFenced (s : State) (l : Nat) : Bool :=
  let ends := (linkSender l).toList ++ (linkReceiver l).toList
  ends.any (fun h => s.homeFenced h) || (linkBoundary l && ends.any fun h => (s.sector (sectorOf h)).fenced)

/-- A word held at the receiving end of a link can be taken: no tile fence stands at either end and no sector fence at the
receiver's (R120, R181 to R183). A sector fence at the sender's end stands only while that sector sleeps or is about to,
and then the receiver gets every word already written (Table 05-4; log entry 85). -/
def State.linkReads (s : State) (l : Nat) : Bool :=
  !(((linkSender l).toList ++ (linkReceiver l).toList).any fun h => s.homeFenced h)
    && !(linkBoundary l && (linkReceiver l).any fun h => (s.sector (sectorOf h)).fenced)

/-- Credits the sender may use now: none across a fence (R120). -/
def State.credits (s : State) (l : Nat) : Nat :=
  if s.linkFenced l then 0 else linkCap l - (s.link l).spent

/-! ## Context fields -/

/-- The `n`-byte field at offset `o` of frame `f` of tile `p`, as the configuration multiplexers take it: the data
bits, without the check code (R98, R102). -/
def Memory.frameField (m : Memory) (p f o n : Nat) : Nat :=
  leNat ((List.range n).map fun i => m.byte (ctxBase p f + o + i))

/-- State of a hot slot; a slot number outside the bank is EMPTY. -/
def Tile.hotAt (t : Tile) (h : Nat) : HotState := t.hot.toList.getD h .empty

/-- FORMAT of the active context (Table 03-3). -/
def State.format (s : State) (p : Nat) : Nat := s.mem.frameField p (s.tile p).hotSlot 7 1

/-- A field of the active context; every field of a context whose FORMAT is not 0x01 is zero (Table 03-3), and a
slot that is not VALID holds an empty context (R107, R108). -/
def State.ctx (s : State) (p o n : Nat) : Nat :=
  if (s.tile p).hotAt (s.tile p).hotSlot = .valid ∧ s.format p = 1
  then s.mem.frameField p (s.tile p).hotSlot o n else 0

/-- CTX_ID of a frame, reported whatever FORMAT says (Table 03-3). -/
def Memory.ctxId (m : Memory) (p f : Nat) : Nat := field (m.frameField p f 0 8) 40 16

def State.countSrc (s : State) (p : Nat) : Nat := field (s.ctx p 0 8) 34 6
def State.countLast (s : State) (p : Nat) : Bool := field (s.ctx p 0 8) 33 1 == 1

/-- The switch byte of output `j` (Table 02-5). -/
def State.switchByte (s : State) (p j : Nat) : Nat := s.ctx p (8 + j) 1

/-- A select code that output `j` permits (Table 02-4). -/
def permitted (j c : Nat) : Bool :=
  if j < 20 then c == 0 || (decide (2 ≤ c) && decide (c < 40)) else decide (c < 36)

/-- The source that output `j` really has: NONE for a forbidden code, an absent input or an absent output (R53, R57). -/
def State.sel (s : State) (p j : Nat) : Nat :=
  let c := s.switchByte p j % 64
  match s.homeOf p with
  | none => 0
  | some h =>
    if !permitted j c then 0
    else if j < 20 ∧ (outLink h j).isNone then 0
    else if 2 ≤ c ∧ c < 22 ∧ (outLink h (c - 2)).isNone then 0
    else c

/-- The select of output `j` sets BAD_SELECT (R53, R57). -/
def State.badSelectAt (s : State) (p j : Nat) : Bool := s.switchByte p j % 64 != 0 && s.sel p j == 0

def State.onceAt (s : State) (p j : Nat) : Bool :=
  decide (20 ≤ j) && decide (j < 36) && field (s.switchByte p j) 7 1 == 1
def State.clrLast (s : State) (p j : Nat) : Bool := field (s.switchByte p j) 6 1 == 1

/-- The ALU control word (Table 02-7). -/
structure AluCtl where
  imm : Word
  op : Nat
  cond : Nat
  sgn : Bool
  bsrc : Bool
  lsel : Bool
  deriving DecidableEq, Repr

def State.aluCtl (s : State) (p n : Nat) : AluCtl :=
  let v := s.ctx p (0x30 + 12 * n) 12
  { imm := BitVec.ofNat 32 (field v 64 32), op := field v 58 6, cond := field v 55 3, sgn := field v 54 1 == 1,
    bsrc := field v 53 1 == 1, lsel := field v 52 1 == 1 }

/-- The memory port control word (Table 02-9). -/
structure PortCtl where
  mode : Nat
  base : Nat
  stride : Nat
  count : Nat
  deriving DecidableEq, Repr

def State.portCtl (s : State) (p k : Nat) : PortCtl :=
  let v := s.ctx p (0x60 + 8 * k) 8
  { mode := field v 61 3, base := field v 45 16, stride := field v 29 16, count := field v 13 16 }

/-- An enqueue endpoint is enabled (R76). -/
def State.enqOn (s : State) (p k : Nat) : Bool := field (s.ctx p (0x70 + 4 * k) 4) 31 1 == 1

/-- A dequeue endpoint word (Table 02-12), as the context holds it. -/
structure DeqCtl where
  en : Bool
  geom : DeqGeom
  src : Nat
  thresh : Nat
  flag : Nat
  sig : Bool
  deriving DecidableEq, Repr

def State.deqRaw (s : State) (p k : Nat) : DeqCtl :=
  let v := s.ctx p (0x80 + 8 * k) 8
  { en := field v 63 1 == 1,
    geom := { kind := field v 61 2, bank := field v 51 4, base := field v 39 12, size := field v 26 13 },
    src := field v 55 6, thresh := field v 13 13, flag := field v 8 5, sig := field v 7 1 == 1 }

/-- A dequeue endpoint word that R78 disables. -/
def DeqCtl.invalid (c : DeqCtl) : Bool :=
  decide (c.geom.kind > 1)
    || !((decide (2 ≤ c.src) && decide (c.src < 22)) || (decide (36 ≤ c.src) && decide (c.src < 40)))
    || (c.geom.kind == 1 && (decide (c.geom.bank > 11) || c.geom.size == 0 || decide (c.geom.size > 4096)))

/-- Capacity of a queue: 16 for a flop FIFO, SIZE for a ring (R78). -/
def DeqGeom.cap (g : DeqGeom) : Nat := if g.kind = 0 then 16 else g.size

/-- A flop FIFO ignores BANK, BASE and SIZE (R78), so its geometry is only its KIND. -/
def DeqGeom.norm (g : DeqGeom) : DeqGeom := if g.kind = 0 then {} else g

/-- The dequeue endpoint as it acts: disabled by EN or by R78. -/
def State.deqCtl (s : State) (p k : Nat) : DeqCtl :=
  let c := s.deqRaw p k
  { c with en := c.en && !c.invalid }

/-- THRESH as it acts: at most the capacity (R78). -/
def State.deqThresh (s : State) (p : Nat) (k : Fin 4) : Nat :=
  min (s.deqRaw p k).thresh (s.tile p).deq[k].geom.cap

/-- The MAC mode byte (Table 03-4). -/
def State.macMode (s : State) (p u : Nat) : Nat := s.ctx p (0x3A0 + u) 1
def State.macOn (s : State) (p u : Nat) : Bool := s.macMode p u % 2 == 1
def State.macCplx (s : State) (p u : Nat) : Bool := s.macMode p u / 2 % 2 == 1
def State.macSatAcc (s : State) (p u : Nat) : Bool := s.macMode p u / 4 % 2 == 1

/-- Instruction `n` of the program of MAC_u (Table 03-1). -/
def State.macInstr (s : State) (p u n : Nat) : Nat := s.ctx p (0xA0 + 0x40 * u + 4 * n) 4

/-- Coefficient `c` of slice `v` of MAC_u (Table 03-1). -/
def State.coeff (s : State) (p u v c : Nat) : BitVec 16 :=
  BitVec.ofNat 16 (s.ctx p (0x1A0 + 0x20 * (4 * u + v) + 2 * c) 2)

/-! ## Fields of a MAC instruction (Tables 04-4, 04-6, 04-9) -/

def miOp (i : Nat) : Nat := field i 26 6
def miYp (i : Nat) : Bool := field i 25 1 == 1
def miPa (i : Nat) : Nat := field i 23 2
def miMa (i : Nat) : Nat := field i 21 2
def miPb (i : Nat) : Nat := field i 19 2
def miMb (i : Nat) : Nat := field i 17 2
def miClr (i : Nat) : Bool := field i 16 1 == 1
def miNeg (i : Nat) : Bool := field i 15 1 == 1
def miCinc (i : Nat) : Bool := field i 14 1 == 1
def miUa (i : Nat) : Bool := field i 13 1 == 1
def miUb (i : Nat) : Bool := field i 12 1 == 1
def miMask (i : Nat) : Nat := field i 8 4
def miK (i : Nat) : Nat := field i 3 5
def miHalf (i : Nat) : Nat := field i 1 2
def miFmt (i : Nat) : Nat := field i 22 3
def miSa (i : Nat) : Nat := field i 20 2
def miSb (i : Nat) : Nat := field i 18 2
def miLm (i : Nat) : Nat := field i 16 2
def miOutK (i : Nat) : Nat := field i 11 5
def miReg (i : Nat) : Nat := field i 21 4
def miSetMask (i : Nat) : Nat := field i 17 4
def miLane (i : Nat) : Nat := field i 9 8
def miValue (i : Nat) : Nat := field i 0 9
def miLen (i : Nat) : Nat := field i 20 5
def miCount (i : Nat) : Nat := field i 0 13
def miW (i : Nat) : Nat := field i 0 5
def miTarget (i : Nat) : Nat := field i 0 4

/-- Bit `v` of a slice mask. -/
def inMask (m v : Nat) : Bool := field m v 1 == 1

/-- The instruction is NOP by R144: a reserved opcode, or a reserved code in a field the opcode uses. -/
def miReserved (i : Nat) : Bool :=
  let op := miOp i
  let kBad (k : Nat) : Bool := decide (24 < k) && decide (k < 31)
  if op = 0x00 then false
  else if 0x01 ≤ op ∧ op ≤ 0x05 then false
  else if op = 0x08 then miHalf i == 3
  else if op = 0x09 then decide (miFmt i > 5) || miLm i == 3 || kBad (miOutK i)
  else if op = 0x0A then kBad (miK i)
  else if op = 0x0B then decide (miW i < 2) || decide (miW i > 16)
  else if op = 0x10 then decide (miReg i > 9)
  else if op = 0x18 then decide (miLen i > 16) || decide (miCount i > 4096)
  else if op = 0x19 then false
  else if op = 0x1A then false
  else true

/-- Accumulating instructions (Table 04-5). -/
def miAccumulates (i : Nat) : Bool := decide (1 ≤ miOp i) && decide (miOp i ≤ 5)

end Sys2Proof.Machine
end

