-- ==== Sys2Proof/Machine/Mesh.lean ====
section
/-!
DEFINITION. Machine/Mesh.lean: the transaction mesh (chapter 09): destinations, routes, tags, virtual channels and
credits, slot tables, fence proxies, drain and apply, link errors, with the commands of its routers.
-/
namespace Sys2Proof.Machine

/-! ## Placing DRAM addresses (R316) -/

/-- Bytes of one bank region, G = C / 16. -/
def Memory.regionBytes (m : Memory) : Nat := m.capacity / 16

/-- The channel that serves a DRAM address below the capacity. -/
def Memory.channelOf (m : Memory) (a : Nat) : Nat := (a - dramBase) % max 1 m.regionBytes / 64 % 12

/-! ## Destinations (Table 09-3) -/

def portRouter (d : Nat) : Nat := 8 * (d / 8 % 8) + d / 64
def portNumber (d : Nat) : Nat := d % 8

/-- Port of a host port. -/
def hostPort (n : Nat) : Nat := meshPort (if n < 2 then 0 else 7) 0 (if n % 2 = 0 then 3 else 5)

def tilePort (p : Nat) : Nat := meshPort (p % 16 / 2) (p / 32) 0
def tileSub (p : Nat) : Nat := 2 * (p / 16 % 2) + p % 2

/-- The port that answers an address of the control and status space. -/
def csrPort (a : Nat) : Option Nat :=
  let o := a - 0x30000000
  let r := o / 0x1000000
  let x := o % 0x1000000
  if r = 1 then (if x < 0x800000 then some (sectorPort (x / 0x100000)) else none)
  else if r = 2 then (if x < 0x400000 then some (lanePort (x / 0x10000)) else none)
  else if r = 3 then (if x < 0xC0000 then some (dramPort (x / 0x10000)) else none)
  else if r = 4 then
    (if x < 0x40000 then some (meshPort (x / 0x1000 % 8) (x / 0x8000) 7)
     else if 0x80000 ≤ x ∧ x < 0x90000 then some 7 else none)
  else if r = 5 then (if x < 0x400000 then some (hostPort (x / 0x100000)) else none)
  else if r = 6 then some (meshPort 0 0 4)
  else if r = 11 then some (meshPort 7 0 6)
  else if r = 0 ∨ r = 7 ∨ r = 8 ∨ r = 9 ∨ r = 10 then some baristaPort
  else none

/-- Destination router and port of a device address, and its sub-endpoint; `none`: a hole that never enters the mesh
(R280). -/
def State.destOf (s : State) (addr : Nat) : Option (Nat × Nat) :=
  let ali := addr / 2 ^ 44
  let a := addr % 2 ^ 44
  if 3 ≤ ali then none
  else match areaOf a with
  | .data p => some (tilePort p, tileSub p)
  | .tap p | .ctx p => if ali = 0 then some (tilePort p, tileSub p) else none
  | .line n => some (if n / 1024 < 48 then meshPort 0 (n / 6144) 4 else meshPort 7 ((n / 1024 - 48) / 6) 2, 0)
  | .sys => some (baristaPort, 0)
  | .csr => if ali = 0 then (csrPort a).map fun d => (d, 0) else none
  | .dram => if a - dramBase < s.mem.capacity then some (dramPort (s.mem.channelOf a), 0) else none
  | .hole => none

/-! ## Routers -/

/-- Port `p` of router `r` is present (Table 09-2). -/
def portPresent (r p : Nat) : Bool :=
  let i := r % 8
  let j := r / 8
  let side := i == 0 || i == 7
  if p = 1 then decide (j < 7) || !side
  else if p = 5 then side && (j == 0 || j % 2 == 1)
  else if p = 6 then side && j == 0
  else true

/-- The router and input port that output `o` of router `r` is joined to, if it is a link between routers. -/
def nextRouter (r o : Nat) : Option (Nat × Nat) :=
  let i := r % 8
  let j := r / 8
  if o = 1 ∧ j < 7 then some (r + 8, 3)
  else if o = 2 ∧ i < 7 then some (r + 1, 4)
  else if o = 3 ∧ 0 < j then some (r - 8, 1)
  else if o = 4 ∧ 0 < i then some (r - 1, 2)
  else none

/-- X, then Y, then the local port (R281). -/
def routeOf (r dst : Nat) : Nat :=
  let i := r % 8
  let j := r / 8
  let di := dst / 64
  let dj := dst / 8 % 8
  if i < di then 2 else if di < i then 4 else if j < dj then 1 else if dj < j then 3 else dst % 8

/-- Data flits of a packet: 1 + ceil(max(D − 16, 0) / 32) (R285). -/
def Packet.flits (k : Packet) : Nat := 1 + (k.data.length - 16 + 31) / 32

/-- Response-class packets (Table 09-6). -/
def Packet.isResponse (k : Packet) : Bool := decide (0x80 < k.opc)
/-- Opcodes that Table 09-6 reserves. -/
def Packet.reservedOpc (k : Packet) : Bool := k.opc == 0 || (decide (6 < k.opc) && decide (k.opc < 0x81)) || decide (0x82 < k.opc)
def Packet.vc (k : Packet) : Nat := 2 * k.part + bit k.isResponse

/-! ## Flits on a link (R282 to R284, R297) -/

/-- The flit of a packet that carries data byte `k` (R284). -/
def flitOf (k : Nat) : Nat := if k < 16 then 0 else 1 + (k - 16) / 32

/-- The POISON bits of the flits that carry poisoned bytes. -/
def flitMask (len : Nat) (bad : Nat → Bool) : Nat :=
  (List.range 9).foldl (fun m f => if (List.range len).any (fun k => flitOf k == f && bad k) then m + 2 ^ f else m) 0

/-- The header of a packet (Table 09-5), its reserved bits 0. -/
def Packet.header (k : Packet) : Nat :=
  k.opc % 2 ^ 8 + k.len % 2 ^ 9 * 2 ^ 8 + k.tag % 2 ^ 17 * 2 ^ 32 + k.epoch % 2 ^ 4 * 2 ^ 49 + k.src % 2 ^ 9 * 2 ^ 53
    + k.dst % 2 ^ 9 * 2 ^ 62 + k.sub % 2 ^ 2 * 2 ^ 71 + (if k.isResponse then k.status % 2 ^ 16 else k.addr % 2 ^ 48) * 2 ^ 80

/-- The 256 data bits of a flit: header and 16 bytes, or 32 bytes (R284). -/
def Flit.dataBits (f : Flit) : Nat :=
  if f.idx = 0 then f.pkt.header + leNat (f.pkt.data.take 16) * 2 ^ 128
  else leNat ((f.pkt.data.drop (16 + 32 * (f.idx - 1))).take 32)

/-- An odd number of the `w` bits from bit `lo` on is 1. -/
def oddBits (n lo w : Nat) : Bool := (List.range w).foldl (fun b i => b != n.testBit (lo + i)) false

/-- The sideband of a flit (Table 09-4). -/
def Flit.sideband (f : Flit) : Nat :=
  let top := f.pkt.vc * 8 + bit (f.idx == 0) * 4 + bit (f.idx + 1 == f.pkt.flits) * 2 + bit f.poison
  top * 2 ^ 9 + bit (oddBits top 0 9) * 2 ^ 8 + bitsOf (fun w => oddBits f.dataBits (32 * w) 32) 8

/-- The 274 wires of a link that carries the flit: the data bits, then the sideband. -/
def Flit.wires (f : Flit) : Nat := f.dataBits + f.sideband * 2 ^ 256

/-- What the receiver's parity check finds on the wires of a link (R297). -/
inductive LinkFault where
  /-- nothing -/
  | clean
  /-- PAR fails -/
  | data
  /-- SBPAR fails -/
  | sideband
  deriving DecidableEq, Repr

def checkWires (n : Nat) : LinkFault :=
  if oddBits n (256 + 8) 10 then .sideband
  else if (List.range 8).any fun w => oddBits n (32 * w) 32 != n.testBit (256 + w) then .data
  else .clean

/-- The finding when the link flips some of the wires. DESIGN CHOICE (log entry 91): flips that no parity bit sees change nothing. -/
def Flit.check (f : Flit) (flips : List (Fin 274)) : LinkFault :=
  checkWires (flips.eraseDups.foldl (fun n i => n ^^^ 2 ^ i.val) f.wires)

/-! ## The state of routers and virtual channels -/

def State.router (s : State) (r : Nat) : Router := tget {} s.mesh.routers r
def State.updRouter (s : State) (r : Nat) (f : Router → Router) : State :=
  { s with mesh := { s.mesh with routers := tset {} s.mesh.routers r (f (s.router r)) } }
def vcKey (r a v : Nat) : Nat := (8 * r + a) * 64 + v
def State.vcBuf (s : State) (x : Nat) : VcBuf := tget {} s.mesh.vc x
def State.updVc (s : State) (x : Nat) (f : VcBuf → VcBuf) : State :=
  { s with mesh := { s.mesh with vc := tset {} s.mesh.vc x (f (s.vcBuf x)) } }

def State.portVc (s : State) (x : Nat) : PortVc := tget {} s.mesh.outs x
def State.setPortVc (s : State) (x : Nat) (b : PortVc) : State :=
  { s with mesh := { s.mesh with outs := tset {} s.mesh.outs x b } }

/-- Owner of a slot byte: 17 to 30 act as idle (Table 09-9). -/
def slotOwner (b : BitVec 8) : Option Nat := if b.toNat % 32 < 17 then some (b.toNat % 32) else none

def Router.slotAt (r : Router) (k : Nat) : BitVec 8 := tget 0x10#8 r.slot k
def Router.nextAt (r : Router) (k : Nat) : BitVec 8 := tget 0x10#8 r.slotNext k

/-- The partition is affected by the waiting table or enables (R295). -/
def Router.affected (r : Router) (q : Nat) : Bool :=
  r.vcEn.getLsbD q != r.vcEnNext.getLsbD q ||
    (List.range 64).any fun k =>
      let a := slotOwner (r.slotAt k)
      let b := slotOwner (r.nextAt k)
      a != b && (a == some q || b == some q)

/-- New heads of the partition are withheld (R295). -/
def Router.withholds (r : Router) (q : Nat) : Bool := r.draining && r.affected q

/-- The SOURCE codes of system events that carry no status of their own (Table 14-9). -/
def sysSources : List Nat := [0x20, 0x21, 0x30, 0x50, 0x52, 0x53, 0x54, 0x55]

/-- A system event for which Table 14-9 names no source: its source is one of the table's and its detail a free value (log
entry 35). -/
def State.sysOpen (s : State) (object : Nat) : State :=
  let (a, s) := s.draw
  let (b, s) := s.draw
  s.sysFault (sysSources.getD (Sys2Proof.Config.free a % 8) 0x20) object (Sys2Proof.Config.free b % 2 ^ 32)

def State.setRtSticky (s : State) (r : Nat) (b : BitVec 32) : State :=
  s.updRouter r fun x => { x with sticky := x.sticky ||| b }

/-! ## Packets entering the mesh -/

/-- The network interface can put flit `n` of the packet into a VC buffer (R287, R295). -/
def State.canPut (s : State) (r x : Nat) (k : Packet) (n : Nat) : Bool :=
  let b := s.vcBuf x
  decide (b.spent < 4) &&
    (if n = 0 then b.open_.isNone && !(s.router r).withholds k.part else b.open_ == some k.id)

/-- The flits of a packet leave a buffer, and their credits return. -/
def VcBuf.cut (b : VcBuf) (id : Nat) : VcBuf :=
  let n := (b.flits.filter fun f => f.pkt.id == id).length
  let owns := b.open_ == some id || b.flits.any fun f => f.pkt.id == id
  { b with flits := b.flits.filter (fun f => f.pkt.id != id), credBack := b.credBack + n
           open_ := if b.open_ = some id then none else b.open_
           drop := if b.drop = some id then none else b.drop
           route := if owns && n == b.flits.length then none else b.route
           held := b.held && n == 0 }

/-- No packet of that number is open on the link to a local port any more. -/
def State.closePort (s : State) (x id : Nat) : State := if (s.portVc x).open_ = some id then s.setPortVc x {} else s

/-- A packet vanishes from the mesh: every flit of it, its VCs, and what is left of it at its source. -/
def State.purge (s : State) (id : Nat) : State :=
  let s := (s.mesh.vc.map (·.1)).foldl (fun s x => State.updVc s x fun b => b.cut id) s
  let s := (s.mesh.outs.map (·.1)).foldl (fun s x => State.closePort s x id) s
  { s with mesh := { s.mesh with inject := s.mesh.inject.filter fun e => e.1.id != id } }

/-- What of a packet has passed input `a` of router `r` vanishes, along its route. -/
def State.purgeOn (s : State) (k : Packet) (r a : Nat) : Nat → State
  | 0 => s
  | fuel + 1 =>
    let s := s.updVc (vcKey r a k.vc) fun b => b.cut k.id
    let o := routeOf r k.dst
    match nextRouter r o with
    | some (r', a') => s.purgeOn k r' a' fuel
    | none => s.closePort (vcKey r o k.vc) k.id

/-- The response to a request, from its target's port (R284, R286). A requester outside the model takes it from
`readOut`: status, poison flag, data. -/
def State.answer (s : State) (req : Packet) (status : Nat) (data : List Byte) (poison : Nat := 0) : State :=
  if req.purpose = .outside then { s with readOut := leBytes 2 status ++ leBytes 1 (bit (poison != 0)) ++ data }
  else
    let opc := if req.opc = 1 ∨ req.opc = 3 then 0x81 else 0x82
    let k : Packet :=
      { part := req.part, opc := opc, status := status, dst := req.src, src := req.dst, sub := req.sub
        epoch := req.epoch, tag := req.tag, len := data.length, data := data, poison := poison
        purpose := req.purpose, id := s.mesh.nextId }
    { s with mesh := { s.mesh with nextId := s.mesh.nextId + 1, inject := s.mesh.inject ++ [(k, 0)] } }

/-- A packet is lost to a parity error at a port of router `r` (R297, R441): reported, and kept for re-issue when it is a
request of the system partition. -/
def State.linkLost (s : State) (r port : Nat) (k : Packet) (fault : LinkFault) : State :=
  let s := s.setRtSticky r 1
  let s := if k.part = 16 ∧ !k.isResponse then { s with mesh := { s.mesh with lost := s.mesh.lost ++ [k] } } else s
  if fault = .sideband then
    ((List.range 16).filter fun q => (s.router r).vcEn.getLsbD q).foldl (fun s q =>
      State.raiseFault s { cls := 2, part := q, source := 3, object := r, detail := port }) (s.sysFault 0x50 r port)
  else if k.part = 16 then s.sysFault 3 r port
  else s.raiseFault { cls := 2, part := k.part, source := 3, object := r, detail := port }

/-- A body flit's data fail their parity (R297): the flit is poisoned and goes on. -/
def State.linkPoison (s : State) (r port : Nat) (k : Packet) : State :=
  let s := s.setRtSticky r 1
  if k.part = 16 then s.sysFault 3 r port
  else s.raiseFault { cls := 2, part := k.part, source := 3, object := r, detail := port }

/-- A packet is lost whole to a finding at its flit `n`. -/
def LinkFault.loses (e : LinkFault) (n : Nat) : Bool := e == .sideband || (e == .data && n == 0)

/-- A flit reaches input `a` of router `r`: parity, the VC's enable, then the buffer (R296, R297). A packet that is
discarded here is so to its tail, and what of it had gone on before vanishes. -/
def State.arriveFlit (s : State) (r a : Nat) (f : Flit) (fault : LinkFault) : State :=
  let k := f.pkt
  let x := vcKey r a k.vc
  let gone := f.idx ≠ 0 && (s.vcBuf x).drop == some k.id
  let bad := !gone && fault.loses f.idx
  let off := !gone && !bad && f.idx == 0 && !(s.router r).vcEn.getLsbD k.part
  let s := if bad then (s.purgeOn k r a 16).linkLost r a k fault
    else if off then
      (let s := s.setRtSticky r 0x10; if k.isResponse then s else s.answer k stWrongPartition [])
    else if !gone && fault == .data then s.linkPoison r a k
    else s
  let last := f.idx + 1 == k.flits
  let opened : Option Nat := if last then none else some k.id
  if gone || bad || off then
    s.updVc x fun b => { b with spent := b.spent + 1, credBack := b.credBack + 1, open_ := opened, drop := opened }
  else
    s.updVc x fun b =>
      { b with flits := b.flits ++ [{ f with poison := f.poison || fault == .data }], spent := b.spent + 1, open_ := opened }

/-- Flits of one waiting packet enter its router while there is room. -/
def State.pumpOne (s : State) (id : Nat) : Nat → State
  | 0 => s
  | fuel + 1 =>
    match s.mesh.inject.find? (fun e => e.1.id == id) with
    | none => s
    | some (k, n) =>
      let r := portRouter k.src
      let x := vcKey r (portNumber k.src) k.vc
      if s.canPut r x k n then
        let rest := if n + 1 = k.flits then s.mesh.inject.filter (fun e => e.1.id != id)
          else s.mesh.inject.map fun e => if e.1.id = id then (k, n + 1) else e
        let s := { s with mesh := { s.mesh with inject := rest } }
        (s.arriveFlit r (portNumber k.src) { pkt := k, idx := n, poison := k.poison.testBit n } .clean).pumpOne id fuel
      else s

/-- The network interfaces put in what fits, in order. -/
def State.pump (s : State) : State := (s.mesh.inject.map (·.1.id)).foldl (fun s id => State.pumpOne s id 9) s

/-! ## Tags (R292, R293) -/

/-- The tag quota of a partition; the system partition holds at most 8,192. -/
def Mesh.quota (m : Mesh) (q : Nat) : Nat := if q < 16 then tget 0 m.tagQuota q else 8192
/-- CMD, EVT and RPL packets do not draw on their partition's tag quota: a partition without tags still has its commands
answered. -/
def Purpose.exempt : Purpose → Bool
  | .command _ | .reply _ | .event _ => true
  | _ => false

/-- The response to it goes to the block that issued it and does no more than free its tag, or have it sent again. -/
def Purpose.plain (p : Purpose) : Bool := p.exempt || p == .register

/-- The partition whose tags a packet takes. DEDUCED (log entry 34): CMD, EVT and RPL packets take the system partition's. -/
def Purpose.pool (p : Purpose) (q : Nat) : Nat := if p.exempt then 16 else q

/-- Tags that a partition holds. -/
def Mesh.held (m : Mesh) (q : Nat) : Nat := (m.txns.filter fun x => x.purpose.pool x.part == q).length

/-- A tag is left for a packet: of its pool's quota, and of the device's 131,072 (R291, R292). -/
def Mesh.tagFree (m : Mesh) (k : Packet) : Bool :=
  let q := k.purpose.pool k.part
  decide (m.held q < m.quota q) && decide (m.txns.length < 2 ^ 17)

/-- The current epoch of a partition; the system partition has none. -/
def State.epochOf (s : State) (q : Nat) : Nat := if q < 16 then tget 0 s.mesh.epoch q else 0

/-- The port a packet goes to and, for a memory or register request, whether there is one (R280). -/
def State.targetOf (s : State) (k : Packet) : Option Nat :=
  if k.opc = 1 ∨ k.opc = 2 ∨ k.opc = 3 then (s.destOf k.addr).map (·.1) else some k.dst

/-- A request of a block of the device waits for its tag; it counts in TAG_WAITS when the pool is exhausted. A request for
a hole needs none (R280). -/
def State.issue (s : State) (k : Packet) : State :=
  let m := s.mesh
  let ahead := (m.waiting.filter fun x => x.purpose.pool x.part == k.part && (s.targetOf x).isSome).length
  let wait := !k.purpose.exempt && (s.targetOf k).isSome && decide (m.quota k.part ≤ m.held k.part + ahead)
  let s := s.enqueue k
  if wait ∧ k.part < 16 then
    { s with mesh := { s.mesh with tagWaits := tset 0 m.tagWaits k.part (tget 0 m.tagWaits k.part + 1) } }
  else s

/-- The tag of a response is freed. -/
def Mesh.freeTag (m : Mesh) (k : Packet) : Mesh :=
  { m with txns := m.txns.filter fun x => !(x.part == k.part && x.tag == k.tag) }

/-- The first tag number from `t` on that is not in use (R291). -/
def Mesh.freshTag (m : Mesh) (t : Nat) : Nat → Nat
  | 0 => t
  | fuel + 1 => if m.txns.any (fun x => x.tag == t) then m.freshTag ((t + 1) % 2 ^ 17) fuel else t

/-- The next waiting request of a partition, round robin by port after the one last served (R292). One for a hole needs no
tag (R280). -/
def State.nextWaiting (s : State) (q : Nat) : Option Packet :=
  let m := s.mesh
  let turn := tget 511 m.tagTurn q
  let ks := m.waiting.filter fun k => k.part == q && (m.tagFree k || (s.targetOf k).isNone)
  let key (k : Packet) : Nat := (k.src + 511 - turn) % 512
  ks.foldl (fun b k => match b with
    | none => some k
    | some x => if key k < key x then some k else b) none

/-- The answer that a request for a hole gets at its source (R38, R280). -/
def Packet.holeAnswer (k : Packet) (epoch : Nat) : Packet :=
  let read := k.opc == 1
  { k with opc := if k.opc = 1 ∨ k.opc = 3 then 0x81 else 0x82, epoch := epoch, status := stWrongPartition, tag := 2 ^ 17
           data := if read then List.replicate k.len 0 else [], poison := if read then flitMask k.len fun _ => true else 0 }

/-- TAG_GRANT (R280, R292): a waiting request takes a tag and enters the mesh with the partition's epoch. Which tag
number it takes is a free value. A request for a hole completes at its source. -/
def execTagGrant (q : Recip) (s : State) : Host.Outcome State Fault Refusal :=
  match s.nextWaiting q with
  | none => .next s
  | some k =>
    let gone := { s with mesh := { s.mesh with waiting := s.mesh.waiting.erase k } }
    match s.targetOf k with
    | none =>
      let s := gone.holeAccess k.addr
      .next { s with mesh := { s.mesh with answered := s.mesh.answered ++ [k.holeAnswer (s.epochOf q)] } }
    | some d =>
      let (n, s) := gone.draw
      let tag := s.mesh.freshTag (Sys2Proof.Config.free n % 2 ^ 17) s.mesh.txns.length
      let k := { k with dst := d, tag := tag, epoch := s.epochOf q }
      let m := s.mesh
      let m := { m with txns := m.txns ++ [{ part := q.val, tag := tag, epoch := k.epoch, purpose := k.purpose }]
                        tagTurn := tset 511 m.tagTurn q k.src, inject := m.inject ++ [(k, 0)]
                        unanswered := if 4 ≤ k.opc then m.unanswered ++ [k] else m.unanswered }
      .next ({ s with mesh := m }.pump)

/-! ## The fence proxy (R294) -/

/-- The sector that the proxy at a local port stands for: the quad's at port 0, the control block's at port 5. -/
def proxySector (r o : Nat) : Option Nat :=
  let i := r % 8
  let j := r / 8
  if o = 0 then some (sectorOf (16 * (2 * j) + 2 * i))
  else if o = 5 ∧ j ≠ 0 then (List.range 8).find? fun n => sectorPort n == meshPort i j 5
  else none

/-- The offset of a CTX_CTRL register in its sector's region (R131). -/
def ctxCtrlOffset (x : Nat) : Bool := decide (0xA0000 ≤ x) && decide (x < 0xA2000) && x % 0x100 == 4

/-- Registers of a sector control block that are supplied from VDD_SOC and answer in every state: the power block (R485),
and CTX_CTRL with the tiles' fences (R464, R474). -/
def alwaysOn (a : Nat) : Bool :=
  let x := (a - 0x30000000) % 0x100000
  areaOf a == .csr && (decide (x < 0x1000) || ctxCtrlOffset x)

/-- What the proxy does with a packet that leaves by a local port (Table 09-7): 0 pass, 1 hold, 2 answer. Past the point
of no return it answers (R473); the responses of a Cold wake's refill pass (R466). -/
def State.proxy (s : State) (r o : Nat) (k : Packet) : Nat :=
  match proxySector r o with
  | none => 0
  | some n =>
    let x := s.sector n
    if o = 5 ∧ !k.isResponse ∧ alwaysOn k.addr then 0
    else match x.pstate with
      | .brew => 0
      | .steep => if x.committed then 2 else 1
      | _ => if k.isResponse ∧ x.waking ∧ k.epoch = s.epochOf k.part then 0 else 2

/-! ## Flits between routers -/

/-- A local port can take a request: a DRAM controller only while the partition's queue has room in the controllers of its
lines (R319). -/
def State.localRoom (s : State) (k : Packet) : Bool :=
  k.isResponse || (match areaOf (k.addr % 2 ^ 44) with
    | .dram => k.opc == 4 || k.opc == 5 || k.opc == 6 ||
        (let a := k.addr % 2 ^ 44
         (List.range ((a % 64 + max 1 k.len + 63) / 64)).all fun i =>
          decide ((tget [] (tget {} s.mem.ctl (s.mem.channelOf (a + 64 * i))).queue k.part).length < 32))
    | _ => true)

/-- The flit at the head of a VC can leave by output `o` (R287, R288). -/
def State.canForward (s : State) (r o x : Nat) : Bool :=
  let b := s.vcBuf x
  match b.flits with
  | [] => false
  | f :: _ =>
    let k := f.pkt
    (if f.idx = 0 then routeOf r k.dst == o else b.route == some o) && !b.held &&
      (match nextRouter r o with
        | some (r', a') => s.canPut r' (vcKey r' a' k.vc) k f.idx
        | none =>
          let e := (s.portVc (vcKey r o k.vc)).open_
          if f.idx = 0 then e.isNone && s.localRoom k else e == some k.id)

/-- A whole packet has left by a local port (R286, R294). -/
def State.deliver (s : State) (r o : Nat) (k : Packet) (answered : Bool) : State :=
  if answered then
    if k.isResponse then s.holeAccess k.addr stDomainOff else s.answer k stDomainOff []
  else if !portPresent r o ∨ k.reservedOpc then
    let s := s.setRtSticky r 2
    if k.isResponse then s.holeAccess 0 stWrongPartition
    else (s.answer k (if k.reservedOpc then stUnknownOpcode else stWrongPartition) []).holeAccess k.addr
  else if k.isResponse then { s with mesh := { s.mesh with answered := s.mesh.answered ++ [k] } }
  else { s with mesh := { s.mesh with arrived := s.mesh.arrived ++ [k] } }

/-- A flit reaches local port `o`: parity (R297), and with its tail the packet is there. -/
def State.leaveFlit (s : State) (r o : Nat) (f : Flit) (fault : LinkFault) (answer : Bool) : State :=
  let k := f.pkt
  let x := vcKey r o k.vc
  let e : PortVc := if f.idx = 0 then { answer := answer } else s.portVc x
  let bad := !e.drop && fault.loses f.idx
  let s := if bad then s.linkLost r o k fault else if !e.drop && fault == .data then s.linkPoison r o k else s
  let poison := f.poison || fault == .data
  let e := { e with open_ := some k.id, drop := e.drop || bad, acc := e.acc + (if poison then 2 ^ f.idx else 0) }
  if f.idx + 1 = k.flits then
    let s := s.setPortVc x {}
    if e.drop then s else s.deliver r o { k with poison := e.acc } e.answer
  else s.setPortVc x e

/-- The head flit of a VC leaves by an output, over a link that flips the wires `flips`. -/
def State.moveFlit (s : State) (r o a x : Nat) (flips : List (Fin 274)) : State :=
  match (s.vcBuf x).flits with
  | [] => s
  | f :: rest =>
    let k := f.pkt
    let answer := s.proxy r o k == 2
    let s := s.updVc x fun b =>
      { b with flits := rest, credBack := b.credBack + 1, route := if f.idx + 1 = k.flits then none else some o }
    let s := s.updRouter r fun y =>
      { y with portFlits := if o < 7 then tset 0 y.portFlits o (tget 0 y.portFlits o + 1) else y.portFlits
               turn := tset 7 y.turn (32 * o + k.part) a }
    match nextRouter r o with
    | some (r', a') => s.arriveFlit r' a' f (f.check flips)
    | none => s.leaveFlit r o f (f.check flips) answer

/-- MESH_FLIT_FORWARD (R281, R287, R288, R294, R297): output `o` of router `r` sends one flit of the slot's owner,
responses first, inputs round robin. A head for a sector in Steep is held, and wakes it. -/
def execMeshFlitForward (r : Fin 64) (o : Fin 8) (flips : List (Fin 274)) (s : State) : Host.Outcome State Fault Refusal :=
  match slotOwner ((s.router r).slotAt s.mesh.slotCount.toNat) with
  | none => .next s
  | some q =>
    let turn := tget 7 (s.router r).turn (32 * o.val + q)
    let inputs (c : Nat) : List (Nat × Nat) := (List.range 8).map fun i => let a := (turn + 1 + i) % 8; (a, vcKey r a (2 * q + c))
    match (inputs 1 ++ inputs 0).find? fun (_, x) => s.canForward r o x with
    | none => .next s
    | some (a, x) =>
      match (s.vcBuf x).flits with
      | [] => .next s
      | f :: _ =>
        if f.idx = 0 ∧ (nextRouter r o).isNone ∧ s.proxy r o f.pkt = 1 then
          let s := s.updVc x fun b => { b with held := true }
          .next (s.updSector ((proxySector r o).getD 0) fun n => { n with wakeDue := true })
        else .next (s.moveFlit r o a x flips).pump

/-- PROXY_PASS_HELD (R294): a packet held at input `a` on virtual channel `v` goes on once the sector is in Brew. -/
def execProxyPassHeld (r : Fin 64) (a : Fin 8) (v : Fin 34) (s : State) : Host.Outcome State Fault Refusal :=
  let x := vcKey r a v
  match (s.vcBuf x).flits with
  | [] => .next s
  | f :: _ =>
    .next (if (s.vcBuf x).held && s.proxy r (routeOf r f.pkt.dst) f.pkt != 1 then
      s.updVc x fun b => { b with held := false } else s)

/-- MESH_CREDIT_RETURN (R287). -/
def execMeshCreditReturn (r : Fin 64) (a : Fin 8) (v : Fin 34) (s : State) : Host.Outcome State Fault Refusal :=
  let x := vcKey r a v
  .next (if (s.vcBuf x).credBack = 0 then s
    else (s.updVc x fun b => { b with credBack := b.credBack - 1, spent := b.spent - 1 }).pump)

/-! ## Requests at their target -/

/-- The request as a packet of a requester outside the model. -/
def requestPacket (r : Sys2Proof.MeshReq) (opc : Nat) (dst : Nat) : Packet :=
  { part := r.part.val, opc := opc, addr := r.addr.toNat, dst := dst, src := r.src.toNat, sub := r.sub.toNat, epoch := r.epoch.toNat
    tag := r.tag.toNat, len := if opc = 1 then r.len.toNat else r.data.length, data := r.data, poison := r.poison.toNat
    secure := r.secure }

/-- The packet is a request that a command names: by opcode, partition, address and requester's port, whatever its tag. -/
def requestNames (r : Sys2Proof.MeshReq) (opc : Nat) (k : Packet) : Bool :=
  k.opc == opc && k.part == r.part.val && k.addr == r.addr.toNat && k.src == r.src.toNat

/-- The request at its target: the oldest of the name that has arrived through the mesh, taken from there, or one from
outside. -/
def State.takeRequest (s : State) (r : Sys2Proof.MeshReq) (opc : Nat) : Packet × State :=
  match s.mesh.arrived.find? (requestNames r opc) with
  | some k => (k, { s with mesh := { s.mesh with arrived := s.mesh.arrived.erase k } })
  | none => (requestPacket r opc (((s.destOf r.addr.toNat).map (·.1)).getD 0), s)

/-! ## Drain and apply (R295) -/

/-- RT_CTRL_APPLY (R295, R299): a second APPLY while draining has no effect. -/
def execRtCtrlApply (r : Fin 64) (s : State) : Host.Outcome State Fault Refusal :=
  .next (if (s.router r).draining then s else s.updRouter r fun x => { x with draining := true, drainCycles := 0 })

/-- The router holds a flit of an affected partition or has a packet of one in progress. -/
def State.drainBusy (s : State) (r : Nat) : Bool :=
  let x := s.router r
  (List.range 8).any fun a => (List.range 34).any fun v =>
    x.affected (v / 2) && (let b := s.vcBuf (vcKey r a v); !b.flits.isEmpty || b.open_.isSome || b.route.isSome)

/-- A slot byte names a reserved owner. -/
def slotReserved (b : BitVec 8) : Bool := decide (16 < b.toNat % 32) && decide (b.toNat % 32 < 31)

/-- ROUTER_REOPEN (R295, R296). -/
def execRouterReopen (r : Fin 64) (s : State) : Host.Outcome State Fault Refusal :=
  let x := s.router r
  if !x.draining || s.drainBusy r then .next s
  else
    let late := decide (2000 < x.drainCycles)
    let bad := x.slotNext.any fun e => slotReserved e.2
    let last := BitVec.ofNat 32 x.drainCycles
    let s := s.updRouter r fun x =>
      { x with
        draining := false, vcEn := x.vcEnNext, slot := x.slotNext, drainLast := last
        drainMax := if x.drainMax < last then last else x.drainMax
        sticky := x.sticky ||| (if late then 8#32 else 0) ||| (if bad then 4#32 else 0) }
    .next (if late then s.sysOpen r else s).pump

/-- SYSTEM_REQUEST_REISSUE (R441): the oldest lost system-partition request is issued again, with the number of
bytes, data and purpose it had; its old tag is freed. -/
def execSystemRequestReissue (s : State) : Host.Outcome State Fault Refusal :=
  match s.mesh.lost with
  | [] => .next s
  | k :: r => .next ({ s with mesh := { (s.mesh.freeTag k) with lost := r } }.issue k)

end Sys2Proof.Machine
end

