-- ==== Sys2Proof/Machine/Seal.lean ====
section
/-!
DEFINITION. Machine/Seal.lean: how main memory is encrypted and authenticated: AES-256-XTS of a line (R321), GHASH and the
56-bit MAC (R325), and the bytes of counter lines and MAC lines (R324).
-/
namespace Sys2Proof.Machine

/-! ## Blocks -/

/-- A block of 16 bytes, the first the most significant. -/
def blockOf (d : List Byte) : BitVec 128 := BitVec.ofNat 128 (leNat (d.take 16).reverse)
def blockBytes (x : BitVec 128) : List Byte := (leBytes 16 x.toNat).reverse

/-- Bytes `16 j` to `16 j + 15` of a line: AES block `j`. -/
def aesBlock (d : List Byte) (j : Nat) : List Byte := (d.drop (16 * j)).take 16

/-! ## AES-256-XTS (R321; IEEE 1619) -/

/-- The product of a tweak and the primitive element, the tweak as a little-endian number. -/
def tweakNext (t : Nat) : Nat := if 2 ^ 127 ≤ t then (2 * t % 2 ^ 128) ^^^ 0x87 else 2 * t

/-- The tweak of AES block `j` of the line at `a`: address bits [43:6] encrypted, multiplied j times. -/
def tweakOf (key a j : Nat) : BitVec 128 :=
  let t := leNat (blockBytes (Config.aes 1 key (blockOf (leBytes 16 (a % 2 ^ 44 / 64)))))
  blockOf (leBytes 16 ((List.range j).foldl (fun t _ => tweakNext t) t))

/-- AES block `j` of a line, encrypted or decrypted. -/
def xtsSeal (key a j : Nat) (d : List Byte) : List Byte :=
  let t := tweakOf key a j
  blockBytes (Config.aes 0 key (blockOf d ^^^ t) ^^^ t)
def xtsOpen (key a j : Nat) (d : List Byte) : List Byte :=
  let t := tweakOf key a j
  blockBytes (Config.aesInv 0 key (blockOf d ^^^ t) ^^^ t)

/-- The ciphertext of the line at `a`. -/
def DramLine.cipher (l : DramLine) (a : Nat) : List Byte :=
  (List.range 4).flatMap fun j => xtsSeal l.key a j (aesBlock l.data j)

/-- The bytes stored at the line address `a`, without the bits that flipped since. -/
def storedBytes (ln : Option DramLine) (a : Nat) : List Byte :=
  match ln with
  | some l => l.cipher a
  | none => (List.range 64).map fun i => Config.dramByte (a + i)

/-- Bytes with some bits inverted. -/
def flipBits (d : List Byte) (bits : List Nat) : List Byte :=
  bits.foldl (fun d b => d.set (b / 8) (d.getD (b / 8) 0 ^^^ BitVec.ofNat 8 (2 ^ (b % 8)))) d

/-- The ciphertext of a line as the check code delivers it, with the data bits that it delivers wrong. -/
def lineBody (ln : Option DramLine) (a : Nat) (wrong : List Nat) : List Byte := flipBits (storedBytes ln a) wrong

/-- The plaintext that a stored line yields under a key: an AES block written under that key with no bit wrong is what was
written, and any other is the decryption of what is there (R321, R322). -/
def linePlain (ln : Option DramLine) (key a : Nat) (wrong : List Nat) : List Byte :=
  (List.range 4).flatMap fun j =>
    match ln with
    | some l =>
      if l.key = key ∧ !wrong.any (fun b => b / 128 == j) then aesBlock l.data j
      else xtsOpen key a j (aesBlock (lineBody ln a wrong) j)
    | none => xtsOpen key a j (aesBlock (lineBody ln a wrong) j)

/-! ## GHASH and the MAC (R325; NIST SP 800-38D) -/

/-- The product of GF(2^128), bit 127 the first of a block. -/
def ghashMul (x y : BitVec 128) : BitVec 128 :=
  ((List.range 128).foldl (fun (z, v) i =>
    (if x.getLsbD (127 - i) then z ^^^ v else z,
      if v.getLsbD 0 then (v >>> 1) ^^^ (0xE1#128 <<< 120) else v >>> 1)) ((0 : BitVec 128), y)).1

def ghash (h : BitVec 128) (blocks : List (BitVec 128)) : BitVec 128 :=
  blocks.foldl (fun y b => ghashMul (y ^^^ b) h) 0

/-- `mac56` of R325: of level `lvl`, at address `a`, under the version (`major`, `minor`), over 64 bytes. -/
def mac56 (key lvl a major minor : Nat) (body : List Byte) : Nat :=
  let b0 := BitVec.ofNat 128 (major * 2 ^ 64 + minor)
  let b1 := BitVec.ofNat 128 (lvl * 2 ^ 120 + a % 2 ^ 44 / 64 * 2 ^ 64)
  let x := ghash (Config.aes 2 key 0) ([b0, b1] ++ (List.range 4).map fun j => blockOf (aesBlock body j))
  (Config.aes 2 key x).toNat / 2 ^ 72

/-! ## Metadata lines (R324) -/

def CounterLine.minor (l : CounterLine) (m : Nat) : Nat := tget 0 l.minors m

/-- Bytes 0 to 55 of a counter line. -/
def CounterLine.body (l : CounterLine) : List Byte :=
  leBytes 8 l.major ++ leBytes 48 ((List.range 64).foldl (fun n m => n + l.minor m * 2 ^ (6 * m)) 0)

/-- A counter line with its own MAC in bytes 56 to 62. -/
def CounterLine.bytes (l : CounterLine) (mac : Nat) : List Byte := l.body ++ leBytes 7 mac ++ [0]

def CounterLine.ofBytes (d : List Byte) : CounterLine :=
  let f := leNat ((d.drop 8).take 48)
  { major := leNat (d.take 8), minors := (List.range 64).foldl (fun t m => tset 0 t m (f / 2 ^ (6 * m) % 64)) [] }

/-- The MAC that a counter line carries. -/
def ownMac (d : List Byte) : Nat := leNat ((d.drop 56).take 7)

/-- The MAC of a counter line of level `v` at `a` under a version. -/
def counterMac (key v a : Nat) (version : Nat × Nat) (d : List Byte) : Nat :=
  mac56 key v a version.1 version.2 (d.take 56 ++ List.replicate 8 0)

/-- MAC `m` of a MAC line, and the line with it replaced. -/
def macAt (d : List Byte) (m : Nat) : Nat := leNat ((d.drop (7 * m)).take 7)
def macPut (d : List Byte) (m v : Nat) : List Byte := d.take (7 * m) ++ leBytes 7 v ++ d.drop (7 * m + 7)

/-- Rollover of a counter line: MAJOR rises, every minor that is not 0 becomes 1 (R327). -/
def CounterLine.rollover (l : CounterLine) : CounterLine :=
  { major := (l.major + 1) % 2 ^ 64, minors := l.minors.map fun e => (e.1, 1) }

/-- Minor `m` risen by 1. -/
def CounterLine.raise (l : CounterLine) (m : Nat) : CounterLine := { l with minors := tset 0 l.minors m (l.minor m + 1) }

end Sys2Proof.Machine
end

