-- ==== Sys2Proof/Machine/Dram.lean ====
section
/-!
DEFINITION. Machine/Dram.lean: main memory (R313 to R333): lines with SECDED(72,64), encryption keys, sealed regions with
their counters, the controllers' queues, slots, frames and registers, with the controllers' commands.
-/
namespace Sys2Proof.Machine

/-! ## SECDED(72,64) (R305) -/

/-- Eight-bit values of weight 3, ascending. -/
def weight3 : List Nat :=
  (List.range 256).filter fun v => ((List.range 8).filter fun j => v.testBit j).length == 3

/-- The column of beat bit `b`. -/
def column72 (b : Nat) : Nat :=
  if b < 56 then weight3.getD b 0
  else if b < 64 then [0x1F, 0x2F, 0x37, 0x3B, 0x3D, 0x3E, 0x4F, 0x57].getD (b - 56) 0
  else 2 ^ (b - 64)

/-- What a beat decodes to whose bits flipped since it was stored, well or as poison, and the data bits it then delivers wrong
(Table 10-3). -/
def decodeBeat (poison : Bool) (flips : List Nat) : Verdict × List Nat :=
  let syn := flips.foldl (fun x b => Nat.xor x (column72 b)) (if poison then 0xF8 else 0)
  let data := flips.filter (· < 64)
  if syn = 0 then (.clean, data)
  else if syn = 0xF8 then (.poisoned, data)
  else match (List.range 72).find? (fun b => column72 b == syn) with
    | some b => (.corrected, if b < 64 then (if data.contains b then data.erase b else b :: data) else data)
    | none => (.uncorrectable, data)

/-- The eight beats of a line: beats corrected, whether any is poisoned or uncorrectable, data bits delivered wrong. -/
def decodeFlips (poison : Bool) (flips : List Nat) : Nat × Bool × List Nat :=
  (List.range 8).foldl (fun (n, bad, wrong) j =>
    let (v, w) := decodeBeat poison ((flips.filter fun x => x / 72 == j).map (· % 72))
    (n + bit (v == .corrected), bad || v.isPoison, wrong ++ w.map fun b => 64 * j + b)) (0, false, [])

/-- A stored line decoded; one that nothing has written holds no error that a read finds (log entry 9). -/
def decodeLine (ln : Option DramLine) : Nat × Bool × List Nat :=
  match ln with
  | some l => decodeFlips l.poison l.flips
  | none => (0, false, [])

/-- A line whose bits, as the check code delivers them, are stored again, well or as poison (R454, R455, R457). -/
def DramLine.rewritten (l : DramLine) (a : Nat) (poison : Bool) : DramLine :=
  { data := linePlain (some l) l.key a (decodeLine (some l)).2.2, key := l.key, poison := poison }

/-! ## Places -/

/-- Where a DRAM address lies (R316): region, channel, channel-local line. -/
structure Place where
  bank : Nat
  chan : Nat
  line : Nat
  deriving DecidableEq, Repr

def Memory.place (m : Memory) (a : Nat) : Place :=
  let o := a - dramBase
  let g := max 1 m.regionBytes
  let k := o % g / 64
  { bank := o / g, chan := k % 12, line := k / 12 }

/-- Channel-local lines per region, n. -/
def Memory.linesPer (m : Memory) : Nat := m.regionBytes / 768

/-- Device address of a channel-local line (the inverse of R316, with SEALED = 0). -/
def Memory.lineAddr (m : Memory) (p : Place) : Nat := dramBase + p.bank * m.regionBytes + 64 * (12 * p.line + p.chan)

def Memory.ctlOf (m : Memory) (c : Nat) : DramCtl := tget {} m.ctl c
def State.updCtl (s : State) (c : Nat) (f : DramCtl → DramCtl) : State :=
  s.setMem { s.mem with ctl := tset {} s.mem.ctl c (f (s.mem.ctlOf c)) }

/-- BANK_OWNER_b of controller `c` in force. -/
def DramCtl.ownerReg (k : DramCtl) (b : Nat) : BitVec 32 := tget 0x1F#32 k.owner b
/-- BANK_OWNER_b that checks requests accepted now: a waiting write already does (R332). -/
def DramCtl.ownerCheck (k : DramCtl) (b : Nat) : BitVec 32 := (tget none k.ownerNext b).getD (k.ownerReg b)
def ownerField (w : BitVec 32) : Nat := if w.toNat % 32 < 16 then w.toNat % 32 else 31
def sealedField (w : BitVec 32) : Bool := w.getLsbD 31

/-- OWNER and SEALED of bank region `b`; the system partition writes all controllers alike (R317). -/
def Memory.bankOwner (m : Memory) (b : Nat) : Nat := ownerField ((m.ctlOf 0).ownerReg b)
def Memory.bankSealed (m : Memory) (b : Nat) : Bool := sealedField ((m.ctlOf 0).ownerReg b)

/-- The key pair that a region's lines use: its owner's, or the system partition's (R321). -/
def State.regionKey (s : State) (p : Place) : Nat :=
  let o := ownerField ((s.mem.ctlOf p.chan).ownerReg p.bank)
  tget 0 s.mem.key (if o < 16 then o else 16)

def State.placeOwner (s : State) (p : Place) : Nat := ownerField ((s.mem.ctlOf p.chan).ownerReg p.bank)
def State.placeSealed (s : State) (p : Place) : Bool := sealedField ((s.mem.ctlOf p.chan).ownerReg p.bank)

/-! ## Reports (R332) -/

/-- DC_STICKY bits are set; a new one is logged. -/
def State.dcStick (s : State) (c : Nat) (bits : BitVec 32) : State :=
  let old := (s.mem.ctlOf c).sticky
  let new := bits &&& ~~~old
  let s := s.updCtl c fun k => { k with sticky := k.sticky ||| bits }
  if new = 0 then s else s.sysFault 0x53 c new.toNat

/-- A DRAM_ERROR event to the owner of a region. -/
def State.dramError (s : State) (p : Place) (a : Nat) : State :=
  s.tellOwner (dramPort p.chan) (s.placeOwner p) { code := 0x20, status := stPoison, object := p.chan, data := leBytes 8 a ++ leBytes 4 0 }

/-- Device address bits of the line that holds an address. -/
def lineOf (a : Nat) : Nat := a / 64 * 64

def State.setLine (s : State) (a : Nat) (l : DramLine) : State :=
  s.setMem { s.mem with lines := tset none s.mem.lines (a / 64) (some l) }

/-- The corrected ciphertext of a line is written back (R454, R457). -/
def State.writeBackLine (s : State) (a : Nat) : State :=
  match tget none s.mem.lines (a / 64) with
  | some ln => s.setLine a (ln.rewritten (lineOf a) false)
  | none => s

/-- A corrected read of a line is told to its channel's tracker (R457, R458). -/
def State.trackLine (s : State) (p : Place) (a : Nat) : State :=
  let g := 269 + p.chan
  let (act, t) := (s.tracker g).hit (lineOf a)
  let s := s.setTracker g t
  if act = 1 then s.writeBackLine a
  else if act = 2 then
    let q := s.placeOwner p
    ((s.setTracker g { s.tracker g with hard := (s.tracker g).hard + 1 }).logFault 4 q 0 0x11 g 2 (lineOf a)).tellIntegrity q 0x11 (lineOf a) stOk
  else s

/-- A requester's write of a line frees its entry (R457). -/
def State.untrackLine (s : State) (p : Place) (a : Nat) : State :=
  let t := s.tracker (269 + p.chan)
  if t.entries.any (fun e => e.addr == lineOf a) then
    s.setTracker (269 + p.chan) { t with entries := t.entries.filter fun e => e.addr != lineOf a }
  else s

/-- A sealed check failed (R331). -/
def State.sealFail (s : State) (p : Place) (a : Nat) : State :=
  let s := s.updCtl p.chan fun k => { k with sealFails := k.sealFails + 1, errAddr := BitVec.ofNat 48 a }
  (s.dcStick p.chan 4).dramError p a

/-- Beats were corrected, or the line is poisoned or uncorrectable, at a read. -/
def State.dramRead (s : State) (p : Place) (a : Nat) (corr : Nat) (bad : Bool) : State :=
  let s := if corr = 0 then s
    else (s.updCtl p.chan fun k => { k with corr := k.corr + BitVec.ofNat 32 corr }).dcStick p.chan 1
  if bad then
    ((s.updCtl p.chan fun k => { k with uncorr := k.uncorr + 1, errAddr := BitVec.ofNat 48 a }).dcStick p.chan 2).dramError p a
  else if corr = 0 then s else s.trackLine p a

/-! ## Sealed metadata (R323 to R331) -/

/-- Counter lines of each level: ceil of the level below over 64, level 1 of 7n/8 data lines (Table 10-8). -/
def levelLines (n : Nat) : Nat → Nat
  | 0 => 7 * n / 8
  | v + 1 => (levelLines n v + 63) / 64

/-- The top level: the first with a single line. -/
def topLevel (n : Nat) : Nat := ((List.range 8).find? fun v => decide (0 < v) && decide (levelLines n v ≤ 1)).getD 7

/-- First channel-local line of a level: 0 stands for the MAC lines. -/
def levelFirst (n : Nat) : Nat → Nat
  | 0 => 7 * n / 8
  | 1 => 7 * n / 8 + 7 * n / 64
  | v + 2 => levelFirst n (v + 1) + levelLines n (v + 1)

/-- Key of a metadata line of a controller: region, level (0: MAC lines), index. -/
def metaKey (b v i : Nat) : Nat := (16 * b + v) * 2 ^ 21 + i

/-- Region, level and index of a key. -/
def keyBank (x : Nat) : Nat := x / 2 ^ 25
def keyLevel (x : Nat) : Nat := x / 2 ^ 21 % 16
def keyIndex (x : Nat) : Nat := x % 2 ^ 21

/-- The place and the address of a metadata line, the address as under SEALED = 0 (R325). -/
def Memory.metaPlace (m : Memory) (c x : Nat) : Place :=
  { bank := keyBank x, chan := c, line := levelFirst m.linesPer (keyLevel x) + keyIndex x }
def Memory.metaAddr (m : Memory) (c x : Nat) : Nat := m.lineAddr (m.metaPlace c x)

/-- The counter line whose place a line is, when it is one that lies in DRAM: level and index. -/
def Memory.counterAt (m : Memory) (p : Place) : Option (Nat × Nat) :=
  let n := m.linesPer
  (((List.range (topLevel n)).drop 1).find? fun v =>
      decide (levelFirst n v ≤ p.line) && decide (p.line < levelFirst n v + levelLines n v)).map fun v => (v, p.line - levelFirst n v)

/-- The line stored at a DRAM address. One that nothing has written holds free bytes (R315), but for a counter line of a
sealed region, which initialisation wrote with MAJOR 0, minors 0 and its MAC under the version (0, 0) (R330). -/
def State.storedLine (s : State) (a : Nat) : DramLine :=
  let p := s.mem.place a
  let key := s.regionKey p
  (tget none s.mem.lines (a / 64)).getD
    { key := key
      data := match if s.placeSealed p then s.mem.counterAt p else none with
        | some (v, _) =>
          let l : CounterLine := {}
          l.bytes (counterMac key v (lineOf a) (0, 0) l.body)
        | none => linePlain none key (lineOf a) [] }

/-- A metadata line is read through the check code; `none`: it is poisoned or uncorrectable (R331). -/
def State.metaFetch (s : State) (c x : Nat) : Option (List Byte) × State :=
  let p := s.mem.metaPlace c x
  let a := s.mem.lineAddr p
  let ln := s.storedLine a
  let (corr, bad, wrong) := decodeLine (some ln)
  (if bad then none else some (linePlain (some ln) (s.regionKey p) a wrong), s.dramRead p a corr bad)

/-- A metadata line is written whole. -/
def State.metaStore (s : State) (c x : Nat) (d : List Byte) : State :=
  s.setLine (s.mem.metaAddr c x) { data := d, key := s.regionKey (s.mem.metaPlace c x) }

/-! ### The metadata store (R328) -/

def DramCtl.held (k : DramCtl) (x : Nat) : Option MetaLine := k.store.find? fun e => e.key == x
def DramCtl.heldMac (k : DramCtl) (x : Nat) : Option MacLine := k.macStore.find? fun e => e.key == x

/-- A counter line on chip: the top-level line, or one of the store. -/
def State.counterOf (s : State) (c x : Nat) : Option CounterLine :=
  let k := s.mem.ctlOf c
  if topLevel s.mem.linesPer ≤ keyLevel x then some (tget {} k.tops (keyBank x)) else (k.held x).map (·.line)

/-- A counter line on chip is modified. -/
def State.setCounter (s : State) (c x : Nat) (l : CounterLine) : State :=
  if topLevel s.mem.linesPer ≤ keyLevel x then s.updCtl c fun k => { k with tops := tset {} k.tops (keyBank x) l }
  else s.updCtl c fun k => { k with store := k.store.map fun e => if e.key = x then { e with line := l, dirty := true } else e }

/-- A line of the store becomes the one used last. -/
def State.useCounter (s : State) (c x : Nat) : State :=
  s.updCtl c fun k => { k with store := k.store.filter (fun e => e.key != x) ++ k.store.filter fun e => e.key == x }
def State.useMac (s : State) (c x : Nat) : State :=
  s.updCtl c fun k => { k with macStore := k.macStore.filter (fun e => e.key != x) ++ k.macStore.filter fun e => e.key == x }

/-- The counter line that holds the version of a line of level `v`, and the place of that version in it (R324). -/
def parentKey (b v i : Nat) : Nat := metaKey b (v + 1) (i / 64)

/-- The version of line `i` of level `v`, from its parent on chip. -/
def State.versionOf (s : State) (c b v i : Nat) : Nat × Nat :=
  let l := (s.counterOf c (parentKey b v i)).getD {}
  (l.major, l.minor (i % 64))

/-- A counter line over line `i` of level `v` has failed verification (R331). -/
def State.broken (s : State) (c b v i : Nat) : Bool :=
  (List.range 8).any fun u => (s.mem.ctlOf c).failed.contains (metaKey b (v + 1 + u) (i / 64 ^ (u + 1)))

/-- A counter line enters the store; when the region has four, the one used least recently leaves it, to be written back when
it was modified (R326, R328). -/
def State.storeLine (s : State) (c x : Nat) (l : CounterLine) : State :=
  s.updCtl c fun k =>
    let mine := k.store.filter fun e => keyBank e.key == keyBank x
    match mine with
    | e :: _ :: _ :: _ :: _ =>
      { k with store := k.store.erase e ++ [{ key := x, line := l }], out := if e.dirty then e :: k.out else k.out }
    | _ => { k with store := k.store ++ [{ key := x, line := l }] }

/-! ### Movements of metadata (R326, R327, R329) -/

/-- One movement of metadata: a counter line read and verified, one written back, a MAC line read or written back, a counter
line rolled over. -/
inductive MetaOp where
  | fetch (x : Nat)
  | evict (x : Nat)
  | fetchMac (x : Nat)
  | putMac (x : Nat)
  | rollover (x : Nat)
  deriving DecidableEq, Repr

/-- The metadata line that a movement is about, and whether it moves in a read slot. -/
def MetaOp.key : MetaOp → Nat
  | .fetch x | .evict x | .fetchMac x | .putMac x | .rollover x => x
def MetaOp.reads : MetaOp → Bool
  | .fetch _ | .fetchMac _ => true
  | _ => false

/-- The first movement that brings a counter line on chip, its parents first; `none`: it is there. -/
def State.fetchNeed (s : State) (c b v i : Nat) : Nat → Option MetaOp
  | 0 => none
  | fuel + 1 =>
    if (s.counterOf c (metaKey b v i)).isSome then none
    else match s.fetchNeed c b (v + 1) (i / 64) fuel with
      | some o => some o
      | none => some (.fetch (metaKey b v i))

/-- What the write-back of the region's last evicted counter line needs next: its parent on chip, room in the parent's minor,
then the write (R326). -/
def State.outNeed (s : State) (c b : Nat) : Option MetaOp :=
  match (s.mem.ctlOf c).out.find? fun e => keyBank e.key == b with
  | none => none
  | some e =>
    let v := keyLevel e.key
    let i := keyIndex e.key
    if s.broken c b v i then some (.evict e.key)
    else match s.fetchNeed c b (v + 1) (i / 64) 8 with
      | some o => some o
      | none => some (if (s.versionOf c b v i).2 = 63 then .rollover (parentKey b v i) else .evict e.key)

/-- What brings a data line's MAC line on chip: the region's two are full of modified ones, or it is read. -/
def State.macNeed (s : State) (c b j : Nat) : Option MetaOp :=
  let k := s.mem.ctlOf c
  let x := metaKey b 0 j
  if (k.heldMac x).isSome then none
  else match k.macStore.filter fun e => keyBank e.key == b with
    | e :: _ :: _ => some (if e.dirty then .putMac e.key else .fetchMac x)
    | _ => some (.fetchMac x)

/-- The movement of metadata that a read or a write of a data line waits for; `none`: it can be served, be it with
POISONED_DATA (R326, R331). -/
def State.lineNeed (s : State) (p : Place) (write : Bool) : Option MetaOp :=
  if !s.placeSealed p ∨ s.broken p.chan p.bank 0 p.line then none
  else match s.fetchNeed p.chan p.bank 1 (p.line / 64) 8 with
    | some o => some ((s.outNeed p.chan p.bank).getD o)
    | none =>
      let m := (s.versionOf p.chan p.bank 0 p.line).2
      if write && m == 63 then some (.rollover (parentKey p.bank 0 p.line))
      else if !write && m == 0 then none
      else s.macNeed p.chan p.bank (p.line / 8)

/-- A line of level `v` under a rolled-over counter line is re-MACed under its new version, if it verified under the old one
(R327; DESIGN CHOICE, log entry 97): a data line's MAC in its MAC line, a counter line's own MAC in DRAM. -/
def State.reMac (s : State) (c b v i : Nat) (old new : Nat × Nat) : State :=
  let key := s.regionKey { bank := b, chan := c, line := 0 }
  if v = 0 then
    let p : Place := { bank := b, chan := c, line := i }
    let a := s.mem.lineAddr p
    let ln := tget none s.mem.lines (a / 64)
    let (corr, bad, wrong) := decodeLine ln
    let s := s.dramRead p a corr bad
    if bad then s
    else
      let body := lineBody ln a wrong
      let x := metaKey b 0 (i / 8)
      let sent (d : List Byte) : Option (List Byte) :=
        if macAt d (i % 8) = mac56 key 0 a old.1 old.2 body then some (macPut d (i % 8) (mac56 key 0 a new.1 new.2 body)) else none
      match (s.mem.ctlOf c).heldMac x with
      | some e =>
        match sent e.data with
        | some d => s.updCtl c fun k => { k with macStore := k.macStore.map fun y => if y.key = x then { y with data := d, dirty := true } else y }
        | none => s
      | none =>
        match s.metaFetch c x with
        | (some d, s) => match sent d with
          | some d => s.metaStore c x d
          | none => s
        | (none, s) => s
  else
    let x := metaKey b v i
    let a := s.mem.metaAddr c x
    match s.metaFetch c x with
    | (some d, s) =>
      if ownMac d = counterMac key v a old d then s.metaStore c x ((CounterLine.ofBytes d).bytes (counterMac key v a new d)) else s
    | (none, s) => s

/-- Rollover of a counter line on chip (R327). -/
def State.rollOver (s : State) (c x : Nat) : State :=
  match s.counterOf c x with
  | none => s
  | some l =>
    let r := l.rollover
    let s := (List.range 64).foldl (fun s m =>
      if l.minor m = 0 then s
      else State.reMac s c (keyBank x) (keyLevel x - 1) (64 * keyIndex x + m) (l.major, l.minor m) (r.major, r.minor m)) s
    s.setCounter c x r

/-- A counter line read from DRAM enters the store when its MAC matches under the version in its parent, and is known as
failed otherwise (R328, R331). -/
def State.verify (s : State) (c x : Nat) (d : List Byte) : State :=
  let b := keyBank x
  let v := keyLevel x
  let p := s.mem.metaPlace c x
  let ver := s.versionOf c b v (keyIndex x)
  let s := s.useCounter c (parentKey b v (keyIndex x))
  if ownMac d = counterMac (s.regionKey p) v (s.mem.lineAddr p) ver d then s.storeLine c x (CounterLine.ofBytes d)
  else s.updCtl c fun k => { k with failed := x :: k.failed }

/-- An evicted counter line is written back: its parent's minor rises, and its own MAC is that of the new version (R326).
DESIGN CHOICE (log entry 97): when no parent can be had, the line is given up and counts as failed. -/
def State.writeBack (s : State) (c x : Nat) : State :=
  let b := keyBank x
  let v := keyLevel x
  let i := keyIndex x
  let gone (s : State) : State := s.updCtl c fun k => { k with out := k.out.filter fun e => e.key != x }
  match (s.mem.ctlOf c).out.find? fun e => e.key == x with
  | none => s
  | some e =>
    match if s.broken c b v i then none else s.counterOf c (parentKey b v i) with
    | none => (gone s).updCtl c fun k => { k with failed := x :: k.failed }
    | some l =>
      let s := (s.setCounter c (parentKey b v i) (l.raise (i % 64))).useCounter c (parentKey b v i)
      let p := s.mem.metaPlace c x
      let mac := counterMac (s.regionKey p) v (s.mem.lineAddr p) (s.versionOf c b v i) e.line.body
      (gone s).metaStore c x (e.line.bytes mac)

/-- One movement of metadata. `false`: the line it reads is poisoned or uncorrectable. -/
def State.metaDo (s : State) (c : Nat) : MetaOp → Bool × State
  | .fetch x =>
    match s.metaFetch c x with
    | (some d, s) => (true, s.verify c x d)
    | (none, s) => (false, s)
  | .evict x => (true, s.writeBack c x)
  | .fetchMac x =>
    match s.metaFetch c x with
    | (some d, s) => (true, s.updCtl c fun k =>
        let keep := match k.macStore.filter fun e => keyBank e.key == keyBank x with
          | e :: _ :: _ => k.macStore.erase e
          | _ => k.macStore
        { k with macStore := keep ++ [{ key := x, data := d }] })
    | (none, s) => (false, s)
  | .putMac x =>
    match (s.mem.ctlOf c).heldMac x with
    | some e => (true, (s.metaStore c x e.data).updCtl c fun k =>
        { k with macStore := k.macStore.map fun y => if y.key = x then { y with dirty := false } else y })
    | none => (true, s)
  | .rollover x => (true, s.rollOver c x)

/-- A region whose evicted lines wait for a parent that cannot be read gives the last of them up, as failed. -/
def State.dropOut (s : State) (c b : Nat) : State :=
  match (s.mem.ctlOf c).out.find? fun e => keyBank e.key == b with
  | some e => s.updCtl c fun k => { k with out := k.out.filter (fun y => y.key != e.key), failed := e.key :: k.failed }
  | none => s

/-- A movement for a data line at `p`, which is `false` when the line itself can no more be served: an evicted line's parent
that cannot be read costs only the evicted line. -/
def State.metaStep (s : State) (p : Place) (o : MetaOp) : Bool × State :=
  let out := s.outNeed p.chan p.bank == some o
  match s.metaDo p.chan o with
  | (false, s) => if out then (true, s.dropOut p.chan p.bank) else (false, s)
  | r => r

/-- Every movement that an access to a line waits for, one after another; `false`: a metadata line is poisoned. -/
def State.metaAll (s : State) (p : Place) (write : Bool) : Nat → Bool × State
  | 0 => (true, s)
  | fuel + 1 =>
    match s.lineNeed p write with
    | none => (true, s)
    | some o =>
      match s.metaStep p o with
      | (false, s) => (false, s)
      | (true, s) => s.metaAll p write fuel

/-! ## Lines -/

/-- A data line's MAC and its MAC line are used. -/
def State.touchLine (s : State) (p : Place) : State :=
  (s.useCounter p.chan (parentKey p.bank 0 p.line)).useMac p.chan (metaKey p.bank 0 (p.line / 8))

/-- What the decryption of a line yields, whatever its checks say. -/
def State.lineData (s : State) (a : Nat) : List Byte :=
  let ln := tget none s.mem.lines (a / 64)
  linePlain ln (s.regionKey (s.mem.place a)) (lineOf a) (decodeLine ln).2.2

/-- A line is read (R326, R331): data, delivered poisoned, state with the reports made. -/
def State.lineRead (s : State) (a : Nat) : List Byte × Bool × State :=
  let p := s.mem.place a
  let key := s.regionKey p
  let ln := tget none s.mem.lines (a / 64)
  let (corr, bad, wrong) := decodeLine ln
  let data := s.lineData a
  if !s.placeSealed p then (data, bad, s.dramRead p a corr bad)
  else
    match s.metaAll p false 100 with
    | (false, s) => (data, true, s)
    | (true, s) =>
      if s.broken p.chan p.bank 0 p.line then (data, true, s.sealFail p a)
      else
        let v := s.versionOf p.chan p.bank 0 p.line
        let s := s.touchLine p
        if v.2 = 0 then (List.replicate 64 0, false, s)
        else
          let s := s.dramRead p a corr bad
          if bad then (data, true, s)
          else
            let held := (((s.mem.ctlOf p.chan).heldMac (metaKey p.bank 0 (p.line / 8))).map (·.data)).getD []
            let good := macAt held (p.line % 8) == mac56 key 0 (lineOf a) v.1 v.2 (lineBody ln (lineOf a) wrong)
            if good then (data, false, s) else (data, true, s.sealFail p a)

/-- A whole line is stored (R308, R326). `false`: its metadata is poisoned or does not verify, and nothing is written. -/
def State.lineStore (s : State) (a : Nat) (data : List Byte) (poison : Bool) : Bool × State :=
  let p := s.mem.place a
  let ln : DramLine := { data := data, key := s.regionKey p, poison := poison }
  if !s.placeSealed p then (true, (s.setLine a ln).untrackLine p a)
  else
    match s.metaAll p true 100 with
    | (false, s) => (false, s)
    | (true, s) =>
      if s.broken p.chan p.bank 0 p.line then (false, s.sealFail p a)
      else
        let x := parentKey p.bank 0 p.line
        let l := ((s.counterOf p.chan x).getD {}).raise (p.line % 64)
        let mac := mac56 ln.key 0 (lineOf a) l.major (l.minor (p.line % 64)) (ln.cipher (lineOf a))
        let s := (s.setCounter p.chan x l).updCtl p.chan fun k =>
          { k with macStore := k.macStore.map fun e =>
              if e.key = metaKey p.bank 0 (p.line / 8) then { e with data := macPut e.data (p.line % 8) mac, dirty := true } else e }
        (true, ((s.touchLine p).setLine a ln).untrackLine p a)

/-- A partial write of a line (R308, R311): `false`: the old line is poisoned, and the write is discarded. One found
uncorrectable becomes poisoned, and its owner is told (R455). -/
def State.lineModify (s : State) (a : Nat) (f : List Byte → List Byte) (poison : Bool) : Bool × State :=
  let fresh := match tget none s.mem.lines (a / 64) with
    | some ln => (decodeLine (some ln)).2.1 && !(ln.poison && ln.flips.isEmpty)
    | none => false
  match s.lineRead a with
  | (_, true, s) =>
    (false, match tget none s.mem.lines (a / 64) with
      | some ln => if fresh then (s.setLine a (ln.rewritten (lineOf a) true)).unreqUncorr (s.placeOwner (s.mem.place a)) 3 a else s
      | none => s)
  | (d, false, s) => s.lineStore a (f d) poison

/-! ## Requests at a controller -/

/-- Bytes `lo` to `lo + n − 1` of a list replaced through `f old new`. -/
def spliceBytes (f : Byte → Byte → Byte) (old new : List Byte) (lo : Nat) : List Byte :=
  (List.range old.length).map fun i =>
    let o := old.getD i 0
    if lo ≤ i ∧ i < lo + new.length then f o (new.getD (i - lo) 0) else o

/-- The effect of the aliases on a byte (R310): 0 plain, 1 bit-set, 2 bit-clear. -/
def aliasByte (ali : Nat) (old new : Byte) : Byte :=
  if ali = 1 then old ||| new else if ali = 2 then old &&& ~~~new else new

/-- New value of an atomic operation (Table 10-6); `none`: nothing is written, or the AOP is reserved. -/
def atomNew (aop width old a b : Nat) : Option Nat :=
  let m := 2 ^ (8 * width)
  if aop = 1 then some a
  else if aop = 2 then (if old = a then some b else none)
  else if aop = 3 then some ((old + a) % m)
  else if aop = 4 then some (old ||| a)
  else if aop = 5 then some (old &&& a)
  else if aop = 6 then some (old ^^^ a)
  else if aop = 7 then some (min old a)
  else if aop = 8 then some (max old a)
  else none

/-- The fields of ATOM data (Table 10-5): AOP, WIDTH, OPA, OPB at WIDTH bytes. -/
def atomFields (d : List Byte) : Nat × Nat × Nat × Nat :=
  let w := (d.getD 1 0).toNat
  ((d.getD 0 0).toNat, w, leNat ((d.drop 8).take w), leNat ((d.drop 16).take w))

/-- Lines that a byte range touches. -/
def linesOf (a n : Nat) : List Nat := (List.range ((a + n + 63) / 64 - a / 64)).map fun i => 64 * (a / 64 + i)

/-- Bytes of a DRAM range read line by line: each byte with its line's poison. -/
def State.dramBytes (s : State) (a n : Nat) : List (Byte × Bool) × State :=
  if n = 0 then ([], s)
  else
    let (bs, s) := (linesOf a n).foldl (fun (bs, s) l =>
      let (d, bad, s) := State.lineRead s l
      (bs ++ d.map fun b => (b, bad), s)) (([] : List (Byte × Bool)), s)
    ((bs.drop (a % 64)).take n, s)

/-- The bytes of a write to `a` that fall on line `l`, with their place in the line and in the write. -/
def linePart (a l : Nat) (data : List Byte) : List Byte × Nat × Nat :=
  let lo := l - a
  ((data.drop lo).take (if l < a then l + 64 - a else 64), a - l, lo)

/-- One line of a write to DRAM; `false`: the line was poisoned and kept (R308). -/
def State.linePut (s : State) (a ali : Nat) (data : List Byte) (bad : Nat → Bool) (l : Nat) : Bool × State :=
  let (part, off, lo) := linePart a l data
  let poison := (List.range part.length).any fun i => bad (lo + i)
  if part.length = 64 ∧ ali = 0 then s.lineStore l part poison
  else s.lineModify l (fun d => spliceBytes (aliasByte ali) d part off) poison

/-- Bytes written to DRAM line by line, ascending; `false`: some line was poisoned and kept (R308). -/
def State.dramPut (s : State) (a ali : Nat) (data : List Byte) (bad : Nat → Bool) : Bool × State :=
  if data.length = 0 then (true, s)
  else (linesOf a data.length).foldl (fun (ok, s) l =>
    let (good, s) := State.linePut s a ali data bad l
    (ok && good, s)) (true, s)

/-- An ATOM in DRAM, on the one line that holds its value: status, old bytes, poison (R312). -/
def State.dramAtom (s : State) (a : Nat) (d : List Byte) : Nat × List Byte × Bool × State :=
  let (aop, w, x, y) := atomFields d
  let (line, bad, s) := s.lineRead (lineOf a)
  let old := (line.drop (a % 64)).take w
  if bad then (stPoison, old, true, s)
  else match atomNew aop w (leNat old) x y with
    | some v =>
      let (ok, s) := s.lineStore (lineOf a) (spliceBytes (fun _ n => n) line (leBytes w v) (a % 64)) false
      (if ok then stOk else stPoison, old, !ok, s)
    | none => (stOk, old, false, s)

/-- A request served by a controller: status, data, POISON of the response's flits. -/
def State.dramServe (s : State) (k : Packet) : Nat × List Byte × Nat × State :=
  let ali := k.addr / 2 ^ 44
  let a := k.addr % 2 ^ 44
  if k.opc = 1 then
    let (bs, s) := s.dramBytes a k.len
    let m := flitMask k.len fun i => (bs.getD i (0, false)).2
    (if m = 0 then stOk else stPoison, bs.map (·.1), m, s)
  else if k.opc = 2 then
    let (ok, s) := s.dramPut a ali k.data fun i => k.poison.testBit (flitOf i)
    (if ok then stOk else stPoison, [], 0, s)
  else
    let (st, old, bad, s) := s.dramAtom a k.data
    (st, old, bit bad, s)

/-- The request is a read for the slot table. -/
def Packet.isRead (k : Packet) : Bool := k.opc == 1

/-- The destination check of a DRAM address (R316, R317). -/
def State.dramOwned (s : State) (part a n : Nat) : Bool :=
  decide (a - dramBase < s.mem.capacity) &&
    (linesOf a (max 1 n)).all fun l =>
      let p := s.mem.place l
      let w := (s.mem.ctlOf p.chan).ownerCheck p.bank
      (ownerField w == (if part < 16 then part else 31)) &&
        !(sealedField w && decide (7 * s.mem.linesPer / 8 ≤ p.line))

/-- The lines that a request accesses: those of its range, or the one of an ATOM's value. -/
def Packet.lines (k : Packet) : List Nat :=
  let a := k.addr % 2 ^ 44
  if k.opc = 3 then [lineOf a] else if k.len = 0 then [] else linesOf a k.len

/-- A request accepted joins its partition's queue in the controller of each of its lines (R316, R319; DESIGN CHOICE, log
entry 36); one of zero bytes is answered. -/
def State.dramAccept (s : State) (k : Packet) : State :=
  if k.lines = [] then (s.answer k stOk [] 0).pump
  else
    let n := s.mem.nextJoin
    let s := s.setMem { s.mem with joins := s.mem.joins ++ [{ num := n, pkt := k, left := k.lines }], nextJoin := n + 1 }
    k.lines.foldl (fun s l =>
      let p := s.mem.place l
      State.updCtl s p.chan fun c =>
        let r : DramReq := { pkt := k, num := n, line := l, late := (tget none c.ownerNext p.bank).isSome }
        { c with queue := tset [] c.queue k.part (tget [] c.queue k.part ++ [r]) }) s

/-! ## Commands of the controllers -/

/-- STATE is READY. -/
def DramCtl.ready (c : DramCtl) : Bool := c.state == 2
def DramCtl.slotAt (c : DramCtl) (k : Nat) : BitVec 8 := tget (if k < 32 then 0x10#8 else 0x90#8) c.slot k
def DramCtl.nextAt (c : DramCtl) (k : Nat) : BitVec 8 := tget (if k < 32 then 0x10#8 else 0x90#8) c.slotNext k

/-- Region `b` waits for the end of its metadata initialisation. -/
def DramCtl.initBusy (c : DramCtl) (b : Nat) : Bool := tget 0 c.init b != 0

/-! ### Time within a frame (R318, R319) -/

/-- TRC, TTURN and RANKS of the description in force (Table 10-7). -/
def Memory.trc (m : Memory) : Nat := (m.desc.getD 6 0).toNat
def Memory.tturn (m : Memory) : Nat := (m.desc.getD 7 0).toNat
def Memory.ranks (m : Memory) : Nat := max 1 (m.desc.getD 2 0).toNat

/-- The bank of a place in its rank (R316), as a key. -/
def Memory.bankKey (m : Memory) (p : Place) : Nat := 16 * (p.line % m.ranks) + p.bank

/-- The bank of a place is ready at cycle `t`: TRC has passed since its last access or refresh. -/
def State.bankReady (s : State) (p : Place) (t : Nat) : Bool := decide (tget 0 (s.mem.ctlOf p.chan).readyAt (s.mem.bankKey p) ≤ t)

/-- The bank of a place is accessed in a slot that starts at cycle `t`. -/
def State.useBank (s : State) (p : Place) (t : Nat) : State :=
  s.updCtl p.chan fun k => { k with readyAt := tset 0 k.readyAt (s.mem.bankKey p) (t + s.mem.trc) }

/-- Turnaround cycles after slot `i` (R318): between the runs, or both gaps after slot 63 of a table of one direction. -/
def State.gapAfter (s : State) (c i : Nat) : Nat :=
  let k := s.mem.ctlOf c
  let dir (j : Nat) : Bool := (k.slotAt (j % 64)).getLsbD 7
  if dir i != dir (i + 1) then s.mem.tturn
  else if i = 63 ∧ (List.range 64).all (fun j => dir j == dir 0) then 2 * s.mem.tturn
  else 0

/-- Slot `i` is a metadata slot of its owner (R329): at a position 7 mod 8 among the owner's slots of its direction, or the last
of fewer than 8. -/
def DramCtl.metaSlot (k : DramCtl) (i : Nat) : Bool :=
  let same (j : Nat) : Bool := slotOwner (k.slotAt j &&& 0x1F#8) == slotOwner (k.slotAt i &&& 0x1F#8) &&
    (k.slotAt j).getLsbD 7 == (k.slotAt i).getLsbD 7
  let before := ((List.range i).filter same).length
  let all := ((List.range 64).filter same).length
  before % 8 == 7 || (decide (all < 8) && before + 1 == all)

/-! ### What a slot serves -/

/-- The controller may not serve a request yet: its region waits for a new owner or for its initialisation (R330, R332). -/
def State.reqHeld (s : State) (c : Nat) (r : DramReq) : Bool :=
  r.late || (s.mem.ctlOf c).initBusy (s.mem.place r.line).bank

/-- The request that a slot from cycle `t` on serves: the partition's oldest of the direction whose bank is ready and whose
metadata is on chip, with no older one to the same line (R319), and for a write no lower line of it left (R311). -/
def State.slotPick (s : State) (c q : Nat) (read : Bool) (t : Nat) : Option DramReq :=
  let rs := tget [] (s.mem.ctlOf c).queue q
  rs.find? fun r =>
    let p := s.mem.place r.line
    r.pkt.isRead == read && !s.reqHeld c r && s.bankReady p t &&
      (rs.takeWhile (· != r)).all (fun o => o.line != r.line) &&
      (read || s.mem.joins.all fun j => j.num != r.num || j.left.all fun l => decide (r.line ≤ l)) &&
      (r.bad || (s.lineNeed p (!read)).isNone)

/-- The movement of metadata that waits for a slot of the partition: of evicted lines first, then of the oldest request of each
region (DESIGN CHOICE, log entry 97); with the request it is for. -/
def State.metaPick (s : State) (c q : Nat) (read : Bool) (t : Nat) : Option (MetaOp × Option DramReq) :=
  let rs := tget [] (s.mem.ctlOf c).queue q
  let outs := (List.range 16).filterMap fun b =>
    if s.placeOwner { bank := b, chan := c, line := 0 } = (if q < 16 then q else 31) then (s.outNeed c b).map fun o => (o, none) else none
  let mine := rs.filterMap fun r =>
    let p := s.mem.place r.line
    if s.reqHeld c r ∨ r.bad ∨ (rs.takeWhile (· != r)).any (fun o => (s.mem.place o.line).bank == p.bank) then none
    else (s.lineNeed p (!r.pkt.isRead)).map fun o => (o, some r)
  (outs ++ mine).find? fun x => x.1.reads == read && s.bankReady (s.mem.metaPlace c x.1.key) t

/-- A part of a request is done; with the last the request is answered. -/
def State.partDone (s : State) (x : DramPart) : State :=
  match s.mem.joins.find? fun j => j.num == x.num with
  | none => s
  | some j =>
    let j' := { j with left := j.left.filter (· != x.line), got := j.got ++ [x], bad := j.bad || x.bad }
    if j'.left ≠ [] then
      s.setMem { s.mem with joins := s.mem.joins.map fun y => if y.num = j.num then j' else y }
    else
      let s := s.setMem { s.mem with joins := s.mem.joins.filter fun y => y.num != j.num }
      let k := j.pkt
      let bytes := if k.opc = 1 then (k.lines.flatMap fun l =>
          match j'.got.find? fun y => y.line == l with
          | some y => y.data.map fun b => (b, y.bad)
          | none => []).drop (k.addr % 64) |>.take k.len
        else (x.data.map fun b => (b, x.bad))
      let m := flitMask bytes.length fun i => (bytes.getD i (0, false)).2
      (s.answer k (if j'.bad then stPoison else stOk) (bytes.map (·.1)) m).pump

/-- The part of a request that a slot serves. One whose metadata is poisoned has no effect and answers POISONED_DATA. -/
def State.partServe (s : State) (c : Nat) (r : DramReq) : State :=
  let k := r.pkt
  let a := k.addr % 2 ^ 44
  let x : DramPart := { num := r.num, line := r.line }
  if k.opc = 1 then
    let (d, bad, s) := if r.bad then (s.lineData r.line, true, s) else s.lineRead r.line
    s.updCtl c fun y => { y with reading := y.reading ++ [{ x with data := d, bad := bad }] }
  else if r.bad then
    s.partDone { x with bad := true, data := if k.opc = 3 then ((s.lineData r.line).drop (a % 64)).take (atomFields k.data).2.1 else [] }
  else if k.opc = 2 then
    let (ok, s) := s.linePut a (k.addr / 2 ^ 44) k.data (fun i => k.poison.testBit (flitOf i)) r.line
    s.partDone { x with bad := !ok }
  else
    let (_, old, bad, s) := s.dramAtom a k.data
    s.partDone { x with data := old, bad := bad }

/-- A metadata slot moves metadata. A request whose metadata line is poisoned is answered in its own slot. -/
def State.slotMeta (s : State) (c q : Nat) (o : MetaOp) (r : Option DramReq) : State :=
  let b := keyBank o.key
  match r with
  | none =>
    match s.metaDo c o with
    | (true, s) => s
    | (false, s) => s.dropOut c b
  | some r =>
    match s.metaStep (s.mem.place r.line) o with
    | (true, s) => s
    | (false, s) => s.updCtl c fun k =>
        { k with queue := tset [] k.queue q ((tget [] k.queue q).map fun x => if x = r then { x with bad := true } else x) }

/-- What a slot of partition `q` from cycle `t` on does: metadata first in a metadata slot (R329), else the request picked. A
slot of the write direction whose owner has a region being initialised serves that (R330). -/
def State.slotServe (s : State) (c q : Nat) (read isMeta : Bool) (t : Nat) : State :=
  let owned (b : Nat) : Bool := s.placeOwner { bank := b, chan := c, line := 0 } == (if q < 16 then q else 31)
  if !read && (List.range 16).any (fun b => (s.mem.ctlOf c).initBusy b && owned b) then s
  else match if isMeta then s.metaPick c q read t else none with
    | some (o, r) => (s.slotMeta c q o r).useBank (s.mem.metaPlace c o.key) t
    | none =>
      match s.slotPick c q read t with
      | none => s
      | some r =>
        ((s.updCtl c fun k => { k with queue := tset [] k.queue q ((tget [] k.queue q).erase r) }).partServe c r).useBank
          (s.mem.place r.line) t

/-- The slot after the current one comes next. -/
def State.slotNext (s : State) (c : Nat) : State :=
  s.updCtl c fun k => { k with slotPos := k.slotPos + 1, cyc := k.cyc + 4 + s.gapAfter c k.slotPos }

/-- DRAM_SLOT (R319, R326, R329): the current slot of the frame serves its owner, and the next slot follows. -/
def execDramSlot (c : Fin 12) (s : State) : Host.Outcome State Fault Refusal :=
  let k := s.mem.ctlOf c
  if !k.ready ∨ 64 ≤ k.slotPos then .next s
  else
    let b := k.slotAt k.slotPos
    match slotOwner (b &&& 0x1F#8) with
    | none => .next (s.slotNext c)
    | some q => .next ((s.slotNext c).slotServe c q (!b.getLsbD 7) (k.metaSlot k.slotPos) k.cyc)

/-- DRAM_READ_DATA (R320): the oldest read's data returns. -/
def execDramReadData (c : Fin 12) (s : State) : Host.Outcome State Fault Refusal :=
  match (s.mem.ctlOf c).reading with
  | [] => .next s
  | x :: r => .next ((s.updCtl c fun k => { k with reading := r }).partDone x)

/-- DRAM_REFRESH (R318): the refresh window of frame f refreshes bank f mod 16 of every rank; with it the frame's slots are
over and the next frame follows. -/
def execDramRefresh (c : Fin 12) (s : State) : Host.Outcome State Fault Refusal :=
  let k := s.mem.ctlOf c
  .next (if k.ready && k.slotPos == 64
    then
      let b := k.frameCount.toNat % 16
      s.updCtl c fun k =>
        { k with
          slotPos := 0, frameCount := k.frameCount + 1, cyc := k.cyc + s.mem.trc + 1
          readyAt := (List.range s.mem.ranks).foldl (fun t r => tset 0 t (16 * r + b) (k.cyc + s.mem.trc)) k.readyAt }
    else s)

/-- DC_APPLY_WRITE (R332): APPLY is set. -/
def execDcApplyWrite (c : Fin 12) (s : State) : Host.Outcome State Fault Refusal :=
  .next (s.updCtl c fun k => { k with apply := true })

/-- Direction changes of the waiting slot table, cyclically (R318). -/
def DramCtl.turns (k : DramCtl) : Nat :=
  ((List.range 64).filter fun i => (k.nextAt i).getLsbD 7 != (k.nextAt ((i + 1) % 64)).getLsbD 7).length

/-- SLOT_TABLE_APPLY (R318, R332): at a frame boundary; a table with more than two direction changes is not applied. -/
def execSlotTableApply (c : Fin 12) (s : State) : Host.Outcome State Fault Refusal :=
  let k := s.mem.ctlOf c
  if !k.apply ∨ k.slotPos ≠ 0 then .next s
  else if 2 < k.turns then .next (s.dcStick c 0x10)
  else
    let s := s.updCtl c fun k => { k with slot := k.slotNext, apply := false }
    .next (if k.slotNext.any fun e => slotReserved (e.2 &&& 0x1F#8) then s.dcStick c 0x10 else s)

/-- BANK_OWNER_WRITE (R332): the new owner waits for the requests accepted so far. -/
def execBankOwnerWrite (c : Fin 12) (b : Fin 16) (w : Word) (s : State) : Host.Outcome State Fault Refusal :=
  .next (s.updCtl c fun k => { k with ownerNext := tset none k.ownerNext b (some (w &&& 0x8000001F#32)) })

/-- Some request accepted before the write has not completed in the region. -/
def State.regionBusy (s : State) (c b : Nat) : Bool :=
  let k := s.mem.ctlOf c
  (k.queue.any fun e => e.2.any fun r => !r.late && (s.mem.place r.line).bank == b) ||
    k.reading.any fun x => (s.mem.place x.line).bank == b

/-- The lines of a region in one channel, from channel-local line `lo` on, hold free bytes again. -/
def State.forgetLines (s : State) (c b lo : Nat) : State :=
  s.setMem { s.mem with lines := s.mem.lines.filter fun e =>
    let p := s.mem.place (64 * e.1)
    !(p.chan == c && p.bank == b && decide (lo ≤ p.line)) }

/-- A region's metadata leaves the controller. -/
def DramCtl.dropMeta (k : DramCtl) (b : Nat) : DramCtl :=
  { k with
    tops := tset {} k.tops b {}, store := k.store.filter fun e => keyBank e.key != b, out := k.out.filter fun e => keyBank e.key != b
    failed := k.failed.filter fun x => keyBank x != b, macStore := k.macStore.filter fun e => keyBank e.key != b }

/-- The new OWNER and SEALED are in force; a region sealed for a new owner starts its initialisation (R330, R332), and the
contents of one that is sealed no more are undefined (R323). -/
def State.applyOwner (s : State) (c b : Nat) (w : BitVec 32) : State :=
  let old := (s.mem.ctlOf c).ownerReg b
  let start := sealedField w && (!sealedField old || ownerField old != ownerField w)
  let open_ := sealedField old && !sealedField w
  let s := if open_ then s.forgetLines c b 0 else s
  s.updCtl c fun k =>
    let k := if open_ then k.dropMeta b else k
    { k with
      owner := tset 0x1F#32 k.owner b w, ownerNext := tset none k.ownerNext b none
      init := if start then tset 0 k.init b 1 else if sealedField w then k.init else tset 0 k.init b 0
      queue := k.queue.map fun e => (e.1, e.2.map fun r => if (s.mem.place r.line).bank = b then { r with late := false } else r) }

/-- BANK_OWNER_APPLY (R332). -/
def execBankOwnerApply (c : Fin 12) (b : Fin 16) (s : State) : Host.Outcome State Fault Refusal :=
  match tget none (s.mem.ctlOf c).ownerNext b with
  | none => .next s
  | some w => .next (if s.regionBusy c b then s else s.applyOwner c b w)

/-- The top-level line of a region is zero, and every stored counter line is as initialisation writes it (R330). -/
def State.initRegion (s : State) (c b : Nat) : State :=
  let s := s.forgetLines c b (levelFirst s.mem.linesPer 1)
  s.updCtl c fun k => { k.dropMeta b with init := tset 0 k.init b 2 }

/-- SEALED_INIT (R330). -/
def execSealedInit (c : Fin 12) (b : Fin 16) (s : State) : Host.Outcome State Fault Refusal :=
  .next (if tget 0 (s.mem.ctlOf c).init b = 1 then s.initRegion c b else s)

/-- SEALED_INIT_DONE (R330): waiting requests proceed. -/
def execSealedInitDone (c : Fin 12) (b : Fin 16) (s : State) : Host.Outcome State Fault Refusal :=
  .next (if tget 0 (s.mem.ctlOf c).init b = 2 then s.updCtl c fun k => { k with init := tset 0 k.init b 0 } else s)

/-! ## Description and calibration (R313 to R315) -/

/-- Data capacity of a description: 12 × RANKS × 2 × (density × 8/9) bits, in bytes. -/
def descCapacity (d : List Byte) : Nat := 12 * (d.getD 2 0).toNat * 2 * (2 ^ (d.getD 1 0).toNat * 32) * 2 ^ 20

/-- Frame length F of a description (R318). -/
def descFrame (d : List Byte) : Nat := 256 + 2 * (d.getD 7 0).toNat + (d.getD 6 0).toNat + 1

/-- The status of a description block (R314, R318): ZERO_NOT_ALLOWED and RESERVED_NONZERO in the order of the bytes'
kinds: zeros first, as R12 is checked before ranges. -/
def descStatus (d : List Byte) : Nat :=
  let b (i : Nat) : Nat := (d.getD i 0).toNat
  let rows := b 8 + 256 * b 9
  let tref := leNat ((d.drop 12).take 4)
  let inR (v lo hi : Nat) : Bool := decide (lo ≤ v) && decide (v ≤ hi)
  if b 2 = 0 ∨ b 1 = 0 ∨ b 4 = 0 ∨ b 5 = 0 ∨ b 6 = 0 ∨ b 7 = 0 ∨ rows = 0 ∨ tref = 0 then stZero
  else if b 0 = 1 ∧ inR (b 1) 1 3 ∧ inR (b 2) 1 2 ∧ b 3 = 0 ∧ inR (b 4) 3 24 ∧ inR (b 5) 4 25 ∧ inR (b 6) 4 24 ∧ inR (b 7) 2 15
    ∧ inR rows 2048 32768 ∧ rows = 2 ^ Nat.log2 rows ∧ b 10 = 0 ∧ b 11 = 0 ∧ inR tref 1000 1000000 ∧ inR (b 16) 0 3
    ∧ inR (b 17) 0 7 ∧ (d.drop 18).all (· == 0) ∧ 16 * rows * descFrame d ≤ 1200 * tref then stOk
  else stReserved

/-- DRAM_CALIBRATION_DONE (R315): the channel ends READY or FAILED; when all twelve are READY the described capacity
answers. -/
def execDramCalibrationDone (c : Fin 12) (ok : Bool) (s : State) : Host.Outcome State Fault Refusal :=
  if (s.mem.ctlOf c).state ≠ 1 then .next s
  else
    let s := s.updCtl c fun k => { k with state := if ok then 2 else 3, frameCount := 0, slotPos := 0, cyc := 0, readyAt := [] }
    let s := if ok then s else s.dcStick c 8
    .next (if (List.range 12).all fun i => (s.mem.ctlOf i).ready
      then s.setMem { s.mem with capacity := descCapacity s.mem.desc } else s)

end Sys2Proof.Machine
end

