-- ==== Sys2Proof/Machine/Flags.lean ====
section
/-!
DEFINITION. Machine/Flags.lean: the arithmetic of the ALUs with its sticky flags (R63, R64, R68) and of the MAC slices
with WC, LOST_D and SAT_D (R149, R153, R154).
-/
namespace Sys2Proof.Machine

/-! ## ALU (Tables 02-7, 02-8) -/

/-- A COND B (Table 02-7); `none` for a reserved COND. -/
def aluCond (cond : Nat) (sgn : Bool) (a b : Word) : Option Bool :=
  let lt := if sgn then BitVec.slt a b else BitVec.ult a b
  match cond with
  | 0 => some (a == b)
  | 1 => some (a != b)
  | 2 => some lt
  | 3 => some (!lt)
  | 4 => some (lt || a == b)
  | 5 => some (!(lt || a == b))
  | _ => none

/-- Value of a word as SGN reads it. -/
def readAs (sgn : Bool) (a : Word) : Int := if sgn then a.toInt else (a.toNat : Int)

/-- The bounds that ADDS and SUBS clamp to (R64). -/
def satLow (sgn : Bool) : Int := if sgn then -2 ^ 31 else 0
def satHigh (sgn : Bool) : Int := if sgn then 2 ^ 31 - 1 else 2 ^ 32 - 1

/-- A result with the sticky flags it sets: an overflow or clamp (R68), a reserved code (R64). -/
structure AluOut where
  res : Word
  ovf : Bool := false
  bad : Bool := false
  deriving DecidableEq, Repr

/-- ADD and SUB: modulo 2^32; with SGN = 1 a signed overflow is flagged (R68). -/
def aluWrap (sgn : Bool) (res : Word) (exact : Int) : AluOut :=
  { res := res, ovf := sgn && res.toInt != exact }

/-- ADDS and SUBS: clamped per SGN; a clamp is flagged (R64, R68). -/
def aluSat (sgn : Bool) (exact : Int) : AluOut :=
  if exact < satLow sgn then { res := BitVec.ofInt 32 (satLow sgn), ovf := true }
  else if exact > satHigh sgn then { res := BitVec.ofInt 32 (satHigh sgn), ovf := true }
  else { res := BitVec.ofInt 32 exact }

/-- Byte `i` of a word. -/
def byteOf (a : Word) (i : Nat) : Byte := BitVec.ofNat 8 (a.toNat / 2 ^ (8 * i))

/-- A word from its four bytes, byte 0 lowest. -/
def wordOf (b0 b1 b2 b3 : Byte) : Word := b3 ++ b2 ++ b1 ++ b0

/-- One byte of SHUF under its 4-bit code (R64). -/
def shufByte (a b : Word) (code : Nat) : Byte :=
  if code < 4 then byteOf a code else if code < 8 then byteOf b (code - 4)
  else if code = 9 then 0xFF#8 else 0

def aluShuf (a b imm : Word) : AluOut :=
  let code (i : Nat) := field imm.toNat (4 * i) 4
  { res := wordOf (shufByte a b (code 0)) (shufByte a b (code 1)) (shufByte a b (code 2)) (shufByte a b (code 3)),
    bad := (List.range 4).any fun i => decide (code i > 9) }

/-- One step of a GF(2^8) doubling. -/
def gfDouble (poly x : Byte) : Byte := if x.msb then (x <<< 1) ^^^ poly else x <<< 1

/-- The product in GF(2^8) reduced modulo x^8 plus `poly` (R64). -/
def gfMul (poly a b : Byte) : Byte :=
  ((List.range 8).foldl (fun (r, x) i => (if b.getLsbD i then r ^^^ x else r, gfDouble poly x)) ((0 : Byte), a)).1

def aluGfmul (a b imm : Word) : Word :=
  let m (i : Nat) := gfMul (byteOf imm 0) (byteOf a i) (byteOf b i)
  wordOf (m 0) (m 1) (m 2) (m 3)

/-- Number of 1 bits. -/
def popcount (a : Word) : Nat := (List.range 32).foldl (fun c i => c + bit (a.getLsbD i)) 0

/-- One byte through a reflected CRC-32 with polynomial 0xEDB8_8320, least significant bit first (R64, R105). -/
def crcByte (c : Word) (b : Byte) : Word :=
  (List.range 8).foldl (fun c _ => if c.getLsbD 0 then (c >>> 1) ^^^ 0xEDB88320#32 else c >>> 1) (c ^^^ b.zeroExtend 32)

/-- A word through the CRC, byte 0 first. -/
def crcWord (c a : Word) : Word := (List.range 4).foldl (fun c i => crcByte c (byteOf a i)) c

/-- OP codes of Table 02-8 that exist. -/
def aluKnown (op : Nat) : Bool :=
  decide (op ≤ 0x09) || (decide (0x10 ≤ op) && decide (op ≤ 0x13)) || (decide (0x18 ≤ op) && decide (op ≤ 0x1B))
    || (decide (0x20 ≤ op) && decide (op ≤ 0x24))

/-- The ALU behaves as NOP for want of a code: a reserved OP, or a reserved COND with CMP or CSEL (R63). -/
def AluCtl.reserved (c : AluCtl) : Bool :=
  !aluKnown c.op || ((c.op == 0x18 || c.op == 0x19) && decide (c.cond > 5))

/-- The OP the ALU acts by. -/
def AluCtl.opActs (c : AluCtl) : Nat := if c.reserved then 0 else c.op

/-- Operand A is used (Table 02-8). -/
def AluCtl.usesA (c : AluCtl) : Bool := c.opActs != 0

/-- Operand B is taken from the crossbar: the operation uses B and BSRC is 0. -/
def AluCtl.usesB (c : AluCtl) : Bool :=
  !c.bsrc && c.opActs != 0 && c.opActs != 1 && c.opActs != 0x20 && c.opActs != 0x22 && c.opActs != 0x24

/-- Latency of the operation (Table 02-8). -/
def AluCtl.latency (c : AluCtl) : Nat := if 0x22 ≤ c.opActs then 2 else 1

/-- Result and flags of an operation without state (Table 02-8); CRC32 and CRCAPP are `Alu` state. -/
def aluEval (c : AluCtl) (a b : Word) : AluOut :=
  match c.opActs with
  | 0x01 => { res := a }
  | 0x02 => aluWrap c.sgn (a + b) (a.toInt + b.toInt)
  | 0x03 => aluWrap c.sgn (a - b) (a.toInt - b.toInt)
  | 0x04 => aluSat c.sgn (readAs c.sgn a + readAs c.sgn b)
  | 0x05 => aluSat c.sgn (readAs c.sgn a - readAs c.sgn b)
  | 0x06 => { res := a &&& b }
  | 0x07 => { res := a ||| b }
  | 0x08 => { res := a ^^^ b }
  | 0x09 => { res := a &&& ~~~b }
  | 0x10 => { res := a <<< (b.toNat % 32) }
  | 0x11 => { res := if c.sgn then a.sshiftRight (b.toNat % 32) else a >>> (b.toNat % 32) }
  | 0x12 => { res := a.rotateLeft (b.toNat % 32) }
  | 0x13 => { res := a.rotateRight (b.toNat % 32) }
  | 0x18 => { res := if aluCond c.cond c.sgn a b = some true then 0xFFFFFFFF#32 else 0 }
  | 0x19 => { res := if aluCond c.cond c.sgn a c.imm = some true then a else b }
  | 0x1A => { res := if (if c.sgn then BitVec.slt b a else BitVec.ult b a) then b else a }
  | 0x1B => { res := if (if c.sgn then BitVec.slt a b else BitVec.ult a b) then b else a }
  | 0x20 => { res := BitVec.ofNat 32 (popcount a) }
  | 0x21 => aluShuf a b c.imm
  | 0x23 => { res := aluGfmul a b c.imm }
  | _ => { res := 0 }

/-! ## MAC slices -/

/-- Bounds of a signed `n`-bit number. -/
def sMin (n : Nat) : Int := -2 ^ (n - 1)
def sMax (n : Nat) : Int := 2 ^ (n - 1) - 1
def clampS (n : Nat) (v : Int) : Int := if v < sMin n then sMin n else if v > sMax n then sMax n else v

/-- A 16-bit operand, signed or unsigned (R143). -/
def tapInt (uns : Bool) (x : BitVec 16) : Int := if uns then (x.toNat : Int) else x.toInt

/-- CLR: ACC and WC are cleared before the operation, and WC may move again (R143, R153). -/
def AccView.clear (v : AccView) : AccView := { v with acc := 0, wc := 0, wcHeld := false }

/-- WC moves by one, or holds at its limit with LOST_D set (R153). -/
def AccView.moveWc (v : AccView) (up : Bool) : AccView :=
  if v.wcHeld then v
  else if up then (if v.wc = 31#6 then { v with lostD := true, wcHeld := true } else { v with wc := v.wc + 1 })
  else (if v.wc = 32#6 then { v with lostD := true, wcHeld := true } else { v with wc := v.wc - 1 })

/-- An accumulating step with addend `p` (R153). -/
def AccView.step (v : AccView) (sat : Bool) (p : Int) : AccView :=
  let t := v.acc.toInt + p
  if sat then
    { v with acc := BitVec.ofInt 40 (clampS 40 t), lostD := v.lostD || clampS 40 t != t }
  else
    let v' := { v with acc := BitVec.ofInt 40 t }
    if t > sMax 40 then v'.moveWc true else if t < sMin 40 then v'.moveWc false else v'

/-- Round half up by 2^k (R154). -/
def roundShift (x : Int) (k : Nat) : Int := if k = 0 then x else (x + 2 ^ (k - 1)) / 2 ^ k

/-- The store of width `n` with shift `k` (R154): its value, and whether it took a bound or a clamp. -/
def AccView.store (v : AccView) (n k : Nat) : Int × Bool :=
  if v.wc ≠ 0 then (if v.wc.msb then sMin n else sMax n, true)
  else
    let r := roundShift v.acc.toInt k
    (clampS n r, clampS n r != r)

/-- The smallest shift e from 0 to 24 that fits magnitude `m` into width `w` (R149). -/
def normShift (m : Int) (w : Nat) : Option Nat :=
  (List.range 25).find? fun e => decide (roundShift m e ≤ sMax w)

end Sys2Proof.Machine
end

