-- ==== Sys2Proof/Machine/Channels.lean ====
section
/-!
DEFINITION. Machine/Channels.lean: links and boundary queues (R54, R55, R177), dequeue endpoints: flop FIFOs and SRAM
rings (R164 to R175), and the commands that move words through them.
-/
namespace Sys2Proof.Machine

/-! ## Links -/

/-- A tile's sector is in Brew: its clock runs (chapter 15). -/
def State.awake (s : State) (p : Nat) : Bool := (s.sector (sectorOf p)).pstate == .brew

/-- The sender can put a word on the link now (R54). -/
def State.canSend (s : State) (l : Nat) : Bool := decide (0 < s.credits l)

/-- The sender spends a credit and the word is on its way (R54, R55). -/
def State.send (s : State) (l : Nat) (w : LinkWord) : State :=
  s.updLink l fun k => { k with flight := k.flight ++ [w], spent := k.spent + 1 }

/-- The word at the head of the receiver's register leaves it, and its credit starts back (R54, R55). -/
def State.take (s : State) (l : Nat) : State :=
  s.updLink l fun k => { k with held := k.held.drop 1, credBack := k.credBack + 1 }

/-- The oldest word on its way lands at the receiver. A word sent before a fence is kept where it lands (R121). -/
def Link.land (k : Link) : Link :=
  match k.flight with
  | [] => k
  | w :: r => { k with flight := r, held := k.held ++ [w] }

/-- A credit reaches the sender. -/
def Link.credit (k : Link) : Link :=
  if k.credBack = 0 then k else { k with credBack := k.credBack - 1, spent := k.spent - 1 }

/-- At a fence release the sender's credits are the capacity less the words held for the link; a credit still in
a boundary queue's synchroniser comes later (R122). -/
def Link.recount (boundary : Bool) (k : Link) : Link :=
  if boundary then { k with spent := k.flight.length + k.held.length + k.credBack }
  else { k with credBack := 0, spent := k.flight.length + k.held.length }

/-- LINK_WORD_ARRIVE (R55): a word lands in the input register of a link within a sector. -/
def execLinkWordArrive (l : LinkIx) (s : State) : Host.Outcome State Fault Refusal :=
  .next (if linkBoundary l then s else s.updLink l Link.land)

/-- LINK_CREDIT_RETURN (R54): neither side returns a credit across a fence (R120). -/
def execLinkCreditReturn (l : LinkIx) (s : State) : Host.Outcome State Fault Refusal :=
  .next (if linkBoundary l || s.linkFenced l then s else s.updLink l Link.credit)

/-- BOUNDARY_WRITE_SYNC (R177): a pointer change completes even while a fence stands (Table 05-4). -/
def execBoundaryWriteSync (l : LinkIx) (s : State) : Host.Outcome State Fault Refusal :=
  .next (if linkBoundary l then s.updLink l Link.land else s)

/-- BOUNDARY_CREDIT_SYNC (R177): a pointer change completes even while a fence stands (Table 05-4). -/
def execBoundaryCreditSync (l : LinkIx) (s : State) : Host.Outcome State Fault Refusal :=
  .next (if linkBoundary l then s.updLink l Link.credit else s)

/-! ## Dequeue endpoints -/

/-- Words of the ring or FIFO, wherever they lie (R165, R166). -/
def Deq.depth (d : Deq) : Nat := d.rows.length + d.landing.length + d.inBank + d.gather.length

def Deq.isRing (d : Deq) : Bool := d.geom.kind == 1

/-- Ring position `n` places after `a`, in a ring of the geometry's SIZE. -/
def Deq.wrap (d : Deq) (a : Nat) : Nat := a % max 1 d.geom.size

/-- Ring position of the oldest word in the bank region. -/
def Deq.bankPos (d : Deq) : Nat :=
  d.wrap (d.pos + 2 * max 1 d.geom.size - d.gather.length - d.inBank)

/-- Bank word of a ring position (R166). -/
def Deq.bankWord (d : Deq) (pos : Nat) : Nat := (d.geom.base + d.wrap pos) % 4096

/-- The LAST flags of the words held, oldest first. -/
def Deq.lasts (d : Deq) : List Bool :=
  d.rows.map (·.last) ++ d.landing.map (·.last)
    ++ (List.range d.inBank).map (fun i => tget false d.lastMap (d.wrap (d.bankPos + i))) ++ d.gather.map (·.last)

/-- The head packet meets THRESH or holds its last word (R169). -/
def Deq.meets (d : Deq) (thresh : Nat) : Bool :=
  let l := d.lasts
  !l.isEmpty && (l.any id || decide (thresh ≤ l.length))

/-- Gather-row words move straight into the read rows when the bank region holds none and there is room (R166). -/
def Deq.straighten (d : Deq) : Deq :=
  if d.isRing ∧ d.inBank = 0 ∧ d.landing = [] then
    let n := 8 - d.rows.length
    { d with rows := d.rows ++ d.gather.take n, gather := d.gather.drop n }
  else d

/-- A word is accepted (R174): into a flop FIFO, or into a ring's gather row with its LAST in the map. -/
def Deq.push (d : Deq) (w : LinkWord) : Deq :=
  if d.isRing then
    { d with gather := d.gather ++ [w], lastMap := tset false d.lastMap (d.wrap d.pos) w.last,
             pos := d.wrap (d.pos + 1) }.straighten
  else { d with rows := d.rows ++ [w] }

/-- The head word leaves, and no other word moves: all that a pop does while a fence stands (R172, R181). -/
def Deq.popHead (d : Deq) : Deq :=
  match d.rows with
  | [] => d
  | w :: r => { d with rows := r, popped := w, isOpen := d.isOpen && !w.last }

/-- The head word leaves, by either kind of pop (R171, R172), and gather-row words take the room. -/
def Deq.pop (d : Deq) : Deq := d.popHead.straighten

/-- The gather row has room, or gets it as a word leaves the read rows and its words move straight there (R174). -/
def Deq.gathers (d : Deq) (leaving : Bool) : Bool :=
  decide (d.gather.length < 4) || (leaving && d.inBank == 0 && d.landing.isEmpty)

/-- The endpoint can accept a word, given whether a word leaves it in the same cycle (R174). -/
def Deq.canAccept (d : Deq) (leaving : Bool) : Bool :=
  (decide (d.depth < d.geom.cap) || leaving) && (!d.isRing || d.gathers leaving)

/-- The gather row wants its bank write (R166). -/
def Deq.wantsWrite (d : Deq) : Bool := d.isRing && d.gather.length == 4

/-- The read rows want a row from the bank (R166). -/
def Deq.wantsRead (d : Deq) : Bool :=
  d.isRing && decide (0 < d.inBank) && decide (d.rows.length ≤ 4) && d.landing.isEmpty

def Tile.setDeq (t : Tile) (k : Fin 4) (d : Deq) : Tile := { t with deq := t.deq.set k d }
def State.setDeq (s : State) (p : Nat) (k : Fin 4) (d : Deq) : State := s.updTile p fun t => t.setDeq k d

/-- The task that SIGMAP names for an endpoint of a tile, if the entry is valid (Table 06-5). -/
def State.sigTask (s : State) (p : Nat) (k : Nat) : Option Nat :=
  let l := (s.tm p).logical
  let n := sectorOf p
  if l / 31 = n ∧ l < 248 then
    let e := tget 0 (s.sector n).sigmap (4 * (l % 31) + k)
    if e.msb then some (2048 * n + e.toNat % 2048) else none
  else none

/-- A flag set starts toward the dispatcher of a task (R189, R190): task, flag, origin partition, kind of Table 14-9. -/
def State.sendFlag (s : State) (t flag part kind : Nat) : State :=
  s.updSector (t / 2048) fun n => { n with flagsIn := n.flagsIn ++ [(t, flag, part, kind)] }

/-- The head packet opens when it meets the rule (R169), and the depth is judged against the effective threshold (R170). -/
def Deq.settle (d : Deq) (thresh : Nat) : Deq :=
  { d with isOpen := d.isOpen || d.meets thresh, armed := decide (d.depth < max 1 thresh) }

/-- An endpoint under the fields of a new context (R164): its depth has not risen, so it signals nothing (R170). -/
def State.deqSwitch (s : State) (p : Nat) (k : Fin 4) : State :=
  s.setDeq p k ((s.tile p).deq[k].settle (s.deqThresh p k))

/-- The start-of-cycle rules of an endpoint after its contents changed: the head packet opens (R169), and the endpoint
signals when its depth has risen to its effective threshold (R80, R170). -/
def State.deqTouch (s : State) (p : Nat) (k : Fin 4) : State :=
  let d := (s.tile p).deq[k]
  let c := s.deqCtl p k
  let th := s.deqThresh p k
  let eff := max 1 th
  let s := s.setDeq p k (d.settle th)
  if c.en && c.sig && d.armed && decide (eff ≤ d.depth) then
    match s.sigTask p k with
    | some t => s.sendFlag t c.flag (s.ownerOf p) 1
    | none => s
  else s

/-- Word at word address `a` of a bank, as a device address (R69). -/
def bankAddr (p bank w : Nat) : Nat := dataBase p + 0x4000 * bank + 4 * w

/-- A ring access of an endpoint before `k`, or the endpoint's own write before its read, stands first at the bank
(R74). -/
def State.ringAhead (s : State) (p bank : Nat) (k : Fin 4) (read : Bool) : Bool :=
  (List.finRange 4).any fun j =>
    let d := (s.tile p).deq[j]
    d.geom.bank == bank &&
      ((decide (j < k) && (d.wantsWrite || d.wantsRead)) || (j == k && read && d.wantsWrite))

/-- Some ring of the tile wants the bank (R74). -/
def State.ringWants (s : State) (p bank : Nat) : Bool :=
  (List.finRange 4).any fun j =>
    let d := (s.tile p).deq[j]
    d.geom.bank == bank && (d.wantsWrite || d.wantsRead)

/-- A request at its target is for this bank of the tile's data SRAM (R69). -/
def Packet.atBank (k : Packet) (p bank : Nat) : Bool :=
  match areaOf (k.addr % 2 ^ 44) with
  | .data q => q == p && k.addr % 0x40000 / 0x4000 == bank
  | _ => false

/-- A mesh access to the bank has waited 16 sector cycles or more, and goes before all others (R74). -/
def State.meshFirst (s : State) (p bank : Nat) : Bool :=
  s.mesh.arrived.any fun k => decide (16 ≤ k.waited) && k.atBank p bank

/-- A ring's access is granted by its bank (R74): in bank 0 the rings have port A, which no mesh access uses. -/
def State.ringGranted (s : State) (p bank : Nat) (k : Fin 4) (read : Bool) : Bool :=
  !s.ringAhead p bank k read && (bank == 0 || !s.meshFirst p bank)

/-- Words move inside a tile: its sector's clock runs and no fence stands (R181). -/
def State.moving (s : State) (p : Nat) : Bool := s.awake p && !(s.tile p).fenced

/-- The words of a full gather row go to their ring positions; POISON is stored as the poison syndrome (R166). -/
def State.writeRing (s : State) (p : Nat) (d : Deq) : State :=
  let start := d.pos + 2 * max 1 d.geom.size - d.gather.length
  (List.range d.gather.length).foldl (fun s i =>
    let w := d.gather.getD i {}
    s.writeWord (bankAddr p d.geom.bank (d.bankWord (start + i))) w.data w.poison) s

/-- The words of the oldest row of the bank region, each with its poison (R166, R168), and the trackers told. -/
def State.readRing (s : State) (p : Nat) (d : Deq) (n : Nat) : List LinkWord × State :=
  (List.range n).foldl (fun (ws, s) i =>
    let pos := d.bankPos + i
    let (v, bad, s) := State.readWord s (bankAddr p d.geom.bank (d.bankWord pos))
    (ws ++ [{ data := v, last := tget false d.lastMap (d.wrap pos), poison := bad }], s)) ([], s)

/-- RING_ROW_READ (R166). -/
def execRingRowRead (p : TileIx) (k : Fin 4) (s : State) : Host.Outcome State Fault Refusal :=
  let d := (s.tile p).deq[k]
  if s.moving p && d.wantsRead && s.ringGranted p d.geom.bank k true then
    let n := min 4 d.inBank
    let (ws, s) := s.readRing p d n
    .next (s.setDeq p k { d with landing := ws, inBank := d.inBank - n })
  else .next s

/-- RING_ROW_ARRIVE (R167). -/
def execRingRowArrive (p : TileIx) (k : Fin 4) (s : State) : Host.Outcome State Fault Refusal :=
  let d := (s.tile p).deq[k]
  if s.moving p then
    .next ((s.setDeq p k { d with rows := d.rows ++ d.landing, landing := [] }.straighten).deqTouch p k)
  else .next s

/-- DEQ_GEOMETRY_APPLY (R164): a held geometry takes effect once the queue is empty. A word accepted before this row keeps
the old geometry waiting. -/
def execDeqGeometryApply (p : TileIx) (k : Fin 4) (s : State) : Host.Outcome State Fault Refusal :=
  let d := (s.tile p).deq[k]
  match d.held with
  | some g =>
    if d.depth = 0 then .next ((s.setDeq p k { d with geom := g, held := none, pos := 0 }).deqTouch p k) else .next s
  | none => .next s

end Sys2Proof.Machine
end

