-- ==== Sys2Proof/Machine/Xbar.lean ====
section
/-!
DEFINITION. Machine/Xbar.lean: the crossbar (R56 to R61) with the issue of ALUs (R65), memory ports (R71 to R74) and
MAC units (R143 to R156), and the tile's aborts. A word moves only when every consumer of it can accept, so one move
may take several sources and start several units together; `joint` is that move.
-/
namespace Sys2Proof.Machine

/-! ## MAC units: one issue slot -/

/-- The instruction at the unit's PC. -/
def State.macNow (s : State) (p : Nat) (u : Fin 4) : Nat := s.macInstr p u (s.tile p).mac[u].pc.toNat

/-- IN in complex mode ignores HALF, so no HALF of it is reserved (R148). -/
def State.macNowReserved (s : State) (p : Nat) (u : Fin 4) : Bool :=
  let i := s.macNow p u
  miReserved i && !(miOp i == 0x08 && s.macCplx p u)

/-- The unit is at a yield point (R158). -/
def State.atYield (s : State) (p : Nat) (u : Fin 4) : Bool :=
  let m := (s.tile p).mac[u]
  miYp (s.macNow p u) && m.rep.isNone && !m.endSlot && !m.acc1 && !m.acc2

def PipeOp.isOut : PipeOp → Bool
  | .out _ => true
  | _ => false

/-- An OUT would overfill the output queue, or one falls due with the queue full (R151). -/
def Mac.outStall (m : Mac) (isOut : Bool) : Bool :=
  let young := m.pipe.headD .bubble
  let old := (m.pipe.drop 1).headD .bubble
  (isOut && decide (2 ≤ m.outq.length + bit young.isOut)) || (old.isOut && decide (2 ≤ m.outq.length))

/-- Every enabled unit is at a yield point, has halted or has stopped (R158). -/
def State.allAtYield (s : State) (p : Nat) : Bool :=
  (List.finRange 4).all fun u =>
    !s.macOn p u || (s.tile p).mac[u].halted || (s.tile p).mac[u].stopped || s.atYield p u

/-- A pending yield is accepted in this cycle, so no unit issues and no IN takes its word (R158, Table 04-13). -/
def State.yieldDue (s : State) (p : Nat) : Bool :=
  (s.tile p).yieldHere && (s.tile p).seq == .run && s.allAtYield p

/-- The unit can issue the instruction at its PC, but for the word an IN needs (R151, R156, R158). -/
def State.macCanIssue (s : State) (p : Nat) (u : Fin 4) : Bool :=
  let t := s.tile p
  let m := t.mac[u]
  s.macOn p u && (t.seq == .run || (t.seq == .drain && !t.yielded && !s.atYield p u)) && s.moving p && !s.yieldDue p
    && !m.halted && !m.stopped && m.due.isEmpty
    && !m.outStall (!m.endSlot && !s.macNowReserved p u && miOp (s.macNow p u) == 0x09)

/-- A pipeline slot passes: what was issued two slots ago falls due, and the stores' view moves on (R152). -/
def Mac.slot (m : Mac) (new : PipeOp) : Mac :=
  let old := (m.pipe.drop 1).headD .bubble
  { m with
    pipe := [new, m.pipe.headD .bubble]
    due := if old = .bubble then [] else [old]
    view2 := m.view1
    view1 := m.slices.map (·.av)
    stalled := false }

/-- PC and repeat state after an instruction that does not itself change the flow (R151, R155). -/
def Mac.advance (m : Mac) : Mac :=
  match m.rep with
  | none => { m with pc := m.pc + 1 }
  | some r =>
    if r.at_ + 1 < r.len then { m with pc := m.pc + 1, rep := some { r with at_ := r.at_ + 1 } }
    else if 1 < r.left then { m with pc := r.first, rep := some { r with left := r.left - 1, at_ := 0 } }
    else { m with pc := m.pc + 1, rep := none, endSlot := true }

/-- The memory word that holds tap word `w` of a slice (R137). -/
def tapAddr (p slice w : Nat) : Nat := tapBase p slice + 4 * (w / 2)

/-- A 16-bit tap read: value, poison, state (R137, R139). -/
def State.tapRead (s : State) (p slice w : Nat) : BitVec 16 × Bool × State :=
  let (d, bad, s) := State.readWord s (tapAddr p slice w)
  (if w % 2 = 0 then d.truncate 16 else (d >>> 16).truncate 16, bad, s)

/-- A 16-bit tap write updates its half; on a poisoned memory word it is discarded (R137). -/
def State.tapWrite (s : State) (p slice w : Nat) (v : BitVec 16) : State :=
  (s.modifyWord (tapAddr p slice w)
    (fun d => if w % 2 = 0 then (d &&& 0xFFFF0000#32) ||| v.zeroExtend 32
      else (d &&& 0x0000FFFF#32) ||| (v.zeroExtend 32 <<< 16)) false).2

/-- Post-modification of a pointer (Table 04-2), modulo 512. -/
def Slice.modOf (l : Slice) (code n : Nat) : BitVec 9 :=
  match code with
  | 1 => 1
  | 2 => -1
  | 3 => l.off.toList.getD n 0
  | _ => 0

def Slice.apAt (l : Slice) (n : Nat) : BitVec 9 := l.ap.toList.getD n 0
def Slice.bump (l : Slice) (n : Nat) (d : BitVec 9) : Slice :=
  { l with ap := l.ap.setIfInBounds n (l.apAt n + d) }

def Mac.sliceMap (m : Mac) (f : Fin 4 → Slice → Slice) : Mac := { m with slices := Vector.ofFn fun v => f v m.slices[v] }

def State.setMac (s : State) (p : Nat) (u : Fin 4) (m : Mac) : State := s.updTile p fun t => { t with mac := t.mac.set u m }

/-- Slices that act: all four in complex mode for MAC, MACK and FIRD, otherwise those of SMASK (R144, R148). -/
def actingMask (cplx : Bool) (i : Nat) : Nat := if cplx && decide (1 ≤ miOp i) && decide (miOp i ≤ 3) then 0xF else miMask i

/-- The shift of a store: K, or SH of the slice when K is 31. -/
def storeShift (l : Slice) (k : Nat) : Nat := if k = 31 then l.sh.toNat else k

/-- The slices' LOST_D and SAT_D as bits 4u to 4u + 3 of the tile's registers (Table 04-14). -/
def sliceBits (u : Fin 4) (f : Fin 4 → Bool) : BitVec 32 :=
  BitVec.ofNat 32 ((List.finRange 4).foldl (fun a v => a + bit (f v) * 2 ^ (4 * u.val + v.val)) 0)

/-- The products of the slices, slot A read before slot B acts, with the poison met and the tap memory after. -/
def State.macProducts (s : State) (p : Nat) (u : Fin 4) (i : Nat) : List Int × Bool × State :=
  let mask := actingMask (s.macCplx p u) i
  (List.finRange 4).foldl (fun ((ps, bad, s) : List Int × Bool × State) (v : Fin 4) =>
    let l := (State.tile s p).mac[u].slices[v]
    let sl := 4 * u.val + v.val
    if !inMask mask v then (ps ++ [0], bad, s)
    else
      let wa := (l.apAt (miPa i)).toNat
      let (a, b1, s) := State.tapRead s p sl wa
      let ia := tapInt (miUa i) a
      if miOp i = 0x01 then
        let (b, b2, s) := State.tapRead s p sl (l.apAt (miPb i)).toNat
        (ps ++ [ia * tapInt (miUb i) b], bad || b1 || b2, s)
      else if miOp i = 0x02 then
        (ps ++ [ia * tapInt (miUb i) (s.coeff p u v l.ci.toNat)], bad || b1, s)
      else if miOp i = 0x03 then
        let c := s.coeff p u v l.ci.toNat
        (ps ++ [ia * tapInt (miUb i) c], bad || b1, if b1 then s else State.tapWrite s p sl ((wa + 1) % 512) a)
      else (ps ++ [ia], bad || b1, s)) ([], false, s)

/-- The accumulator of slice `v` after an accumulating instruction with the products `ps` (R143, R148, R153). -/
def accAfter (cplx sat : Bool) (i : Nat) (ps : List Int) (v : Nat) (a : AccView) : AccView :=
  let mask := actingMask cplx i
  let x := ps.getD v 0
  let a0 := if miClr i then a.clear else a
  let sgn : Int := if miNeg i then -1 else 1
  if 1 ≤ miOp i ∧ miOp i ≤ 3 then
    if cplx then
      if v = 0 then a0.step sat (sgn * (ps.getD 0 0 - ps.getD 1 0))
      else if v = 2 then a0.step sat (sgn * (ps.getD 2 0 + ps.getD 3 0))
      else a
    else if inMask mask v then a0.step sat (sgn * x) else a
  else if !inMask mask v then a
  else if miOp i = 0x04 then
    if miClr i || decide (a.acc.toInt < x.natAbs) then { a0 with acc := BitVec.ofInt 40 x.natAbs } else a
  else { a with acc := BitVec.ofInt 40 x, wc := 0, wcHeld := false }

/-- The pointers and coefficient index of a slice after a tap-format instruction (R140). -/
def slicePtrs (cplx : Bool) (i : Nat) (v : Nat) (l : Slice) : Slice :=
  let op := miOp i
  let acts := inMask (actingMask cplx i) v || (cplx && op == 0x08)
  if !acts then l
  else
    let da := l.modOf (miMa i) (miPa i)
    let db := l.modOf (miMb i) (miPb i)
    let l := if op = 0x0A then l else l.bump (miPa i) da
    let l := if op = 0x01 ∨ op = 0x0A then l.bump (miPb i) db else l
    if (op = 0x02 ∨ op = 0x03) ∧ miCinc i then { l with ci := l.ci + 1 } else l

/-- The word an OUT forms, and which slices' stores took a bound or a clamp (R147, Table 04-8). DESIGN CHOICE (log entry
86): an FLG read sees a store's SAT_D from the issue slot of the store. -/
def Mac.outWord (m : Mac) (i : Nat) : LinkWord × (Fin 4 → Bool) :=
  let st (n : Nat) (v : Fin 4) : Int × Bool := m.view2[v].store n (storeShift m.slices[v] (miOutK i))
  let sa : Fin 4 := Fin.ofNat 4 (miSa i)
  let sb : Fin 4 := Fin.ofNat 4 (miSb i)
  let w16 (v : Fin 4) : BitVec 16 := BitVec.ofInt 16 (st 16 v).1
  let last := if miLm i = 1 then true else if miLm i = 2 then m.pendingLast else false
  let mk (d : Word) : LinkWord := { data := d, last := last }
  match miFmt i with
  | 0 => (mk (BitVec.ofInt 32 (st 32 sa).1), fun v => v == sa && (st 32 sa).2)
  | 1 => (mk ((w16 sa).signExtend 32), fun v => v == sa && (st 16 sa).2)
  | 2 => (mk (w16 sb ++ w16 sa), fun v => (v == sa && (st 16 sa).2) || (v == sb && (st 16 sb).2))
  | 3 => (mk (wordOf ((w16 0).truncate 8) ((w16 1).truncate 8) ((w16 2).truncate 8) ((w16 3).truncate 8)),
          fun v => (st 16 v).2)
  | 4 => (mk (m.slices[sa].sh.zeroExtend 32), fun _ => false)
  | _ =>
    (mk (BitVec.ofNat 32 ((List.finRange 4).foldl (fun a v =>
      a + bit m.view2[v].lostD * 2 ^ v.val + bit m.slices[v].satD * 2 ^ (4 + v.val)) 0)), fun _ => false)

/-- SETP: the value a slice's register takes (R150). -/
def setpValue (i v : Nat) : Nat := miValue i + v * miLane i

/-- SETP loads SH above 24 in some slice of SMASK (R150). -/
def setpBad (i : Nat) : Bool :=
  miReg i == 9 && (List.range 4).any fun v => inMask (miSetMask i) v && decide (setpValue i v > 24)

def setpSlice (i v : Nat) (l : Slice) : Slice :=
  if !inMask (miSetMask i) v then l
  else
    let x := setpValue i v
    let r := miReg i
    if r < 4 then { l with ap := l.ap.setIfInBounds r (BitVec.ofNat 9 x) }
    else if r < 8 then { l with off := l.off.setIfInBounds (r - 4) (BitVec.ofNat 9 x) }
    else if r = 8 then { l with ci := BitVec.ofNat 4 x }
    else { l with sh := BitVec.ofNat 5 (min x 24) }

/-- NORM: the shift, and whether SAT_D is set (R149); it judges the accumulators as a store sees them (R152). -/
def Mac.norm (m : Mac) (i : Nat) : Nat × Bool :=
  let vs := (List.finRange 4).filter fun (v : Fin 4) => inMask (miMask i) v
  if vs.any fun v => m.view2[v].wc ≠ 0 then (24, true)
  else
    let mag := vs.foldl (fun (a : Nat) v => max a m.view2[v].acc.toInt.natAbs) 0
    match normShift mag (miW i) with
    | some e => (e, false)
    | none => (24, true)

/-- IN: where the halves of the word go (Table 04-7, R148). -/
def State.inStore (s : State) (p : Nat) (u : Fin 4) (i : Nat) (w : Word) : State :=
  let lo : BitVec 16 := w.truncate 16
  let hi : BitVec 16 := (w >>> 16).truncate 16
  (List.finRange 4).foldl (fun (s : State) (v : Fin 4) =>
    let a := ((State.tile s p).mac[u].slices[v].apAt (miPa i)).toNat
    let sl := 4 * u.val + v.val
    if s.macCplx p u then State.tapWrite s p sl a (if v.val % 2 = 0 then lo else hi)
    else if !inMask (miMask i) v then s
    else if miHalf i = 0 then State.tapWrite s p sl a lo
    else if miHalf i = 1 then State.tapWrite s p sl a hi
    else State.tapWrite (State.tapWrite s p sl a lo) p sl ((a + 1) % 512) hi) s

/-- One issue slot of MAC_u with the instruction at its PC (or the end slot of a repeat block), `w` the word an IN
takes. The answer says whether a tap read delivered poison. -/
def State.macIssue (s : State) (p : Nat) (u : Fin 4) (w : LinkWord) : Bool × State :=
  let i := s.macNow p u
  let m := (s.tile p).mac[u]
  let op := miOp i
  let acts := miAccumulates i && !s.macNowReserved p u && actingMask (s.macCplx p u) i != 0
  let note (m : Mac) : Mac := { m with acc2 := m.acc1, acc1 := acts }
  if m.endSlot then (false, s.setMac p u ({ m with endSlot := false }.slot .bubble))
  else if s.macNowReserved p u then
    (false, (s.setMac p u (note (m.slot .bubble)).advance).stick p badCode)
  else if m.rep.isSome ∧ (op = 0x18 ∨ op = 0x19 ∨ op = 0x1A) then
    (false, (s.setMac p u (note (m.slot .bubble)).advance).stick p badCode)
  else if miAccumulates i then
    let (ps, bad, s) := s.macProducts p u i
    let cplx := s.macCplx p u
    let m1 := (m.slot .bubble).sliceMap fun v l =>
      slicePtrs cplx i v { l with av := accAfter cplx (s.macSatAcc p u) i ps v l.av }
    let lost := sliceBits u fun v =>
      (accAfter cplx (s.macSatAcc p u) i ps v { m.slices[v].av with lostD := false }).lostD
    (bad, (s.setMac p u (note m1).advance).stickMac p lost 0 0)
  else match op with
  | 0x08 =>
    let s := if w.poison then s else s.inStore p u i w.data
    let m1 := (m.slot .bubble).sliceMap fun v l => slicePtrs (s.macCplx p u) i v l
    (w.poison, s.setMac p u { (note m1).advance with pendingLast := m.pendingLast || w.last })
  | 0x09 =>
    let (ow, sat) := m.outWord i
    let m1 := (m.slot (.out ow)).sliceMap fun v l => { l with satD := l.satD || sat v }
    let m1 := if miLm i = 2 then { m1 with pendingLast := false } else m1
    (false, (s.setMac p u (note m1).advance).stickMac p 0 (sliceBits u sat) 0)
  | 0x0A =>
    let st (v : Fin 4) : Int × Bool := m.view2[v].store 16 (storeShift m.slices[v] (miK i))
    let sat (v : Fin 4) : Bool := inMask (miMask i) v && (st v).2
    let ws := ((List.finRange 4).filter fun (v : Fin 4) => inMask (miMask i) v).map fun (v : Fin 4) =>
      ({ slice := v, word := m.slices[v].apAt (miPb i), value := BitVec.ofInt 16 (st v).1 } : TapStore)
    let m1 := (m.slot (.stt ws)).sliceMap fun v l => slicePtrs false i v { l with satD := l.satD || sat v }
    (false, (s.setMac p u (note m1).advance).stickMac p 0 (sliceBits u sat) 0)
  | 0x0B =>
    let (e, sat) := m.norm i
    let hit (v : Fin 4) : Bool := inMask (miMask i) v
    let m1 := (m.slot .bubble).sliceMap fun v l =>
      if hit v then { l with sh := BitVec.ofNat 5 e, satD := l.satD || sat } else l
    (false, (s.setMac p u (note m1).advance).stickMac p 0 (sliceBits u fun v => sat && hit v) 0)
  | 0x10 =>
    let m1 := (m.slot .bubble).sliceMap fun v l => setpSlice i v l
    let s := s.setMac p u (note m1).advance
    (false, if setpBad i then s.stick p badCode else s)
  | 0x18 =>
    let m1 := note (m.slot .bubble)
    let next := m.pc + 1
    let m1 :=
      if miLen i = 0 then { m1 with pc := next }
      else if miCount i = 0 then { m1 with pc := next + BitVec.ofNat 4 (miLen i) }
      else { m1 with pc := next, rep := some { left := miCount i, first := next, len := miLen i, at_ := 0 } }
    (false, s.setMac p u m1)
  | 0x19 => (false, s.setMac p u { note (m.slot .bubble) with pc := BitVec.ofNat 4 (miTarget i) })
  | 0x1A => (false, s.setMac p u { (note (m.slot .bubble)).advance with halted := true })
  | _ => (false, s.setMac p u (note (m.slot .bubble)).advance)

/-! ## Sources and consumers -/

/-- The word a source presents (R59): link inputs 2 to 21, ALU results, MAC results, read data, dequeue ports, line
sides of enqueue endpoints. -/
def State.present (s : State) (p c : Nat) : Option LinkWord :=
  let t := s.tile p
  if c < 2 then none
  else if c < 22 then
    match s.homeOf p with
    | some h => if s.linkReads (linkId h (c - 2)) then (s.link (linkId h (c - 2))).held.head? else none
    | none => none
  else if c < 26 then t.alu[Fin.ofNat 4 (c - 22)].result
  else if c < 30 then t.mac[Fin.ofNat 4 (c - 26)].outq.head?
  else if c < 32 then t.port[Fin.ofNat 2 (c - 30)].queue.head?
  else if c < 36 then
    let k : Fin 4 := Fin.ofNat 4 (c - 32)
    let d := t.deq[k]
    if (s.deqCtl p k).en && (d.isOpen || d.meets (s.deqThresh p k)) then d.rows.head? else none
  else if c < 40 then
    let k : Fin 4 := Fin.ofNat 4 (c - 36)
    if s.enqOn p k then t.enq[k].head? else none
  else none

/-- An external source (R84): a link input or a dequeue port. -/
def external (c : Nat) : Bool := (decide (2 ≤ c) && decide (c < 22)) || (decide (32 ≤ c) && decide (c < 36))

/-- Units, numbered: ALU_n as n, memory port P_k as 4 + k, MAC_u as 6 + u. Outputs a unit takes from. -/
def State.unitOutputs (s : State) (p u : Nat) : List Nat :=
  if u < 4 then
    let c := s.aluCtl p u
    (if c.usesA then [20 + 2 * u] else []) ++ (if c.usesB then [21 + 2 * u] else [])
  else if u < 6 then
    match (s.portCtl p (u - 4)).mode with
    | 1 => [28 + u]
    | 2 => [28 + u, 30 + u]
    | 4 => [30 + u]
    | 5 => [28 + u, 30 + u]
    | 6 => [28 + u, 30 + u]
    | _ => []
  else if s.macOn p (u - 6) then [22 + u] else []

/-- The word an ONCE output already holds in this dispatch (R60). -/
def State.onceWord (s : State) (p j : Nat) : Option LinkWord :=
  if s.onceAt p j then tget none (s.tile p).once j else none

/-- Sources whose words a unit takes when it acts: its outputs' selects, but for ZERO and ONCE. The output of a MAC unit
accepts a word only as the unit issues IN, an ONCE output too until it has its word (R60, R146). -/
def State.unitSources (s : State) (p u : Nat) : List Nat :=
  ((s.unitOutputs p u).filter fun j =>
    (!s.onceAt p j || (decide (6 ≤ u) && (s.onceWord p j).isNone)) && decide (2 ≤ s.sel p j)).map (s.sel p)

/-- ONCE outputs of running units that have not taken their word and select source `c` (R60). -/
def State.onceTakers (s : State) (p c : Nat) : List Nat :=
  ((List.range 10).flatMap (s.unitOutputs p)).filter fun j =>
    s.onceAt p j && (s.onceWord p j).isNone && s.sel p j == c

/-- The moving source `c` is pushed into endpoint `k`, which can accept it only as a word leaves (R174). -/
def State.pushPops (s : State) (p c : Nat) (k : Fin 4) : Bool :=
  (s.deqCtl p k).en && (s.deqCtl p k).src == c && !(s.tile p).deq[k].canAccept false

/-- Sources and units that must act together with the given ones (R59, Table 05-2): a unit that takes a moving word takes
all its operands, a moving word goes to every unit that consumes it, and a word pushed into a full endpoint moves with the
word at its head. -/
def State.closure (s : State) (p : Nat) : Nat → List Nat → List Nat → List Nat × List Nat
  | 0, src, units => (src, units)
  | n + 1, src, units =>
    let units' := (List.range 10).filter fun u => units.contains u || (s.unitSources p u).any src.contains
    let src' := (List.range 40).filter fun c => src.contains c || units'.any (fun u => (s.unitSources p u).contains c)
      || (decide (32 ≤ c) && decide (c < 36) && src.any fun d => s.pushPops p d (Fin.ofNat 4 (c - 32)))
    s.closure p n src' units'

/-- The words that ONCE outputs hold once the sources of `src` have moved (R60). -/
def State.onceAfter (s : State) (p : Nat) (src : List Nat) : Tab (Option LinkWord) :=
  (List.range 40).foldl (fun o c =>
    if src.contains c then (s.onceTakers p c).foldl (fun o j => tset none o j (some ((s.present p c).getD {}))) o
    else o) (s.tile p).once

/-- The state as its units see it while the sources of `src` move: an ONCE output presents its word to its unit from
the cycle in which it takes it (R60, R61). -/
def State.onceTaken (s : State) (p : Nat) (src : List Nat) : State :=
  s.updTile p fun t => { t with once := s.onceAfter p src }

/-- The word output `j` delivers: CLRLAST clears LAST (R60); ZERO is a zero word in every cycle (Table 02-4). -/
def State.delivered (s : State) (p j : Nat) : Option LinkWord :=
  let w := if s.sel p j = 1 then some {}
    else if s.onceAt p j then s.onceWord p j else s.present p (s.sel p j)
  w.map fun w => if s.clrLast p j then { w with last := false } else w

/-- Word address of a port's next access (R69, R71). -/
def State.portAddr (s : State) (p : Nat) (k : Fin 2) : Nat :=
  let c := s.portCtl p k
  if c.mode = 3 ∨ c.mode = 4 then (c.base + (s.tile p).port[k].gen * c.stride) % 65536
  else ((s.delivered p (32 + k)).getD {}).data.toNat

/-- An address out of range (R69). -/
def outOfRange (a : Nat) : Bool := decide (0xC000 ≤ a)

/-- A port could make its access, but for the grant of its bank: its generator has accesses left, and for a read
its return queue has room (R71, R73). -/
def State.portFits (s : State) (p : Nat) (k : Fin 2) : Bool :=
  let c := s.portCtl p k
  let m := (s.tile p).port[k]
  (s.tile p).seq == .run && (c.mode != 0 && c.mode != 7)
    && (!(c.mode == 3 || c.mode == 4) || decide (m.gen < c.count))
    && (!(c.mode == 1 || c.mode == 3) || decide (m.flight.length + m.queue.length < 3))

/-- A unit can act, the sources of `src` moving, banks aside (R65, R151, R73). -/
def State.unitFits (s : State) (p : Nat) (src : List Nat) (u : Nat) : Bool :=
  let t := s.tile p
  (s.unitOutputs p u).all (fun j => (s.delivered p j).isSome)
  && (if u < 4 then
        let a := t.alu[Fin.ofNat 4 u]
        let c := s.aluCtl p u
        (t.seq == .run || t.seq == .drain) && c.opActs != 0 && !a.append
          && (a.result.isNone || src.contains (22 + u)) && decide (a.flight.length < c.latency)
      else if u < 6 then s.portFits p (Fin.ofNat 2 (u - 4))
      else
        let v : Fin 4 := Fin.ofNat 4 (u - 6)
        s.macCanIssue p v && !t.mac[v].endSlot && !s.macNowReserved p v && miOp (s.macNow p v) == 0x08)

/-- Every consumer of a moving source that is no unit can accept (R59, R54, R76, R174, R82, R84). -/
def State.othersFit (s : State) (p : Nat) (src : List Nat) (c : Nat) : Bool :=
  let t := s.tile p
  let inner := t.seq == .run || (t.seq == .drain && !external c)
  (List.range 20).all (fun j => s.sel p j != c ||
      (match s.homeOf p with
        | some h => match outLink h j with
          | some l => s.canSend l
          | none => false
        | none => false))
  && (List.finRange 4).all (fun k => !(s.enqOn p k && s.sel p (36 + k) == c) ||
      (inner && decide (t.enq[k].length - bit (src.contains (36 + k.val)) < 2)))
  && (List.finRange 4).all (fun k => !((s.deqCtl p k).en && (s.deqCtl p k).src == c) ||
      t.deq[k].canAccept (src.contains (32 + k.val)))
  && ((s.onceTakers p c).isEmpty || inner)
  && (!external c || t.seq == .run || (List.range 10).all fun u => !(s.unitSources p u).contains c)

/-- A source has some consumer (R59). -/
def State.hasConsumer (s : State) (p c : Nat) : Bool :=
  (List.range 20).any (fun j => s.sel p j == c)
    || (List.finRange 4).any (fun k => s.enqOn p k && s.sel p (36 + k) == c)
    || (List.finRange 4).any (fun k => (s.deqCtl p k).en && (s.deqCtl p k).src == c)
    || (List.range 10).any (fun u => (s.unitSources p u).contains c)
    || !(s.onceTakers p c).isEmpty

/-- Everything but bank grants allows the joint move. A source without a consumer keeps its word (R59). -/
def State.jointFits (s : State) (p : Nat) (src units : List Nat) : Bool :=
  s.moving p && (s.tile p).seq != .off
    && src.all (fun c => (s.present p c).isSome && s.hasConsumer p c && s.othersFit p src c)
    && units.all ((s.onceTaken p src).unitFits p src)

/-- Port `k` presents a request to bank `b`: its access can proceed but for the bank (R74). -/
def State.portPresents (s : State) (p b : Nat) (k : Fin 2) : Bool :=
  let (c, u) := s.closure p 14 [] [4 + k.val]
  let a := (s.onceTaken p c).portAddr p k
  s.portFits p k && s.jointFits p c u && !outOfRange a && a / 4096 == b

/-- The bank of a port's access stands free for it (R74): no ring access or long-waiting mesh access before it, and for
P_1 on a single-port bank no access of P_0 that can proceed. In bank 0, P_0 shares port A with the rings and P_1 shares
port B with the mesh. -/
def State.bankGrants (s : State) (p : Nat) (units : List Nat) (k : Fin 2) : Bool :=
  let a := s.portAddr p k
  let b := a / 4096
  if outOfRange a then true
  else if b = 0 then (if k = 0 then !s.ringWants p 0 else !s.meshFirst p 0)
  else
    let first := k = 1 && ((units.contains 4 && !outOfRange (s.portAddr p 0) && s.portAddr p 0 / 4096 == b)
      || s.portPresents p b 0)
    !s.ringWants p b && !s.meshFirst p b && !first

/-- A mesh access to a bank of the tile's data SRAM is granted (R74): one that has waited 16 sector cycles at once, another
when no ring and no port presents a request; in bank 0 it shares port B with P_1, whose request goes first. -/
def State.bankFree (s : State) (p b : Nat) (waited : Bool) : Bool :=
  waited || if b = 0 then !s.portPresents p 0 1
    else !(s.moving p && s.ringWants p b) && !s.portPresents p b 0 && !s.portPresents p b 1

/-- The joint move may be made. -/
def State.jointOk (s : State) (p : Nat) (src units : List Nat) : Bool :=
  s.jointFits p src units
    && (List.finRange 2).all fun k => !units.contains (4 + k.val) || (s.onceTaken p src).bankGrants p units k

/-! ## ALU issue -/

/-- LAST of an ALU result (R66). DESIGN CHOICE (log entry 86): with LSEL = 1 it is 0 also when the operation has no operand
B. -/
def aluLast (c : AluCtl) (a b : LinkWord) : Bool :=
  if c.lsel then (!c.bsrc && c.usesB && b.last) else a.last

/-- Issue of an operation with its operand words: the result starts its flight, CRC state moves (R64, R65). -/
def Alu.issue (u : Alu) (c : AluCtl) (a b : LinkWord) : Alu :=
  if c.opActs = 0x22 then
    let crc := crcWord u.crc a.data
    { u with crc := if a.last then 0xFFFFFFFF#32 else crc,
             flight := u.flight ++ [{ data := crc ^^^ 0xFFFFFFFF#32, last := aluLast c a b }] }
  else if c.opActs = 0x24 then
    { u with crc := crcWord u.crc a.data, append := a.last, flight := u.flight ++ [{ data := a.data, last := false }] }
  else { u with flight := u.flight ++ [{ data := (aluEval c a.data b.data).res, last := aluLast c a b }] }

/-- The operand words of ALU_n: A and B as delivered, B from IMM when BSRC is 1. -/
def State.aluOperands (s : State) (p : Nat) (n : Fin 4) : LinkWord × LinkWord :=
  let c := s.aluCtl p n
  let a := if c.usesA then (s.delivered p (20 + 2 * n)).getD {} else {}
  let b := if c.bsrc then { data := c.imm } else if c.usesB then (s.delivered p (21 + 2 * n)).getD {} else {}
  (a, b)

/-- Sticky bits of an ALU issue (R64, R68). -/
def State.aluStick (s : State) (p : Nat) (n : Fin 4) : BitVec 32 :=
  let (a, b) := s.aluOperands p n
  let o := aluEval (s.aluCtl p n) a.data b.data
  (if o.ovf then aluOvf n else 0) ||| (if o.bad then badCode else 0)

/-! ## Memory port access -/

/-- One access of port P_k in its mode at its address, with the data or mask word (R71 to R73, R308). -/
def State.portAccess (s : State) (p : Nat) (k : Fin 2) (a : Nat) (aw dw : LinkWord) : State :=
  let c := s.portCtl p k
  let m := (s.tile p).port[k]
  let gen := if c.mode = 3 ∨ c.mode = 4 then m.gen + 1 else m.gen
  let put (s : State) (m : MemPort) : State := s.updTile p fun t => { t with port := t.port.set k m }
  let last := if c.mode = 3 then m.gen + 1 == c.count else aw.last
  let addr := bankAddr p (a / 4096) (a % 4096)
  if c.mode = 1 ∨ c.mode = 3 then
    if outOfRange a then
      (put s { m with gen := gen, flight := m.flight ++ [{ data := 0, last := last, poison := true }] }).stick p memRange
    else
      let (d, bad, s) := State.readWord s addr
      put s { m with gen := gen, flight := m.flight ++ [{ data := d, last := last, poison := bad }] }
  else
    let s := put s { m with gen := gen }
    if outOfRange a then s.stick p memRange
    else if c.mode = 5 then (s.modifyWord addr (fun d => d ||| dw.data) false).2
    else if c.mode = 6 then (s.modifyWord addr (fun d => d &&& ~~~dw.data) false).2
    else s.writeWord addr dw.data false

/-! ## Aborts and the end of a dispatch -/

/-- The tile sends DONE, and with it a new GET_WORK unless a fence is requested (R84, R86, R126). -/
def State.sendDone (s : State) (p code : Nat) : State :=
  let t := s.tile p
  let d : Done := { sector := sectorOf p, tile := (s.tm p).logical % 31, task := t.grant.task, counter := t.batchCount, code := code }
  let s := { s with dones := s.dones ++ [d], getWorks := if t.fenceReq then s.getWorks else s.getWorks ++ [p] }
  s.updTile p fun t =>
    { t with lastCode := code, seq := if t.fenceReq then .off else .ask, yielded := false, yieldHere := false,
             dispatches := if code < 2 then t.dispatches + 1 else t.dispatches,
             aborts := if code < 2 then t.aborts else t.aborts + 1 }

/-- What an abort discards (R86, R136): results, return queues, enqueue registers, ONCE words, accesses in flight, the
MAC units' pipelines and output queues. -/
def Tile.discard (t : Tile) : Tile :=
  { t with
    alu := t.alu.map fun a => { a with result := none, flight := [], append := false }
    port := t.port.map fun m => { m with flight := [], queue := [] }
    enq := Vector.replicate 4 []
    once := []
    mac := t.mac.map fun m => { m with pipe := [], due := [], outq := [], stopped := true } }

/-- An abort takes effect (R86); ABORTED_POISON is logged as a TASK fault (Table 14-9). DESIGN CHOICE (log entry 87): in ASK
and OFF no dispatch runs, so the tile discards and sends no DONE. -/
def State.abortTile (s : State) (p code : Nat) : State :=
  let t := s.tile p
  let s := s.updTile p fun t => { t.discard with abortSent := none }
  let s := if code = 2 then
      s.logFault 1 (s.ownerOf p) 0 7 (s.tm p).logical (2048 * sectorOf p + t.grant.task) 0
    else s
  if t.seq = .load ∨ t.seq = .run ∨ t.seq = .drain then s.sendDone p code else s

/-! ## The joint move -/

/-- Words leave their sources. -/
def State.popSources (s : State) (p : Nat) (src : List Nat) : State :=
  let s := match s.homeOf p with
    | some h => (List.range 20).foldl (fun s j => if src.contains (j + 2) then State.take s (linkId h j) else s) s
    | none => s
  s.updTile p fun t =>
    { t with
      port := Vector.ofFn fun k => if src.contains (30 + k.val)
        then { t.port[k] with queue := t.port[k].queue.drop 1 } else t.port[k]
      mac := Vector.ofFn fun u => if src.contains (26 + u.val)
        then { t.mac[u] with outq := t.mac[u].outq.drop 1 } else t.mac[u]
      deq := Vector.ofFn fun k => if src.contains (32 + k.val) then t.deq[k].pop else t.deq[k]
      enq := Vector.ofFn fun k => if src.contains (36 + k.val) then t.enq[k].drop 1 else t.enq[k] }

/-- Words enter link outputs, enqueue and dequeue endpoints and ONCE outputs; `s0` is the state they were presented
in. -/
def State.fillConsumers (s0 : State) (p : Nat) (src : List Nat) (s : State) : State :=
  let word (j c : Nat) : LinkWord :=
    let w := (s0.present p c).getD {}
    if s0.clrLast p j then { w with last := false } else w
  let s := match s0.homeOf p with
    | some h => (List.range 20).foldl (fun s j =>
        if src.contains (s0.sel p j) then
          match outLink h j with
          | some l => State.send s l (word j (s0.sel p j))
          | none => s
        else s) s
    | none => s
  let s := s.updTile p fun t =>
    { t with
      once := s0.onceAfter p src
      enq := Vector.ofFn fun k => if s0.enqOn p k && src.contains (s0.sel p (36 + k))
        then t.enq[k] ++ [word (36 + k) (s0.sel p (36 + k))] else t.enq[k]
      deq := Vector.ofFn fun k => if (s0.deqCtl p k).en && src.contains (s0.deqCtl p k).src
        then t.deq[k].push ((s0.present p (s0.deqCtl p k).src).getD {}) else t.deq[k] }
  (List.finRange 4).foldl (fun s k => State.deqTouch s p k) s

/-- The ALUs after the move: results taken leave, units of `units` issue (R61, R65). -/
def State.aluAfter (s0 : State) (p : Nat) (src units : List Nat) : Vector Alu 4 :=
  Vector.ofFn fun n =>
    let a := (s0.tile p).alu[n]
    let a := if src.contains (22 + n.val) then { a with result := none } else a
    if units.contains n.val then a.issue (s0.aluCtl p n) (s0.aluOperands p n).1 (s0.aluOperands p n).2 else a

/-- Some unit takes a word with POISON = 1 (R67). -/
def State.takesPoison (s0 : State) (p : Nat) (units : List Nat) : Bool :=
  units.any fun u => (s0.unitOutputs p u).any fun j => ((s0.delivered p j).getD {}).poison

/-- The batch counter after the move (R83), and completion of the batch (R84). It counts every word that leaves the count
source until the DONE of a dispatch that has switched; reaching the batch size in the DRAIN of a yield still completes the
batch (Table 02-16). DESIGN CHOICE (log entry 96): a result that is discarded and a word that a read of DEQ_POP takes do not leave
the count source. -/
def State.countBatch (s0 : State) (p : Nat) (src : List Nat) (s : State) : State :=
  let c := s0.countSrc p
  let t0 := s0.tile p
  let counting := t0.switched && (t0.seq == .run || t0.seq == .drain) && decide (2 ≤ c) && decide (c < 36)
  if counting && src.contains c && (!s0.countLast p || ((s0.present p c).getD {}).last) then
    s.updTile p fun t =>
      let n := t.batchCount + 1
      if t.grant.batch ≤ n then { t with batchCount := n, seq := .drain, yieldHere := false, yielded := false }
      else { t with batchCount := n }
  else s

def PortCtl.writes (c : PortCtl) : Bool := c.mode == 2 || c.mode == 4
def PortCtl.atomic (c : PortCtl) : Bool := c.mode == 5 || c.mode == 6

/-- The order in which accesses of both ports in one cycle take effect in the exchange bank (Tables 02-11, 10-4): a read
before a whole write, an atomic before everything else, P_0's data after P_1's. DESIGN CHOICE (log entry 86): of two
atomics, P_0's first. -/
def State.portOrder (s : State) (p : Nat) : List (Fin 2) :=
  if (s.portCtl p 0).writes || ((s.portCtl p 1).atomic && !(s.portCtl p 0).atomic) then [1, 0] else [0, 1]

/-- Both ports of the move write one word of the exchange bank (Table 02-11). -/
def State.portClash (s : State) (p : Nat) (units : List Nat) : Bool :=
  units.contains 4 && units.contains 5 && (s.portCtl p 0).writes && (s.portCtl p 1).writes
    && s.portAddr p 0 == s.portAddr p 1 && decide (s.portAddr p 0 < 4096)

/-- The units of the move act: ports make their accesses, MAC units issue their IN. -/
def State.unitsAct (s0 : State) (p : Nat) (units : List Nat) (s : State) : Bool × State :=
  let s := if s0.portClash p units then s.stick p dpConflict else s
  let s := (s0.portOrder p).foldl (fun s k =>
      if units.contains (4 + k.val) then
        State.portAccess s p k (s0.portAddr p k) ((s0.delivered p (32 + k)).getD {}) ((s0.delivered p (34 + k)).getD {})
      else s) s
  (List.finRange 4).foldl (fun (bad, s) u =>
      if units.contains (6 + u.val) then
        let (b, s) := State.macIssue s p u ((s0.delivered p (28 + u)).getD {})
        (bad || b, s)
      else (bad, s)) (false, s)

/-- The joint move of the sources `src` with the units `units` (R59 to R67, R83). A unit that takes poison aborts the
dispatch instead of acting, and the cycle's words do not count (Table 02-16). -/
def State.jointMove (s : State) (p : Nat) (src units : List Nat) : State :=
  let seen := s.onceTaken p src
  let moved := s.fillConsumers p src (s.popSources p src)
  let moved := moved.updTile p fun t => { t with alu := seen.aluAfter p src units }
  if seen.takesPoison p units then moved.abortTile p 2
  else
    let stuck := (List.finRange 4).foldl (fun a n =>
      if units.contains (Fin.val n) then a ||| seen.aluStick p n else a) (0 : BitVec 32)
    let (bad, acted) := seen.unitsAct p units (moved.stick p stuck)
    if bad then acted.abortTile p 2 else s.countBatch p src acted

/-- The move seeded at some sources and units, if it may be made; otherwise every word stays at its source. -/
def State.joint (s : State) (p : Nat) (src units : List Nat) : State :=
  let (c, u) := s.closure p 14 src units
  if s.jointOk p c u then s.jointMove p c u else s

end Sys2Proof.Machine
end

