-- ==== Sys2Proof/Machine/Tile.lean ====
section
/-!
DEFINITION. Machine/Tile.lean: the commands of a tile's crossbar, ALUs, memory ports and MAC units (chapters 02, 04, 05).
-/
namespace Sys2Proof.Machine

/-- CROSSBAR_WORD_MOVE (R59). -/
def execCrossbarWordMove (p : TileIx) (src : BitVec 6) (s : State) : Host.Outcome State Fault Refusal :=
  .next (s.joint p [src.toNat] [])

/-! ## ALUs -/

/-- An ALU issues when its control word selects operation `op` (R63, R65). -/
def State.aluStep (s : State) (p : TileIx) (n : Fin 4) (op : Nat) : State :=
  if (s.aluCtl p n).opActs = op then s.joint p [] [n.val] else s

/-- ALU_NOP (R63): a reserved OP, or a reserved COND of CMP or CSEL, sets BAD_CODE while the tile runs. -/
def execAluNop (p : TileIx) (n : Fin 4) (s : State) : Host.Outcome State Fault Refusal :=
  .next (if (s.aluCtl p n).reserved && (s.tile p).seq == .run && s.moving p then s.stick p badCode else s)


/-- ALU_MOV (R63): passes A. -/
def execAluMov (p : TileIx) (n : Fin 4) (s : State) : Host.Outcome State Fault Refusal :=
  .next (s.aluStep p n 0x01)

/-- ALU_ADD (R63): A + B modulo 2^32. -/
def execAluAdd (p : TileIx) (n : Fin 4) (s : State) : Host.Outcome State Fault Refusal :=
  .next (s.aluStep p n 0x02)

/-- ALU_SUB (R63): A − B modulo 2^32. -/
def execAluSub (p : TileIx) (n : Fin 4) (s : State) : Host.Outcome State Fault Refusal :=
  .next (s.aluStep p n 0x03)

/-- ALU_ADDS (R64): saturating A + B. -/
def execAluAdds (p : TileIx) (n : Fin 4) (s : State) : Host.Outcome State Fault Refusal :=
  .next (s.aluStep p n 0x04)

/-- ALU_SUBS (R64): saturating A − B. -/
def execAluSubs (p : TileIx) (n : Fin 4) (s : State) : Host.Outcome State Fault Refusal :=
  .next (s.aluStep p n 0x05)

/-- ALU_AND (R63): A AND B. -/
def execAluAnd (p : TileIx) (n : Fin 4) (s : State) : Host.Outcome State Fault Refusal :=
  .next (s.aluStep p n 0x06)

/-- ALU_OR (R63): A OR B. -/
def execAluOr (p : TileIx) (n : Fin 4) (s : State) : Host.Outcome State Fault Refusal :=
  .next (s.aluStep p n 0x07)

/-- ALU_XOR (R63): A XOR B. -/
def execAluXor (p : TileIx) (n : Fin 4) (s : State) : Host.Outcome State Fault Refusal :=
  .next (s.aluStep p n 0x08)

/-- ALU_ANDN (R63): A AND NOT B. -/
def execAluAndn (p : TileIx) (n : Fin 4) (s : State) : Host.Outcome State Fault Refusal :=
  .next (s.aluStep p n 0x09)

/-- ALU_SLL (R63): shift left. -/
def execAluSll (p : TileIx) (n : Fin 4) (s : State) : Host.Outcome State Fault Refusal :=
  .next (s.aluStep p n 0x10)

/-- ALU_SRL (R63): shift right, zero or sign fill. -/
def execAluSrl (p : TileIx) (n : Fin 4) (s : State) : Host.Outcome State Fault Refusal :=
  .next (s.aluStep p n 0x11)

/-- ALU_ROL (R63): rotate left. -/
def execAluRol (p : TileIx) (n : Fin 4) (s : State) : Host.Outcome State Fault Refusal :=
  .next (s.aluStep p n 0x12)

/-- ALU_ROR (R63): rotate right. -/
def execAluRor (p : TileIx) (n : Fin 4) (s : State) : Host.Outcome State Fault Refusal :=
  .next (s.aluStep p n 0x13)

/-- ALU_CMP (R63): all ones when A COND B. -/
def execAluCmp (p : TileIx) (n : Fin 4) (s : State) : Host.Outcome State Fault Refusal :=
  .next (s.aluStep p n 0x18)

/-- ALU_CSEL (R63): A when A COND IMM, else B. -/
def execAluCsel (p : TileIx) (n : Fin 4) (s : State) : Host.Outcome State Fault Refusal :=
  .next (s.aluStep p n 0x19)

/-- ALU_MIN (R63): the smaller per SGN. -/
def execAluMin (p : TileIx) (n : Fin 4) (s : State) : Host.Outcome State Fault Refusal :=
  .next (s.aluStep p n 0x1A)

/-- ALU_MAX (R63): the larger per SGN. -/
def execAluMax (p : TileIx) (n : Fin 4) (s : State) : Host.Outcome State Fault Refusal :=
  .next (s.aluStep p n 0x1B)

/-- ALU_POPCNT (R63): the number of 1 bits. -/
def execAluPopcnt (p : TileIx) (n : Fin 4) (s : State) : Host.Outcome State Fault Refusal :=
  .next (s.aluStep p n 0x20)

/-- ALU_SHUF (R64): byte shuffle under IMM. -/
def execAluShuf (p : TileIx) (n : Fin 4) (s : State) : Host.Outcome State Fault Refusal :=
  .next (s.aluStep p n 0x21)

/-- ALU_CRC32 (R64): running CRC-32. -/
def execAluCrc32 (p : TileIx) (n : Fin 4) (s : State) : Host.Outcome State Fault Refusal :=
  .next (s.aluStep p n 0x22)

/-- ALU_GFMUL (R64): four GF(2^8) products. -/
def execAluGfmul (p : TileIx) (n : Fin 4) (s : State) : Host.Outcome State Fault Refusal :=
  .next (s.aluStep p n 0x23)

/-- ALU_CRCAPP (R64): passes A and owes the CRC word after LAST. -/
def execAluCrcapp (p : TileIx) (n : Fin 4) (s : State) : Host.Outcome State Fault Refusal :=
  .next (s.aluStep p n 0x24)

/-- Every part of a tile can move and its sequencer is not OFF. -/
def State.runs (s : State) (p : Nat) : Bool := s.moving p && (s.tile p).seq != .off

def State.setAlu (s : State) (p : Nat) (n : Fin 4) (a : Alu) : State := s.updTile p fun t => { t with alu := t.alu.set n a }

/-- CRCAPP_APPEND (R64): the CRC word with LAST = 1 starts its flight, and the CRC state resets. -/
def execCrcappAppend (p : TileIx) (n : Fin 4) (s : State) : Host.Outcome State Fault Refusal :=
  let a := (s.tile p).alu[n]
  .next (if s.runs p && a.append && decide (a.flight.length < 2) then
      s.setAlu p n { a with append := false, crc := 0xFFFFFFFF#32,
                            flight := a.flight ++ [{ data := a.crc ^^^ 0xFFFFFFFF#32, last := true }] }
    else s)

/-- ALU_RESULT_READY (R65): the oldest result in flight reaches the result register, or is discarded when nothing
consumes it (R59); DESIGN CHOICE (log entry 96): a discarded result is not counted (R83). -/
def execAluResultReady (p : TileIx) (n : Fin 4) (s : State) : Host.Outcome State Fault Refusal :=
  let a := (s.tile p).alu[n]
  match a.flight with
  | [] => .next s
  | w :: r =>
    .next (if s.runs p && a.result.isNone then
        s.setAlu p n { a with flight := r, result := if s.hasConsumer p (22 + n) then some w else none }
      else s)

/-! ## Memory ports -/

/-- A port makes its next access when its control word selects mode `mode` (R71). -/
def State.portStep (s : State) (p : TileIx) (k : Fin 2) (mode : Nat) : State :=
  if (s.portCtl p k).mode = mode then s.joint p [] [4 + k.val] else s

/-- Both ports write in one cycle, the row's port `k` in mode `mode` (Tables 02-11 and 10-4): one move of both, or the row's
port alone where the other has to wait or does not write. -/
def State.portBoth (s : State) (p : TileIx) (k : Fin 2) (mode : Nat) : State :=
  let (c, u) := s.closure p 14 [] [4, 5]
  if (s.portCtl p k).mode = mode ∧ (s.portCtl p (1 - k)).writes ∧ s.jointOk p c u then s.jointMove p c u
  else s.portStep p k mode

/-- PORT_READ (R71, R73). -/
def execPortRead (p : TileIx) (k : Fin 2) (s : State) : Host.Outcome State Fault Refusal := .next (s.portStep p k 1)

/-- PORT_WRITE (R71); `both`: P_0 and P_1 write in the same cycle. -/
def execPortWrite (p : TileIx) (k : Fin 2) (both : Bool) (s : State) : Host.Outcome State Fault Refusal :=
  .next (if both then s.portBoth p k 2 else s.portStep p k 2)

/-- GEN_READ (R71). -/
def execGenRead (p : TileIx) (k : Fin 2) (s : State) : Host.Outcome State Fault Refusal := .next (s.portStep p k 3)

/-- GEN_WRITE (R71); `both`: P_0 and P_1 write in the same cycle. -/
def execGenWrite (p : TileIx) (k : Fin 2) (both : Bool) (s : State) : Host.Outcome State Fault Refusal :=
  .next (if both then s.portBoth p k 4 else s.portStep p k 4)

/-- PORT_SET (R71): atomic OR of the mask. -/
def execPortSet (p : TileIx) (k : Fin 2) (s : State) : Host.Outcome State Fault Refusal := .next (s.portStep p k 5)

/-- PORT_CLEAR (R71): atomic AND of NOT the mask. -/
def execPortClear (p : TileIx) (k : Fin 2) (s : State) : Host.Outcome State Fault Refusal := .next (s.portStep p k 6)

/-- PORT_READ_RETURN (R73): read data reaches the return queue, or is discarded when nothing consumes it (R59). -/
def execPortReadReturn (p : TileIx) (k : Fin 2) (s : State) : Host.Outcome State Fault Refusal :=
  let m := (s.tile p).port[k]
  match m.flight with
  | [] => .next s
  | w :: r =>
    let m' := { m with flight := r, queue := if s.hasConsumer p (30 + k) then m.queue ++ [w] else m.queue }
    .next (if s.runs p && decide (m.queue.length < 3) then s.updTile p fun t => { t with port := t.port.set k m' }
      else s)

/-! ## Ring rows in the exchange bank -/

/-- The bank words of a full gather row (R166). -/
def Deq.rowWords (d : Deq) : List Nat :=
  let start := d.pos + 2 * max 1 d.geom.size - d.gather.length
  (List.range d.gather.length).map fun i => d.bankWord (start + i)

/-- The exchange bank's word that P_1 can write now, port B being free (R309). -/
def State.portBWrite (s : State) (p : Nat) : Option Nat :=
  let (c, u) := s.closure p 14 [] [5]
  let a := (s.onceTaken p c).portAddr p 1
  if (s.portCtl p 1).writes && s.jointOk p c u && decide (a < 4096) then some a else none

/-- RING_ROW_WRITE (R166); `portB`: P_1 makes its write to the exchange bank in the same cycle, and loses it, with
DP_CONFLICT, to a word of the row (R309). -/
def execRingRowWrite (p : TileIx) (r : RingRow) (s : State) : Host.Outcome State Fault Refusal :=
  let k := r.k
  let b := if r.portB then s.portBWrite p else none
  let s := if b.isSome then s.joint p [] [5] else s
  let d := (s.tile p).deq[k]
  if s.moving p && d.wantsWrite && s.ringGranted p d.geom.bank k false then
    let clash := d.geom.bank == 0 && b.any d.rowWords.contains
    let s := s.writeRing p d
    let s := if clash then s.stick p dpConflict else s
    .next (s.setDeq p k { d with gather := [], inBank := d.inBank + d.gather.length })
  else .next s

/-! ## MAC units -/

/-- After the batch completes, a unit that has reached a yield point stops (R156). -/
def State.macStops (s : State) (p : Nat) (u : Fin 4) : Bool :=
  let t := s.tile p
  s.macOn p u && t.seq == .drain && !t.mac[u].halted && !t.mac[u].stopped && (t.yielded || s.atYield p u)

def State.macStop (s : State) (p : Nat) (u : Fin 4) : State := 
  let m := (s.tile p).mac[u]
  s.setMac p u { m with stopped := true }

/-- Issue of the instruction at PC when it is the row's: `sel` judges it, reserved instructions and end slots being
the NOP row's (R144, R155). A unit that stalls shows STALLED (Table 04-16). -/
def State.macStep (s : State) (p : TileIx) (u : Fin 4) (sel : Nat → Bool) : State :=
  if s.macStops p u then s.macStop p u
  else if (s.tile p).mac[u].endSlot || s.macNowReserved p u || !sel (miOp (s.macNow p u)) then s
  else if s.macCanIssue p u then
    let (bad, s) := s.macIssue p u {}
    if bad then s.abortTile p 2 else s
  else s

/-- MAC_NOP (R143, R144): NOP, a reserved instruction, or the end slot of a repeat block. -/
def execMacNop (p : TileIx) (u : Fin 4) (s : State) : Host.Outcome State Fault Refusal :=
  .next (if s.macStops p u then s.macStop p u
    else if ((s.tile p).mac[u].endSlot || s.macNowReserved p u || miOp (s.macNow p u) == 0) && s.macCanIssue p u
    then (s.macIssue p u {}).2 else s)

/-- MAC (R143). -/
def execMacMul (p : TileIx) (u : Fin 4) (s : State) : Host.Outcome State Fault Refusal := .next (s.macStep p u (· == 0x01))

/-- MACK (R143). -/
def execMack (p : TileIx) (u : Fin 4) (s : State) : Host.Outcome State Fault Refusal := .next (s.macStep p u (· == 0x02))

/-- FIRD (R143). -/
def execFird (p : TileIx) (u : Fin 4) (s : State) : Host.Outcome State Fault Refusal := .next (s.macStep p u (· == 0x03))

/-- MAXA (R143). -/
def execMaxa (p : TileIx) (u : Fin 4) (s : State) : Host.Outcome State Fault Refusal := .next (s.macStep p u (· == 0x04))

/-- LDA (R143). -/
def execLda (p : TileIx) (u : Fin 4) (s : State) : Host.Outcome State Fault Refusal := .next (s.macStep p u (· == 0x05))

/-- An IN, not at a yield point, whose source the batch's completion has closed (R84, R156). -/
def State.inClosed (s : State) (p : Nat) (u : Fin 4) : Bool :=
  let j := 28 + u.val
  let m := (s.tile p).mac[u]
  s.macOn p u && (s.tile p).seq == .drain && !m.halted && !m.stopped && !m.endSlot && !s.macNowReserved p u
    && !s.macStops p u && miOp (s.macNow p u) == 0x08 && (s.onceWord p j).isNone && external (s.sel p j)

/-- The unit stops at a closed source and sets CUT (R156). -/
def State.macCut (s : State) (p : Nat) (u : Fin 4) : State :=
  (s.macStop p u).stickMac p 0 0 (1#32 <<< u.val)

/-- IN (R146, R156): the word and the issue are one move. -/
def execInWord (p : TileIx) (u : Fin 4) (s : State) : Host.Outcome State Fault Refusal :=
  .next (if s.macStops p u then s.macStop p u
    else if s.inClosed p u then s.macCut p u
    else s.joint p [] [6 + u.val])

/-- OUT (R147). -/
def execOutWord (p : TileIx) (u : Fin 4) (s : State) : Host.Outcome State Fault Refusal := .next (s.macStep p u (· == 0x09))

/-- A unit that issues no more still empties its pipeline: empty slots pass until something is due (R155, R156). -/
def Mac.drainSlot (m : Mac) : Mac :=
  if (m.halted || m.stopped) && m.due.isEmpty then
    let m := m.slot .bubble
    if m.due.isEmpty then m.slot .bubble else m
  else m

/-- MAC_OUT_ENQUEUE (R147, R151): the OUT word that is due enters the output queue once there is room. -/
def execMacOutEnqueue (p : TileIx) (u : Fin 4) (s : State) : Host.Outcome State Fault Refusal :=
  let m := (s.tile p).mac[u].drainSlot
  match m.due with
  | [.out w] =>
    .next (if s.runs p && decide (m.outq.length < 2) then
        s.setMac p u { m with due := [], outq := if s.hasConsumer p (26 + u) then m.outq ++ [w] else m.outq }
      else s)
  | _ => .next s

/-- STT (R143, R152). -/
def execStt (p : TileIx) (u : Fin 4) (s : State) : Host.Outcome State Fault Refusal := .next (s.macStep p u (· == 0x0A))

/-- STT_TAP_WRITE (R152): the values land in slot B two issue slots after their STT. -/
def execSttTapWrite (p : TileIx) (u : Fin 4) (s : State) : Host.Outcome State Fault Refusal :=
  let m := (s.tile p).mac[u].drainSlot
  match m.due with
  | [.stt ws] =>
    .next (if s.runs p then
        ws.foldl (fun (s : State) (w : TapStore) => State.tapWrite s p (4 * u.val + w.slice.val) w.word.toNat w.value) (s.setMac p u { m with due := [] })
      else s)
  | _ => .next s

/-- NORM (R149). -/
def execNorm (p : TileIx) (u : Fin 4) (s : State) : Host.Outcome State Fault Refusal := .next (s.macStep p u (· == 0x0B))

/-- SETP (R150). -/
def execSetp (p : TileIx) (u : Fin 4) (s : State) : Host.Outcome State Fault Refusal := .next (s.macStep p u (· == 0x10))

/-- REPT (R155). -/
def execRept (p : TileIx) (u : Fin 4) (s : State) : Host.Outcome State Fault Refusal := .next (s.macStep p u (· == 0x18))

/-- JMP (R143). -/
def execJmp (p : TileIx) (u : Fin 4) (s : State) : Host.Outcome State Fault Refusal := .next (s.macStep p u (· == 0x19))

/-- HALT (R143). -/
def execHaltUnit (p : TileIx) (u : Fin 4) (s : State) : Host.Outcome State Fault Refusal := .next (s.macStep p u (· == 0x1A))

/-- The unit issues in this cycle: it can, and an IN has its word (R141, R151). -/
def State.macIssues (s : State) (p : Nat) (u : Fin 4) : Bool :=
  let (c, n) := s.closure p 14 [] [6 + u.val]
  s.macCanIssue p u &&
    ((s.tile p).mac[u].endSlot || s.macNowReserved p u || miOp (s.macNow p u) != 0x08 || s.jointOk p c n)

/-! ## DEQ_POP -/

/-- Cupping is migrating the tile, or waits for its yield to do so (R450, R451). -/
def State.cupMoves (s : State) (p : Nat) : Bool := (s.sector (sectorOf p)).cupMove.any (·.1 == p)

/-- A Cupping migration fences the tile (R173). -/
def State.cupFenced (s : State) (p : Nat) : Bool := (s.tm p).migrating || ((s.tile p).fenced && s.cupMoves p)

/-- The endpoint with its head word in the read rows, as far as a read of DEQ_POP finds it there. Words move by themselves
only where no fence stands; under a fence the read that waits for the head word brings its row (log entry 88). -/
def State.deqHead (s : State) (p : Nat) (k : Fin 4) : Deq × State :=
  let d := (s.tile p).deq[k]
  if !(s.tile p).fenced || !d.rows.isEmpty then (d, s)
  else if !d.landing.isEmpty then ({ d with rows := d.landing, landing := [] }, s)
  else if 0 < d.inBank then
    let n := min 4 d.inBank
    let (ws, s) := s.readRing p d n
    ({ d with rows := ws, inBank := d.inBank - n }, s)
  else (d.straighten, s)

/-- The push of Table 05-2 into an endpoint whose pop falls in the same cycle, and the endpoint's rules after both. -/
def State.pushToo (s : State) (p : Nat) (k : Fin 4) (pushed : Bool) : State :=
  (if pushed then s.joint p [(s.deqCtl p k).src] [] else s).deqTouch p k

/-- A read of DEQ_POP_k (R171 to R173): the word it returns and the state after it; `none`: it waits. It pops the head
word from the read rows, or underruns when the depth is 0. A read that has not waited 16 cycles gives way to crossbar
consumers that can take the word, and one of a tile that a Cupping migration fences waits. `pushed`: a word comes from SRC
in the same cycle, if it can. DESIGN CHOICE (log entry 96): the word it takes is not counted by the batch counter (R83). -/
def State.deqPop (s : State) (p : Nat) (k : Fin 4) (waited pushed : Bool) : Option (Word × State) :=
  let d := (s.tile p).deq[k]
  let (c, u) := s.closure p 14 [32 + k.val] []
  let flags (w : LinkWord) (under : Bool) : BitVec 32 := BitVec.ofNat 32 (bit w.last + 2 * bit w.poison + 4 * bit under)
  if !s.awake p || s.cupFenced p then none
  else if !(s.deqCtl p k).en || d.depth == 0 then
    let s := s.setDeq p k { d with popFlags := flags d.popped true, underruns := d.underruns + 1 }
    let s := s.stick p (underrunBit k)
    some (d.popped.data, if pushed then s.joint p [(s.deqCtl p k).src] [] else s)
  else
    let (d, s') := s.deqHead p k
    match d.rows with
    | [] => none
    | w :: _ =>
      if !waited && s.jointOk p c u && s.hasConsumer p (32 + k) then none
      else
        let d' := if (s.tile p).fenced then d.popHead else d.pop
        some (w.data, (s'.setDeq p k { d' with popFlags := flags w false }).pushToo p k pushed)

/-- DEQ_POP_READ (R171 to R173, R175). -/
def execDeqPopRead (p : TileIx) (k : Fin 4) (r : PopRead) (s : State) : Host.Outcome State Fault Refusal :=
  match s.deqPop p k r.waited r.pushed with
  | none => .next s
  | some (w, s) => .next { s with readOut := leBytes 4 w.toNat }

end Sys2Proof.Machine
end

