-- ==== Sys2Proof/Machine/Contexts.lean ====
section
/-!
DEFINITION. Machine/Contexts.lean: the sequencer (R81 to R87), the switch (R108), fills (R111 to R118), fences
(R120 to R127) and zeroization (R128 to R130), with their commands.
-/
namespace Sys2Proof.Machine

/-! ## The context store in DRAM (R100) -/

/-- The lowest-numbered bank region of a partition, b0. -/
def Memory.lowestBank (m : Memory) (q : Nat) : Option Nat := (List.range 16).find? fun b => m.bankOwner b == q

/-- The first byte D of a partition's reserved area (R100). -/
def Memory.reservedBase (m : Memory) (q : Nat) : Option Nat :=
  (m.lowestBank q).map fun b => dramBase + b * m.regionBytes + 7 * m.regionBytes / 8 - 17 * 2 ^ 20

/-- An address names a frame of the partition's context store (R100, R117). -/
def Memory.storeFrame (m : Memory) (q a : Nat) : Bool :=
  match m.reservedBase q with
  | some d => m.capacity != 0 && decide (d ≤ a) && (a - d) % 1024 == 0 && decide ((a - d) / 1024 < 16384)
  | none => false

/-! ## Frames -/

/-- CRC-32 of the 1,020 bytes of a frame equals its CRC word (R105). -/
def Memory.frameCrcOk (m : Memory) (p f : Nat) : Bool :=
  let crc := (List.range 255).foldl (fun c i => crcWord c (m.raw (ctxBase p f + 4 * i))) (0 : Word)
  crc == m.raw (ctxBase p f + 1020)

/-- Words of a byte string, four bytes each. -/
def wordsOf (bs : List Byte) : Nat → List Word
  | 0 => []
  | n + 1 => BitVec.ofNat 32 (leNat (bs.take 4)) :: wordsOf (bs.drop 4) n

/-- Words written one after another from an aligned address. -/
def State.writeWords (s : State) (a : Nat) (ws : List Word) (poison : Bool := false) : State :=
  (List.range ws.length).foldl (fun s i => State.writeWord s (a + 4 * i) (ws.getD i 0) poison) s

/-- A whole frame copied to another of the same tile through the check code; `true`: some word was uncorrectable or
poisoned (R114, R117). -/
def State.copyFrame (s : State) (p c h : Nat) : Bool × State :=
  (List.range 256).foldl (fun ((bad, s) : Bool × State) i =>
    let (d, b, s) := State.readWord s (ctxBase p c + 4 * i)
    (bad || b, State.writeWord s (ctxBase p h + 4 * i) d b)) (false, s)

/-! ## The switch -/

/-- Sticky bits that the fields of the active context set when they take effect (R53, R57, R78, R83, Table 02-10,
Table 03-3). -/
def State.switchSticky (s : State) (p : Nat) : BitVec 32 :=
  let badFormat := (s.tile p).hotAt (s.tile p).hotSlot == .valid && decide (2 ≤ s.format p)
  let c := s.countSrc p
  let badCount := c == 1 || decide (35 < c)
  let badPort := (List.range 2).any fun k => (s.portCtl p k).mode == 7
  let badDeq := (List.range 4).any fun k =>
    let r := s.deqRaw p k
    r.en && (r.invalid || decide (r.geom.cap < r.thresh))
  let badSel := (List.range 40).any (s.badSelectAt p)
  (if badFormat || badCount || badPort || badDeq then badCode else 0) ||| (if badSel then badSelect else 0)

/-- The geometry an endpoint has after a switch (R164); `true`: a differing geometry has to wait. DESIGN CHOICE (log entry
86): the first word accepted under a new geometry has ring position 0. -/
def Deq.newGeometry (d : Deq) (g : DeqGeom) : Bool × Deq :=
  if d.depth = 0 then
    (false, if d.geom = g then { d with held := none } else { d with geom := g, held := none, pos := 0 })
  else if d.geom = g then (false, { d with held := none })
  else (true, { d with held := some g })

/-- The tile switches to the slot of a grant (R82, R108, R135): per-dispatch state resets, the new context governs, and
a batch that is already complete goes straight to DRAIN (R83). -/
def State.switchTo (s : State) (p : Nat) (g : Grant) : State :=
  let s := s.updTile p fun t =>
    { t with
      hotSlot := g.slot, named := t.named.filter (· != g.slot) ++ [g.slot], grant := g, batchCount := 0, seq := .run, once := [], yielded := false, switched := true
      alu := t.alu.map fun a => { a with crc := 0xFFFFFFFF#32 }
      port := t.port.map fun m => { m with gen := 0 }
      mac := Vector.replicate 4 {} }
  let held := (List.finRange 4).any fun k => ((s.tile p).deq[k].newGeometry (s.deqRaw p k).geom.norm).1
  let s := s.updTile p fun t =>
    { t with deq := Vector.ofFn fun k => (t.deq[k].newGeometry (s.deqRaw p k).geom.norm).2 }
  let s := s.stick p (s.switchSticky p ||| (if held then badCode else 0))
  let s := (List.finRange 4).foldl (fun s k => State.deqSwitch s p k) s
  let c := s.countSrc p
  if g.batch = 0 ∨ c < 2 ∨ 35 < c then s.updTile p fun t => { t with seq := .drain, yieldHere := false } else s

/-- GET_WORK (R82): the request reaches the dispatcher, and the tile becomes a candidate. -/
def execGetWork (p : TileIx) (s : State) : Host.Outcome State Fault Refusal :=
  .next (if s.getWorks.contains p.val && s.awake p then
      let s := { s with getWorks := s.getWorks.erase p.val }
      s.updSector (sectorOf p) fun n => { n with ask := n.ask ++ [(s.tm p).logical % 31] }
    else s)

/-- A grant that is not taken is answered with a DONE for its task, batch counter 0 (Tables 02-16, 03-8). DESIGN CHOICE (log
entry 87): no dispatch has run, so the tile's counters, LAST_CODE and TASK stay. -/
def State.declineGrant (s : State) (p : Nat) (g : Grant) (code : Nat) : State :=
  { s with dones := s.dones ++ [{ sector := sectorOf p, tile := (s.tm p).logical % 31, task := g.task, counter := 0, code := code }] }

/-- A fill of the slot that the dispatcher has requested has not completed: it runs, waits in the queue, or waits for a place
there (R82, R112). -/
def Tile.fillPending (t : Tile) (h : Nat) : Bool :=
  (t.fill.toList ++ t.fillQ ++ t.fillWait).any fun f => f.who == .dispatcher && f.hot == some h

/-- GRANT (R82, Tables 02-16 and 03-8). -/
def execGrant (p : TileIx) (s : State) : Host.Outcome State Fault Refusal :=
  match s.grants.find? (fun g => g.1 == p.val) with
  | none => .next s
  | some (i, g) =>
    let t := s.tile p
    let s := { s with grants := s.grants.erase (i, g) }
    if t.abortSent = some 3 then .next (s.declineGrant p g 3)
    else if t.fenced ∨ t.seq ≠ .ask then .next (s.declineGrant p g 1)
    else if g.fill ∧ (t.hotAt g.slot ≠ .valid ∨ t.fillPending g.slot) then
      .next (s.updTile p fun t => { t with seq := .load, grant := g, batchCount := 0, switched := false })
    else .next (s.switchTo p g)

/-- A unit's pipeline, what is due and its output queue are empty (R156). -/
def Mac.empty (m : Mac) : Bool := m.due.isEmpty && m.outq.isEmpty && m.pipe.all (· == .bubble)

/-- The tile has drained (R84). -/
def State.drained (s : State) (p : Nat) : Bool :=
  let t := s.tile p
  t.seq == .drain && s.moving p
    && (List.finRange 4).all (fun n => t.alu[n].flight.isEmpty && t.alu[n].result.isNone && !t.alu[n].append)
    && (List.finRange 2).all (fun k => t.port[k].flight.isEmpty && t.port[k].queue.isEmpty)
    && (List.finRange 4).all (fun k => t.enq[k].isEmpty)
    && (List.finRange 4).all (fun u => !s.macOn p u ||
        (t.mac[u].empty && (t.mac[u].halted || t.mac[u].stopped || s.macStops p u || s.inClosed p u)))

/-- TILE_DRAINED (R84, R85): DONE and a new GET_WORK together; units stopped at a closed source have CUT (R156). -/
def execTileDrained (p : TileIx) (s : State) : Host.Outcome State Fault Refusal :=
  if s.drained p then
    let cut := sliceBits 0 fun u => s.inClosed p u
    let code := if (s.tile p).yielded then 1 else 0
    let s := s.updTile p fun t => { t with mac := t.mac.map fun m => { m with stopped := true } }
    .next ((s.stickMac p 0 0 cut).sendDone p code)
  else .next s

/-- The tile's outstanding GET_WORK is withdrawn (Table 02-16, R442). -/
def State.withdrawAsk (s : State) (p : Nat) : State :=
  let s := { s with getWorks := s.getWorks.filter (· != p) }
  s.updSector (sectorOf p) fun n => { n with ask := n.ask.filter (· != (s.tm p).logical % 31) }

/-- TILE_ABORT (R86): an abort that was sent takes effect in any state. -/
def execTileAbort (p : TileIx) (s : State) : Host.Outcome State Fault Refusal :=
  match (s.tile p).abortSent with
  | some code => .next (s.abortTile p code)
  | none => .next s

/-- A yield can be accepted now (R158). In LOAD the units of the context still active have halted or stopped. -/
def State.canYield (s : State) (p : Nat) : Bool :=
  (s.tile p).seq == .load || ((s.tile p).seq == .run && s.allAtYield p)

/-- The yield is accepted: the units issue nothing more and the tile drains (R86, R158). -/
def State.acceptYield (s : State) (p : Nat) : State :=
  s.updTile p fun t =>
    { t with yieldHere := false, yielded := true, seq := .drain, mac := t.mac.map fun m => { m with stopped := true } }

/-- The hold-off limit of a partition, in sector cycles (R159). -/
def State.holdoffOf (s : State) (q : Nat) : Nat := tget 4096 s.holdoff q

/-- The yield is withdrawn and its requester learns that it failed (R159): a Cupping step that waits for it skips its
migration. -/
def State.withdrawYield (s : State) (p : Nat) : State :=
  let own := (s.sector (sectorOf p)).cupFence && (s.sector (sectorOf p)).cupMove.any (·.1 == p)
  let s := s.updTile p fun t => { t with yieldHere := false, fenceReq := t.fenceReq && !own }
  let s := s.stickMac p 0 0 0x100#32
  s.updSector (sectorOf p) fun n =>
    match n.cupMove with
    | some (a, _) =>
      if a = p ∧ n.cupPhase = 0 then
        { n with cupMove := none, cupFence := false, cupSkips := n.cupSkips + 1, cupSteps := n.cupSteps + 1 }
      else n
    | none => n

/-- YIELD_REQUEST (R86, R158, R159): a yield reaches the tile, and is accepted in its arrival cycle if it can be; otherwise it
is pending, or under a limit of zero withdrawn. A yield sent behind a grant arrives after it; one that an earlier dispatch has outrun is ignored. -/
def execYieldRequest (p : TileIx) (s : State) : Host.Outcome State Fault Refusal :=
  let t := s.tile p
  if !t.yieldSent || s.grants.any (fun g => g.1 == p.val) then .next s
  else
    let s := s.updTile p fun t => { t with yieldSent := false }
    if t.seq = .run ∨ t.seq = .load then
      .next (if s.canYield p then s.acceptYield p
        else if s.holdoffOf (s.ownerOf p) = 0 then s.withdrawYield p
        else s.updTile p fun t => { t with yieldHere := true })
    else .next s

/-- YIELD_ACCEPT (R158). -/
def execYieldAccept (p : TileIx) (s : State) : Host.Outcome State Fault Refusal :=
  let t := s.tile p
  .next (if t.yieldHere && s.moving p && s.canYield p then s.acceptYield p else s)

/-- HOLDOFF_EXPIRE (R159): a yield that can be accepted in that cycle still is (Table 04-13). -/
def execHoldoffExpire (p : TileIx) (s : State) : Host.Outcome State Fault Refusal :=
  let t := s.tile p
  .next (if !t.yieldHere then s
    else if s.canYield p then s.acceptYield p else s.withdrawYield p)

/-! ## Fills -/

/-- A fill request is placed with the tile's requesters (R111); in the dispatcher's record its slot is FILLING from
now on (R200). -/
def State.requestFill (s : State) (p : Nat) (f : Fill) : State :=
  s.updTile p fun t =>
    { t with
      fillWait := t.fillWait ++ [f]
      frameId := match f.hot with
        | some h => tset none t.frameId h (some f.ctxId)
        | none => t.frameId }

/-- The golden copy of a partition's context: the store frame that PERS_LOAD assigned to its CTX_ID (R100). -/
def State.goldenOf (s : State) (q id : Nat) : Nat :=
  let frame := (s.part q).pers.findSome? fun e => match e.2 with
    | some v => (v.ctxs.find? fun c => c.2.2.1 == id).map fun c => c.2.2.2
    | none => none
  match frame, s.mem.reservedBase q with
  | some f, some d => d + 1024 * f
  | _, _ => 0

/-- A fill of one frame of a tile from its golden copy. -/
def State.refillOf (s : State) (p f id : Nat) (who : FillWho) : Fill :=
  let a := s.goldenOf (s.ownerOf p) id
  { hot := if f < 16 then some f else none, cache := if f < 16 then none else some f, src := .store a, golden := a,
    ctxId := id, who := who }

def State.refill (s : State) (p f id : Nat) (who : FillWho) : State := s.requestFill p (s.refillOf p f id who)

/-- Percolator repairs go before all other requests (R112, Table 03-6). -/
def enqueueFill (q : List Fill) (f : Fill) : List Fill :=
  if f.who = .percolator then q.takeWhile (·.who == .percolator) ++ [f] ++ q.dropWhile (·.who == .percolator) else q ++ [f]

/-- FILL_REQUEST (R111, R112): the oldest waiting request enters the queue when a place is free. -/
def execFillRequest (p : TileIx) (s : State) : Host.Outcome State Fault Refusal :=
  let t := s.tile p
  match t.fillWait with
  | f :: r =>
    .next (if t.fillQ.length < 2 then s.updTile p fun t => { t with fillWait := r, fillQ := enqueueFill t.fillQ f } else s)
  | [] => .next s

/-- R113 refuses to start the fill. -/
def Tile.refuses (t : Tile) (f : Fill) : Bool :=
  match f.hot with
  | none => false
  | some h =>
    let guarded := h == t.hotSlot ||
      (match tget none t.pin h with
        | some id => id != f.ctxId
        | none => false)
    let special := f.who == .recovery || f.who == .coldWake || f.who == .unload || f.who == .cupping
    guarded && f.who != .percolator && !(special && t.fenced && t.seq == .off)

/-- Store fills of a partition that are running, device-wide (R115). -/
def State.storeFills (s : State) (q : Nat) : Nat :=
  ((List.range 256).filter fun p => s.ownerOf p == q && (s.tile p).fill.any fun f => !f.rowsLeft.isEmpty).length

/-- The 32 read requests of store fill `num`, on the owner's virtual channel (R99, R115, R285). -/
def State.requestRows (s : State) (p a num : Nat) : State :=
  (List.range 32).foldl (fun s r =>
    State.issue s { part := State.ownerOf s p, opc := 1, addr := a + 32 * r, len := 32, sub := tileSub p,
                    src := tilePort p, purpose := .fillRow p r num }) s

def State.setHot (s : State) (p h : Nat) (v : HotState) : State :=
  s.updTile p fun t => { t with hot := t.hot.setIfInBounds h v }

/-- A failed fill: the slot is EMPTY, and the golden copy is a PARTITION fault (R117). A repair of Percolator's has written
nothing, and its slot stays as it is until recovery refills the frame (R448). -/
def State.failFill (s : State) (p : Nat) (f : Fill) : State :=
  let frame := f.hot.getD (f.cache.getD 0)
  let s := match f.hot with
    | some h => if f.who == FillWho.percolator then s
        else (s.setHot p h .empty).updTile p fun t => { t with frameId := tset none t.frameId h none }
    | none => s
  (s.updTile p fun t => { t with fill := none }).raiseFault
    { cls := 2, part := s.ownerOf p, source := 2, object := (s.tm p).logical, detail := frame
      frame := if f.who == FillWho.recovery || f.who == FillWho.cupping then none else some (p, frame, f.ctxId) }

/-- A fill becomes, or starts as, a store fill from address `a`; a wrong address issues no read and fails (R117). A fill that
would exceed the partition's 32 waits, running, until one of them has completed (R115). -/
def State.startStore (s : State) (p : Nat) (f : Fill) (a : Nat) : State :=
  let s := s.updTile p fun t => { t with fillStore := true }
  if !s.mem.storeFrame (s.ownerOf p) a then s.failFill p f
  else if 32 ≤ s.storeFills (s.ownerOf p) then
    s.updTile p fun t => { t with fill := some { f with src := .store a, rowsLeft := [], waits := true } }
  else
    let n := (s.tile p).fillNum
    (s.updTile p fun t =>
      { t with fill := some { f with src := .store a, rowsLeft := List.range 32, bad := false, waits := false, num := n }
               fillNum := n + 1 }).requestRows p a n

/-- Fills can run in the tile's sector: it is in Brew, or its wake from Cold refills it (R466). -/
def State.fillPower (s : State) (p : Nat) : Bool :=
  s.awake p || ((s.sector (sectorOf p)).pstate == .cold && (s.sector (sectorOf p)).waking)

/-- The fill writes a hot slot, which is FILLING meanwhile; a repair of Percolator's rewrites words of a slot that stays
VALID. -/
def Fill.fillsHot (f : Fill) : Option Nat := if f.who = .percolator then none else f.hot

/-- FILL_START (R112, R113, R115): the head request, or a repair that waited for one of 32 store fills to end. FILL_SLOT names
the hot slot that a fill targets; DESIGN CHOICE (log entry 87): a cache refill leaves it. -/
def execFillStart (p : TileIx) (s : State) : Host.Outcome State Fault Refusal :=
  let t := s.tile p
  match t.fill, t.fillQ with
  | some f, _ =>
    match f.src with
    | .store a => .next (if f.waits && s.fillPower p then s.startStore p f a else s)
    | _ => .next s
  | none, f :: r =>
    let full := match f.src with
      | .store _ => decide (32 ≤ s.storeFills (s.ownerOf p))
      | _ => false
    if !s.fillPower p || t.refuses f || full || t.zeroizing || (s.tm p).migrating then .next s
    else
      let s := s.updTile p fun t =>
        { t with fill := some f, fillQ := r, fillSlot := f.hot.getD t.fillSlot, fillStore := false,
                 hot := match f.fillsHot with
                   | some h => t.hot.setIfInBounds h .filling
                   | none => t.hot }
      match f.src with
      | .store a => .next (s.startStore p f a)
      | _ => .next s
  | none, [] => .next s

/-- A fill has completed with a matching CRC (R107, R114, R115): the slot is VALID, and a tile in LOAD for it switches, unless
another fill of it that the dispatcher has requested is still to complete (R82). FILL_COUNT counts no clear. -/
def State.finishFill (s : State) (p : Nat) (f : Fill) : State :=
  let s := s.updTile p fun t =>
    { t with
      fill := none
      fillCount := if f.hot.isSome ∧ f.src ≠ .zero then t.fillCount + 1 else t.fillCount
      hot := match f.hot with
        | some h => t.hot.setIfInBounds h (if f.src = .zero then .empty else .valid)
        | none => t.hot
      frameId := (f.hot.toList ++ f.cache.toList).foldl (fun ids x =>
        tset none ids x (if f.src = .zero then none else some f.ctxId)) t.frameId }
  let t := s.tile p
  if t.seq = .load ∧ f.hot = some t.grant.slot ∧ !t.fillPending t.grant.slot then s.switchTo p t.grant else s

/-- A damaged copy was met: the fill is repaired from the golden copy (R117). DESIGN CHOICE (log entry 87):
FILL_REPAIR_COUNT counts as the repair starts. -/
def State.repairFill (s : State) (p : Nat) (f : Fill) : State :=
  let cache := match f.src with
    | .cache c => some c
    | _ => f.cache
  let s := s.updTile p fun t => { t with fillRepairs := t.fillRepairs + 1 }
  s.startStore p { f with repaired := true, cache := cache } f.golden

/-- CACHE_FILL_COMPLETE (R114, R117). -/
def execCacheFillComplete (p : TileIx) (s : State) : Host.Outcome State Fault Refusal :=
  match (s.tile p).fill with
  | some f =>
    match f.src, f.hot with
    | .cache c, some h =>
      if !s.awake p then .next s
      else
        let (bad, s) := s.copyFrame p c h
        .next (if !bad && s.mem.frameCrcOk p h then s.finishFill p f else s.repairFill p f)
    | .zero, h =>
      .next (if s.awake p then (s.writeWords (ctxBase p (h.getD (f.cache.getD 0))) (List.replicate 256 0)).finishFill p f else s)
    | _, _ => .next s
  | none => .next s

/-- The row, and the number of the store fill, that a response to this tile brings. -/
def rowOf (x : Purpose) (p : Nat) : Option (Nat × Nat) :=
  match x with
  | .fillRow p' r n => if p' = p then some (r, n) else none
  | _ => none

/-- The golden copy that a Percolator repair has read (R448). -/
def Fill.golden256 (f : Fill) : List Word :=
  (List.range 32).flatMap fun r => ((f.got.find? fun g => g.1 == r).map (·.2)).getD (List.replicate 8 0)

/-- The words of a frame, its CRC word last, agree (R105). -/
def goldenOk (ws : List Word) : Bool := (ws.take 255).foldl crcWord 0 == ws.getD 255 0

/-- STORE_FILL_RESPONSE (R115, R117): the row is written, stale or late responses are discarded (R128, R293), and
after the last row the CRC decides. -/
def execStoreFillResponse (p : TileIx) (s : State) : Host.Outcome State Fault Refusal :=
  match s.mesh.answered.find? (fun k => (rowOf k.purpose p).isSome) with
  | none => .next s
  | some k =>
    let s := { s with mesh := { (s.mesh.freeTag k) with answered := s.mesh.answered.erase k } }
    let (r, n) := (rowOf k.purpose p).getD (0, 0)
    match (s.tile p).fill with
    | some f =>
      if k.epoch ≠ s.epochOf k.part ∨ f.num ≠ n ∨ !f.rowsLeft.contains r then .next s
      else
        let bad := f.bad || k.status != stOk || k.poison != 0
        let f := { f with rowsLeft := f.rowsLeft.erase r, bad := bad }
        let ws := wordsOf k.data 8
        if f.who = .percolator then
          let f := { f with got := f.got ++ [(r, ws)] }
          if f.rowsLeft = [] ∧ (f.bad ∨ !goldenOk f.golden256) then .next (s.failFill p f)
          else
            let s := if f.rowsLeft = [] then { s with perc := { s.perc with repairs := s.perc.repairs ++ [p.val] } } else s
            .next (s.updTile p fun t => { t with fill := some f })
        else
        let s := (f.hot.toList ++ f.cache.toList).foldl (fun s x => State.writeWords s (ctxBase p x + 32 * r) ws bad) s
        if f.rowsLeft ≠ [] then .next (s.updTile p fun t => { t with fill := some f })
        else if bad || !s.mem.frameCrcOk p (f.hot.getD (f.cache.getD 0)) then .next (s.failFill p f)
        else .next (s.finishFill p f)
    | none => .next s

/-- Bytes of a mesh write stored word by word, ascending: a word covered whole is encoded anew, another is a
read-modify-write (R308, R310). `false`: some word was poisoned and kept. -/
def State.putWords (s : State) (a ali : Nat) (data : List Byte) (poison : Nat) : Bool × State :=
  if data.length = 0 then (true, s)
  else (List.range ((a + data.length + 3) / 4 - a / 4)).foldl (fun (ok, s) i =>
    let w := 4 * (a / 4 + i)
    let lo := if w < a then 0 else w - a
    let part := (data.drop lo).take (if w < a then w + 4 - a else 4)
    let off := if w < a then a - w else 0
    let bad := (List.range part.length).any fun j => poison.testBit (flitOf (lo + j))
    let f (d : Word) : Word := BitVec.ofNat 32 (leNat (spliceBytes (aliasByte ali) (leBytes 4 d.toNat) part off))
    if part.length = 4 ∧ ali = 0 then (ok, State.writeWord s w (f 0) bad)
    else let (good, s) := State.modifyWord s w f bad; (ok && good, s)) (true, s)

/-- A write lands in a cache frame; the dispatcher learns the frame's CTX_ID (R118, R200). -/
def State.ctxWrite (s : State) (p a : Nat) (data : List Byte) (poison : Nat) : State :=
  let (_, s) := s.putWords a 0 data poison
  let f := (a - ctxBase p 0) / 1024
  s.updTile p fun t => { t with frameId := tset none t.frameId f (some (s.mem.ctxId p f)) }

/-- CACHE_FRAME_WRITE_RESUME (R118): a write held behind a fill from its frame lands once the fill has completed,
repair included. -/
def execCacheFrameWriteResume (p : TileIx) (s : State) : Host.Outcome State Fault Refusal :=
  let t := s.tile p
  match t.heldWrites with
  | [] => .next s
  | w :: r =>
    let busy := t.fill.any fun f => f.src == .cache w.frame || f.cache == some w.frame
    if busy then .next s
    else
      let s := s.updTile p fun t => { t with heldWrites := r }
      .next (s.ctxWrite p w.addr w.data w.poison)

/-! ## Fences -/

/-- A tile fence is released: gather-row words move straight where they can, and every endpoint is judged anew (R166,
R169). -/
def State.wakeDeqs (s : State) (p : Nat) : State :=
  let s := s.updTile p fun t => { t with deq := t.deq.map Deq.straighten }
  (List.finRange 4).foldl (fun s k => State.deqTouch s p k) s

/-- A tile fence is released: every link of the home gets its sender's credits from the words held (R122). -/
def State.recountLinks (s : State) (p : Nat) : State :=
  match s.homeOf p with
  | none => s
  | some h =>
    let ins := ((List.range 20).filter fun j => (outLink h j).isSome).map (linkId h)
    let outs := (List.range 20).filterMap (outLink h)
    (ins ++ outs).foldl (fun s l => State.updLink s l (Link.recount (linkBoundary l))) s

/-- The fence is released and the tile asks for work (R82, R122, R126). -/
def State.releaseFence (s : State) (p : Nat) : State :=
  let s := s.updTile p fun t => { t with fenced := false, fenceReq := false, seq := .ask }
  let s := { s with getWorks := s.getWorks ++ [p] }
  (s.recountLinks p).wakeDeqs p

/-- A tile to which FENCE = 0 can be written: not a spare, not unallocated (R126, Table 01-9). -/
def State.allocated (s : State) (p : Nat) : Bool := decide (s.ownerOf p < 17) && decide ((s.tm p).logical < 248)

/-- The tile's fence has been requested, and not by Cupping alone. -/
def State.fenceWanted (s : State) (p : Nat) : Bool :=
  (s.tile p).fenceReq && !(s.cupMoves p && (s.sector (sectorOf p)).cupFence)

/-- Whether a migration's fence is to fall with it. -/
def State.setCupFence (s : State) (p : Nat) (v : Bool) : State :=
  if s.cupMoves p then s.updSector (sectorOf p) fun n => { n with cupFence := v } else s

/-- The system partition requests a fence: a running tile gets a yield (R126). -/
def State.requestFence (s : State) (p : Nat) : State :=
  (s.setCupFence p false).updTile p fun t =>
    { t with fenceReq := true, yieldSent := t.yieldSent || t.seq == .run || t.seq == .load || t.seq == .drain }

/-- The sector is in Brew or Steep. -/
def Sector.live (x : Sector) : Bool := x.pstate == .brew || x.pstate == .steep

/-- The system partition releases a fence, or cancels its request (R126); a migration keeps its fence to its end; in Cool
and Cold the mirror alone changes (R474). DESIGN CHOICE (log entry 87): a tile that is being zeroized ignores it. -/
def State.dropFence (s : State) (p : Nat) : State :=
  let t := s.tile p
  if !s.allocated p || t.zeroizing then s
  else if s.cupMoves p then s.setCupFence p true
  else if !(s.sector (sectorOf p)).live then s.updTile p fun t => { t with fenceReq := false }
  else if t.fenced then s.releaseFence p
  else
    let s := s.updTile p fun t => { t with fenceReq := false }
    if t.seq = .off then { s.updTile p fun t => { t with seq := .ask } with getWorks := s.getWorks ++ [p] } else s

/-- CTX_CTRL_FENCE_WRITE (R126). -/
def execCtxCtrlFenceWrite (p : TileIx) (v : Bool) (s : State) : Host.Outcome State Fault Refusal :=
  .next (if v then s.requestFence p else s.dropFence p)

/-- A requested fence takes effect (R121, R126): the request for work is withdrawn and the sequencer is OFF. -/
def State.applyFence (s : State) (p : Nat) : State :=
  (s.withdrawAsk p).updTile p fun t => { t with fenced := true, seq := .off }

/-- FENCE_APPLY (R126): in ASK, or after the DONE of the dispatch. -/
def execFenceApply (p : TileIx) (s : State) : Host.Outcome State Fault Refusal :=
  let t := s.tile p
  .next (if t.fenceReq && !t.fenced && (t.seq == .ask || t.seq == .off) then s.applyFence p else s)

/-! ## Zeroization -/

/-- Keys of a sparse table outside a range of keys. -/
def dropRange {α : Type} (t : Tab α) (lo n : Nat) : Tab α := t.filter fun e => decide (e.1 < lo) || decide (lo + n ≤ e.1)

/-- All SRAM of a tile at zero with the check code of zero (R101, R128). -/
def Memory.clearTile (m : Memory) (p : Nat) : Memory :=
  let cut (t : Tab (BitVec 8)) := dropRange (dropRange (dropRange t (dataBase p) 0x40000) (tapBase p 0) 0x4000) (ctxBase p 0) 0x10000
  let cutw (t : Tab (BitVec 7)) :=
    dropRange (dropRange (dropRange t (dataBase p / 4) 0x10000) (tapBase p 0 / 4) 0x1000) (ctxBase p 0 / 4) 0x4000
  let tr := { (tget {} m.trackers p) with entries := [] }
  { m with cells := cut m.cells, syn := cutw m.syn, trackers := tset {} m.trackers p tr }

/-- Every tile memory word reads back zero with a correct code (R129). -/
def Memory.tileClear (m : Memory) (p : Nat) : Bool :=
  let inside (a : Nat) : Bool := match areaOf a with
    | .data x | .tap x | .ctx x => x == p
    | _ => false
  m.cells.all (fun e => !inside e.1) && m.syn.all (fun e => !inside (4 * e.1))

/-- The tile's own state after zeroization (R89, R128, R185): counters that no rule clears are kept. -/
def Tile.zeroed (t : Tile) : Tile :=
  { fenced := t.fenced, fenceReq := t.fenceReq, dispatches := t.dispatches, aborts := t.aborts,
    fillCount := t.fillCount, fillRepairs := t.fillRepairs, steals := t.steals, fillNum := t.fillNum,
    deq := t.deq.map fun d => { underruns := d.underruns } }

/-- Zeroization of everything a partition could have left in a tile (R128). -/
def State.zeroizeTile (s : State) (p : Nat) : State :=
  let s := s.setMem (s.mem.clearTile p)
  let s := s.updTile p Tile.zeroed
  match s.homeOf p with
  | none => s
  | some h => (List.range 20).foldl (fun s j =>
      State.updLink s (linkId h j) fun k => { k with flight := [], held := [] }) s

/-- Offset of a register of the context control block within the sector's region (R131). -/
def ctxOffset (p o : Nat) : Nat := 0xA0000 + 0x100 * indexOf p + o

/-- CTX_CTRL_ZEROIZE (R128, R130): without a fence it has no effect and is logged. -/
def execCtxCtrlZeroize (p : TileIx) (s : State) : Host.Outcome State Fault Refusal :=
  .next (if (s.tile p).fenced then (s.zeroizeTile p).updTile p fun t => { t with zeroizing := true, zres := 1 }
    else s.configRefused (ctxOffset p 4))

/-- In a wake from Cold the tile's frames are refilled once it has been zeroized (R466, R467). -/
def State.coldRefill (s : State) (p : Nat) : State :=
  let x := s.sector (sectorOf p)
  if x.pstate = .cold ∧ x.waking then
    (x.coldFrames.filter fun e => e.1 == p).foldl (fun s e => State.refill s p e.2.1 e.2.2 .coldWake)
      (s.updSector (sectorOf p) fun y => { y with coldFrames := y.coldFrames.filter fun e => e.1 != p })
  else s

/-- ZEROIZE_COMPLETE (R129): the read-back decides; a tile that fails is a hard-failed tile. -/
def execZeroizeComplete (p : TileIx) (s : State) : Host.Outcome State Fault Refusal :=
  let t := s.tile p
  if !t.zeroizing then .next s
  else if s.mem.tileClear p then .next ((s.updTile p fun t => { t with zeroizing := false, zres := 2 }).coldRefill p)
  else .next ((s.updTile p fun t => { t with zeroizing := false, zres := 3 }).raiseFault
    { cls := 3, part := s.ownerOf p, source := 5, object := (s.tm p).logical, detail := 1, tile := some p })

end Sys2Proof.Machine
end

