-- ==== Sys2Proof/Machine/Dispatcher.lean ====
section
/-!
DEFINITION. Machine/Dispatcher.lean: the dispatcher of a sector (chapter 06): flags, readiness, selection, grants,
fills ahead, aging and the end of a dispatch, with its commands.
-/
namespace Sys2Proof.Machine

/-! ## Fields of a task entry -/

/-- OWNER of TASK_CTRL; 16 to 31 leave the entry unused (Table 06-2). -/
def TaskStatic.owner (x : TaskStatic) : Nat := field x.ctrl.toNat 24 5
def TaskStatic.any (x : TaskStatic) : Bool := x.ctrl.getLsbD 23
def TaskStatic.prio (x : TaskStatic) : Nat := field x.ctrl.toNat 20 3
def TaskStatic.oneShot (x : TaskStatic) : Bool := x.ctrl.getLsbD 19
def TaskStatic.setTask (x : TaskStatic) : Bool := x.ctrl.getLsbD 18
def TaskStatic.store (x : TaskStatic) : Nat := x.storeHi.toNat * 2 ^ 32 + x.storeLo.toNat
def TaskStatic.nen (x : TaskStatic) : Bool := x.notify.getLsbD 31
def TaskStatic.ntask (x : TaskStatic) : Nat := field x.notify.toNat 16 14
def TaskStatic.nflag (x : TaskStatic) : Nat := field x.notify.toNat 8 5

/-- TASK_STATUS (Table 06-3). -/
def TaskState.code : TaskState → Nat
  | .idle => 0 | .armed => 1 | .ready => 2 | .running => 3 | .cancelled => 4

def Task.status (k : Task) : Word :=
  BitVec.ofNat 32 (k.state.code * 2 ^ 29 + min k.age 255 * 2 ^ 21 + bit k.urgent * 2 ^ 20 + k.lastCode % 8 * 2 ^ 17
    + bit k.cancel * 2 ^ 16 + k.lastTile % 32 * 2 ^ 11 + k.lastFlag % 32 * 2 ^ 6)

/-- SETENT_g_f of a sector. -/
def Sector.setentry (n : Sector) (g f : Nat) : BitVec 16 := tget 0 n.setent (32 * g + f)

/-- Flags that can satisfy an ANY task: set, in MASK, and for a SET_TASK with a valid SETENT entry (R194). -/
def State.anyFlags (s : State) (t : Nat) : Word :=
  let k := s.task t
  let n := s.sector (t / 2048)
  let m := k.flags &&& k.st.mask
  if k.st.setTask then
    (List.range 32).foldl (fun w f =>
      if (n.setentry (k.st.stream.toNat % 256) f).msb then w else w &&& ~~~(1#32 <<< f)) m
  else m

/-- The readiness condition of a task (R194, R198). -/
def State.condition (s : State) (t : Nat) : Bool :=
  let k := s.task t
  decide (k.st.owner < 16) &&
    (if k.st.any then s.anyFlags t != 0 else !k.st.setTask && k.flags &&& k.st.mask == k.st.mask)

/-! ## Barista's image of the task entries (R188) -/

/-- The nine words of the static fields, in the order of Table 06-1. -/
def TaskStatic.words (x : TaskStatic) : List Word :=
  [x.mask, x.ctrl, x.batch.setWidth 32, x.stream.setWidth 32, x.ctxId ++ (0 : BitVec 16), x.storeLo, x.storeHi.setWidth 32,
   x.eligible.setWidth 32, x.notify]

/-- The static fields that nine words give. -/
def TaskStatic.ofWords (w : List Word) : TaskStatic :=
  let g (i : Nat) : Word := w.getD i 0
  { mask := g 0, ctrl := g 1, batch := (g 2).setWidth 16, stream := (g 3).setWidth 13, ctxId := (g 4 >>> 16).setWidth 16
    storeLo := g 5, storeHi := (g 6).setWidth 16, eligible := (g 7).setWidth 31, notify := g 8 }

/-- The image of a task entry: 36 bytes (R442) in the dispatcher-tables region of system SRAM. DESIGN CHOICE (log entry 89):
the images follow one another by task number, and the words of an image stand in the order of Table 06-1. -/
def imageBase (t : Nat) : Nat := 0x20180000 + 36 * t

/-- The image of an entry that PERS_LOAD wrote is written with the entry (R188). -/
def State.putImage (s : State) (t : Nat) (x : TaskStatic) : State := s.writeWords (imageBase t) x.words

/-- The image as the check code delivers it. `none`: a word of it is poisoned or uncorrectable. -/
def State.takeImage (s : State) (t : Nat) : Option TaskStatic × State :=
  let (ws, bad, s) := (List.range 9).foldl (fun ((ws, bad, s) : List Word × Bool × State) i =>
    let (d, b, s) := State.readWord s (imageBase t + 4 * i)
    (ws ++ [d], bad || b, s)) ([], false, s)
  (if bad then none else some (TaskStatic.ofWords ws), s)

/-- A static field of an entry is written, with Barista's image; SET_TASK = 1 with MODE = ALL is stored and logged (R188,
R198). -/
def State.setStatic (s : State) (t : Nat) (x : TaskStatic) : State :=
  let s := s.updTask t fun k => { k with st := x }
  if (s.task t).imaged then s.putImage t x else s

/-- SET_TASK = 1 with MODE = ALL is stored, and logged as a refused setting (R198). -/
def State.checkMode (s : State) (t : Nat) : State :=
  let x := (s.task t).st
  if x.setTask ∧ !x.any then s.configRefused (0x40000 + 0x40 * (t % 2048) + 0xC) else s

/-! ## Flags -/

/-- Flags of a task are set (R189). -/
def State.setFlags (s : State) (t : Nat) (w : Word) : State := s.updTask t fun k => { k with flags := k.flags ||| w }

/-- A drop of R208: counted in DROPPED and logged. -/
def State.dispatchDrop (s : State) (n t kind : Nat) : State :=
  (s.updSector n fun x => { x with dropped := x.dropped + 1 }).sysFault 0x54 n (kind * 2 ^ 30 + t)

/-- A flag set by a dispatcher's own source takes effect in Brew; a sector that is not in Brew holds it in its flag inbox and
wakes (R464, R472, R474). -/
def State.signalFlag (s : State) (n : Nat) (f : Nat × Nat × Nat × Nat) (now : State → State) : State :=
  if (s.sector n).pstate = .brew then now s
  else s.updSector n fun x => { x with inbox := x.inbox ++ [f], wakeDue := true }

/-- A flag set takes effect at its dispatcher; an endpoint signal, NOTIFY or stream flag (kinds 1 to 3) for a task of
another owner is dropped (R208). Kind 0: a timer or TASK_SIGNAL. -/
def State.arriveFlag (s : State) (t flag part kind : Nat) : State :=
  if kind ≠ 0 ∧ (s.task t).st.owner ≠ part then s.dispatchDrop (t / 2048) t kind
  else s.setFlags t (1#32 <<< (flag % 32))

/-- DISPATCHER_FLAG_SET (R189, R190): the oldest flag set on its way to the dispatcher takes effect; a sector that is not
in Brew holds it in its flag inbox and wakes (R464, R472). -/
def execDispatcherFlagSet (n : SecIx) (s : State) : Host.Outcome State Fault Refusal :=
  match (s.sector n).flagsIn with
  | [] => .next s
  | f :: r =>
    let s := s.updSector n fun x => { x with flagsIn := r }
    .next (s.signalFlag n f fun s => s.arriveFlag f.1 f.2.1 f.2.2.1 f.2.2.2)

/-- FLAGS_SET_WRITE (R187, R189): a write reaches a dispatcher whose sector is in Brew. -/
def execFlagsSetWrite (t : TaskIx) (w : Word) (s : State) : Host.Outcome State Fault Refusal :=
  .next (if (s.sector (t / 2048)).pstate = .brew then s.setFlags t w else s)

/-! ## Readiness -/

/-- TASK_READY (R194, R197, R203): the task takes the dispatcher's next sequence number. -/
def execTaskReady (t : TaskIx) (s : State) : Host.Outcome State Fault Refusal :=
  let n := s.sector (t / 2048)
  if n.pstate = .brew ∧ (s.task t).state = .armed ∧ s.condition t then
    let s := s.updSector (t / 2048) fun x => { x with seqCtr := x.seqCtr + 1 }
    .next (s.updTask t fun k => { k with state := .ready, seq := n.seqCtr, age := 0, urgent := false })
  else .next s

/-! ## Selection -/

/-- Physical tile of in-sector logical tile `i` of sector `n`. -/
def State.sectorTile (s : State) (n i : Nat) : Option Nat := s.tileOfLogical (31 * n + i)

/-- In-sector tile `i` is a candidate of the task: in ASK at the dispatcher, eligible, of the task's owner (R197,
R208), in the order of asking. -/
def State.candidates (s : State) (t : Nat) : List Nat :=
  let k := s.task t
  let n := t / 2048
  (s.sector n).ask.filter fun i =>
    k.st.eligible.getLsbD i && (match s.sectorTile n i with
      | some p => s.ownerOf p == k.st.owner
      | none => false)

/-- Some fill for the hot slot is requested, queued or running (R200). -/
def Tile.pendingFill (t : Tile) (h : Nat) : Bool :=
  (t.fill.toList ++ t.fillQ ++ t.fillWait).any fun f => f.hot == some h

/-- In the dispatcher's record, hot slot `h` is VALID with the context. -/
def Tile.validWith (t : Tile) (id h : Nat) : Bool :=
  tget none t.frameId h == some id && !t.pendingFill h && t.hotAt h == .valid
/-- In the dispatcher's record, hot slot `h` is FILLING with the context. -/
def Tile.fillingWith (t : Tile) (id h : Nat) : Bool := tget none t.frameId h == some id && t.pendingFill h

/-- The cache frame that holds the context, the lowest-numbered. -/
def Tile.cachedAt (t : Tile) (id : Nat) : Option Nat :=
  ((List.range 48).map (16 + ·)).find? fun c => tget none t.frameId c == some id

/-- The rank of a tile for a context (R199). -/
def Tile.rank (t : Tile) (id : Nat) : Nat :=
  if (List.range 16).any (t.validWith id) then 0
  else if (List.range 16).any (t.fillingWith id) then 1
  else if (t.cachedAt id).isSome then 2 else 3

/-- The first element with the smallest key. -/
def firstMin {α : Type} (key : α → Nat) : List α → Option α
  | [] => none
  | a :: r => match firstMin key r with
    | none => some a
    | some b => if key b < key a then some b else some a

/-- choose_tile (R199): rank, then longest in ASK. -/
def State.chooseTile (s : State) (t : Nat) : Option Nat :=
  firstMin (fun i => match s.sectorTile (t / 2048) i with
    | some p => (s.tile p).rank (s.task t).st.ctxId.toNat
    | none => 4) (s.candidates t)

/-- The slot of choose_slot that a new fill takes (R200). -/
def State.victim (s : State) (p : Nat) : Option Nat :=
  let t := s.tile p
  let v := (List.range 16).filter fun h =>
    h != t.hotSlot && (tget none t.pin h).isNone && !t.pendingFill h && t.hotAt h != .filling
      && !(s.grants.any fun g => g.1 == p && g.2.slot == h)
  match v.find? (fun h => t.hotAt h == .empty) with
  | some h => some h
  | none => firstMin (fun h => if t.named.contains h then 1 + t.named.idxOf h else 0) v

/-- The fill of a task's context into a slot (R200). -/
def State.taskFill (s : State) (p t h : Nat) (ahead : Bool) : Fill :=
  let st := (s.task t).st
  let id := st.ctxId.toNat
  { hot := some h, golden := st.store, ctxId := id, ahead := ahead,
    src := match (s.tile p).cachedAt id with
      | some c => .cache c
      | none => .store st.store }

/-- choose_slot (R200): the slot, the FILL bit, and the state with a fill requested where one is needed. -/
def State.chooseSlot (s : State) (t p : Nat) : Option (Nat × Bool × State) :=
  let id := (s.task t).st.ctxId.toNat
  match (List.range 16).find? ((s.tile p).validWith id) with
  | some h => some (h, false, s)
  | none => match (List.range 16).find? ((s.tile p).fillingWith id) with
    | some h => some (h, true, s)
    | none => (s.victim p).map fun h => (h, true, s.requestFill p (s.taskFill p t h false))

/-- Task `a` ranks before task `b` (R197): urgent ones by seq, then the others by PRIO and seq. -/
def Task.before (a b : Task) : Bool :=
  if a.urgent then !b.urgent || decide (a.seq < b.seq)
  else !b.urgent && (decide (b.st.prio < a.st.prio) || (a.st.prio == b.st.prio && decide (a.seq < b.seq)))

/-- The top-ranked task of a list. -/
def State.topTask (s : State) : List Nat → Option Nat
  | [] => none
  | a :: r => match s.topTask r with
    | none => some a
    | some b => if (s.task b).before (s.task a) then some b else some a

/-- The READY tasks of a partition at a dispatcher. -/
def State.readyTasks (s : State) (q n : Nat) : List Nat :=
  (s.tasks.filter fun e => e.1 / 2048 == n && e.2.state == .ready && e.2.st.owner == q).map (·.1)

/-- The flags a selection consumes, and the new LAST_FLAG (R198). A READY task whose flags a write has cleared
consumes none. -/
def State.consumes (s : State) (t : Nat) : Word × Nat :=
  let k := s.task t
  if k.st.any then
    let m := s.anyFlags t
    match ((List.range 32).map fun i => (k.lastFlag + 1 + i) % 32).find? fun f => m.getLsbD f with
    | some f => (1#32 <<< f, f)
    | none => (0, k.lastFlag)
  else (k.flags &&& k.st.mask, k.lastFlag)

/-- STREAM of a grant (Table 06-7). For a SET_TASK whose flags were all cleared after it became READY the
specification names no consumed flag, and the stream is a free value. -/
def State.grantStream (s : State) (t : Nat) (used : Word) (f : Nat) : Nat × State :=
  let st := (s.task t).st
  if !st.setTask then (st.stream.toNat, s)
  else if used = 0 then let (v, s) := s.draw; (Sys2Proof.Config.free v % 8192, s)
  else (((s.sector (t / 2048)).setentry (st.stream.toNat % 256) f).toNat % 8192, s)

/-- The tile's request leaves the dispatcher. -/
def State.dropAsk (s : State) (n i : Nat) : State := s.updSector n fun x => { x with ask := x.ask.filter (· != i) }

/-- The selection of task `t` for in-sector tile `i` at position `p` (R197 to R200). -/
def State.selectTask (s : State) (t i p : Nat) : State :=
  match s.chooseSlot t p with
  | none => s
  | some (h, fill, s) =>
    let n := t / 2048
    let (used, f) := s.consumes t
    let (stream, s) := s.grantStream t used f
    let k := s.task t
    let batch := if k.resid = 0 then k.st.batch.toNat else k.resid.toNat
    let s := s.setTask t
      { k with state := .running, lastTile := i, grants := k.grants + 1, flags := k.flags &&& ~~~used, lastFlag := f,
               consumed := used, gbatch := batch, wasUrgent := k.urgent, urgent := false }
    let s := (s.dropAsk n i).updSector n fun x => { x with grants := x.grants + 1 }
    let s := s.updTile p fun x => { x with yieldSent := false }
    { s with grants := s.grants ++ [(p, { task := t % 2048, slot := h, batch := batch, stream := stream, fill := fill })] }

/-- A partition is in recovery from a fault, or being destroyed: its dispatchers select nothing (R197, R208, R367). -/
def State.recovering (s : State) (q : Nat) : Bool := (tget none s.recovery q).isSome || (tget {} s.parts q).state == 4

/-- DISPATCH_SELECT (R197): one selection for a partition. -/
def execDispatchSelect (q : PartIx) (n : SecIx) (s : State) : Host.Outcome State Fault Refusal :=
  if s.recovering q ∨ (s.sector n).pstate ≠ .brew then .next s
  else
    let c := (s.readyTasks q n).filter fun t => !(s.candidates t).isEmpty
    match s.topTask c with
    | none => .next s
    | some t =>
      match s.chooseTile t with
      | none => .next s
      | some i =>
        match s.sectorTile n i with
        | some p => .next (s.selectTask t i p)
        | none => .next s

/-- Eligible tiles of a task that its owner holds, in-sector index order. -/
def State.eligibleTiles (s : State) (t : Nat) : List Nat :=
  let k := s.task t
  (List.range 31).filterMap fun i =>
    if k.st.eligible.getLsbD i then
      match s.sectorTile (t / 2048) i with
      | some p => if s.ownerOf p = k.st.owner then some p else none
      | none => none
    else none

/-- AHEAD_FILL (R201). -/
def execAheadFill (q : PartIx) (n : SecIx) (s : State) : Host.Outcome State Fault Refusal :=
  let x := s.sector n
  if !x.dispCtrl.getLsbD 0 ∨ s.recovering q ∨ x.pstate ≠ .brew then .next s
  else match s.topTask (s.readyTasks q n) with
  | none => .next s
  | some t =>
    let id := (s.task t).st.ctxId.toNat
    let es := s.eligibleTiles t
    if !(s.candidates t).isEmpty || es.any (fun p => decide ((s.tile p).rank id < 2)) then .next s
    else
      match es.find? (fun p =>
          let t := s.tile p
          t.fillQ.isEmpty && t.fillWait.isEmpty && !(t.fill.any (·.ahead))) with
      | none => .next s
      | some p =>
        match s.victim p with
        | none => .next s
        | some h =>
          .next ((s.requestFill p (s.taskFill p t h true)).updSector n fun x => { x with prefetches := x.prefetches + 1 })

/-! ## The end of a dispatch -/

/-- The re-check of R206: endpoints of the task still at their effective threshold set their flags. -/
def State.recheck (s : State) (t : Nat) : State :=
  let n := t / 2048
  (List.range 31).foldl (fun s i =>
    match State.sectorTile s n i with
    | none => s
    | some p =>
      (List.finRange 4).foldl (fun s (k : Fin 4) =>
        let c := State.deqCtl s p k
        let eff := max 1 (State.deqThresh s p k)
        if State.sigTask s p k = some t ∧ c.en ∧ c.sig ∧ eff ≤ ((State.tile s p).deq[k]).depth
        then State.arriveFlag s t c.flag (State.ownerOf s p) 1 else s) s) s

/-- At a COMPLETE DONE, the ingress streams of the task whose visible unread cells still reach SIG_CELLS (R260). -/
def State.streamRecheck (s : State) (t : Nat) : State :=
  (s.streams.filter fun e =>
      let x := e.2
      field x.task.toNat 16 14 == t && !x.ctrl.getLsbD 23 && (field x.ctrl.toNat 29 3 == 1 || field x.ctrl.toNat 29 3 == 2)
        && field x.thresh.toNat 16 16 != 0 && decide (field x.thresh.toNat 16 16 ≤ x.vpos - x.rpos)).foldl
    (fun s e => State.sendFlag s t (field e.2.task.toNat 8 5) (field e.2.ctrl.toNat 24 5) 3) s

/-- NOTIFY of a completed dispatch (R192): straight to a task of the same dispatcher, else over the notify link. -/
def State.sendNotify (s : State) (t : Nat) : State :=
  let st := (s.task t).st
  if !st.nen then s
  else if st.ntask / 2048 = t / 2048 then s.arriveFlag st.ntask st.nflag st.owner 2
  else { s with notifies := s.notifies ++ [{ task := st.ntask, flag := st.nflag, part := st.owner }] }

/-- A DONE acts on its task (Table 06-8). ABORTED_FAULT leaves the task to the recovery of its partition. -/
def State.taskDone (s : State) (t : Nat) (d : Done) : State :=
  let k := { s.task t with lastCode := d.code, cancel := false }
  let wasCancel := (s.task t).cancel
  if d.code = 0 then
    let st : TaskState := if wasCancel then .cancelled else if k.st.oneShot then .idle else .armed
    ((s.setTask t { k with state := st, resid := 0 }).recheck t).streamRecheck t |>.sendNotify t
  else if d.code = 1 then
    s.setTask t
      { k with state := if wasCancel then .cancelled else .ready, urgent := !wasCancel && k.wasUrgent,
               flags := k.flags ||| k.consumed, resid := BitVec.ofNat 16 (k.gbatch - d.counter) }
  else if d.code = 2 then
    (s.setTask t { k with state := .idle, resid := 0 }).tellOwner (sectorPort d.sector) k.st.owner
      { code := 3, status := stPoison, object := t, data := leBytes 2 (31 * d.sector + d.tile) ++ leBytes 10 0 }
  else s.setTask t k

/-- A DONE reaches its dispatcher: it acts on the task that runs (R205, R206). -/
def State.takeDone (s : State) (d : Done) : State :=
  let t := 2048 * d.sector + d.task
  if (s.task t).state = .running then s.taskDone t d else s

/-- DISPATCH_DONE (R205, R206). -/
def execDispatchDone (n : SecIx) (s : State) : Host.Outcome State Fault Refusal :=
  match s.dones.find? (fun d => d.sector == n.val) with
  | none => .next s
  | some d =>
    .next (State.takeDone { s with dones := s.dones.erase d } d)

/-- NOTIFY_ARRIVE (R192, R208). -/
def execNotifyArrive (n : SecIx) (s : State) : Host.Outcome State Fault Refusal :=
  match s.notifies.find? (fun x => x.task / 2048 == n.val) with
  | none => .next s
  | some x =>
    let s := { s with notifies := s.notifies.erase x }
    .next (s.signalFlag n (x.task, x.flag, x.part, 2) fun s => s.arriveFlag x.task x.flag x.part 2)

/-! ## Timers and aging -/

/-- A tick of the time unit at a timer (R191): an enabled one counts it, up to its PERIOD. -/
def Timer.tick (m : Timer) : Timer :=
  if m.cfg.getLsbD 31 ∧ m.count < m.cfg.toNat % 65536 then { m with count := m.count + 1 } else m

/-- An enabled timer with a PERIOD whose count has reached it (R191). -/
def Timer.due (m : Timer) : Bool :=
  m.cfg.getLsbD 31 && m.cfg.toNat % 65536 != 0 && decide (m.cfg.toNat % 65536 ≤ m.count)

/-- TIMER_FIRE (R191): an enabled timer whose count has reached PERIOD sets its target flag; a one-shot stops. In a sector
that sleeps the flag waits in the inbox and wakes it (Table 15-3). -/
def execTimerFire (n : SecIx) (t : Fin 16) (s : State) : Host.Outcome State Fault Refusal :=
  let x := s.sector n
  let m := tget {} x.timers t
  if m.due then
    let cfg := if m.cfg.getLsbD 30 then m.cfg else m.cfg &&& 0x7FFFFFFF#32
    let s := s.updSector n fun x => { x with timers := tset {} x.timers t { m with cfg := cfg, count := 0 } }
    let e := 2048 * n.val + m.tgt.toNat % 2048
    let f := field m.tgt.toNat 16 5
    .next (s.signalFlag n (e, f, 31, 0) fun s => s.arriveFlag e f 31 0)
  else .next s

/-- URG_q of a dispatcher. -/
def Sector.urgOf (x : Sector) (q : Nat) : Nat := (tget (0 : BitVec 8) x.urg q).toNat

/-- AGE of a READY task at a tick, and its urgency from then on (R203). -/
def Task.tick (u : Nat) (k : Task) : Task :=
  if k.state = .ready then
    let a := min 255 (k.age + 1)
    { k with age := a, urgent := k.urgent || (u != 0 && decide (u ≤ a)) }
  else k

/-- AGE_TICK (R203): the age counter wraps. -/
def execAgeTick (n : SecIx) (s : State) : Host.Outcome State Fault Refusal :=
  let x := s.sector n
  if x.pstate ≠ .brew then .next s
  else
    let s := s.updSector n fun x => { x with agePhase := 0 }
    .next ((s.readyTasks 0 n ++ ((List.range 15).flatMap fun q => s.readyTasks (q + 1) n)).foldl (fun s t =>
      State.updTask s t (Task.tick (x.urgOf (State.task s t).st.owner))) s)

end Sys2Proof.Machine
end

