-- ==== Sys2Proof/Machine/Access.lean ====
section
/-!
DEFINITION. Machine/Access.lean: translation of logical addresses (R41 to R48) and what the memories do with a request
(R36 to R40, R47, R306 to R312).
-/
namespace Sys2Proof.Machine

/-! ## Translation -/

/-- What translation makes of a logical address (R44). -/
inductive Translated where
  | fail
  /-- the tile is MIGRATING: the request waits (R46) -/
  | wait
  | ok (addr : Nat)
  deriving DecidableEq, Repr

/-- A device address lies in the reserved area of some partition (R100). -/
def Memory.reserved (m : Memory) (a : Nat) : Bool :=
  (List.range 16).any fun q => match m.reservedBase q with
    | some d => m.capacity != 0 && decide (d ≤ a) && decide (a < d + 17 * 2 ^ 20)
    | none => false

/-- The tile part of R44. -/
def State.translateTile (s : State) (q b ali : Nat) : Translated :=
  let tap := decide (0x04000000 ≤ b)
  let size := if tap then 0x4000 else 0x40000
  let used := if tap then 0x4000 else 0x30000
  let base := if tap then 0x04000000 else 0
  let l := (b - base) / size
  let off := (b - base) % size
  if (tap ∧ ali ≠ 0) ∨ 247 < l ∨ used ≤ off then .fail
  else match s.tileOfLogical l with
  | none => .fail
  | some p =>
    if s.ownerOf p ≠ q then .fail
    else if (s.tm p).migrating then .wait
    else .ok (base + size * p + off + ali * 2 ^ 44)

/-- The window part of R44: the lowest matching entry translates. -/
def State.translateWindow (s : State) (q b ali cls : Nat) (isWrite : Bool) : Translated :=
  let page := b / 4096
  match (List.range 16).find? (fun e =>
      let w := tget {} s.win (16 * q + e)
      w.valid && w.target == cls && decide (w.logBase ≤ page) && decide (page < w.logBase + w.pages)) with
  | none => .fail
  | some e =>
    let w := tget {} s.win (16 * q + e)
    let d := w.devBase * 4096 + (b - w.logBase * 4096)
    let inside := match areaOf d with
      | .line _ => cls == 0
      | .dram => cls == 1
      | _ => false
    if (isWrite ∧ !w.write) ∨ !inside ∨ s.mem.reserved d then .fail else .ok (d + ali * 2 ^ 44)

/-- translate(q, a, is_write) of R44. -/
def State.translate (s : State) (q a : Nat) (isWrite : Bool) : Translated :=
  let ali := a / 2 ^ 44
  let b := a % 2 ^ 44
  if 3 ≤ ali then .fail
  else if b < 0x04400000 then s.translateTile q b ali
  else match areaOf b with
  | .line _ => s.translateWindow q b ali 0 isWrite
  | .dram => s.translateWindow q b ali 1 isWrite
  | _ => .fail

/-! ## Requests at the SRAMs -/

/-- Line-buffer cell of an address. -/
def cellOf (a : Nat) : Nat := (a - 0x10000000) / 256

/-- The queue whose state lies at place `k` of Table 11-8. -/
def queueAt (k : Nat) : Nat :=
  if k < 256 then k / 64 * 2 ^ 12 + k % 64
  else if k < 448 then 2 ^ 16 + (k - 256) / 16 * 2 ^ 12 + k % 16
  else 2 ^ 17

/-- The byte that system SRAM shows of the mesh's tags and of Barista's buffers, queues and commands in flight (R291, R346,
Table 11-8); `none`: it holds none of these. Entries lie oldest first from place 0, and a record whose layout is not given
shows a free value of what it is about (log entry 92). -/
def State.viewByte (s : State) (a : Nat) : Option Byte :=
  if a < 0x20080000 then none
  else if a < 0x20100000 then
    let q := (a - 0x20080000) / 0x8000
    some (Config.recordByte a [q, tget 0 s.flights q])
  else if a < 0x20300000 then none
  else if a < 0x20380000 then
    let t := (a - 0x20300000) / 4
    some (Config.recordByte a ((s.mesh.txns.find? fun x => x.tag == t).toList.flatMap fun x => [x.part, x.epoch]))
  else if a < 0x203C4000 then
    let o := a - 0x20380000
    some (match (tget [] s.buffers (o / 0x4000))[o % 0x4000 / 64]? with
      | some c => c.bytes.getD (o % 64) 0
      | none => Config.recordByte a [])
  else if a < 0x203E6000 then
    let o := a - 0x203C4000
    some (match (s.evb (o / 0x2000)).entries[o % 0x2000 / 32]? with
      | some e => (e.ev.bytes.take 2 ++ leBytes 2 e.eseq ++ e.ev.bytes.drop 4).getD (o % 32) 0
      | none => Config.recordByte a [])
  else if a < 0x203ED040 then
    let q := tget {} s.queues (queueAt ((a - 0x203E6000) / 64))
    some (Config.recordByte a [q.owner, q.sqHead, q.cqTail, q.sqTail, q.cqHead, q.last.toNat, q.rseq.toNat, q.inFlight, q.depth])
  else if 0x203EE000 ≤ a ∧ a < 0x203EE800 then some (Config.recordByte a [16, tget 0 s.flights 16])
  else none

/-- Bytes of an SRAM range, each with its word's poison (R303, R307). -/
def State.sramBytes (s : State) (a n : Nat) : List (Byte × Bool) × State :=
  if n = 0 then ([], s)
  else if areaOf a = .sys ∧ (s.viewByte a).isSome then
    ((List.range n).map fun i => ((s.viewByte (a + i)).getD (s.mem.byte (a + i)), false), s)
  else
    let (ws, s) := (List.range ((a + n + 3) / 4 - a / 4)).foldl (fun (ws, s) i =>
      let (d, bad, s) := State.readWord s (4 * (a / 4 + i))
      (ws ++ (leBytes 4 d.toNat).map fun b => (b, bad), s)) (([] : List (Byte × Bool)), s)
    ((ws.drop (a % 4)).take n, s)

/-- A read of cell bytes (R252, R307): zero at LEN and beyond; the record's POISON poisons every word, and a poisoned
word poisons the record from then on. -/
def State.cellBytes (s : State) (a n : Nat) : List (Byte × Bool) × State :=
  let c := cellOf a
  let k := tget {} s.cells c
  let (bs, s) := s.sramBytes a n
  let bad := k.poison || bs.any (·.2)
  let s := if bad then { s with cells := tset {} s.cells c { k with poison := true } } else s
  ((List.range n).map fun i =>
    let (b, p) := bs.getD i (0, false)
    (if k.len ≤ a % 256 + i then 0 else b, p || k.poison), s)

/-- Bytes of a cell write that lie below LEN (R252). -/
def State.cellPut (s : State) (a ali : Nat) (data : List Byte) (poison : Nat) : Bool × State :=
  let k := tget {} s.cells (cellOf a)
  s.putWords a ali (data.take (k.len - a % 256)) poison

/-- The destination check of R47 and the holes of R37 to R39: 0 passes, 1 an owner's mismatch, 2 a hole. -/
def State.sramCheck (s : State) (k : Packet) : Nat :=
  let ali := k.addr / 2 ^ 44
  let a := k.addr % 2 ^ 44
  match areaOf a with
  | .data p => if 3 ≤ ali ∨ (k.opc = 3 ∧ ali ≠ 0) then 2 else if s.ownerOf p = k.part then 0 else 1
  | .tap p => if ali ≠ 0 ∨ k.opc = 3 then 2 else if s.ownerOf p = k.part then 0 else 1
  | .ctx p =>
    if ali ≠ 0 ∨ k.opc = 3 ∨ k.part ≠ 16 then 2
    else if k.opc = 2 ∧ a - ctxBase p 0 < 0x4000 then 2 else 0
  | .line n => if 3 ≤ ali ∨ (k.opc = 3 ∧ ali ≠ 0) then 2
    else if (tget {} s.cells n).owner = k.part then 0 else 1
  | .sys => if 3 ≤ ali ∨ (k.opc = 3 ∧ ali ≠ 0) ∨ k.part ≠ 16 then 2
    else if 0x20100000 ≤ a ∧ a < 0x20180000 ∧ !k.secure then 2 else 0
  | _ => 2

/-- The request crosses a 256-byte boundary (R285). -/
def Packet.crosses (k : Packet) : Bool := decide (0 < k.len) && decide (256 < k.addr % 256 + k.len)

/-- The bytes that an ATOM's owner check covers: its WIDTH, or one when that is no width (R286, R312). -/
def Packet.atomWidth (k : Packet) : Nat :=
  let w := (k.data.getD 1 0).toNat
  if w = 4 ∨ w = 8 then w else 1

/-- An ATOM's BAD_LENGTH conditions (R312). -/
def State.atomBad (s : State) (k : Packet) : Bool :=
  let w := (k.data.getD 1 0).toNat
  let a := k.addr % 2 ^ 44
  k.data.length != 24 || !(w == 4 || w == 8) || a % max 1 w != 0 ||
    (match areaOf a with
      | .line n => decide ((tget {} s.cells n).len < a % 256 + w)
      | _ => false)

/-- An opcode the targets do not know, or a reserved AOP (R286, R312). -/
def Packet.unknown (k : Packet) : Bool :=
  !(k.opc == 1 || k.opc == 2 || k.opc == 3) ||
    (k.opc == 3 && (let p := (k.data.getD 0 0).toNat; p == 0 || decide (8 < p)))

/-- A request that its target turns away: zero data, poisoned, for a read (R38, R45). DESIGN CHOICE (log entry 87): an ATOM
turned away returns no data and no poison. -/
def turnedAway (k : Packet) (status : Nat) : Nat × List Byte × Nat :=
  if k.opc = 1 ∧ status = stWrongPartition then (status, List.replicate k.len 0, flitMask k.len fun _ => true)
  else (status, [], 0)

/-- An ATOM on SRAM words: status, old bytes, poison (R311, R312); in the line buffer the cell's POISON holds (R307). -/
def State.sramAtom (s : State) (a : Nat) (d : List Byte) : Nat × List Byte × Nat × State :=
  let (aop, w, x, y) := atomFields d
  let (bs, s) := match areaOf a with
    | .line _ => s.cellBytes a w
    | _ => s.sramBytes a w
  let old := bs.map (·.1)
  if bs.any (·.2) then (stPoison, old, 1, s)
  else match atomNew aop w (leNat old) x y with
    | some v => let (_, s) := s.putWords a 0 (leBytes w v) 0; (stOk, old, 0, s)
    | none => (stOk, old, 0, s)

/-- A mesh write to context memory: it waits behind a fill from its frame (R118). -/
def State.ctxPut (s : State) (p a : Nat) (k : Packet) : State :=
  let f := (a - ctxBase p 0) / 1024
  let busy := (s.tile p).fill.any fun x => x.src == .cache f || x.cache == some f
  if busy then s.updTile p fun t => { t with heldWrites := t.heldWrites ++ [{ frame := f, addr := a, data := k.data, poison := k.poison }] }
  else s.ctxWrite p a k.data k.poison

/-- RD, WR and ATOM at an SRAM target, checks passed. DESIGN CHOICE (log entry 87): a write that a cache frame holds behind a
fill is answered OK at once. -/
def State.sramAct (s : State) (k : Packet) : Nat × List Byte × Nat × State :=
  let ali := k.addr / 2 ^ 44
  let a := k.addr % 2 ^ 44
  if k.opc = 1 then
    let (bs, s) := match areaOf a with
      | .line _ => s.cellBytes a k.len
      | _ => s.sramBytes a k.len
    let m := flitMask k.len fun i => (bs.getD i (0, false)).2
    (if m = 0 then stOk else stPoison, bs.map (·.1), m, s)
  else if k.opc = 2 then
    match areaOf a with
    | .line _ => let (ok, s) := s.cellPut a ali k.data k.poison; (if ok then stOk else stPoison, [], 0, s)
    | .ctx p => (stOk, [], 0, s.ctxPut p a k)
    | _ => let (ok, s) := s.putWords a ali k.data k.poison; (if ok then stOk else stPoison, [], 0, s)
  else s.sramAtom a k.data

/-- The checks a memory target makes, in the order of R286; `none`: the request acts. A hole is logged (R38). -/
def State.memCheck (s : State) (k : Packet) : Option Nat × State :=
  let a := k.addr % 2 ^ 44
  if k.unknown then (some stUnknownOpcode, s)
  else
    let w := match areaOf a with
      | .dram =>
        if 3 ≤ k.addr / 2 ^ 44 ∨ (k.opc = 3 ∧ k.addr / 2 ^ 44 ≠ 0) ∨ s.mem.capacity ≤ a - dramBase then 2
        else if s.dramOwned k.part a (if k.opc = 3 then k.atomWidth else k.len) then 0
        else
          let p := s.mem.place a
          if sealedField ((s.mem.ctlOf p.chan).ownerCheck p.bank) && decide (7 * s.mem.linesPer / 8 ≤ p.line) then 2 else 1
      | _ => s.sramCheck k
    if w = 2 then (some stWrongPartition, s.holeAccess k.addr)
    else if w = 1 then (some stWrongPartition, s)
    else if (k.opc ≠ 3 ∧ k.crosses) ∨ (k.opc = 3 ∧ s.atomBad k) then (some stBadLength, s)
    else (none, s)

/-- A request served whole by its memory at once: status, data, POISON of its flits. -/
def State.memServe (s : State) (k : Packet) : Nat × List Byte × Nat × State :=
  match s.memCheck k with
  | (some st, s) => let (st, d, m) := turnedAway k st; (st, d, m, s)
  | (none, s) =>
    match areaOf (k.addr % 2 ^ 44) with
    | .dram => s.dramServe k
    | _ => s.sramAct k

end Sys2Proof.Machine
end

