-- ==== Sys2Proof/Machine/LineBase.lean ====
section
/-!
DEFINITION. Machine/LineBase.lean: fields of lanes, partners and streams, their counters, sticky bits and events
(R214 to R217, R245, R247 to R249, R540), cells and quotas (R251 to R255), positions and marks (R254, R266 to R270),
stream flags (R260).
-/
namespace Sys2Proof.Machine

/-! ## Lanes -/

def State.lane (s : State) (l : Nat) : Lane := tget {} s.lanes l
def State.setLane (s : State) (l : Nat) (k : Lane) : State := { s with lanes := tset {} s.lanes l k }
def State.updLane (s : State) (l : Nat) (f : Lane → Lane) : State := s.setLane l (f (s.lane l))

/-- OWNER of a lane: 17 to 30 act as 31 (R215). -/
def Lane.owner (k : Lane) : Nat := let o := field k.ctrl.toNat 24 5; if o < 17 then o else 31
def Lane.mode (k : Lane) : Nat := field k.ctrl.toNat 16 4
def Lane.fec (k : Lane) : Nat := field k.ctrl.toNat 14 2
def Lane.macsec (k : Lane) : Bool := k.ctrl.getLsbD 13
def Lane.pfc (k : Lane) : Bool := k.ctrl.getLsbD 12
def Lane.up (k : Lane) : Bool := k.status == 5
def Lane.maxFrame (k : Lane) : Nat := field k.aux.toNat 16 14
def Lane.hbPeriod (k : Lane) : Nat := field k.aux.toNat 8 8
def Lane.defPcp (k : Lane) : Nat := field k.aux.toNat 5 3

/-- LANE_STATUS (Table 07-7). -/
def Lane.statusReg (k : Lane) : Word :=
  BitVec.ofNat 32 (k.status % 8 * 2 ^ 29 + k.cause % 32 * 2 ^ 24 + k.paused.toNat * 2 ^ 16 + k.xoff.toNat * 2 ^ 8)

/-- The partner a lane names, if it names one that is defined (Table 07-3). -/
def State.partnerOf (s : State) (l : Nat) : Option Nat :=
  let w := (s.lane l).partner
  let p := w.toNat % 512
  if w.getLsbD 31 ∧ (tget 0 s.partners p).testBit 31 then some p else none

def partnerMlf (e : Nat) : Bool := e.testBit 30
def partnerIb (e : Nat) : Bool := e.testBit 25 && decide (field e 21 4 < 12)
def partnerIbh (e : Nat) : Nat := field e 21 4
def partnerMac (e : Nat) : Nat := field e 32 48

/-- The lane's partner is defined and speaks MLF. -/
def State.laneMlf (s : State) (l : Nat) : Bool :=
  match s.partnerOf l with
  | some p => partnerMlf (tget 0 s.partners p)
  | none => false

/-! ## Streams -/

def State.stream (s : State) (k : Nat) : Stream := tget {} s.streams k
def State.setStream (s : State) (k : Nat) (x : Stream) : State := { s with streams := tset {} s.streams k x }
def State.updStream (s : State) (k : Nat) (f : Stream → Stream) : State := s.setStream k (f (s.stream k))

/-- STATE: 0 CLOSED, 1 OPEN, 2 STOPPED, 3 CLOSING (Table 08-2). -/
def Stream.state (x : Stream) : Nat := field x.ctrl.toNat 29 3
def Stream.setState (x : Stream) (v : Nat) : Stream :=
  { x with ctrl := (x.ctrl &&& 0x1FFFFFFF#32) ||| BitVec.ofNat 32 (v * 2 ^ 29) }
/-- OWNER: 16 to 30 act as 31. -/
def Stream.owner (x : Stream) : Nat := let o := field x.ctrl.toNat 24 5; if o < 16 then o else 31
def Stream.egress (x : Stream) : Bool := x.ctrl.getLsbD 23
def Stream.mlf (x : Stream) : Bool := x.ctrl.getLsbD 22
def Stream.yields (x : Stream) : Bool := x.ctrl.getLsbD 21
def Stream.auto (x : Stream) : Bool := x.ctrl.getLsbD 20
def Stream.ts (x : Stream) : Bool := x.ctrl.getLsbD 19
def Stream.phdr (x : Stream) : Bool := x.ctrl.getLsbD 18
def Stream.bypassed (x : Stream) : Bool := x.ctrl.getLsbD 17
def Stream.markValid (x : Stream) : Bool := x.ctrl.getLsbD 16
def Stream.setMark (x : Stream) (v : Bool) : Stream :=
  { x with ctrl := if v then x.ctrl ||| 0x10000#32 else x.ctrl &&& ~~~0x10000#32 }
def Stream.ep (x : Stream) : Bool := x.path.getLsbD 31
def Stream.side (x : Stream) : Nat := bit (x.path.getLsbD 30)
def Stream.row (x : Stream) : Nat := field x.path.toNat 26 4
def Stream.kmask (x : Stream) : Nat := field x.path.toNat 22 4
def Stream.lane (x : Stream) : Nat := field x.path.toNat 16 6
def Stream.partner (x : Stream) : Nat := field x.path.toNat 0 9
def Stream.ring (x : Stream) : Nat := field x.size.toNat 16 16
def Stream.credLimit (x : Stream) : Nat := field x.size.toNat 0 16
def Stream.sigCells (x : Stream) : Nat := field x.thresh.toNat 16 16
def Stream.ctCells (x : Stream) : Nat := field x.thresh.toNat 0 16
def Stream.taskNo (x : Stream) : Nat := field x.task.toNat 16 14
def Stream.flag (x : Stream) : Nat := field x.task.toNat 8 5
def Stream.carafe (x : Stream) : Nat := field x.carafeCells.toNat 0 24
def Stream.target (x : Stream) : Option Nat := if x.bypTarget.getLsbD 31 then some (x.bypTarget.toNat % 8192) else none

/-- The stream's owner is allowed on its lane (R215). -/
def State.laneAllows (s : State) (l q : Nat) : Bool := let o := (s.lane l).owner; o == q || o == 16

/-- Signed credit outstanding of an ingress stream: CR_TOTAL less SEQ_NEXT (R263). -/
def Stream.out (x : Stream) : Int := (x.crTotal : Int) - x.seqNext

/-- Credit available to an egress stream: granted less charged (R229). -/
def Stream.avail (x : Stream) : Nat := x.crTotal - x.seqNext

/-! ## Events -/

/-- The partitions with a stream open on a lane (R245). -/
def State.lanePartitions (s : State) (l : Nat) : List Nat :=
  (List.range 16).filter fun q => s.streams.any fun e =>
    e.2.owner == q && e.2.lane == l && (e.2.state == 1 || e.2.state == 2)

/-- A lane event (R245): to the platform owner, the owner of a partition lane, and on a shared lane to the partitions
that `share` lists. -/
def State.laneEvent (s : State) (l : Nat) (bits : BitVec 32) (share : List Nat) : State :=
  let k := s.lane l
  let e : Event :=
    { code := 0x10, object := l,
      data := leBytes 1 k.status ++ leBytes 1 k.cause ++ leBytes 4 bits.toNat ++ leBytes 6 0 }
  let s := s.sendEvent (lanePort l) 16 e
  if k.owner < 16 then s.sendEvent (lanePort l) k.owner e
  else if k.owner = 16 then share.foldl (fun s q => State.sendEvent s (lanePort l) q e) s
  else s

/-- LANE_STICKY bits are set; a new one sends a lane event (R245). `share`: who hears of it on a shared lane. -/
def State.laneStick (s : State) (l : Nat) (bits : BitVec 32) (share : List Nat := []) : State :=
  let new := bits &&& ~~~(s.lane l).sticky
  let s := s.updLane l fun k => { k with sticky := k.sticky ||| bits }
  if new = 0 then s else s.laneEvent l new share

def lsBadConfig : BitVec 32 := 0x8000#32
def lsLos : BitVec 32 := 0x4000#32
def lsCdr : BitVec 32 := 0x2000#32
def lsAlign : BitVec 32 := 0x1000#32
def lsHiBer : BitVec 32 := 0x800#32
def lsRemote : BitVec 32 := 0x400#32
def lsEqLimit : BitVec 32 := 0x200#32
def lsFecUncorr : BitVec 32 := 0x100#32
def lsSilent : BitVec 32 := 0x80#32
def lsRxDrop : BitVec 32 := 0x40#32
def lsTxAbort : BitVec 32 := 0x20#32
def lsSeqGap : BitVec 32 := 0x10#32
def lsMsecFail : BitVec 32 := 0x8#32
def lsPnWarn : BitVec 32 := 0x4#32
def lsPnExh : BitVec 32 := 0x2#32

/-- Lane counter `j` rises by `n`. -/
def State.laneCount (s : State) (l j : Nat) (n : Nat := 1) : State :=
  s.updLane l fun k => { k with cnt := tset 0 k.cnt j (tget 0 k.cnt j + BitVec.ofNat 32 n) }

/-- A received frame is counted in one of the frame counters of Table 07-9 (R540). -/
def State.rxCount (s : State) (l j : Nat) : State :=
  let s := s.laneCount l j
  let drop := (decide (1 ≤ j) && decide (j ≤ 6)) || j == 8 || decide (16 ≤ j)
  if drop then s.laneStick l (lsRxDrop ||| (if 16 ≤ j then lsMsecFail else 0)) else s

/-- A sent frame was aborted or discarded, of a stream of partition `q` (R245). -/
def State.txAbort (s : State) (l q : Nat) : State := (s.laneCount l 12).laneStick l lsTxAbort (if q < 16 then [q] else [])

/-- A STREAM event (Table 11-10): sticky bits, kind, gap cells. -/
def State.streamEvent (s : State) (k : Nat) (bits : BitVec 32) (kind gap : Nat) : State :=
  s.tellOwner (lanePort (s.stream k).lane) (s.stream k).owner
    { code := 0x11, status := if bits.getLsbD 0 then stMarkLost else stOk, object := k,
      data := leBytes 4 bits.toNat ++ leBytes 1 kind ++ leBytes 4 gap ++ leBytes 3 0 }

/-- STR_STICKY bits are set; a new one sends the owner an event (R249). -/
def State.streamStick (s : State) (k : Nat) (bits : BitVec 32) : State :=
  let new := bits &&& ~~~(s.stream k).sticky
  let s := s.updStream k fun x => { x with sticky := x.sticky ||| bits }
  if new = 0 then s else s.streamEvent k new 0 0

def ssCtBad : BitVec 32 := 0x40#32
def ssRefillPoison : BitVec 32 := 0x20#32
def ssCarafeFull : BitVec 32 := 0x10#32
def ssQuota : BitVec 32 := 0x8#32
def ssOverrun : BitVec 32 := 0x4#32
def ssDrop : BitVec 32 := 0x2#32
def ssMarkLost : BitVec 32 := 0x1#32

def State.streamCount (s : State) (k j : Nat) (n : Nat := 1) : State :=
  s.updStream k fun x => { x with cnt := tset 0 x.cnt j (tget 0 x.cnt j + BitVec.ofNat 32 n) }

/-! ## Quotas (R253, R263) -/

def State.quotaOf (s : State) (q : Nat) : Nat := tget 0 s.alloc.quota q
/-- USED_q: cells whose record OWNER is q. -/
def State.usedCells (s : State) (q : Nat) : Nat := (s.cells.filter fun e => e.2.owner == q).length
/-- RESV_q: cells reserved for the credit of q's MLF ingress streams. -/
def State.resvCells (s : State) (q : Nat) : Nat :=
  s.streams.foldl (fun n e =>
    if e.2.owner = q ∧ !e.2.egress ∧ e.2.mlf ∧ (e.2.state = 1 ∨ e.2.state = 2) then n + e.2.out.toNat else n) 0

/-- A cell may be taken for q. -/
def State.quotaLeft (s : State) (q : Nat) : Bool := decide (s.usedCells q + s.resvCells q < s.quotaOf q)

/-- A free cell: which one, the specification leaves to the allocator, but that it spreads successive cells of a stream over
different banks (R251): while another bank than that of `last`, the stream's cell before it, has a free cell, it is there. -/
def State.freeCell (s : State) (last : Option Nat) : Nat × State :=
  let (n, s) := s.draw
  let start := Sys2Proof.Config.free n % 98304
  let all := ((List.range 98304).map fun i => (start + i) % 98304).filter fun c => decide (31 ≤ (tget {} s.cells c).owner)
  (((all.find? fun c => last.map (· / 1024) != some (c / 1024)).or all.head?).getD start, s)

def State.setCell (s : State) (c : Nat) (k : Cell) : State := { s with cells := tset {} s.cells c k }

/-- The cells' records are freed. -/
def State.freeCells (s : State) (cs : List Nat) : State := cs.foldl (fun s c => State.setCell s c {}) s

/-- Data written into a cell, whole words with correct codes, or poisoned. -/
def State.fillCell (s : State) (c : Nat) (bs : List Byte) (poison : Bool) : State :=
  let pad := bs ++ List.replicate ((4 - bs.length % 4) % 4) 0
  s.writeWords (cellBase c) (wordsOf pad (pad.length / 4)) poison

/-! ## Flags of streams (R260) -/

/-- Visible unread cells of an ingress stream, available credit of an egress stream. -/
def Stream.level (x : Stream) : Nat := if x.egress then x.avail else x.vpos - x.rpos

/-- A flag set starts toward the stream's task. -/
def State.raiseStreamFlag (s : State) (k : Nat) : State :=
  let x := s.stream k
  s.sendFlag x.taskNo x.flag x.owner 3

/-- After a change: the flag is raised when the level has risen from below SIG_CELLS to it; a closing stream feeds no
flag (R276). -/
def State.streamTouch (s : State) (k : Nat) (before : Nat) : State :=
  let x := s.stream k
  if x.sigCells ≠ 0 ∧ (x.state = 1 ∨ x.state = 2) ∧ before < x.sigCells ∧ x.sigCells ≤ x.level
  then s.raiseStreamFlag k else s

/-! ## Positions -/

/-- The record of the cell that holds a position of an ingress stream. -/
def State.posCell (s : State) (x : Stream) (p : Nat) : Cell :=
  if p < x.spos then tget {} s.cells (x.chip.getD (p - x.mpos) 0) else (x.far.getD (p - x.spos) {}).info

/-- First position of the packet that contains `p`, not below mpos. -/
def State.packetStart (s : State) (x : Stream) (p : Nat) : Nat → Nat
  | 0 => p
  | fuel + 1 => if p ≤ x.mpos ∨ x.wpos ≤ p ∨ (s.posCell x p).sop then p else s.packetStart x (p - 1) fuel

/-- The position after the last cell of the packet that starts at `p`; `none`: its last cell is not placed. -/
def State.packetEnd (s : State) (x : Stream) (p : Nat) : Nat → Option Nat
  | 0 => none
  | fuel + 1 =>
    if x.wpos ≤ p then none else if (s.posCell x p).eop then some (p + 1) else s.packetEnd x (p + 1) fuel

/-- mpos moves to `t`, which lies on chip; the cells before it are released and freed (R254). -/
def State.release (s : State) (k t : Nat) : State :=
  let x := s.stream k
  let n := t - x.mpos
  (s.setStream k { x with mpos := t, chip := x.chip.drop n }).freeCells (x.chip.take n)

/-- Where the mark goes for a target position (R269). -/
def State.markTarget (s : State) (x : Stream) (t : Nat) : Nat :=
  let t := max x.mpos (min t x.rpos)
  if t = x.wpos ∨ t = x.mpos then t else s.packetStart x t (t - x.mpos)

/-- In AUTO mode the mark follows rpos at packet starts (R270). -/
def State.autoMark (s : State) (k : Nat) : State :=
  let x := s.stream k
  if x.auto ∧ (x.rpos = x.wpos ∨ (s.posCell x x.rpos).sop) then s.release k x.rpos else s

/-- rpos passes positions up to `t`. -/
def State.readTo (s : State) (k t : Nat) : State := (s.updStream k fun x => { x with rpos := max x.rpos t }).autoMark k

/-! ## Placement (R255, R266) -/

/-- The stream's next cell is placed on chip. -/
def Stream.onChip (x : Stream) : Bool := x.spos == x.wpos && decide (x.wpos - x.mpos < x.ring)

/-- What stops the next cell (R255): 0 nothing, 1 room on chip without a Carafe, 2 a full Carafe, 3 the quota. -/
def State.noRoom (s : State) (k : Nat) : Nat :=
  let x := s.stream k
  if !x.onChip ∧ x.carafe ≤ x.wpos - x.spos then (if x.carafe = 0 then 1 else 2)
  else if !x.mlf ∧ !s.quotaLeft x.owner then 3
  else 0

/-- The cells of a frame's data, 256 bytes each. -/
def chunks (bs : List Byte) : Nat → List (List Byte)
  | 0 => []
  | n + 1 => bs.take 256 :: chunks (bs.drop 256) n

def cellCount (n : Nat) : Nat := (n + 255) / 256

/-- The cell that holds the stream's last placed position. -/
def Stream.lastCell (x : Stream) : Option Nat :=
  match x.far.getLast? with
  | some f => f.cell
  | none => x.chip.getLast?

/-- One cell is placed at wpos (R255). -/
def State.placeCell (s : State) (k : Nat) (info : Cell) (bs : List Byte) : State :=
  let x := s.stream k
  let (c, s) := s.freeCell (x.lastCell)
  let s := (s.setCell c info).fillCell c bs info.poison
  if x.onChip then
    s.setStream k { x with wpos := x.wpos + 1, spos := x.wpos + 1, chip := x.chip ++ [c] }
  else s.setStream k { x with wpos := x.wpos + 1, far := x.far ++ [{ info := info, cell := some c }] }

/-- The cells of a packet with their records; `bad`: the packet ends damaged (R257). -/
def packetCells (base : Cell) (bs : List Byte) (bad : Bool) : List (Cell × List Byte) :=
  let n := cellCount bs.length
  (chunks bs n).zipIdx.map fun (b, i) =>
    ({ base with len := b.length, sop := i == 0, eop := i + 1 == n, bad := bad && i + 1 == n, ts := if i = 0 then base.ts else 0 }, b)

/-- The placed cells of a packet become visible (R256); `before`: the level before. -/
def State.showPacket (s : State) (k n before : Nat) : State :=
  let s := (s.updStream k fun x => { x with vpos := x.wpos }).streamCount k 0
  (s.streamCount k 1 n).streamTouch k before

/-- All cells of a packet under credit are placed and become visible (R255, R256). -/
def State.placePacket (s : State) (k : Nat) (base : Cell) (bs : List Byte) (bad : Bool) : State :=
  let cs := packetCells base bs bad
  (cs.foldl (fun s c => State.placeCell s k c.1 c.2) s).showPacket k cs.length (s.stream k).level

/-- Under YIELD the oldest held packet, if read whole, is released (R266). -/
def State.yieldOne (s : State) (k : Nat) : Option State :=
  let x := s.stream k
  match s.packetEnd x x.mpos (x.rpos - x.mpos) with
  | some e =>
    if e ≤ x.rpos then
      let n := e - x.mpos
      let s := (s.release k e).streamCount k 4 n
      let s := s.updStream k fun x => x.setMark false
      some (if x.markValid then s.streamStick k ssMarkLost else s)
    else none
  | none => none

/-- Room is made under YIELD until the next cell can be placed or no read packet is left: what stops it then, and the state. -/
def State.yieldRoom (s : State) (k : Nat) : Nat → Nat × State
  | 0 => (s.noRoom k, s)
  | fuel + 1 =>
    if s.noRoom k = 0 ∨ !(s.stream k).yields then (s.noRoom k, s)
    else match s.yieldOne k with
      | some s => s.yieldRoom k fuel
      | none => (s.noRoom k, s)

/-- Cells are placed one after another (R255, R266): what stopped one of them, 0 if nothing did. -/
def State.placeCells (s : State) (k : Nat) : List (Cell × List Byte) → Nat × State
  | [] => (0, s)
  | c :: r =>
    let (why, s) := s.yieldRoom k ((s.stream k).rpos - (s.stream k).mpos)
    if why = 0 then (s.placeCell k c.1 c.2).placeCells k r else (why, s)

/-- The cells of a frame that is dropped are freed, and wpos returns to its first position `w` (R255). -/
def State.unplace (s : State) (k w : Nat) : State :=
  let x := s.stream k
  let keep := w - x.mpos
  let keepFar := w - x.spos
  let s := s.setStream k { x with wpos := w, spos := min x.spos w, chip := x.chip.take keep, far := x.far.take keepFar }
  s.freeCells (x.chip.drop keep ++ (x.far.drop keepFar).flatMap fun (f : FarCell) => f.cell.toList)

/-- A frame without credit is placed, or dropped whole (R266). -/
def State.placeOrDrop (s : State) (k : Nat) (base : Cell) (bs : List Byte) : State :=
  let cs := packetCells base bs false
  let w := (s.stream k).wpos
  let before := (s.stream k).level
  let (why, s) := s.placeCells k cs
  if why = 0 then s.showPacket k cs.length before
  else
    let s := s.unplace k w
    let q := (s.stream k).owner
    let s := s.streamCount k 2
    let s := if why = 3 then { s with alloc := { s.alloc with drops := tset 0 s.alloc.drops q (tget 0 s.alloc.drops q + 1) } } else s
    s.streamStick k (ssDrop ||| (if why = 3 then ssQuota else if why = 2 then ssCarafeFull else 0))

end Sys2Proof.Machine
end

