-- ==== Sys2Proof/Machine/Lanes.lean ====
section
/-!
DEFINITION. Machine/Lanes.lean: lanes (chapter 07): configuration and states, received frames, frames sent, priority
flow control, MLF sequences and credit records, the time unit, with their commands.
-/
namespace Sys2Proof.Machine

/-! ## The time unit (R239 to R242) -/

/-- The counter after `n` nanoseconds more, of either sign. -/
def TimeUnit.shift (t : TimeUnit) (n : Int) : TimeUnit :=
  let total : Int := (t.sec : Int) * 10 ^ 9 + t.ns + n
  { t with sec := ((total / 10 ^ 9) % 2 ^ 48).toNat, ns := (total % 10 ^ 9).toNat }

/-- An operation takes effect. -/
def TimeUnit.apply (t : TimeUnit) : TimeOp → TimeUnit
  | .load sec ns => { t with sec := sec % 2 ^ 48, ns := ns % 2 ^ 30, frac := 0 }
  | .adjust n => t.shift n
  | .incr w => { t with incr := w }

/-- One TIME cycle: TIME_INCR is added, then the waiting operations apply in order. -/
def TimeUnit.cycle (t : TimeUnit) : TimeUnit :=
  if !t.locked then t
  else
    let f := t.frac + t.incr.toNat % 2 ^ 24
    let t' := ({ t with frac := f % 2 ^ 24 } : TimeUnit).shift ((t.incr.toNat / 2 ^ 24 + f / 2 ^ 24 : Nat) : Int)
    { (t.ops.foldl TimeUnit.apply t') with ops := [] }

/-- A 16-bit field as a signed number. -/
def signed16 (n : Nat) : Int := (BitVec.ofNat 16 n).toInt

/-- The two timestamp words for a correction in 1/16 ns (R241, R242): word 0 + 2^32 × word 1; 0 while TIME is not
locked (R240). -/
def State.stamp (s : State) (corr : Int) : Nat :=
  if !s.time.locked then 0 else
  let x : Int := ((s.time.sec : Int) * 10 ^ 9 + s.time.ns) * 16 + s.time.frac / 2 ^ 20 + corr
  let ns := (x / 16 % 10 ^ 9).toNat
  let quarter := (x % 16).toNat / 4
  let sec := (x / 16 / 10 ^ 9 % 2 ^ 32).toNat
  quarter * 2 ^ 30 + ns + 2 ^ 32 * sec

def State.updTime (s : State) (f : TimeUnit → TimeUnit) : State := { s with time := f s.time }

/-- TIME_NS_READ (R239): returns the nanoseconds and latches the seconds registers. -/
def execTimeNsRead (s : State) : Host.Outcome State Fault Refusal :=
  .next { (s.updTime fun t => { t with latchLo := BitVec.ofNat 32 t.sec, latchHi := BitVec.ofNat 32 (t.sec / 2 ^ 32) }) with
    readOut := leBytes 4 s.time.ns }

/-- TIME_ADJ_WRITE (R239): the adjustment waits for the next TIME cycle. -/
def execTimeAdjWrite (w : Word) (s : State) : Host.Outcome State Fault Refusal :=
  .next (s.updTime fun t => { t with ops := t.ops ++ [.adjust w.toInt] })

/-- LOAD_SEC_HI_WRITE (R239): the staged value waits for the next TIME cycle. -/
def execLoadSecHiWrite (w : Word) (s : State) : Host.Outcome State Fault Refusal :=
  .next (s.updTime fun t =>
    { t with ops := t.ops ++ [.load (w.toNat % 2 ^ 16 * 2 ^ 32 + t.loadLo.toNat) (t.loadNs.toNat % 2 ^ 30)] })

/-- PPS_EDGE (R239, R240): the counter is captured, as 0 while TIME is not locked, and the platform owner told. -/
def execPpsEdge (s : State) : Host.Outcome State Fault Refusal :=
  let ns := if s.time.locked then s.time.ns else 0
  let sec := if s.time.locked then s.time.sec % 2 ^ 32 else 0
  .next ((s.updTime fun t => { t with ppsNs := ns, ppsSec := sec, ppsNew := true }).raiseEvent 16
    { code := 0x30, data := leBytes 4 ns ++ leBytes 4 sec ++ leBytes 4 0 })

/-- PPS_STATUS_READ (R239). -/
def execPpsStatusRead (s : State) : Host.Outcome State Fault Refusal :=
  .next { (s.updTime fun t => { t with ppsNew := false }) with readOut := leBytes 4 (bit s.time.ppsNew) }

/-- TIME_PLL_LOCK (R240): the counter starts; pending operations apply at the first TIME cycle. -/
def execTimePllLock (s : State) : Host.Outcome State Fault Refusal := .next (s.updTime fun t => { t with locked := true })

/-- TIME_PLL_LOSS (R240): the counter holds its value. -/
def execTimePllLoss (s : State) : Host.Outcome State Fault Refusal := .next (s.updTime fun t => { t with locked := false })

/-! ## Configuration (R211, R218, R219) -/

/-- FEC permitted for a MODE (Table 07-1). -/
def fecPermitted (mode fec : Nat) : Bool :=
  if mode = 0 then true
  else if mode = 1 then fec == 0
  else if mode = 2 then decide (fec < 2)
  else if mode = 3 then decide (fec < 3)
  else if mode < 7 then fec == 3
  else false

/-- A six-bit field as a signed number. -/
def signed6 (n : Nat) : Int := (BitVec.ofNat 6 n).toInt

/-- The cursor sum of EQ_TX is at most 64 (R219). -/
def cursorsOk (w : Word) : Bool :=
  let v := w.toNat
  decide ((signed6 (field v 24 6)).natAbs + (signed6 (field v 16 6)).natAbs + field v 8 7 + (signed6 (field v 0 6)).natAbs ≤ 64)

def Lane.valid (k : Lane) : Bool := fecPermitted k.mode k.fec && cursorsOk k.eqTx

/-- A lane that starts from WAIT_SIGNAL takes the presets and windows as written (R218, R220). -/
def Lane.restart (k : Lane) : Lane :=
  { k with status := 2, actTx := k.eqTx, actRx := k.eqRx, actA := k.dfeA, actB := k.dfeB, actWin := k.win,
           nowRx := k.eqRx, nowA := k.dfeA, nowB := k.dfeB }

/-- The frame being sent ends with an error (R223): it counts in TX_ABORT, and a bypassed packet may be framed again. -/
def State.abortTx (s : State) (l : Nat) : State :=
  match (s.lane l).tx with
  | none => s
  | some f =>
    let s := s.updLane l fun k => { k with tx := none }
    let s := match f.bypass with
      | some (k, n) => if n = 0 then s else s.updStream k fun x => { x with bypBusy := false }
      | none => s
    s.txAbort l ((f.stream.map fun k => (s.stream k).owner).getD 31)

/-- The lane leaves UP for another state (R222, R223), with the sticky bit of the cause. -/
def State.leaveUp (s : State) (l st cause : Nat) (bits : BitVec 32) : State :=
  let s := s.abortTx l
  let new := bits &&& ~~~(s.lane l).sticky
  (s.updLane l fun k => { k with status := st, cause := cause, paused := 0, sticky := k.sticky ||| bits }).laneEvent l new
    (s.lanePartitions l)

/-- The lane goes where its configuration sends it: OFF, CONFIG_ERR, or WAIT_SIGNAL afresh (R211, R215, R222). -/
def State.settleLane (s : State) (l : Nat) (restart : Bool) : State :=
  let k := s.lane l
  let dest := if k.owner = 31 ∨ k.mode = 0 then 0
    else if restart ∨ k.status < 2 then (if k.valid then 2 else 1) else k.status
  let s := if k.up ∧ (dest ≠ 5 ∨ restart) then s.leaveUp l dest 6 0 else s
  let s := s.updLane l fun k => if dest = 2 ∧ (restart ∨ k.status < 2) then k.restart else { k with status := dest }
  let loopBad := field k.ctrl.toNat 8 2 == 3
  if dest = 1 ∨ loopBad then s.laneStick l lsBadConfig else s

/-- LANE_CTRL is written (R218). -/
def State.setLaneCtrl (s : State) (l : Nat) (w : Word) : State :=
  let k := s.lane l
  let w := w &&& 0x1F0FFF00#32
  let mask := 0x000FEF00#32
  let restart := (k.ctrl ^^^ w) &&& mask != 0 && k.status != 0
  (s.updLane l fun k => { k with ctrl := w }).settleLane l restart

/-- LANE_CTRL_WRITE (R218). -/
def execLaneCtrlWrite (l : LaneIx) (w : Word) (s : State) : Host.Outcome State Fault Refusal :=
  .next (s.setLaneCtrl l w)

/-- Fields of the preset, window and auxiliary registers that hold their bits (Tables 07-4, 07-6). -/
def eqTxMask : Word := 0x3F3F7F3F
def eqRxMask : Word := 0x1F1F0000
def winMask : Word := 0x00071FFF
def auxMask : Word := 0x3FFFFFE0

/-! ## States (R222) -/

/-- LANE_SIGNAL_PRESENT: WAIT_SIGNAL to LOCKING. -/
def execLaneSignalPresent (l : LaneIx) (s : State) : Host.Outcome State Fault Refusal :=
  .next (if (s.lane l).status = 2 then s.updLane l fun k => { k with status := 3 } else s)

/-- The lane starts again from WAIT_SIGNAL, where a preset written since then takes effect; one whose cursors sum above 64
puts it in CONFIG_ERR (R218, R219). -/
def State.restartLane (s : State) (l : Nat) : State :=
  if (s.lane l).valid then s.updLane l Lane.restart
  else (s.updLane l fun k => { k with status := 1 }).laneStick l lsBadConfig

/-- LANE_SIGNAL_LOST: any state of a running lane to WAIT_SIGNAL; a lane in UP records LOS. -/
def execLaneSignalLost (l : LaneIx) (s : State) : Host.Outcome State Fault Refusal :=
  let k := s.lane l
  .next (if k.status < 2 then s
    else (if k.up then s.leaveUp l 2 1 lsLos else s).restartLane l)

/-- LANE_LOCKED: LOCKING to ALIGNING. -/
def execLaneLocked (l : LaneIx) (s : State) : Host.Outcome State Fault Refusal :=
  .next (if (s.lane l).status = 3 then s.updLane l fun k => { k with status := 4, remote := false } else s)

/-- Big-endian bytes of a number. -/
def beBytes (n v : Nat) : List Byte := (leBytes n v).reverse

/-- A lane's source address on the wire. -/
def Lane.mac (k : Lane) : List Byte := leBytes 6 (k.macHi.toNat % 2 ^ 16 * 2 ^ 32 + k.macLo.toNat)

/-- A frame padded to the Ethernet minimum. -/
def pad60 (b : List Byte) : List Byte := b ++ List.replicate (60 - b.length) 0

/-- A PFC frame: the classes of `m` with QUANTA for those in XOFF and 0 for the others (R236, R237). -/
def Lane.pfcFrame (k : Lane) (m : BitVec 8) : TxFrame :=
  let time (c : Nat) : List Byte := if m.getLsbD c ∧ k.xoff.getLsbD c then beBytes 2 (k.pfcCfg.toNat % 65536) else beBytes 2 0
  { kind := 0
    bytes := pad60 (beBytes 6 0x0180C2000001 ++ k.mac ++ beBytes 2 0x8808 ++ beBytes 2 0x0101 ++ beBytes 2 m.toNat
      ++ (List.range 8).flatMap time) }

/-- A frame starts on a free wire. -/
def State.startTx (s : State) (l : Nat) (f : TxFrame) : State := s.updLane l fun k => { k with tx := some f }

/-- The classes of the PFC frame that is due: with a QUANTA of zero no XOFF is sent (Table 07-4). -/
def Lane.pfcOwed (k : Lane) : BitVec 8 := if k.pfcCfg.toNat % 65536 = 0 then k.pfcDue &&& ~~~k.xoff else k.pfcDue

/-- The PFC frame that is due starts (R226), without MACsec (R236). -/
def State.startPfc (s : State) (l : Nat) : State :=
  let k := s.lane l
  if k.up ∧ k.tx.isNone ∧ k.pfcOwed ≠ 0 then
    ((s.startTx l (k.pfcFrame k.pfcOwed)).updLane l fun k => { k with pfcDue := 0 }).laneCount l 15
  else s

/-- The lane enters UP, restates the classes in XOFF_SENT and reports (R223, R245). -/
def State.enterUp (s : State) (l : Nat) : State :=
  let s := s.updLane l fun k => { k with status := 5, remote := false, pfcDue := k.pfcDue ||| k.xoff }
  (s.laneEvent l 0 (s.lanePartitions l)).startPfc l

/-- The bounds that adaptation keeps an element within (R220): 0 CTLE, 1 VGA, 2 to 9 the DFE taps, around the preset and
saturated at the element's own range. -/
def Lane.bounds (k : Lane) (e : Nat) : Int × Int :=
  let code (p d : Nat) : Int × Int := (max 0 ((p : Int) - d), min 31 (p + d : Nat))
  let tap (w : Word) (t : Nat) : Int × Int :=
    let p := (BitVec.ofNat 8 (field w.toNat (8 * t) 8)).toInt
    let d : Int := min 127 (field k.actWin.toNat 0 8 : Nat)
    (max (-128) (p - d), min 127 (p + d))
  if e = 0 then code (field k.actRx.toNat 24 5) (field k.actWin.toNat 16 3)
  else if e = 1 then code (field k.actRx.toNat 16 5) (field k.actWin.toNat 8 5)
  else if e < 6 then tap k.actA (e - 2)
  else tap k.actB (e - 6)

/-- The current code of an element. -/
def Lane.setCode (k : Lane) (e : Nat) (v : Int) : Lane :=
  let put (w : Word) (lo n : Nat) : Word :=
    (w &&& ~~~(BitVec.ofNat 32 ((2 ^ n - 1) * 2 ^ lo))) ||| BitVec.ofNat 32 ((v % 2 ^ n).toNat * 2 ^ lo)
  if e = 0 then { k with nowRx := put k.nowRx 24 5 }
  else if e = 1 then { k with nowRx := put k.nowRx 16 5 }
  else if e < 6 then { k with nowA := put k.nowA (8 * (e - 2)) 8 }
  else { k with nowB := put k.nowB (8 * (e - 6)) 8 }

/-- Adaptation has moved the codes (R220): where to within their windows is a free value. -/
def State.adapt (s : State) (l : Nat) : State :=
  let (n, s) := s.draw
  s.updLane l fun k => (List.range 10).foldl (fun (y : Lane) e =>
    let b := k.bounds e
    y.setCode e (b.1 + (Sys2Proof.Config.free n / 2 ^ (16 * e) % (b.2 - b.1 + 1).toNat : Nat))) k

/-- LANE_UP: ALIGNING to UP; not while the partner signals remote fault. -/
def execLaneUp (l : LaneIx) (s : State) : Host.Outcome State Fault Refusal :=
  .next (if (s.lane l).status = 4 ∧ !(s.lane l).remote then (s.adapt l).enterUp l else s)

/-- CDR_LOSS: UP to LOCKING. -/
def execCdrLoss (l : LaneIx) (s : State) : Host.Outcome State Fault Refusal :=
  .next (if (s.lane l).up then s.leaveUp l 3 2 lsCdr else s)

/-- ALIGN_LOSS: UP to ALIGNING. -/
def execAlignLoss (l : LaneIx) (s : State) : Host.Outcome State Fault Refusal :=
  .next (if (s.lane l).up then s.leaveUp l 4 3 lsAlign else s)

/-- HI_BER: UP to ALIGNING. -/
def execHiBer (l : LaneIx) (s : State) : Host.Outcome State Fault Refusal :=
  .next (if (s.lane l).up then s.leaveUp l 4 4 lsHiBer else s)

/-- REMOTE_FAULT: UP to ALIGNING while the partner signals it. -/
def execRemoteFault (l : LaneIx) (s : State) : Host.Outcome State Fault Refusal :=
  .next (if (s.lane l).up then (s.leaveUp l 4 5 lsRemote).updLane l fun k => { k with remote := true } else s)

/-- REMOTE_FAULT_END: the lane returns to UP. -/
def execRemoteFaultEnd (l : LaneIx) (s : State) : Host.Outcome State Fault Refusal :=
  .next (if (s.lane l).status = 4 ∧ (s.lane l).remote then s.enterUp l else s)

/-- EQ_LIMIT (R220): adaptation asks for more than a window: the element (0 CTLE, 1 VGA, 2 to 9 DFE taps 1 to 8) stays
at its edge, saturated at its own range. -/
def execEqLimit (l : LaneIx) (e : Fin 10) (up : Bool) (s : State) : Host.Outcome State Fault Refusal :=
  let k := s.lane l
  let b := k.bounds e
  .next (if 3 ≤ k.status then (s.setLane l (k.setCode e (if up then b.2 else b.1))).laneStick l lsEqLimit else s)

/-- FEC_CODEWORD (R212, Table 07-9): a codeword that needed correction is corrected or found uncorrectable. -/
def execFecCodeword (l : LaneIx) (ok : Bool) (s : State) : Host.Outcome State Fault Refusal :=
  .next (if (s.lane l).status < 4 ∨ (s.lane l).fec = 0 then s
    else if ok then s.laneCount l 9 else (s.laneCount l 10).laneStick l lsFecUncorr)

/-! ## Received frames -/

/-- Big-endian number of bytes. -/
def beNat (b : List Byte) : Nat := leNat b.reverse

/-- EtherType after an optional first VLAN tag, the bytes after it, and the tag. -/
def etherParse (b : List Byte) : Nat × List Byte × Option Nat :=
  let t := beNat ((b.drop 12).take 2)
  if t = 0x8100 ∨ t = 0x88A8 then (beNat ((b.drop 16).take 2), b.drop 18, some (beNat ((b.drop 14).take 2)))
  else (t, b.drop 14, none)

/-- The receive association a SecTAG names, and its key in the association table (R243). -/
def Lane.rxSa (k : Lane) (t : SecTag) : Option (Nat × Sa) :=
  match t.sci with
  | none => none
  | some sci =>
    ((List.range 4).find? fun r => k.msecCtrl.getLsbD (4 + r)
        && (tget 0 k.rxSci (2 * r)).toNat + (tget 0 k.rxSci (2 * r + 1)).toNat * 2 ^ 32 == sci.toNat).bind fun r =>
      (tget none k.sa (4 * r + 4 + t.an)).map fun a => (4 * r + 4 + t.an.val, a)

/-- MACsec's verdict on a received frame (R243, R540): the counter, or 100 when it passes. -/
def Lane.secJudge (k : Lane) (f : RxFrame) : Nat :=
  match f.sec with
  | none => 19
  | some t =>
    if !t.enc then 18
    else match k.rxSa t with
    | none => 18
    | some (_, a) => if t.pn.toNat + k.replayWin.toNat % 2 ^ 30 < a.pn then 17 else if t.icv then 100 else 16

/-- A MAC control frame, which carries no VLAN tag: its opcode and the bytes after it. -/
def macControl (b : List Byte) : Option (Nat × List Byte) :=
  if beNat ((b.drop 12).take 2) = 0x8808 then some (beNat ((b.drop 14).take 2), b.drop 16) else none

/-- A PFC frame (R236): destination 01-80-C2-00-00-01, EtherType 0x8808, opcode 0x0101: the bytes after the opcode. -/
def pfcBody (b : List Byte) : Option (List Byte) :=
  match macControl b with
  | some (0x0101, r) => if beNat (b.take 6) = 0x0180C2000001 then some r else none
  | _ => none

/-- The lane's own checks of a frame, in the order of R540: the counter, or 100 when it passes. -/
def Lane.judge (k : Lane) (f : RxFrame) : Nat :=
  let sec := k.macsec && (macControl f.bytes).isNone
  if f.cut then 2
  else if k.maxFrame < f.bytes.length + 4 + (if f.sec.isSome ∧ sec then 32 else 0) then 3
  else if !f.fcs then 1
  else if sec then k.secJudge f else 100

/-- An accepted MACsec frame moves its association's packet number on. -/
def Lane.secAccept (k : Lane) (f : RxFrame) : Lane :=
  match f.sec with
  | some t => match k.rxSa t with
    | some (i, a) => if k.macsec then { k with sa := tset none k.sa i (some { a with pn := max a.pn (t.pn.toNat + 1) }) } else k
    | none => k
  | none => k

/-! ## MLF -/

/-- The fields of an MLF header (Table 07-10). -/
structure MlfHeader where
  version : Nat
  type : Nat
  crv : Bool
  rsp : Bool
  stream : Nat
  seq : Nat
  crStream : Nat
  crTotal : Nat
  len : Nat
  deriving DecidableEq, Repr

def mlfHeader (b : List Byte) : MlfHeader :=
  let v := beNat (b.take 16)
  { version := field v 124 4, type := field v 120 4, crv := v.testBit 119, rsp := v.testBit 118, stream := field v 96 13
    seq := field v 64 32, crStream := field v 48 13, crTotal := field v 32 16, len := field v 16 16 }

/-- The header's bytes. -/
def MlfHeader.bytes (h : MlfHeader) : List Byte :=
  beBytes 16 (h.version * 2 ^ 124 + h.type * 2 ^ 120 + bit h.crv * 2 ^ 119 + bit h.rsp * 2 ^ 118 + h.stream * 2 ^ 96
    + h.seq % 2 ^ 32 * 2 ^ 64 + h.crStream * 2 ^ 48 + h.crTotal % 2 ^ 16 * 2 ^ 32 + h.len * 2 ^ 16)

/-- PAYLOAD_LEN is permitted for the TYPE (Table 07-11). -/
def MlfHeader.lenOk (h : MlfHeader) (maxFrame : Nat) : Bool :=
  if h.type = 1 then h.len % 4 == 0 && decide (4 ≤ h.len) && decide (h.len + 34 ≤ maxFrame)
  else if h.type = 2 then h.len % 4 == 0 && decide (h.len ≤ 256)
  else if h.type = 3 then h.len % 8 == 0 && decide (8 ≤ h.len) && decide (h.len ≤ 512)
  else if h.type = 4 then
    let n := if h.rsp then 32 else 64
    decide (4 + n ≤ h.len) && (h.len - 4) % n == 0 && decide (h.len ≤ 4 + 16 * n)
  else false

/-- A stream is bound to the lane and its partner, and its owner allowed there (R230). -/
def State.boundHere (s : State) (l k : Nat) : Bool :=
  let x := s.stream k
  x.state != 0 && x.lane == l && s.partnerOf l == some x.partner && s.laneAllows l x.owner

/-- A credit record (R229, R230). -/
def State.creditRecord (s : State) (l k total : Nat) : State :=
  let x := s.stream k
  if s.boundHere l k ∧ x.egress ∧ x.state = 1 then
    let d := (total + 65536 - x.crTotal % 65536) % 65536
    if 1 ≤ d ∧ d < 32768 then (s.updStream k fun x => { x with crTotal := x.crTotal + d }).streamTouch k x.level else s
  else s.laneCount l 4

/-- `d` cells are missing from a stream's sequence (R228). -/
def State.seqGap (s : State) (l k d : Nat) : State :=
  let s := (s.laneCount l 7 d).laneStick l lsSeqGap [(s.stream k).owner]
  let s := s.updStream k fun x => { x with seqNext := x.seqNext + d }
  s.streamEvent k 0 2 d

/-- The sequence difference of R228. -/
def Stream.seqDiff (x : Stream) (v : Nat) : Nat := (v + 2 ^ 32 - x.seqNext % 2 ^ 32) % 2 ^ 32

/-- A control record (R227, R228, R230, R232). -/
def State.controlRecord (s : State) (l : Nat) (v : Nat) : State :=
  let op := field v 56 8
  let k := field v 32 13
  let x := s.stream k
  if op = 1 then s
  else if op = 2 then
    if s.boundHere l k ∧ !x.egress ∧ (x.state = 1 ∨ x.state = 2) then
      let d := x.seqDiff (v % 2 ^ 32)
      if d = 0 then s else if d < 2 ^ 31 then s.seqGap l k d else s.laneCount l 6
    else s.laneCount l 4
  else if op = 3 then
    if s.boundHere l k ∧ x.egress then s.streamEvent k 0 3 0 else s.laneCount l 4
  else s.laneCount l 4

/-- Payload cut into records of `n` bytes, big-endian numbers. -/
def recordsOf (n : Nat) (b : List Byte) : List Nat :=
  (List.range (b.length / n)).map fun i => beNat ((b.drop (n * i)).take n)

/-- A DATA frame's cells are counted as received; a frame beyond the credit is an overrun (R228, R265). -/
def State.chargeFrame (s : State) (k c : Nat) : State :=
  let beyond := decide ((s.stream k).out.toNat < c)
  let s := s.updStream k fun x => { x with seqNext := x.seqNext + c }
  if beyond then (s.streamCount k 3).streamStick k ssOverrun else s

/-- A DATA frame that has passed its lane's checks reaches its stream (R228, R231, R265). -/
def State.dataFrame (s : State) (l : Nat) (h : MlfHeader) (payload : List Byte) : State :=
  let k := h.stream
  let x := s.stream k
  if !(s.boundHere l k && !x.egress && (x.state == 1 || x.state == 2)) then s.rxCount l 5
  else
    let d := x.seqDiff h.seq
    if 2 ^ 31 ≤ d then s.rxCount l 6
    else
      let s := s.rxCount l 0
      let s := if d = 0 then s else s.seqGap l k d
      let c := cellCount payload.length
      let beyond := decide ((s.stream k).out.toNat < c)
      let s := s.chargeFrame k c
      if beyond then s
      else
        let base : Cell := { owner := x.owner, lane := l, ts := s.stamp (signed16 (s.lane l).tsCorr.toNat) }
        s.placePacket k base payload false

/-- A DATA frame cut short or failing its FCS (R223, R257, R265): under cut-through, cells that were already visible
stay and end damaged; a frame cut short counts its cells as received, and may be an overrun. DEDUCED (log entry 90): on a
MACsec lane the header of a cut frame is read under the association its SecTAG names, though its ICV is never seen. -/
def State.brokenData (s : State) (l : Nat) (f : RxFrame) (payload : List Byte) (h : MlfHeader) : State :=
  let k := h.stream
  let x := s.stream k
  let ok := (s.lane l).status == 5 && s.laneMlf l && h.version == 1 && h.type == 1 && h.lenOk (s.lane l).maxFrame
    && s.boundHere l k && !x.egress && (x.state == 1 || x.state == 2)
    && (!(s.lane l).macsec || (f.cut && f.sec.any fun t => ((s.lane l).rxSa t).isSome))
  let d := x.seqDiff h.seq
  let c := cellCount h.len
  let got := min h.len payload.length
  let placed := if got = h.len then c else got / 256
  let through := !(s.lane l).macsec ∧ x.ctCells ≠ 0 ∧ min x.ctCells c ≤ placed
  if !ok ∨ 2 ^ 31 ≤ d then s
  else if through ∧ 0 < placed ∧ c ≤ ((x.crTotal : Int) - (x.seqNext + d)).toNat then
    let s := if d = 0 then s else s.seqGap l k d
    let s := s.updStream k fun x => { x with seqNext := x.seqNext + c }
    let base : Cell := { owner := x.owner, lane := l, ts := s.stamp (signed16 (s.lane l).tsCorr.toNat) }
    (s.placePacket k base (payload.take (min got (256 * placed))) true).streamStick k ssCtBad
  else if f.cut then
    let s := if d = 0 then s else s.seqGap l k d
    s.chargeFrame k c
  else s

/-- An MLF frame (R227 to R233): the state after it, and for a COMMAND frame of an in-band host its payload. A COMMAND
payload whose n disagrees with its length is a length error, ahead of the question whose commands they are (R540). -/
def State.mlfFrame (s : State) (l : Nat) (f : RxFrame) : Option (List Byte) × State :=
  let (_, body, _) := etherParse f.bytes
  let h := mlfHeader body
  let rest := body.drop 16
  let j := (s.lane l).judge f
  if j ≠ 100 then (none, (s.rxCount l j).brokenData l f rest h)
  else
    let s := s.updLane l (Lane.secAccept · f)
    if !s.laneMlf l then (none, s.rxCount l 5)
    else if h.version ≠ 1 ∨ body.length < 16 then (none, s.rxCount l 4)
    else
      let s := if h.crv then s.creditRecord l h.crStream h.crTotal else s
      if !h.lenOk (s.lane l).maxFrame ∨ rest.length < h.len then (none, s.rxCount l 4)
      else
        let payload := rest.take h.len
        if h.type = 1 then (none, s.dataFrame l h payload)
        else if h.type = 2 then
          (none, (recordsOf 4 payload).foldl (fun s v => State.creditRecord s l (field v 16 13) (v % 65536)) (s.rxCount l 0))
        else if h.type = 3 then (none, (recordsOf 8 payload).foldl (fun s v => State.controlRecord s l v) (s.rxCount l 0))
        else if payload.length ≠ 4 + (if h.rsp then 32 else 64) * (payload.getD 1 0).toNat then (none, s.rxCount l 4)
        else
          let e := tget 0 s.partners ((s.partnerOf l).getD 0)
          if partnerIb e ∧ !h.rsp then (some payload, s) else (none, s.rxCount l 5)

/-- The lane accepts the frame, and it is an MLF frame of one of the types. -/
def State.mlfKind (s : State) (l : Nat) (f : RxFrame) (sel : Nat → Bool) : Bool :=
  let (t, body, _) := etherParse f.bytes
  (s.lane l).up && t == 0x88B5 && (s.laneMlf l || (s.partnerOf l).isNone) && sel (mlfHeader body).type

/-- MLF_DATA_RX (R227, R228, R231, R265): DATA frames, and frames of a reserved TYPE. -/
def execMlfDataRx (l : LaneIx) (f : RxFrame) (s : State) : Host.Outcome State Fault Refusal :=
  .next (if s.mlfKind l f fun t => t != 2 && t != 3 && t != 4 then (s.mlfFrame l f).2 else s)

/-- MLF_CREDIT_RX (R229, R230). -/
def execMlfCreditRx (l : LaneIx) (f : RxFrame) (s : State) : Host.Outcome State Fault Refusal :=
  .next (if s.mlfKind l f (· == 2) then (s.mlfFrame l f).2 else s)

/-- MLF_CONTROL_RX (R227, R230). -/
def execMlfControlRx (l : LaneIx) (f : RxFrame) (s : State) : Host.Outcome State Fault Refusal :=
  .next (if s.mlfKind l f (· == 3) then (s.mlfFrame l f).2 else s)

/-! ## Plain Ethernet (R234, R235) -/

def State.rule (s : State) (r i : Nat) : Word := tget (if i = 0 then 0x1F000000#32 else 0) s.rules (8 * r + i)

/-- A classifier rule matches a frame (R234). -/
def State.ruleMatches (s : State) (r l owner : Nat) (b : List Byte) : Bool :=
  let w0 := s.rule r 0
  let (_, _, tag) := etherParse b
  let vid := (tag.getD 0) % 4096
  let pcp := match tag with
    | some t => t / 8192
    | none => (s.lane l).defPcp
  let mac := leNat (if w0.getLsbD 30 then (b.drop 6).take 6 else b.take 6)
  let ruleMac := (s.rule r 1).toNat + (s.rule r 2).toNat % 65536 * 2 ^ 32
  let mask := (s.rule r 3).toNat + (s.rule r 4).toNat % 65536 * 2 ^ 32
  let w5 := (s.rule r 5).toNat
  let w6 := (s.rule r 6).toNat
  w0.getLsbD 31 && field w0.toNat 16 6 == l && field w0.toNat 24 5 == owner
    && (mac &&& mask) == (ruleMac &&& mask)
    && (vid &&& field w5 0 12) == (field w5 16 12 &&& field w5 0 12)
    && (pcp &&& field w6 4 3) == (field w6 8 3 &&& field w6 4 3)
    && (!w6.testBit 0 || tag.isSome == w6.testBit 1)

/-- The lowest-numbered matching rule. -/
def State.classify (s : State) (l owner : Nat) (b : List Byte) : Option Nat :=
  (s.rules.map fun e => e.1 / 8).find? fun r => s.ruleMatches r l owner b

/-- A plain Ethernet frame of a lane whose partner does not speak MLF (R234, R235). -/
def State.etherFrame (s : State) (l : Nat) (b : List Byte) : State :=
  let q := (s.lane l).owner
  match s.classify l q b with
  | none => s.rxCount l 5
  | some r =>
    if 16 ≤ q ∨ (s.partnerOf l).isNone then s.rxCount l 5
    else
      let w0 := s.rule r 0
      let s := { s with rules := tset 0 s.rules (8 * r + 7) (s.rule r 7 + 1) }
      let k := field w0.toNat 0 13
      let x := s.stream k
      if w0.getLsbD 29 then s.rxCount l 0
      else if x.egress ∨ !(x.state = 1 ∨ x.state = 2) ∨ x.owner ≠ q then s.rxCount l 5
      else
        let (_, _, tag) := etherParse b
        let cls := match tag with
          | some t => t / 8192
          | none => (s.lane l).defPcp
        let desc := b.length * 2 ^ 16 + cls * 2 ^ 13 + bit tag.isSome * 2 ^ 12
        let base : Cell := { owner := q, lane := l, cls := cls, eth := true, ts := s.stamp (signed16 (s.lane l).tsCorr.toNat) }
        (s.rxCount l 0).placeOrDrop k base (leBytes 4 desc ++ b)

/-- A frame that is neither MLF of an MLF partner nor MAC control. -/
def State.plainFrame (s : State) (l : Nat) (f : RxFrame) : Bool :=
  let (t, _, _) := etherParse f.bytes
  (macControl f.bytes).isNone && !(t == 0x88B5 && (s.laneMlf l || (s.partnerOf l).isNone))

/-- A plain Ethernet frame is received (R231, R234). -/
def State.etherRx (s : State) (l : Nat) (f : RxFrame) : State :=
  let j := (s.lane l).judge f
  if j ≠ 100 then s.rxCount l j
  else
    let s := s.updLane l (Lane.secAccept · f)
    if s.laneMlf l then s.rxCount l 8 else s.etherFrame l f.bytes

/-- ETH_FRAME_RX (R231, R234): every frame that is neither MLF of an MLF partner nor MAC control. -/
def execEthFrameRx (l : LaneIx) (f : RxFrame) (s : State) : Host.Outcome State Fault Refusal :=
  .next (if (s.lane l).up && s.plainFrame l f then s.etherRx l f else s)

/-- The classes that a PFC frame pauses and releases (R238): each class it enables, if the lane honours its pauses. -/
def Lane.pausedBy (k : Lane) (b : List Byte) : BitVec 8 :=
  (List.range 8).foldl (fun (p : BitVec 8) c =>
    if (beNat (b.take 2)).testBit c ∧ k.pfcCfg.getLsbD (16 + c) then
      (if beNat ((b.drop (2 + 2 * c)).take 2) = 0 then p &&& ~~~(1#8 <<< c) else p ||| (1#8 <<< c))
    else p) k.paused

/-- A PFC frame, given from behind its opcode, is received (R236, R238). -/
def State.pfcRx (s : State) (l : Nat) (f : RxFrame) (b : List Byte) : State :=
  let k := s.lane l
  let j := k.judge f
  if j ≠ 100 then s.rxCount l j
  else if !k.pfc ∨ s.laneMlf l then s.rxCount l 8
  else (s.rxCount l 14).updLane l fun y => { y with paused := k.pausedBy b }

/-- PFC_FRAME_RX (R236, R238). -/
def execPfcFrameRx (l : LaneIx) (f : RxFrame) (s : State) : Host.Outcome State Fault Refusal :=
  match pfcBody f.bytes with
  | some b => .next (if (s.lane l).up then s.pfcRx l f b else s)
  | none => .next s

/-- A MAC control frame that is no PFC frame is received: it is counted in RX_OTHER (R236, R540). -/
def State.controlRx (s : State) (l : Nat) (f : RxFrame) : State :=
  let j := (s.lane l).judge f
  s.rxCount l (if j = 100 then 8 else j)

/-- PAUSE_FRAME_RX (R236, R540). DEDUCED (log entry 90): every MAC control frame that is no PFC frame is a frame of the wrong
kind, one of opcode 0x0101 with another destination included. -/
def execPauseFrameRx (l : LaneIx) (f : RxFrame) (s : State) : Host.Outcome State Fault Refusal :=
  .next (if (s.lane l).up && (macControl f.bytes).isSome && (pfcBody f.bytes).isNone then s.controlRx l f else s)

/-- PFC_PAUSE_EXPIRE (R238). -/
def execPfcPauseExpire (l : LaneIx) (c : Fin 8) (s : State) : Host.Outcome State Fault Refusal :=
  .next (s.updLane l fun k => { k with paused := k.paused &&& ~~~(1#8 <<< c.val) })

/-! ## Pauses sent (R237) -/

/-- Occupancy of a class on a lane: held cells of plain Ethernet frames, on chip or in a Carafe (R237, R267). -/
def State.occupancy (s : State) (l c : Nat) : Nat :=
  let mine (k : Cell) : Bool := k.eth && k.lane == l && k.cls == c
  (s.cells.filter fun e => decide (e.2.owner < 31) && mine e.2).length
    + s.streams.foldl (fun n e => n + (e.2.far.filter fun f => f.cell.isNone && mine f.info).length) 0

def Lane.xoffTh (k : Lane) (c : Nat) : Nat := field (tget 0 k.pfcTh c).toNat 16 16
/-- XON_c as it acts (R237). -/
def Lane.xonTh (k : Lane) (c : Nat) : Nat := min (field (tget 0 k.pfcTh c).toNat 0 16) (k.xoffTh c - 1)

/-- The device may pause the class: PFC lane, plain partner, TX_EN, XOFF and QUANTA not zero. -/
def State.pauses (s : State) (l c : Nat) : Bool :=
  let k := s.lane l
  k.pfc && !s.laneMlf l && k.pfcCfg.getLsbD (24 + c) && k.xoffTh c != 0 && k.pfcCfg.toNat % 65536 != 0

/-- A PFC frame for the class is due, and starts when the wire is free. -/
def State.duePfc (s : State) (l c : Nat) : State :=
  (s.updLane l fun k => { k with pfcDue := k.pfcDue ||| (1#8 <<< c) }).startPfc l

/-- PFC_XOFF_TX (R237). -/
def execPfcXoffTx (l : LaneIx) (c : Fin 8) (s : State) : Host.Outcome State Fault Refusal :=
  let k := s.lane l
  .next (if s.pauses l c && !k.xoff.getLsbD c && decide (k.xoffTh c ≤ s.occupancy l c) then
      (s.updLane l fun k => { k with xoff := k.xoff ||| (1#8 <<< c.val) }).duePfc l c
    else s)

/-- PFC_REPEAT_TX (R237). -/
def execPfcRepeatTx (l : LaneIx) (c : Fin 8) (s : State) : Host.Outcome State Fault Refusal :=
  let k := s.lane l
  .next (if s.pauses l c && k.xoff.getLsbD c && decide (k.xonTh c ≤ s.occupancy l c) then s.duePfc l c else s)

/-- PFC_XON_TX (R237). -/
def execPfcXonTx (l : LaneIx) (c : Fin 8) (s : State) : Host.Outcome State Fault Refusal :=
  let k := s.lane l
  .next (if k.xoff.getLsbD c && decide (s.occupancy l c < k.xonTh c) then
      (s.updLane l fun k => { k with xoff := k.xoff &&& ~~~(1#8 <<< c.val) }).duePfc l c
    else s)

/-! ## Frames sent -/

/-- MLF ingress streams of the lane, of owners allowed on it (R215), whose total has advanced since it was last sent (R229). -/
def State.creditDue (s : State) (l : Nat) : List Nat :=
  (s.streams.filter fun e =>
    let x := e.2
    x.lane == l && s.laneAllows l x.owner && !x.egress && x.mlf && (x.state == 1 || x.state == 2) && x.crTotal != x.crSent).map (·.1)

/-- The total is sent. -/
def State.creditSent (s : State) (k : Nat) : State := s.updStream k fun x => { x with crSent := x.crTotal }

/-- The credit record that the next MLF frame carries: one of those due; which one is a free choice. -/
def State.takeCredit (s : State) (l : Nat) : Option (Nat × Nat) × State :=
  let due := s.creditDue l
  if due = [] then (none, s)
  else
    let (n, s) := s.draw
    let k := due.getD (Sys2Proof.Config.free n % due.length) 0
    (some (k, (s.stream k).crTotal), s.creditSent k)

/-- An MLF frame of the lane, with a credit record if one is due (R227, R229). -/
def State.mlfBytes (s : State) (l type stream seq : Nat) (rsp : Bool) (payload : List Byte) : List Byte × State :=
  let (cr, s) := s.takeCredit l
  let e := tget 0 s.partners ((s.partnerOf l).getD 0)
  let h : MlfHeader :=
    { version := 1, type := type, crv := cr.isSome, rsp := rsp, stream := stream, seq := seq,
      crStream := (cr.getD (0, 0)).1, crTotal := (cr.getD (0, 0)).2, len := payload.length }
  (pad60 (leBytes 6 (partnerMac e) ++ (s.lane l).mac ++ beBytes 2 0x88B5 ++ h.bytes ++ payload), s)

/-- A frame that is not MAC control may start: the wire is free and MACsec, if on, has a packet number (R244). -/
def State.mayStart (s : State) (l : Nat) : Bool :=
  let k := s.lane l
  k.up && k.tx.isNone && k.pfcOwed == 0 &&
    (!k.macsec || (match tget none k.sa (k.msecCtrl.toNat % 4) with
      | some a => decide (a.pn < 2 ^ 64)
      | none => false))

/-- The frame takes a packet number of TX_AN; PN_WARN and the last number are reported (R244). -/
def State.spendPn (s : State) (l : Nat) : State :=
  let k := s.lane l
  let i := k.msecCtrl.toNat % 4
  match tget none k.sa i with
  | some a =>
    if !k.macsec then s
    else
      let warn := a.pn == k.pnWarnLo.toNat + k.pnWarnHi.toNat * 2 ^ 32
      let s := s.updLane l fun k => { k with sa := tset none k.sa i (some { a with pn := a.pn + 1 }) }
      let s := if warn then s.laneStick l lsPnWarn else s
      if a.pn + 1 = 2 ^ 64 then s.laneStick l lsPnExh else s
  | none => s

/-- IV of GCM-AES-XPN-256 (IEEE 802.1AE): SSCI and packet number, XORed with the salt. -/
def Sa.iv (a : Sa) : List Byte :=
  List.zipWith (· ^^^ ·) (beBytes 4 (a.ssci % 2 ^ 32) ++ beBytes 8 (a.pn % 2 ^ 64)) a.salt

/-- The SecTAG of a sent frame (IEEE 802.1AE): it carries the SCI, and E and C are 1 (R243). PRESUMED (log entry 98): its
layout, from the standard that R243 names. -/
def Lane.secTag (k : Lane) (an : Nat) (a : Sa) : List Byte :=
  beBytes 2 0x88E5 ++ [BitVec.ofNat 8 (0x2C + an), 0] ++ beBytes 4 (a.pn % 2 ^ 32)
    ++ beBytes 8 (k.txSciHi.toNat * 2 ^ 32 + k.txSciLo.toNat)

/-- A frame as MACsec protects it, 32 bytes longer: addresses, SecTAG, the rest encrypted, ICV (R243). -/
def Lane.protect (k : Lane) (an : Nat) (a : Sa) (b : List Byte) : List Byte :=
  let head := b.take 12 ++ k.secTag an a
  let text := b.drop 12
  head ++ (List.range (text.length + 16)).map fun i => Sys2Proof.Config.gcmSealByte a.key a.iv head text i

/-- The association that protects the lane's next frame. -/
def Lane.txSa (k : Lane) : Option (Nat × Sa) :=
  let i := k.msecCtrl.toNat % 4
  if k.macsec then (tget none k.sa i).map fun a => (i, a) else none

/-- A frame that is not MAC control starts on a free wire, under MACsec where the lane has it (R243, R244). -/
def State.sendFrame (s : State) (l : Nat) (f : TxFrame) : State :=
  let k := s.lane l
  (s.startTx l { f with sec := k.txSa, wire := match k.txSa with
    | some (i, a) => k.protect i a f.bytes
    | none => f.bytes }).spendPn l

/-- The control records due, 64 at most, go out in one CONTROL frame; a HEARTBEAT when none is due (R227, R232). -/
def State.sendControl (s : State) (l : Nat) : State :=
  let rs := (s.lane l).ctlDue.take 64
  let rs := if rs = [] then [(1, 0, 0)] else rs
  let s := s.updLane l fun k => { k with ctlDue := k.ctlDue.drop 64 }
  let (b, s) := s.mlfBytes l 3 0 0 false (rs.flatMap fun r => beBytes 8 (r.1 * 2 ^ 56 + r.2.1 * 2 ^ 32 + r.2.2 % 2 ^ 32))
  s.sendFrame l { kind := 1, bytes := b }

/-- HEARTBEAT_TX (R232). -/
def execHeartbeatTx (l : LaneIx) (s : State) : Host.Outcome State Fault Refusal :=
  .next (if s.mayStart l && s.laneMlf l && (s.lane l).hbPeriod != 0 then s.sendControl l else s)

/-- A CREDIT frame with the totals of the streams given, 64 at most. -/
def State.sendCredit (s : State) (l : Nat) (ks : List Nat) : State :=
  let ks := ks.take 64
  let payload := ks.flatMap fun k => beBytes 4 (k * 2 ^ 16 + (s.stream k).crTotal % 65536)
  let s := ks.foldl State.creditSent s
  let (b, s) := s.mlfBytes l 2 0 0 false payload
  s.sendFrame l { kind := 1, bytes := b }

/-- CREDIT_FRAME_TX (R229). -/
def execCreditFrameTx (l : LaneIx) (s : State) : Host.Outcome State Fault Refusal :=
  .next (if s.mayStart l && s.laneMlf l && s.creditDue l != [] then s.sendCredit l (s.creditDue l) else s)

/-- CREDIT_REPEAT (R229): the total of a stream with outstanding credit is sent again. -/
def execCreditRepeat (k : StreamIx) (s : State) : Host.Outcome State Fault Refusal :=
  let x := s.stream k
  .next (if !x.egress && x.mlf && (x.state == 1 || x.state == 2) && s.laneAllows x.lane x.owner && decide (0 < x.out) && s.mayStart x.lane && s.laneMlf x.lane
      && (s.lane x.lane).hbPeriod != 0 then s.sendCredit x.lane [k.val] else s)

/-- SEQ_SYNC_TX (R228): the sync of an egress stream is due, and goes out when the wire is free. -/
def execSeqSyncTx (k : StreamIx) (s : State) : Host.Outcome State Fault Refusal :=
  let x := s.stream k
  if x.egress && x.mlf && x.state == 1 && s.laneAllows x.lane x.owner && x.syncDue && (s.lane x.lane).hbPeriod != 0 then
    let s := s.updStream k fun x => { x with syncDue := false }
    let s := s.updLane x.lane fun y => { y with ctlDue := y.ctlDue ++ [(2, k.val, x.seqNext)] }
    .next (if s.mayStart x.lane && s.laneMlf x.lane then s.sendControl x.lane else s)
  else .next s

/-- PARTNER_SILENT (R232): no valid MLF frame for 4 × HB_PERIOD; the lane stays UP. -/
def execPartnerSilent (l : LaneIx) (s : State) : Host.Outcome State Fault Refusal :=
  .next (if (s.lane l).up && s.laneMlf l && (s.lane l).hbPeriod != 0 then s.laneStick l lsSilent else s)

/-! ### Data frames -/

/-- The k of the n-th port of a mask, ascending, n modulo their number (R258). -/
def nthPort (mask n : Nat) : Nat :=
  let ks := (List.range 4).filter fun k => mask.testBit k
  ks.getD (n % max 1 ks.length) 0

/-- LEN of a descriptor word (R235). -/
def descLen (b : List Byte) : Nat := field (leNat (b.take 4)) 16 14
def descClass (b : List Byte) : Nat := field (leNat (b.take 4)) 13 3

/-- The packet can go out now: its owner is allowed on the lane (R215), and it has credits for an MLF stream, no pause for a
plain one (R226, R229, R238). -/
def State.canSendReady (s : State) (l : Nat) (r : Ready) : Bool :=
  let x := s.stream r.stream
  let k := s.lane l
  x.egress && x.state == 1 && x.lane == l && s.laneAllows l x.owner &&
    (if x.mlf then decide (cellCount r.bytes.length ≤ x.avail)
     else !(k.pfc && k.paused.getLsbD r.cls))

/-- The sources of a lane that have a packet which can go out: assembly buffers of its own side (R27) in rotation, then
bypassed packets. -/
def State.dataSources (s : State) (l : Nat) : List (Nat × Ready) :=
  let fromAsm := s.asm.filterMap fun e =>
    match e.2.ready with
    | r :: _ =>
      let x := s.stream r.stream
      if s.canSendReady l r ∧ nthPort x.kmask x.packets = e.1 % 4 ∧ e.1 / 64 = l / 32 then some (e.1, r) else none
    | [] => none
  let fromByp := (s.lane l).byp.filterMap fun r =>
    if s.canSendReady l r then some (128 + (r.bypass.getD (0, 0)).1, r) else none
  fromAsm ++ fromByp

/-- The source after the one last served, cyclically. -/
def nextSource (turn : Nat) (xs : List (Nat × Ready)) : Option (Nat × Ready) :=
  match firstMin (fun e => (e.1 + 8320 - turn - 1) % 8320) xs with
  | some e => some e
  | none => none

/-- The packet is framed and starts (R226 to R229, R235, R242). -/
def State.sendData (s : State) (l src : Nat) (r : Ready) : State :=
  let k := r.stream
  let x := s.stream k
  let s := if src < 128 then
      let a := tget {} s.asm src
      { s with asm := tset {} s.asm src { a with ready := a.ready.drop 1 } }
    else s.updLane l fun y => { y with byp := y.byp.erase r }
  let s := s.updLane l fun y => { y with turn := src }
  let s := if src < 128 then s.updStream k fun x => { x with packets := x.packets + 1 } else s
  let stamp := s.stamp (signed16 (field (s.lane l).tsCorr.toNat 16 16))
  let tell (s : State) (seq : Nat) : State := s.tellOwner (lanePort l) x.owner
    { code := 0x12, object := k, data := leBytes 4 seq ++ leBytes 4 stamp ++ leBytes 4 (stamp / 2 ^ 32) }
  if x.mlf then
    let (b, s) := s.mlfBytes l 1 k x.seqNext false r.bytes
    let s := s.updStream k fun x => { x with seqNext := x.seqNext + cellCount r.bytes.length, syncDue := true }
    let s := s.sendFrame l { kind := 3, bytes := b, stream := some k, bypass := r.bypass }
    if x.ts then tell s x.seqNext else s
  else
    let b := pad60 ((r.bytes.drop 4).take (descLen r.bytes))
    let s := s.sendFrame l { kind := 3, bytes := b, stream := some k, bypass := r.bypass }
    if (leNat (r.bytes.take 4)).testBit 11 then tell s 0 else s

/-- The lane on which frames of an in-band queue go (R351): the lane of its last command frame if that lane is UP, else
the lowest-numbered UP lane of the partner of its host. -/
def State.inbandLane (s : State) (qid : Nat) : Option Nat :=
  let last := (tget {} s.queues qid).lane
  if (s.lane last).up then some last
  else (List.range 64).find? fun l => (s.lane l).up &&
    match s.partnerOf l with
    | some p => partnerIb (tget 0 s.partners p) && partnerIbh (tget 0 s.partners p) == qid / 4096 % 16
    | none => false

/-- Replies or events of an in-band queue wait for this lane (R226). -/
def State.inbandWaits (s : State) (l : Nat) : Bool :=
  s.queues.any fun e =>
    decide (65536 ≤ e.1) && decide (e.1 < 131072) && !e.2.sent.isEmpty && s.inbandLane e.1 == some l

/-- DATA_FRAME_TX (R226): PFC frames, then MLF control frames, then in-band replies, then data, round robin. -/
def execDataFrameTx (l : LaneIx) (s : State) : Host.Outcome State Fault Refusal :=
  let k := s.lane l
  if k.up && k.tx.isNone && k.pfcOwed != 0 then .next (s.startPfc l)
  else if !s.mayStart l then .next s
  else if k.ctlDue ≠ [] ∧ s.laneMlf l then .next (s.sendControl l)
  else if s.inbandWaits l then .next s
  else match nextSource k.turn (s.dataSources l) with
    | some (src, r) => .next (s.sendData l src r)
    | none => .next s

end Sys2Proof.Machine
end

