-- ==== Sys2Proof/Machine/Streams.lean ====
section
/-!
DEFINITION. Machine/Streams.lean: packets between streams and the array (R258, R259, R261), the bypass switch (R262), the
credit engine (R263, R264), the Carafe (R273 to R275), marks, replay and closing (R269 to R272, R276).
-/
namespace Sys2Proof.Machine

/-! ## Edge ports -/

/-- Edge port number: 64 × side + 4 × row + k. -/
def Stream.edge (x : Stream) (k : Nat) : Nat := 64 * x.side + 4 * x.row + k

/-- The link of an edge port toward the array (R24). -/
def edgeIn (e : Nat) : Nat := linkId (edgeHome (e / 64) (e % 64 / 4)) ((if e / 64 = 0 then 12 else 4) + e % 4)

/-- The stream uses the edge port. -/
def Stream.usesEdge (x : Stream) (e : Nat) : Bool :=
  x.ep && !x.bypassed && x.side == e / 64 && x.row == e % 64 / 4 && x.kmask.testBit (e % 4)

/-- Streams of a direction that are open on an edge port, by ascending ID. -/
def State.edgeStreams (s : State) (e : Nat) (egress : Bool) : List Nat :=
  (s.streams.filter fun z => z.2.egress == egress && z.2.state == 1 && z.2.usesEdge e).map (·.1)

/-- Start and end of the stream's next packet that the injector has not begun, if it is visible whole. -/
def State.nextPacket (s : State) (k : Nat) : Option (Nat × Nat) :=
  let x := s.stream k
  let a := match x.inj.getLast? with
    | some j => j.stop
    | none => x.rpos
  if a < x.vpos then (s.packetEnd x a (x.vpos - a)).map fun e => (a, e) else none

/-- Position after the visible packet that starts at rpos, if there is one. -/
def State.headPacket (s : State) (k : Nat) : Option Nat :=
  let x := s.stream k
  if x.rpos < x.vpos then s.packetEnd x x.rpos (x.vpos - x.rpos) else none

/-- The words that stand before a packet's data (R259). -/
def Stream.preface (x : Stream) : Nat := bit x.phdr + 2 * bit x.ts

/-- Bytes of the packet in positions a to b. -/
def State.packetLen (s : State) (x : Stream) (a b : Nat) : Nat :=
  (List.range (b - a)).foldl (fun n i => n + (State.posCell s x (a + i)).len) 0

/-- A word of a line-buffer cell; a poisoned one marks the cell's record (R307). -/
def State.cellWord (s : State) (c i : Nat) : Word × Bool × State :=
  let (d, bad, s) := s.readWord (cellBase c + 4 * i)
  let k := tget {} s.cells c
  let s := if bad then { s with cells := tset {} s.cells c { k with poison := true } } else s
  (d, bad || k.poison, s)

/-- The next word of a packet that stream `k` pushes. -/
def State.injectWord (s : State) (k : Nat) (j : Inject) : LinkWord × State :=
  let x := s.stream k
  let pre := x.preface
  if j.word < pre then
    let ts := (s.posCell x j.pos).ts
    let w := if x.phdr ∧ j.word = 0 then k * 2 ^ 16 + s.packetLen x j.pos j.stop % 2 ^ 14
      else if j.word = bit x.phdr then ts % 2 ^ 32 else ts / 2 ^ 32
    ({ data := BitVec.ofNat 32 w }, s)
  else
    let d := j.word - pre
    let pos := j.pos + d / 64
    let info := s.posCell x pos
    let (w, bad, s) := s.cellWord (x.chip.getD (pos - x.mpos) 0) (d % 64)
    let whole := d % 64 + 1 == (info.len + 3) / 4
    let last := whole && pos + 1 == j.stop
    ({ data := w, last := last, poison := bad || (info.bad && last) }, s)

/-- rpos passes, in position order, the cells whose last word has entered (R258, R259). -/
def State.injectRead (s : State) (k : Nat) : Nat → State
  | 0 => s
  | fuel + 1 =>
    let x := s.stream k
    match x.inj with
    | [] => s
    | j :: r =>
      if j.done then ((s.setStream k { x with inj := r, packets := x.packets + 1 }).readTo k j.stop).injectRead k fuel
      else s.readTo k (j.pos + (j.word - x.preface) / 64)

/-- Words of the `i`-th packet that is being pushed go into its edge port as long as that has room and their cells are on
chip. -/
def State.injectRun (s : State) (k i : Nat) : Nat → State
  | 0 => s
  | fuel + 1 =>
    let x := s.stream k
    match x.inj[i]? with
    | none => s
    | some j =>
      if j.done ∨ !s.canSend (edgeIn j.port) ∨ x.spos ≤ j.pos + (j.word - x.preface) / 64 then s
      else
        let (w, s) := s.injectWord k j
        let s := s.send (edgeIn j.port) w
        let s := s.updStream k fun x => { x with inj := x.inj.set i { j with word := j.word + 1, done := w.last } }
        if w.last then { s with alloc := { s.alloc with edgeTurn := tset 8191 s.alloc.edgeTurn j.port k } }
        else s.injectRun k i fuel

/-- The stream's packets that are being pushed go on, each into its own port, and rpos follows. -/
def State.injectAll (s : State) (k : Nat) : State :=
  let n := (s.stream k).inj.length
  ((List.range n).foldl (fun s i => State.injectRun s k i 33) s).injectRead k (n + 1)

/-- A packet is being pushed into the edge port. -/
def Stream.pushes (x : Stream) (e : Nat) : Bool := x.inj.any fun j => !j.done && j.port == e

/-- The stream may start its next packet into the port: no other packet is under way there, and on a shared port its turn
has come (R258). -/
def State.injectTurn (s : State) (k e : Nat) : Bool :=
  let others := s.edgeStreams e false
  let turn := tget 8191 s.alloc.edgeTurn e
  others.all (fun z => !(s.stream z).pushes e) &&
    firstMin (fun z => (z + 8191 - turn) % 8192) (others.filter fun z => (s.nextPacket z).isSome) == some k

/-- The stream's next visible packet starts into the port whose turn it is, if that is free (R258). -/
def State.injectStart (s : State) (k : Nat) : State :=
  let x := s.stream k
  let e := x.edge (nthPort x.kmask (x.packets + x.inj.length))
  match s.nextPacket k with
  | none => s
  | some (a, b) => if s.injectTurn k e then s.updStream k fun x => { x with inj := x.inj ++ [{ port := e, pos := a, stop := b }] } else s

/-- EDGE_INJECT_PACKET (R258, R259): the edge injector starts the stream's next visible packet, and pushes words of those it
has started into their edge ports until they are in or the ports have no room. -/
def execEdgeInjectPacket (k : StreamIx) (s : State) : Host.Outcome State Fault Refusal :=
  let x := s.stream k
  if x.egress || x.bypassed || !x.ep || x.state != 1 then .next s
  else .next ((s.injectStart k).injectAll k)

/-- Bytes that the assembly buffer of an edge port holds. -/
def Asm.load (a : Asm) : Nat := a.ready.foldl (fun n r => n + r.bytes.length) (4 * a.words.length)

def State.countEdge (s : State) (e : Nat) : State :=
  { s with alloc := if e < 64 then { s.alloc with edgeW := s.alloc.edgeW + 1 } else { s.alloc with edgeE := s.alloc.edgeE + 1 } }

/-- A gathered packet goes to its stream, or is discarded (R225, R235, R261). -/
def State.bindPacket (s : State) (e : Nat) (a : Asm) : State :=
  let done (s : State) : State := { s with asm := tset {} s.asm e { ready := a.ready } }
  let bound := s.edgeStreams e true
  let hdr := bound.any fun k => (s.stream k).phdr
  let who := if hdr then some (field (a.words.headD 0).toNat 16 13) else bound.head?
  match who with
  | none => (done s).countEdge e
  | some k =>
    if !bound.contains k then (done s).countEdge e
    else
      let x := s.stream k
      let payload := if hdr then a.words.drop 1 else a.words
      let bytes := payload.flatMap fun w => leBytes 4 w.toNat
      if a.poison then (done s).txAbort x.lane x.owner
      else if a.tooLong ∨ 1024 < payload.length then ((done s).laneCount x.lane 13).streamEvent k 0 1 0
      else if !x.mlf ∧ payload.length ≠ 1 + (descLen bytes + 3) / 4 then (done s).txAbort x.lane x.owner
      else { s with asm := tset {} s.asm e { ready := a.ready ++ [{ stream := k, bytes := bytes, cls := if x.mlf then 0 else descClass bytes }] } }

/-- Words leave the edge port for its assembly buffer, to the end of one packet, while there is room and no fence hides them
(R182, R183). -/
def State.gather (s : State) (e : Nat) : Nat → State
  | 0 => s
  | fuel + 1 =>
    let l := edgeOut (e / 64) (e % 64 / 4) (e % 4)
    match if s.linkReads l then (s.link l).held else [] with
    | [] => s
    | w :: _ =>
      let a := tget {} s.asm e
      let drop := a.poison || a.tooLong || decide (1025 ≤ a.words.length)
      if !drop ∧ 8192 ≤ a.load then s
      else
        let s := s.take l
        let a := { a with words := if drop then a.words else a.words ++ [w.data], poison := a.poison || w.poison
                          tooLong := a.tooLong || decide (1025 ≤ a.words.length) }
        if w.last then s.bindPacket e a
        else { s with asm := tset {} s.asm e a }.gather e fuel

/-- EDGE_EGRESS_PACKET (R225, R261): a packet is gathered from an edge port and bound to its egress stream. -/
def execEdgeEgressPacket (e : Fin 128) (s : State) : Host.Outcome State Fault Refusal :=
  .next (s.gather e (s.link (edgeOut (e / 64) (e % 64 / 4) (e % 4))).held.length)

/-! ## The bypass switch (R262) -/

/-- Bytes of the packet in positions a to b, and whether any is poisoned or the packet is damaged. -/
def State.packetBytes (s : State) (k a b : Nat) : List Byte × Bool × State :=
  let x := s.stream k
  (List.range (b - a)).foldl (fun (bs, bad, s) i =>
    let info := State.posCell s x (a + i)
    let c := x.chip.getD (a + i - x.mpos) 0
    let (ws, p, s) := (List.range ((info.len + 3) / 4)).foldl (fun (ws, p, s) j =>
      let (d, q, s) := State.cellWord s c j
      (ws ++ leBytes 4 d.toNat, p || q, s)) (([] : List Byte), false, s)
    (bs ++ ws.take info.len, bad || p || info.bad, s)) (([] : List Byte), false, s)

/-- The bypass switch discards a packet: it counts, and rpos passes it. -/
def State.bypDiscard (s : State) (k t e : Nat) : State :=
  let s := { s with alloc := { s.alloc with bypDiscards := s.alloc.bypDiscards + 1 } }
  (s.txAbort (s.stream t).lane (s.stream t).owner).readTo k e

/-- BYPASS_FRAME (R262): the visible packet, on chip whole, is framed for the lane of the target stream. -/
def execBypassFrame (k : StreamIx) (s : State) : Host.Outcome State Fault Refusal :=
  let x := s.stream k
  match x.target, s.headPacket k with
  | some t, some e =>
    let y := s.stream t
    if x.egress || !x.bypassed || x.state != 1 || x.bypBusy || decide (x.spos < e) || !y.egress || y.state != 1 then .next s
    else
      let (bytes, bad, s) := s.packetBytes k x.rpos e
      if bad ∨ (!y.mlf ∧ (bytes.length + 3) / 4 ≠ 1 + (descLen bytes + 3) / 4) then .next (s.bypDiscard k t e)
      else
        let r : Ready :=
          { stream := t, bytes := bytes ++ List.replicate ((4 - bytes.length % 4) % 4) 0
            bypass := some (k.val, e - x.rpos), cls := (s.posCell x x.rpos).cls }
        .next ((s.updStream k fun x => { x with bypBusy := true }).updLane y.lane fun l => { l with byp := l.byp ++ [r] })
  | _, _ => .next s

/-! ## Credit (R263, R264) -/

/-- Credits that the stream's own terms allow beyond those outstanding. -/
def Stream.creditRoom (x : Stream) : Nat :=
  if x.drain then 0
  else (min ((x.credLimit : Int) - x.out) ((x.ring + x.carafe : Nat) - ((x.wpos : Int) - x.mpos) - x.out)).toNat

/-- How many credits one visit grants: those that bring OUT up to 0 need no quota. -/
def State.grantable (s : State) (x : Stream) : Nat :=
  let deficit := (-x.out).toNat
  let spare := s.quotaOf x.owner - (s.usedCells x.owner + s.resvCells x.owner)
  min x.creditRoom (deficit + spare)

/-- An MLF ingress stream that the credit engine visits. -/
def Stream.credited (x : Stream) : Bool := !x.egress && x.mlf && (x.state == 1 || x.state == 2)

/-- The quota is what stops the stream: it has room for more than the quota lets it have. -/
def State.quotaBound (s : State) (x : Stream) : Bool := x.credited && decide (s.grantable x < x.creditRoom)

/-- CREDIT_ENGINE_VISIT: every credit the rule allows is granted; when the quota is the only limit of several streams,
each quota cell goes to the next of them by ascending ID after the last served. -/
def execCreditEngineVisit (k : StreamIx) (s : State) : Host.Outcome State Fault Refusal :=
  let x := s.stream k
  if !x.credited then .next s
  else
    let q := x.owner
    let n := s.grantable x
    if !s.quotaBound x then .next (s.updStream k fun x => { x with crTotal := x.crTotal + n })
    else
      let deficit := min x.creditRoom (-x.out).toNat
      let turn := tget 8191 s.alloc.turn q
      let rivals := (s.streams.filter fun z => z.2.owner == q && s.quotaBound z.2).map (·.1)
      let mine := firstMin (fun z => (z + 8191 - turn) % 8192) rivals == some k.val
      let share := if rivals = [k.val] then n - deficit else if mine then min 1 (n - deficit) else 0
      let s := if share = 0 then s else { s with alloc := { s.alloc with turn := tset 8191 s.alloc.turn q k } }
      .next (s.updStream k fun x => { x with crTotal := x.crTotal + deficit + share })

/-! ## The Carafe (R273 to R275) -/

/-- Device address of a Carafe position. -/
def Stream.carafeAddr (x : Stream) (n : Nat) : Nat := x.carafeBase.toNat * 4096 + n % max 1 x.carafe * 256

def State.updFar (s : State) (k i : Nat) (f : FarCell → FarCell) : State :=
  s.updStream k fun x => { x with far := x.far.modify i f }

/-- The four line requests of one position. -/
def State.carafeLines (s : State) (k : Nat) (mk : Nat → Packet) : State :=
  let x := s.stream k
  (List.range 4).foldl (fun s i => State.issue s { mk i with part := x.owner, src := lanePort x.lane }) s

/-- A write to a Carafe position is in flight, one of an old epoch included. -/
def State.spilling (s : State) (k n : Nat) : Bool :=
  let x := s.stream k
  s.mesh.txns.any fun t => match t.purpose with
    | .spill j m => j == k && m % max 1 x.carafe == n % max 1 x.carafe
    | _ => false

/-- CARAFE_SPILL_WRITE (R273): the oldest staged cell is written to its position, once no earlier write to it is in flight. -/
def execCarafeSpillWrite (k : StreamIx) (s : State) : Host.Outcome State Fault Refusal :=
  let x := s.stream k
  match x.far.findIdx? fun f => f.stage == 0 with
  | none => .next s
  | some i =>
    if x.state = 0 ∨ x.state = 3 ∨ s.spilling k (x.spos + i) then .next s
    else
      let f := x.far.getD i {}
      let n := x.spos + i
      let c := f.cell.getD 0
      let (ws, bad, s) := (List.range ((f.info.len + 3) / 4)).foldl (fun (ws, p, s) j =>
        let (d, q, s) := State.cellWord s c j
        (ws ++ leBytes 4 d.toNat, p || q, s)) (([] : List Byte), f.info.poison, s)
      let data := ws.take f.info.len ++ List.replicate (256 - f.info.len) 0
      let s := s.updFar k i fun f => { f with stage := 1, left := 4, info := { f.info with poison := bad } }
      .next (s.carafeLines k fun j =>
        { opc := 2, addr := x.carafeAddr n + 64 * j, len := 64, data := (data.drop (64 * j)).take 64
          poison := if bad then 7 else 0, purpose := .spill k n })

/-- A Carafe transaction that did not complete with OK is a fault of the owner (R275). -/
def State.carafeFail (s : State) (k status : Nat) : State :=
  if status = stOk then s
  else s.raiseFault { cls := 2, part := (s.stream k).owner, source := 4, object := k, detail := status }

/-- A Carafe transaction of the position is under way. -/
def FarCell.busy (f : FarCell) : Bool := f.stage == 1 || f.stage == 3

/-! ### Closing (R276) -/

/-- What the bypass switch has framed from an ingress stream and not started is dropped. -/
def State.dropBypass (s : State) (k : Nat) : State :=
  let mine (r : Ready) : Bool := (r.bypass.map (·.1)) == some k
  if s.lanes.any fun l => l.2.byp.any mine then
    (s.lanes.foldl (fun s l => State.updLane s l.1 fun y => { y with byp := y.byp.filter fun r => !mine r }) s).updStream k
      fun x => { x with bypBusy := false }
  else s

/-- A bypassed frame of the stream that is on the wire no longer moves its rpos: the stream has been rewound or closed. -/
def State.forgetWire (s : State) (k : Nat) : State :=
  let mine (y : Lane) : Bool := ((y.tx.bind (·.bypass)).map (·.1)) == some k
  (s.lanes.filter fun l => mine l.2).foldl (fun s l =>
    (State.updLane s l.1 fun y => { y with tx := y.tx.map fun f => { f with bypass := some (k, 0) } }).updStream k
      fun x => { x with bypBusy := false }) s

/-- Ready packets of an egress stream are discarded and counted (R276). -/
def State.dropReady (s : State) (k : Nat) : State :=
  let x := s.stream k
  let mine (r : Ready) : Bool := r.stream == k
  let fed := (s.lane x.lane).byp.filter mine
  let n := s.asm.foldl (fun n e => n + (e.2.ready.filter mine).length) fed.length
  let s := { s with asm := s.asm.foldl (fun (t : Tab Asm) (e : Nat × Asm) => tset {} t e.1 { e.2 with ready := e.2.ready.filter fun r => !mine r }) s.asm }
  let s := s.updLane x.lane fun y => { y with byp := y.byp.filter fun r => !mine r }
  let s := fed.foldl (fun s r => match r.bypass with
    | some (j, _) => State.updStream s j fun x => { x with bypBusy := false }
    | none => s) s
  (List.range n).foldl (fun s _ => State.txAbort s x.lane x.owner) s

/-- A closing stream whose Carafe transactions have ended frees all it holds and is CLOSED (R276). DESIGN CHOICE (log entry
94): nothing is freed before, so that a STREAM_CLOSE that times out leaves no change (R357). -/
def State.closeEnd (s : State) (k : Nat) : State :=
  let x := s.stream k
  if x.state ≠ 3 ∨ x.far.any FarCell.busy then s
  else
    let s := if x.egress then s.dropReady k
      else
        let s := ((s.dropBypass k).forgetWire k).freeCells (x.chip ++ x.far.flatMap fun (f : FarCell) => f.cell.toList)
        if x.mlf then s.updLane x.lane fun y => { y with ctlDue := y.ctlDue ++ [(3, k, 0)] } else s
    s.updStream k fun x =>
      { (x.setState 0) with
        far := [], chip := [], inj := [], drain := false, mpos := x.wpos, rpos := x.wpos, spos := x.wpos, vpos := x.wpos }

/-- STREAM_CLOSE of a stream that is not CLOSED (R276). -/
def State.closeStream (s : State) (k : Nat) : State := (s.updStream k fun x => x.setState 3).closeEnd k

/-- The stream's answered Carafe request of a kind, oldest first; one of an old epoch only frees its tag (R293). -/
def State.carafeAnswer (s : State) (sel : Purpose → Option α) : Option (Packet × Option α × State) :=
  match s.mesh.answered.find? fun p => (sel p.purpose).isSome with
  | none => none
  | some p =>
    let s := { s with mesh := { (s.mesh.freeTag p) with answered := s.mesh.answered.erase p } }
    some (p, if p.epoch = s.epochOf p.part then sel p.purpose else none, s)

def spillOf (k : Nat) : Purpose → Option Nat
  | .spill j n => if j = k then some n else none
  | _ => none

def refillOf (k : Nat) : Purpose → Option (Nat × Nat)
  | .refill j n i => if j = k then some (n, i) else none
  | _ => none

/-- CARAFE_SPILL_DONE (R273): a write of the position completes; after the last, the staged cell is freed. -/
def execCarafeSpillDone (k : StreamIx) (s : State) : Host.Outcome State Fault Refusal :=
  match s.carafeAnswer (spillOf k) with
  | none => .next s
  | some (_, none, s) => .next s
  | some (p, some n, s) =>
    let x := s.stream k
    let i := n - x.spos
    let f := x.far.getD i {}
    if n < x.spos ∨ f.stage ≠ 1 then .next s
    else
      let s := s.carafeFail k p.status
      if 1 < f.left then .next (s.updFar k i fun f => { f with left := f.left - 1 })
      else
        let s := (s.streamCount k 5).freeCells f.cell.toList
        .next ((s.updFar k i fun f => { f with left := 0, stage := 2, cell := none }).closeEnd k)

/-- CARAFE_REFILL_READ (R273): the next position is read into a free cell while room, quota and the limit of 16 reads
allow it; DRAIN is set. Until the read completes no byte of the cell is in use, so that what it held before reaches nobody
(R252). -/
def execCarafeRefillRead (k : StreamIx) (s : State) : Host.Outcome State Fault Refusal :=
  let x := s.stream k
  let i := (x.far.takeWhile fun f => 3 ≤ f.stage).length
  let flying := (x.far.filter fun f => f.stage == 3).length
  match x.far[i]? with
  | none => .next s
  | some f =>
    if !(x.state = 1 ∨ x.state = 2) ∨ f.stage ≠ 2 ∨ 16 ≤ flying ∨ x.ring ≤ x.spos + i - x.mpos ∨ !s.quotaLeft x.owner then .next s
    else
      let n := x.spos + i
      let before := if i = 0 then x.chip.getLast? else (x.far.getD (i - 1) {}).cell
      let (c, s) := s.freeCell before
      let s := s.setCell c { f.info with len := 0 }
      let s := s.updStream k fun x => { x with drain := true }
      let s := s.updFar k i fun f => { f with cell := some c, stage := 3, left := 4 }
      .next (s.carafeLines k fun j => { opc := 1, addr := x.carafeAddr n + 64 * j, len := 64, purpose := .refill k n j })

/-- spos passes the positions that have been read back, in order; DRAIN ends with the Carafe empty. -/
def State.advanceSpill (s : State) (k : Nat) : State :=
  s.updStream k fun x =>
    let back := x.far.takeWhile fun f => f.stage == 4
    let x := { x with spos := x.spos + back.length, chip := x.chip ++ back.map (fun (f : FarCell) => f.cell.getD 0), far := x.far.drop back.length }
    { x with drain := x.drain && x.spos != x.wpos }

/-- CARAFE_REFILL_DONE (R273, R275): a line of the position has been read; a poisoned one poisons the cell. -/
def execCarafeRefillDone (k : StreamIx) (s : State) : Host.Outcome State Fault Refusal :=
  match s.carafeAnswer (refillOf k) with
  | none => .next s
  | some (_, none, s) => .next s
  | some (p, some (n, j), s) =>
    let x := s.stream k
    let i := n - x.spos
    let f := x.far.getD i {}
    if n < x.spos ∨ f.stage ≠ 3 then .next s
    else
      let s := s.carafeFail k p.status
      let c := f.cell.getD 0
      let bad := p.poison != 0
      let bytes := p.data ++ List.replicate (64 - p.data.length) 0
      let s := s.writeWords (cellBase c + 64 * j) (wordsOf bytes 16) bad
      let s := s.updFar k i fun f => { f with left := f.left - 1, info := { f.info with poison := f.info.poison || bad } }
      if 1 < f.left then .next s
      else
        let info := ((s.stream k).far.getD i {}).info
        let s := (s.setCell c info).streamCount k 6
        let s := if info.poison then s.streamStick k ssRefillPoison else s
        .next (((s.updFar k i fun f => { f with stage := 4 }).advanceSpill k).closeEnd k)

/-- The Carafe transactions that an epoch advance voids start afresh: their responses will carry an old epoch and be
discarded (R271, R293). -/
def State.restartCarafe (s : State) (q : Nat) : State :=
  (s.streams.filter fun z => z.2.owner == q && !z.2.far.isEmpty).foldl (fun s z =>
    let cells := (z.2.far.filter fun f => f.stage == 3).flatMap fun f => f.cell.toList
    let again (f : FarCell) : FarCell :=
      if f.stage = 1 then { f with stage := 0, left := 0 }
      else if f.stage = 3 then { f with stage := 2, left := 0, cell := none } else f
    ((State.updStream s z.1 fun x => { x with far := x.far.map again }).freeCells cells).closeEnd z.1) s

/-! ## Stopping, replay, marks, closing -/

/-- An OPEN ingress stream becomes STOPPED (R271). -/
def State.stopStream (s : State) (k : Nat) : State :=
  let x := s.stream k
  if x.egress ∨ x.state ≠ 1 then s
  else (s.setStream k { (x.setState 2) with inj := [] }).dropBypass k

/-- The streams named are OPEN again from position `t` of each (R272), and a flag due is raised (R260). -/
def State.replay (s : State) (k t : Nat) : State :=
  let x := s.stream k
  let s := s.setStream k { (x.setState 1) with rpos := t, inj := [] }
  let s := if t = x.rpos then s else s.forgetWire k
  if x.sigCells ≠ 0 ∧ x.sigCells ≤ x.vpos - t then s.raiseStreamFlag k else s

/-- First position of the packet that contains rpos (R272). -/
def State.resumeAt (s : State) (k : Nat) : Nat :=
  let x := s.stream k
  if x.rpos = x.wpos then x.rpos else s.packetStart x x.rpos (x.rpos - x.mpos)

end Sys2Proof.Machine
end

