-- ==== Sys2Proof/Machine/Transport.lean ====
section
/-!
DEFINITION. Machine/Transport.lean: the command transport (chapter 11): queues, doorbells, rings, replies and events,
the packets that carry them, in-band frames, the management port, Barista's slices.
-/
namespace Sys2Proof.Machine

/-! ## Queues and roles (R334, R335) -/

/-- The queue identity of KIND, HOST, QUEUE. -/
def qidOf (kind host q : Nat) : Nat := 65536 * kind + 4096 * host + q
def qidKind (x : Nat) : Nat := field x 16 2
def qidHost (x : Nat) : Nat := field x 12 4
/-- The management queue. -/
def mgmtQid : Nat := 0x20000

/-- A queue before anything has bound it; the management queue is always bound to the platform owner. -/
def queueReset (x : Nat) : Queue := if x = mgmtQid then { owner := 16, depth := 16 } else {}

def State.queue (s : State) (x : Nat) : Queue := tget (queueReset x) s.queues x
def State.setQueue (s : State) (x : Nat) (q : Queue) : State := { s with queues := tset (queueReset x) s.queues x q }
def State.updQueue (s : State) (x : Nat) (f : Queue → Queue) : State := s.setQueue x (f (s.queue x))

def State.role (s : State) (r : Nat) : Role := tget {} s.roles r
def State.setRole (s : State) (r : Nat) (x : Role) : State := { s with roles := tset {} s.roles r x }
def State.setPart (s : State) (q : Nat) (x : Part) : State := { s with parts := tset {} s.parts q x }
def State.updPart (s : State) (q : Nat) (f : Part → Part) : State := s.setPart q (f (s.part q))

def State.port (s : State) (n : Nat) : HostPort := tget {} s.ports n
def State.updPort (s : State) (n : Nat) (f : HostPort → HostPort) : State :=
  { s with ports := tset {} s.ports n (f (s.port n)) }

/-- The host port is there under the widths of the shell configuration (R336): its link width, 0 when absent. -/
def State.portWidth (s : State) (n : Nat) : Nat :=
  match s.boot.shell.width with
  | 0 => 4
  | 1 => if n % 2 = 0 then 8 else 0
  | 2 => if n = 0 then 16 else 0
  | _ => 0

/-- Commands of a recipient from fetch to reply (R346). -/
def State.inFlight (s : State) (r : Nat) : Nat := tget 0 s.flights r
def State.setFlights (s : State) (r n : Nat) : State := { s with flights := tset 0 s.flights r n }
def flightLimit (r : Nat) : Nat := if r = 16 then 256 else 4096
def State.buffer (s : State) (r : Nat) : List CmdRec := tget [] s.buffers r
def State.setBuffer (s : State) (r : Nat) (b : List CmdRec) : State := { s with buffers := tset [] s.buffers r b }

/-- The number of running commands of a recipient. -/
def State.runningOf (s : State) (r : Nat) : Nat := (s.running.filter fun x => x.cmd.stamp == r).length

/-! ## Interrupts (R353) -/

/-- Word `i` of MSI-X vector `v`: every vector is masked until its control word says otherwise. -/
def HostPort.msixWord (p : HostPort) (v i : Nat) : Word := tget (if i = 3 then 1 else 0) p.msix (4 * v + i)

/-- Vector `v` is sent, or pends while it is masked. -/
def State.sendMsix (s : State) (n v : Nat) : State :=
  let p := s.port n
  if p.msixWord v 3 &&& 1 = 1 then s.updPort n fun p => { p with pend := tset false p.pend v true }
  else { s with hostWrites := s.hostWrites ++
    [{ port := n, addr := (p.msixWord v 1).toNat * 2 ^ 32 + (p.msixWord v 0).toNat, bytes := leBytes 4 (p.msixWord v 2).toNat }] }

/-- HP_STICKY bits are set; vector 64 follows when one is new and PIEN = 1. -/
def State.hpStick (s : State) (n : Nat) (bits : Word) : State :=
  let new := bits &&& ~~~(s.port n).sticky
  let s := s.updPort n fun p => { p with sticky := p.sticky ||| bits }
  if new ≠ 0 ∧ (s.port n).ctrl &&& 1 = 1 then s.sendMsix n 64 else s

def hpPcieErr : Word := 8
def hpBadBind : Word := 4
def hpDoorbell : Word := 2
def hpRetry : Word := 1

/-- FAULT is set with its code (Table 11-5). -/
def State.queueFault (s : State) (x code : Nat) : State :=
  s.updQueue x fun q => { q with fault := true, fcode := code }

/-! ## Doorbells and queue control (R337, R338) -/

/-- SQ_TAIL of a queue is written. -/
def State.tailWrite (s : State) (x t : Nat) : State :=
  let q := s.queue x
  if !q.active then s
  else if t < 2 * q.sqSize ∧ (t + 2 * q.sqSize - q.sqHead) % (2 * q.sqSize) ≤ q.sqSize then
    s.setQueue x { q with sqTail := t }
  else (s.queueFault x 3).hpStick (qidHost x) hpDoorbell

/-- CQ_HEAD of a queue is written. -/
def State.headWrite (s : State) (x h : Nat) : State :=
  let q := s.queue x
  let m := 2 * q.cqSize
  if !q.active then s
  else if h < m ∧ (q.cqTail + m - h) % m ≤ (q.cqTail + m - q.cqHead) % m then s.setQueue x { q with cqHead := h }
  else (s.queueFault x 4).hpStick (qidHost x) hpDoorbell

/-- Q_CTRL of a queue is written: EN = 1 opens a queue that is not ACTIVE. -/
def State.queueCtrl (s : State) (x : Nat) (w : Word) : State :=
  let q := { s.queue x with en := w.getLsbD 0, ien := w.getLsbD 1 }
  let size (n : Nat) : Bool := decide (1 ≤ n) && decide (n ≤ 4096)
  if !q.en || q.active then s.setQueue x q
  else if !size q.sqSize || !size q.cqSize then s.setQueue x { q with fault := true, fcode := 1 }
  else if q.owner = 31 then s.setQueue x { q with fault := true, fcode := 2 }
  else s.setQueue x
    { q with active := true, sqHead := 0, cqTail := 0, sqTail := 0, cqHead := 0, fault := false, fcode := 0 }

/-- SQ_TAIL_WRITE (R338); `off`: EN = 0 is written to the queue in the same cycle, and governs (R356). -/
def execSqTailWrite (n : Fin 4) (m : Fin 64) (b : Doorbell) (s : State) : Host.Outcome State Fault Refusal :=
  .next (if s.portWidth n = 0 ∨ b.off then s else s.tailWrite (qidOf 0 n m) (field b.word.toNat 0 13))

/-- CQ_HEAD_WRITE (R338); `off` as for SQ_TAIL_WRITE. -/
def execCqHeadWrite (n : Fin 4) (m : Fin 64) (b : Doorbell) (s : State) : Host.Outcome State Fault Refusal :=
  .next (if s.portWidth n = 0 ∨ b.off then s else s.headWrite (qidOf 0 n m) (field b.word.toNat 0 13))

/-- Q_CTRL_WRITE (R337). -/
def execQCtrlWrite (n : Fin 4) (m : Fin 64) (w : Word) (s : State) : Host.Outcome State Fault Refusal :=
  .next (if s.portWidth n = 0 then s else s.queueCtrl (qidOf 0 n m) w)

/-- Delivered events that will not be written stay in their buffers (R337, R340). -/
def State.undeliver (s : State) (rs : List Reply) : State :=
  rs.foldl (fun s r => if !r.isEvent then s else
    let b := State.evb s r.stamp
    s.setEvb r.stamp { b with entries := b.entries.map fun e => if e.eseq = r.ident then { e with delivered := false } else e }) s

/-- Replies and events of a queue that wait are discarded. -/
def State.dropReplies (s : State) (x : Nat) : State :=
  let q := s.queue x
  (s.undeliver (q.sent ++ q.replies)).updQueue x fun q => { q with sent := [], replies := [] }

/-- QUEUE_DISABLE_DONE (R337): after EN = 0, with every fetched command completed and its reply written, ACTIVE becomes
0. A faulted queue does not wait for the writing: its replies are discarded. -/
def execQueueDisableDone (n : Fin 4) (m : Fin 64) (s : State) : Host.Outcome State Fault Refusal :=
  let x := qidOf 0 n m
  let q := s.queue x
  .next (if q.active && !q.en && q.inFlight == 0 && q.reading == 0 && (q.fault || (q.replies.isEmpty && q.sent.isEmpty)) then
    (s.dropReplies x).updQueue x fun q => { q with active := false }
  else s)

/-! ## Replies and events (Table 11-7) -/

/-- A byte string cut or filled with zeros to a length. -/
def padTo (n : Nat) (b : List Byte) : List Byte := (b ++ List.replicate (n - b.length) 0).take n

/-- IV of a session MAC (R343). -/
def macIv (qid seq dir : Nat) : List Byte := leBytes 4 qid ++ leBytes 4 seq ++ leBytes 4 dir

/-- The 32 bytes of a reply or event, with its phase bit and the SQ_HEAD it shows. -/
def Reply.packet (r : Reply) (qid phase sqHead : Nat) : List Byte :=
  let body (p : Nat) (mac : List Byte) : List Byte :=
    leBytes 2 r.status ++ leBytes 2 r.ident ++ leBytes 2 r.opcode
      ++ leBytes 1 (p + 2 * bit r.isEvent + 4 * bit r.key.isSome) ++ leBytes 1 0
      ++ leBytes 2 (if r.isEvent then r.object else sqHead) ++ leBytes 4 (r.rseq.getD 0) ++ padTo 12 r.result ++ mac
  match r.key with
  | none => body phase (leBytes 6 0)
  | some k => body phase (padTo 6 (Config.gmac k (macIv qid (r.rseq.getD 0) 1) (body 0 (leBytes 6 0))))

/-- The next RSEQ of a queue for a role (R344): 0 without a session; past the last one a free value. -/
def State.takeRseq (s : State) (x r : Nat) : Nat × State :=
  let q := s.queue x
  if (s.role r).session.isNone then (0, s)
  else if q.rseq = 0xFFFFFFFF#32 then
    let (n, s) := s.draw
    (Config.free n % 2 ^ 32, s)
  else (q.rseq.toNat + 1, s.setQueue x { q with rseq := q.rseq + 1 })

/-- An entry as it is written, with its number (R344): one whose role holds no session has RSEQ 0 and MACV = 0. -/
def State.number (s : State) (x : Nat) (r : Reply) : Reply × State :=
  match r.rseq with
  | some _ => (r, s)
  | none =>
    let key := if (s.role r.stamp).session.isNone then none else r.key
    let (n, s) := s.takeRseq x r.stamp
    ({ r with rseq := some n, key := key }, s)

/-- Entries that wait when the numbering of their queue begins anew keep the old one: with no session, RSEQ 0; else the
numbers that come next. -/
def Queue.settle (q : Queue) (held : Bool) : Queue :=
  let fix (rs : List Reply) (n : Nat) : List Reply × Nat := rs.foldl (fun (out, n) r =>
    if r.rseq.isSome then (out ++ [r], n)
    else (out ++ [{ r with rseq := some (if held then n % 2 ^ 32 else 0), key := if held then r.key else none }], n + 1))
    (([] : List Reply), n)
  let a := fix q.sent (q.rseq.toNat + 1)
  { q with sent := a.1, replies := (fix q.replies a.2).1 }

/-- Entries of a queue that wait for a number. -/
def Queue.unnumbered (q : Queue) : Nat := ((q.sent ++ q.replies).filter fun r => r.rseq.isNone).length

/-- A reply or event goes toward its queue: on the mesh to the host port or the lane's line block, or into the
management port. The phase, SQ_HEAD, RSEQ and MAC are filled in when it is written (log entry 52). -/
def State.sendReply (s : State) (x : Nat) (r : Reply) : State :=
  if qidKind x = 2 then s.updQueue x fun q => { q with sent := q.sent ++ [r] }
  else
    let s := s.updQueue x fun q => { q with replies := q.replies ++ [r] }
    let dst := if qidKind x = 0 then hostPort (qidHost x) else lanePort ((s.inbandLane x).getD ((s.queue x).lane % 64))
    s.issue { part := r.stamp, opc := 6, addr := x, src := baristaPort, dst := dst, len := 32, data := r.packet x 0 0,
              purpose := .reply x }

/-- The opcode, CID and SEQ of a command (Table 11-6). -/
def CmdRec.opcode (c : CmdRec) : Nat := leNat (c.bytes.take 2)
def CmdRec.cid (c : CmdRec) : Nat := leNat ((c.bytes.drop 4).take 2)
def CmdRec.seq (c : CmdRec) : Nat := leNat ((c.bytes.drop 6).take 4)
def CmdRec.flags (c : CmdRec) : Nat := (c.bytes.getD 2 0).toNat
/-- Bytes `[a, a + n)` of a command as a number, and as bytes. -/
def CmdRec.num (c : CmdRec) (a n : Nat) : Nat := leNat ((c.bytes.drop a).take n)
def CmdRec.sub (c : CmdRec) (a n : Nat) : List Byte := (c.bytes.drop a).take n

/-- A command is no longer in flight (R346). -/
def State.landFlight (s : State) (c : CmdRec) : State :=
  (s.setFlights c.stamp (s.inFlight c.stamp - 1)).updQueue c.qid fun q => { q with inFlight := q.inFlight - 1 }

/-- The reply to a command (R344, R350). The reply of the OWNER_ENROLL that starts a session has RSEQ 0; that of a
SESSION_REKEY is numbered `number`, before RSEQ restarts; any other is numbered when it is written. A role without a session gets no MAC. A reply whose port has
gone is discarded (R340). -/
def State.reply (s : State) (c : CmdRec) (status : Nat) (result : List Byte) (faults : Bool := false)
    (number : Option Nat := none) : State :=
  let s := s.landFlight c
  if c.silent then s
  else
    s.sendReply c.qid
      { status := status, ident := c.cid, opcode := c.opcode, result := result, rseq := number, stamp := c.stamp,
        key := if c.auth && (s.role c.stamp).session.isSome then c.key else none, faults := faults }

/-! ## Fetching (R339, R346) -/

/-- Entries a recipient has room for. -/
def State.fetchRoom (s : State) (r : Nat) : Nat :=
  min (256 - (s.inFlight r - s.runningOf r)) (flightLimit r - s.inFlight r)

/-- COMMAND_FETCH (R335, R338, R339, R346): the port reads up to 8 entries; the binding of this moment stamps them. -/
def execCommandFetch (n : Fin 4) (m : Fin 64) (s : State) : Host.Outcome State Fault Refusal :=
  let x := qidOf 0 n m
  let q := s.queue x
  let size := max 1 q.sqSize
  let waiting := (q.sqTail + 2 * size - q.sqHead) % (2 * size)
  let k := min (min 8 waiting) (min (size - q.sqHead % size) (s.fetchRoom q.owner))
  if s.portWidth n = 0 ∨ !(s.port n).training ∨ !q.active ∨ !q.en ∨ q.fault ∨ q.reading ≠ 0 ∨ k = 0 ∨ 16 < q.owner then .next s
  else
    let s := (s.setFlights q.owner (s.inFlight q.owner + k)).setQueue x
      { q with reading := k, inFlight := q.inFlight + k }
    .next { s with hostReads := s.hostReads ++
      [{ port := n, addr := q.sqBase.toNat + 64 * (q.sqHead % size), len := 64 * k, fetch := some (x, q.owner) }] }

/-- The entries of a fetch arrive, and go to Barista as CMD packets; or the fetch met an error. -/
def State.fetchDone (s : State) (h : HostRead) (x r : Nat) (data : List Byte) (err : Bool) : State :=
  let q := s.queue x
  let k := q.reading
  let q := { q with reading := 0 }
  if err then
    ((((s.setFlights r (s.inFlight r - k)).setQueue x { q with inFlight := q.inFlight - k }).queueFault x 5).hpStick h.port hpPcieErr)
  else
    let s := s.setQueue x { q with sqHead := (q.sqHead + k) % (2 * max 1 q.sqSize) }
    (List.range k).foldl (fun (s : State) i =>
      let b := padTo 64 (data.drop (64 * i))
      match h.stop with
      | some st => s.reply { qid := x, stamp := r, bytes := b } st []
      | none => State.issue s
          { part := r, opc := 4, addr := x, src := hostPort h.port, dst := baristaPort, len := 64, data := b
            purpose := .command x }) s

/-- MESH_CMD (R290, R335, R346): the oldest CMD packet that has reached Barista is taken into its recipient's buffer. A
command of an in-band queue whose depth, buffer or limit is exhausted is answered QUEUE_FULL without a MAC. A partition
that is being destroyed, or is gone, has its commands answered DISCARDED_RESET (R350, R367). -/
def execMeshCmd (s : State) : Host.Outcome State Fault Refusal :=
  match s.mesh.arrived.find? (fun k => k.opc == 4) with
  | none => .next s
  | some k =>
    let s := { s with mesh := { s.mesh with arrived := s.mesh.arrived.erase k } }
    let x := k.addr
    let q := s.queue x
    let r := k.part
    let c : CmdRec := { qid := x, stamp := r, bytes := k.data }
    let gone := decide (r < 16) && ((s.part r).state == 0 || (s.part r).state == 4)
    if qidKind x = 0 then
      if gone && q.active then .next ((s.reply c stDiscardedReset []).answer k stOk []).pump
      else if !q.active then .next (s.answer k stOk []).pump
      else if 256 ≤ (s.buffer r).length then .next (s.answer k stQueueFull []).pump
      else .next ((s.setBuffer r (s.buffer r ++ [c])).answer k stOk []).pump
    else
      let full := decide (q.depth ≤ q.inFlight) || decide (256 ≤ (s.buffer r).length) || decide (flightLimit r ≤ s.inFlight r)
      let s := (s.setFlights r (s.inFlight r + 1)).setQueue x { q with inFlight := q.inFlight + 1 }
      let s := if gone then s.reply c stDiscardedReset [] else if full then s.reply c stQueueFull []
        else s.setBuffer r (s.buffer r ++ [c])
      .next (s.answer k stOk []).pump

/-- Events that a block sends: a code with a STATUS it can have (Table 11-10); SYSTEM events are the platform owner's. -/
def eventKnown (r code status : Nat) : Bool :=
  if code = 3 ∨ code = 0x20 then status == stPoison
  else if code = 0x11 then status == stOk || status == stMarkLost
  else if code = 0x40 then status == stDiscarded
  else if code = 0x42 then status == stOk || status == stPoison
  else if code = 0x50 then r == 16 && (status == stOk || status == stAuth || status == stWrongPartition || status == stDomainOff)
  else (code == 1 || code == 2 || code == 0x10 || code == 0x12 || code == 0x30 || code == 0x41 || code == 0x60) && status == stOk

/-- MESH_EVT (R290, R354): an event of a block, laid out as Table 11-7 has it, reaches Barista and enters the buffer of the
partition it comes for, which counts it when it is full. No block sends a code or STATUS that Table 11-10 does not list. -/
def execMeshEvt (r : MeshReq) (s : State) : Host.Outcome State Fault Refusal :=
  let (k, s1) := s.takeRequest r 5
  let n (a c : Nat) : Nat := leNat ((k.data.drop a).take c)
  if k.data.length ≠ 32 then .next (s1.answer k stBadLength []).pump
  else if !eventKnown k.part (n 4 2) (n 0 2) then .next s
  else
    let s := s1.raiseEvent k.part { code := n 4 2, status := n 0 2, object := n 8 2, data := (k.data.drop 14).take 12 }
    .next (s.answer k stOk []).pump

/-- MESH_RPL (R339): the oldest RPL packet that has reached its port hands over the queue's oldest reply. -/
def execMeshRpl (s : State) : Host.Outcome State Fault Refusal :=
  match s.mesh.arrived.find? (fun k => k.opc == 6) with
  | none => .next s
  | some k =>
    let s := { s with mesh := { s.mesh with arrived := s.mesh.arrived.erase k } }
    let s := s.updQueue k.addr fun q => { q with sent := q.sent ++ q.replies.take 1, replies := q.replies.drop 1 }
    .next (s.answer k stOk []).pump

/-- MESH_RESPONSE (R290, R293): a response frees its tag; one of an old epoch does nothing more. A CMD that met
QUEUE_FULL is sent again. -/
def execMeshResponse (s : State) : Host.Outcome State Fault Refusal :=
  match s.mesh.answered.find? (fun k => k.purpose.plain || k.epoch != s.epochOf k.part) with
  | none => .next s
  | some k =>
    let m := { (s.mesh.freeTag k) with answered := s.mesh.answered.erase k }
    match m.unanswered.find? fun u => u.part == k.part && u.tag == k.tag && u.purpose == k.purpose with
    | none => .next { s with mesh := m }
    | some u =>
      let s := { s with mesh := { m with unanswered := m.unanswered.erase u } }
      if k.status = stQueueFull ∧ k.epoch = s.epochOf k.part then
        let s := s.issue u
        .next (match (List.range 4).find? fun n => hostPort n == u.src with
          | some n => s.hpStick n hpRetry
          | none => s)
      else .next s

/-! ## Completion rings (R339, R353) -/

/-- Entries of a completion ring that the host has not consumed. -/
def Queue.ringUsed (q : Queue) : Nat := (q.cqTail + 2 * q.cqSize - q.cqHead) % (2 * max 1 q.cqSize)

/-- COMPLETION_WRITE (R337 to R339, R353): the oldest reply or event that has reached the port is written at CQ_TAIL,
and the vector follows; or the write met a PCI Express error. -/
def execCompletionWrite (n : Fin 4) (m : Fin 64) (err : Bool) (s : State) : Host.Outcome State Fault Refusal :=
  let x := qidOf 0 n m
  let q := s.queue x
  match q.sent with
  | [] => .next s
  | r :: rest =>
    if !q.active ∨ q.fault ∨ q.cqSize ≤ q.ringUsed then .next s
    else if err then .next ((s.queueFault x 5).hpStick n hpPcieErr)
    else
      let (r, s) := s.number x r
      let p := bit (decide (q.cqTail < q.cqSize))
      let w : HostWrite := { port := n, addr := q.cqBase.toNat + 32 * (q.cqTail % q.cqSize), bytes := r.packet x p q.sqHead }
      let s := { s with hostWrites := s.hostWrites ++ [w] }
      let s := s.updQueue x fun q => { q with sent := rest, cqTail := (q.cqTail + 1) % (2 * q.cqSize) }
      let s := if r.faults then s.queueFault x 6 else s
      .next (if q.ien then s.sendMsix n m else s)

/-! ## Loss of a port (R340, R491) -/

/-- A packet has not reached the end of its way. -/
def State.onTheWay (s : State) (k : Packet) : Bool :=
  s.mesh.inject.any (fun e => e.1.id == k.id) || s.mesh.vc.any (fun e => e.2.flits.any fun f => f.pkt.id == k.id) ||
    s.mesh.arrived.any fun a => a.id == k.id

/-- The command has been answered QUEUE_FULL, and the answer is on its way back. -/
def State.sentBack (s : State) (k : Packet) : Bool :=
  let m := s.mesh
  (m.inject.map (·.1) ++ (m.vc.flatMap fun e => e.2.flits.map (·.pkt)) ++ m.answered).any fun a =>
    a.isResponse && a.part == k.part && a.tag == k.tag && a.status == stQueueFull

/-- The stamps of the commands of the queues `mine` that are in flight and not started: being fetched, on the mesh, buffered. -/
def State.unstarted (s : State) (mine : Nat → Bool) : List Nat :=
  let cmd (k : Packet) : Bool := k.opc == 4 && mine k.addr
  (s.hostReads.flatMap fun h => match h.fetch with
      | some (x, r) => if mine x then List.replicate (s.queue x).reading r else []
      | none => [])
    ++ ((s.mesh.waiting ++ s.mesh.lost).filter cmd).map (·.part)
    ++ (s.mesh.unanswered.filter fun k => cmd k && (s.onTheWay k || s.sentBack k)).map (·.part)
    ++ s.buffers.flatMap fun e => (e.2.filter fun c => mine c.qid).map fun _ => e.1

/-- The port's queues lose ACTIVE, its commands not started vanish, its replies are discarded, BAR0 is reset. -/
def State.losePort (s : State) (n : Nat) : State :=
  let mine (x : Nat) : Bool := qidKind x == 0 && qidHost x == n
  let gone (k : Packet) : Bool := k.opc == 4 && mine k.addr
  let s := (s.unstarted mine).foldl (fun s r => State.setFlights s r (s.inFlight r - 1)) s
  let m := s.mesh
  let lostIds := (m.unanswered.filter gone).map (·.id)
  let s : State := lostIds.foldl (fun s i => State.purge s i) s
  let s := { s with mesh := { s.mesh with waiting := m.waiting.filter fun k => !gone k
                                          arrived := m.arrived.filter fun k => !gone k
                                          lost := m.lost.filter fun k => !gone k
                                          unanswered := m.unanswered.filter fun k => !gone k
                                          txns := m.txns.filter fun t => !(m.unanswered.any fun k => gone k && k.tag == t.tag && k.part == t.part) } }
  let quiet (h : HostRead) : HostRead :=
    if h.port = n then { h with payload := h.payload.map fun (c : CmdRec) => { c with silent := true } } else h
  let s := { s with hostReads := (s.hostReads.filter fun (h : HostRead) => !(h.port == n && h.fetch.isSome)).map quiet
                    buffers := s.buffers.foldl (fun (t : Tab (List CmdRec)) (e : Nat × List CmdRec) => tset [] t e.1 (e.2.filter fun c => !mine c.qid)) []
                    running := s.running.map fun (r : Running) => if mine r.cmd.qid then { r with cmd := { r.cmd with silent := true } } else r }
  let xs := (s.queues.map (·.1)).filter mine
  let s := xs.foldl (fun (s : State) x =>
    let q := State.queue s x
    let left := (s.running.filter fun (r : Running) => r.cmd.qid == x).length
    (s.dropReplies x).setQueue x
      { owner := q.owner, last := q.last, rseq := q.rseq, authFails := q.authFails, inFlight := left }) s
  s.updPort n fun p => { perst := p.perst, training := p.training }

/-- PERST_ASSERT (R340). -/
def execPerstAssert (n : Fin 4) (s : State) : Host.Outcome State Fault Refusal :=
  .next ((s.losePort n).updPort n fun p => { p with perst := true, training := false })

/-- HOST_LINK_DOWN (R340). -/
def execHostLinkDown (n : Fin 4) (s : State) : Host.Outcome State Fault Refusal := .next (s.losePort n)

/-- PERST_DEASSERT (R491): the port starts link training once its width is known. -/
def execPerstDeassert (n : Fin 4) (s : State) : Host.Outcome State Fault Refusal :=
  .next (s.updPort n fun p => { p with perst := false, training := s.portWidth n != 0 })

/-! ## Barista's slices (R347) -/

/-- Owner of slice `k` of core `c`: every eighth slice belongs to the system; 17 to 31 act as idle. -/
def State.sliceOwner (s : State) (c k : Nat) : Nat := if k % 8 = 0 then 16 else tget 16 s.slices (64 * c + k)

/-- BARISTA_SLICE_END (R347): the core turns to its next slice. -/
def execBaristaSliceEnd (c : Fin 4) (s : State) : Host.Outcome State Fault Refusal :=
  .next { s with sliceNow := s.sliceNow.set c ((s.sliceNow.get c + 1) % 64) }

/-- The recipient holds a slice of some core. -/
def State.hasSlice (s : State) (r : Nat) : Bool := (List.range 256).any fun i => s.sliceOwner (i / 64) (i % 64) == r
/-- Core `c` is in a slice of the recipient. -/
def State.coreIn (s : State) (c r : Nat) : Bool := s.sliceOwner c (s.sliceNow.toList.getD c 0) == r
/-- A core is in a slice of the recipient. -/
def State.inSlice (s : State) (r : Nat) : Bool := (List.range 4).any fun c => s.coreIn c r
/-- The core that starts a command of the recipient. DESIGN CHOICE (log entry 60): the lowest in one of its slices. -/
def State.coreOf (s : State) (r : Nat) : Nat := ((List.range 4).find? fun c => s.coreIn c r).getD 0
/-- A started command can go on: its core is in a slice of its owner. -/
def State.onCore (s : State) (c : CmdRec) : Bool := s.coreIn c.core c.stamp

/-! ## Events (R354) -/

/-- Every event code of Table 11-10. -/
def eventCodes : List Nat := [1, 2, 3, 0x10, 0x11, 0x12, 0x20, 0x30, 0x40, 0x41, 0x42, 0x50, 0x60]

/-- The queue has room for one more event. -/
def State.eventRoom (s : State) (x : Nat) : Bool :=
  let q := s.queue x
  qidKind x != 0 || (q.active && !q.fault && decide (q.ringUsed + q.sent.length + q.replies.length < q.cqSize))

/-- EVENT_DELIVER (R354): the recipient's oldest event that can be delivered goes to its subscribed queue. -/
def execEventDeliver (r : Recip) (s : State) : Host.Outcome State Fault Refusal :=
  let b := s.evb r
  let target (e : EventEntry) : Option Nat :=
    if e.delivered then none
    else match tget none b.subs e.ev.code with
      | some x => if (s.queue x).owner = r ∧ s.eventRoom x then some x else none
      | none => none
  match b.entries.find? fun e => (target e).isSome with
  | none => .next s
  | some e =>
    let x := (target e).getD 0
    let s := s.setEvb r { b with entries := b.entries.map fun y => if y.eseq = e.eseq then { y with delivered := true } else y }
    .next (s.sendReply x
      { status := e.ev.status, ident := e.eseq, opcode := e.ev.code, isEvent := true, object := e.ev.object
        result := padTo 12 e.ev.data, stamp := r, key := (s.role r).session.map (·.krpl) })

/-! ## In-band hosts (R351) -/

/-- An MLF frame is received (R227 to R233, R335, R351): the commands of a COMMAND frame go to Barista in packet order,
stamped with the binding of their queue. -/
def State.mlfRx (s : State) (l : Nat) (f : RxFrame) : State :=
  match s.mlfFrame l f with
  | (none, s) => s
  | (some payload, s) =>
    let b := (payload.getD 0 0).toNat
    let n := (payload.getD 1 0).toNat
    let host := partnerIbh (tget 0 s.partners ((s.partnerOf l).getD 0))
    let x := qidOf 1 host b
    let r := (s.queue x).owner
    if 15 < b ∨ 16 ≤ r then s.rxCount l 5
    else
      let s := (s.rxCount l 0).updQueue x fun q => { q with lane := l }
      (List.range n).foldl (fun s i => State.issue s
        { part := r, opc := 4, addr := x, src := lanePort l, dst := baristaPort, len := 64
          data := (payload.drop (4 + 64 * i)).take 64, purpose := .command x }) s

/-- MLF_COMMAND_RX (R227, R233, R335, R351). -/
def execMlfCommandRx (l : LaneIx) (f : RxFrame) (s : State) : Host.Outcome State Fault Refusal :=
  .next (if s.mlfKind l f (· == 4) then s.mlfRx l f else s)

/-- A lane receives a frame, of whatever kind (R227, R231, R234, R236). -/
def State.frameRx (s : State) (l : Nat) (f : RxFrame) : State :=
  if !(s.lane l).up then s
  else match pfcBody f.bytes with
    | some b => s.pfcRx l f b
    | none =>
      if (macControl f.bytes).isSome then s.controlRx l f
      else if s.plainFrame l f then s.etherRx l f
      else s.mlfRx l f

/-- The frame as the near-end loopback hands it to the lane's own receiver (Table 07-5): its ICV holds under a receive
association with the key, salt and SSCI of the transmit one. -/
def Lane.looped (k : Lane) (f : TxFrame) : RxFrame :=
  let tag (icv : Bool) : Option SecTag := f.sec.map fun (i, a) =>
    { sci := some (k.txSciHi ++ k.txSciLo), enc := true, an := Fin.ofNat 4 i, pn := BitVec.ofNat 64 a.pn, icv := icv }
  let same : Bool := match f.sec, (tag true).bind k.rxSa with
    | some (_, a), some (_, b) => a.key == b.key && a.salt == b.salt && a.ssci == b.ssci
    | _, _ => false
  { bytes := f.bytes, cut := false, fcs := true, sec := tag same }

/-- The frame on the wire has been sent whole (R262): TX_FRAMES and SENT_FRAMES count it, and rpos passes a bypassed
packet's cells. -/
def State.frameSent (s : State) (l : Nat) (f : TxFrame) : State :=
  let s := (s.updLane l fun k => { k with tx := none }).laneCount l 11
  let s := match f.stream with
    | some k => s.streamCount k 7
    | none => s
  match f.bypass with
  | none => s
  | some (k, n) =>
    let s := { s with alloc := { s.alloc with bypFrames := s.alloc.bypFrames + 1 } }
    if n = 0 then s
    else (s.updStream k fun x => { x with bypBusy := false }).readTo k ((s.stream k).rpos + n)

/-- FRAME_SENT_WHOLE (R262). In near-end loopback the lane receives what it has sent (Table 07-5). DEDUCED (log entry 90): in
far-end loopback what is received goes back to the partner, which the device's own state does not show. -/
def execFrameSentWhole (l : LaneIx) (s : State) : Host.Outcome State Fault Refusal :=
  let k := s.lane l
  match k.tx with
  | none => .next s
  | some f =>
    let s := s.frameSent l f
    .next (if field k.ctrl.toNat 8 2 = 1 then s.frameRx l (k.looped f) else s)

/-- INBAND_REPLY_TX (R226, R233, R351): control frames that wait go first; then up to 16 replies and events of an in-band queue leave in one frame. -/
def execInbandReplyTx (q : Fin 192) (s : State) : Host.Outcome State Fault Refusal :=
  let x := qidOf 1 (q / 16) (q % 16)
  match s.inbandLane x with
  | none => .next s
  | some l =>
    let rs := (s.queue x).sent.take 16
    if rs = [] ∨ !s.mayStart l ∨ !s.laneMlf l then .next s
    else if (s.lane l).ctlDue ≠ [] then .next (s.sendControl l)
    else
      let s := s.updQueue x fun y => { y with sent := y.sent.drop 16 }
      let (rs, s) := rs.foldl (fun (out, s) r => let (r, s) := State.number s x r; (out ++ [r], s)) (([] : List Reply), s)
      let payload := leBytes 1 (q % 16) ++ leBytes 1 rs.length ++ leBytes 2 0 ++ rs.flatMap fun r => Reply.packet r x 0 0
      let (b, s) := s.mlfBytes l 4 0 0 true payload
      let s := if rs.any (·.faults) then s.queueFault x 6 else s
      .next (s.sendFrame l { kind := 2, bytes := b })

/-! ## The management port (R352, R520, R534) -/

/-- The port's 7-bit address. -/
def State.smbAddress (s : State) : Nat := 0x58 + s.smbAddr

/-- The transaction is for this device. -/
def State.smbHit (s : State) (a : BitVec 7) : Bool := a.toNat == s.smbAddress && !s.boot.held

/-- SMBUS_COMMAND_WRITE (R346, R352): a block write with code 0x10; one with a bad PEC is discarded, one of another
length is not acknowledged, as is every code but 0x12 before READY. -/
def execSmbusCommandWrite (a : BitVec 7) (data : List Byte) (pec : Bool) (s : State) : Host.Outcome State Fault Refusal :=
  if !s.smbHit a ∨ !pec ∨ !s.boot.ready ∨ data.length ≠ 64 then .next s
  else
    let x := mgmtQid
    let q := s.queue x
    let c : CmdRec := { qid := x, stamp := 16, bytes := data }
    let full := decide (q.depth ≤ q.inFlight) || decide (256 ≤ (s.buffer 16).length) || decide (256 ≤ s.inFlight 16)
    let s := (s.setFlights 16 (s.inFlight 16 + 1)).setQueue x { q with inFlight := q.inFlight + 1 }
    .next (if full then s.reply c stQueueFull [] else s.setBuffer 16 (s.buffer 16 ++ [c]))

/-- SMBUS_REPLY_READ (R352): a block read with code 0x11 returns a count and the oldest waiting reply or event. -/
def execSmbusReplyRead (a : BitVec 7) (s : State) : Host.Outcome State Fault Refusal :=
  if !s.smbHit a ∨ !s.boot.ready then .next { s with readOut := [] }
  else match (s.queue mgmtQid).sent with
  | [] => .next { s with readOut := leBytes 1 0 }
  | r :: rest =>
    let (r, s) := (s.updQueue mgmtQid fun q => { q with sent := rest }).number mgmtQid r
    let s := if r.faults then s.queueFault mgmtQid 6 else s
    .next { s with readOut := leBytes 1 32 ++ r.packet mgmtQid 0 0 }

/-- SMBUS_STATUS_READ (R352): a block read with code 0x12. -/
def execSmbusStatusRead (a : BitVec 7) (s : State) : Host.Outcome State Fault Refusal :=
  .next { s with
    readOut :=
      if s.smbHit a then
        leBytes 1 4 ++ leBytes 4 (s.boot.status % 65536 + 2 ^ 16 * bit s.boot.ready
          + 2 ^ 17 * bit (!(s.queue mgmtQid).sent.isEmpty) + 2 ^ 18 * min 31 (s.inFlight 16))
      else [] }

/-- SMBUS_CLOCK_TIMEOUT (R534): the bus is released. A transaction of the model is whole, so none is cut. -/
def execSmbusClockTimeout (s : State) : Host.Outcome State Fault Refusal := .next s

/-- ALERT_N is asserted (R352, Table 17-4). -/
def State.alertAsserted (s : State) : Bool := s.boot.ready && !(s.queue mgmtQid).sent.isEmpty

/-- SMBUS_ALERT_RESPONSE (R352): while a reply or event waits, the Alert Response Address reads as the device's own. -/
def execSmbusAlertResponse (s : State) : Host.Outcome State Fault Refusal :=
  .next { s with
    readOut := if s.alertAsserted then leBytes 1 s.smbAddress else [] }

end Sys2Proof.Machine
end

