-- ==== Sys2Proof/Machine/Power.lean ====
section
/-!
DEFINITION. Machine/Power.lean: sector power states, wakes, clocks, the power cap, thermal control (chapter 15).
-/
namespace Sys2Proof.Machine

def sectorTiles (n : Nat) : List Nat := (List.range 32).map (posOf n)

/-- Rank of a power state (Table 15-1). -/
def PState.code : PState → Nat
  | .brew => 0
  | .steep => 1
  | .cool => 2
  | .cold => 3

/-- wake_ns (R469). -/
def PState.wakeNs : PState → Nat
  | .brew => 0
  | .steep => 40
  | .cool => 6000
  | .cold => 350000

/-! ## Choosing a state (R468, R469) -/

/-- Links whose reader lies in sector `n`. -/
def sectorLinks (n : Nat) : List Nat :=
  (sectorTiles n).flatMap fun h => ((List.range 20).filter fun j => (outLink h j).isSome || linkBoundary (linkId h j)).map (linkId h)

/-- The sector is idle (R468), as far as the state shows; the time it has been so is the command's. -/
def State.sectorIdle (s : State) (n : Nat) : Bool :=
  let x := s.sector n
  !x.force && !x.wakeDue && x.inbox.isEmpty && x.flagsIn.isEmpty &&
    (sectorTiles n).all (fun p =>
      let t := s.tile p
      (t.seq == .off || t.seq == .ask) && t.fill.isNone && t.fillQ.isEmpty && t.fillWait.isEmpty) &&
    s.tasks.all (fun e => e.1 / 2048 != n || (e.2.state != .ready && e.2.state != .running)) &&
    s.mesh.arrived.all fun k => proxySector (portRouter k.dst) (portNumber k.dst) != some n

/-- TOL_q minimised over the partitions with tiles in the sector; `none`: no limit. -/
def State.sectorTol (s : State) (n : Nat) : Option Nat :=
  (sectorTiles n).foldl (fun b p =>
    let q := s.ownerOf p
    if q < 16 then (let v := (s.part q).tol; match b with
      | some x => some (min x v)
      | none => some v) else b) none

/-- Nanoseconds until the earliest enabled timer fires (R191, R469). -/
def State.timerDue (s : State) (n : Nat) : Option Nat :=
  (s.sector n).timers.foldl (fun b e =>
    let per := e.2.cfg.toNat % 65536
    if e.2.cfg.getLsbD 31 && per != 0 then (let v := 1000 * (per - e.2.count); match b with
      | some x => some (min x v)
      | none => some v) else b) none

/-- Nothing in the sector's queues would be lost (cold_ok of R469). -/
def State.coldOk (s : State) (n : Nat) : Bool :=
  (sectorTiles n).all (fun p =>
    let t := s.tile p
    t.deq.all (fun d => d.rows.isEmpty && d.landing.isEmpty && d.inBank == 0 && d.gather.isEmpty) && t.enq.all (·.isEmpty)) &&
    (sectorLinks n).all fun l => (s.link l).held.isEmpty && (s.link l).flight.isEmpty

/-- choose(n) of R469, the sector having been idle for 100 µs. -/
def State.choose (s : State) (n : Nat) : PState :=
  let x := s.sector n
  if x.force || !s.sectorIdle n then .brew
  else if (sectorTiles n).any fun p => s.recovering (s.ownerOf p) then x.pstate
  else
    let fits (v : PState) : Bool :=
      (match s.sectorTol n with
        | some t => decide (v.wakeNs ≤ t)
        | none => true) &&
      (match s.timerDue n with
        | some r => decide (v.wakeNs + 1000 ≤ r)
        | none => true)
    if fits .cold && s.coldOk n then .cold else if fits .cool then .cool else if fits .steep then .steep else .brew

/-- SECTOR_POWER_CHOOSE (R469, R470, R473): a deeper state is entered by way of Steep; a shallower one wakes. -/
def execSectorPowerChoose (n : SecIx) (s : State) : Host.Outcome State Fault Refusal :=
  let x := s.sector n
  let v := s.choose n
  let s := s.updSector n fun x => { x with target := v }
  .next (if v.code < x.pstate.code then s.updSector n fun x => { x with wakeDue := true, entering := x.entering && x.committed }
    else if x.pstate = .brew ∧ v ≠ .brew then
      s.updSector n fun x => { x with pstate := .steep, fenced := true, entering := v != .steep, wakeDue := false, waking := false }
    else if x.pstate = .steep ∧ !x.committed ∧ !x.waking then s.updSector n fun x => { x with entering := v != .steep }
    else s)

/-! ## Entering a state (R473) -/

/-- A requester of the sector holds a tag: a store fill of one of its tiles, an event of its control block. -/
def State.sectorTags (s : State) (n : Nat) : Bool :=
  s.mesh.txns.any fun t => match t.purpose with
    | .fillRow p _ _ => sectorOf p == n
    | .event src => src == sectorPort n
    | _ => false

/-- A request is held at a proxy of the sector. -/
def State.proxyHolds (s : State) (n : Nat) : Bool :=
  s.mesh.vc.any fun e => e.2.held && (match e.2.flits with
    | f :: _ => proxySector (e.1 / 512) (routeOf (e.1 / 512) f.pkt.dst) == some n
    | [] => false)

/-- POINT_OF_NO_RETURN (R473). -/
def execPointOfNoReturn (n : SecIx) (s : State) : Host.Outcome State Fault Refusal :=
  let x := s.sector n
  .next (if x.pstate = .steep ∧ x.entering ∧ !x.committed ∧ !x.waking ∧ !x.wakeDue ∧ !s.sectorTags n ∧ !s.proxyHolds n then
    s.updSector n fun x => { x with committed := true, clk := 0, goal := x.target }
  else s)

/-- What a tile keeps through Cold: its fence mirror, and the dispatcher's record of its frames (R464, R467). -/
def Tile.afterCold (t : Tile) : Tile :=
  { fenced := true, fenceReq := t.fenceReq, pin := t.pin, frameId := t.frameId, fillNum := t.fillNum }

/-- Frames of a tile to refill at the wake: VALID hot slots and cache frames that hold a context (R467). -/
def State.coldFramesOf (s : State) (p : Nat) : List (Nat × Nat × Nat) :=
  let t := s.tile p
  t.frameId.filterMap fun e => match e.2 with
    | some id => if 16 ≤ e.1 || t.hotAt e.1 == .valid then some (p, e.1, id) else none
    | none => none

/-- SLEEP_STATE_REACHED (R467, R473). -/
def execSleepStateReached (n : SecIx) (s : State) : Host.Outcome State Fault Refusal :=
  let x := s.sector n
  if !x.committed then .next s
  else
    let cold := x.goal == .cold
    let s := s.updSector n fun x =>
      { x with
        pstate := if cold then .cold else .cool, committed := false, entering := false, ldo := if cold then 0 else 500
        coldFrames := if cold then (sectorTiles n).flatMap s.coldFramesOf else x.coldFrames }
    .next (if cold then (sectorTiles n).foldl (fun s p =>
        ((State.withdrawAsk s p).setMem (s.mem.clearTile p)).updTile p Tile.afterCold) s else s)

/-! ## Waking (R466, R472) -/

/-- A live neighbour, a boundary queue or an edge port presents a word to the sector's fence (R125). -/
def State.wordWaits (s : State) (n : Nat) : Bool :=
  (sectorLinks n).any fun l =>
    linkBoundary l && (!(s.link l).held.isEmpty || !(s.link l).flight.isEmpty ||
      match linkSender l with
      | some h => (match s.tileAtHome h with
        | some p => s.moving p && ((List.range 20).any fun j => outLink h j == some l && (s.present p (s.sel p j)).isSome)
        | none => false)
      | none => s.streams.any fun e => !e.2.egress && e.2.state == 1 && (s.headPacket e.1).isSome &&
          ((List.range 128).any fun g => edgeIn g == l && e.2.usesEdge g))

/-- The smallest of the three ceilings (R475). -/
def State.ceiling (s : State) (n : Nat) : Nat :=
  let x := s.sector n
  min x.clkMax (min s.power.p x.limit)

/-- V(f) in mV (R477). -/
def supplyAt (f : Nat) : Nat := 600 + 5 * ((250 * (f - 400) + 5999) / 6000)

/-- A wake starts (R466): one from Cold zeroizes the tiles, whose frames follow. -/
def State.startWake (s : State) (n : Nat) : State :=
  let x := s.sector n
  if x.pstate = .brew ∨ x.committed ∨ x.waking then s
  else
    let s := s.updSector n fun x => { x with waking := true, wakeDue := false, entering := false }
    match x.pstate with
    | .steep => s
    | v =>
      let f := s.ceiling n
      let s := s.updSector n fun x => { x with clk := f, ldo := supplyAt f }
      if v = .cold then
        (sectorTiles n).foldl (fun s p =>
          (State.setMem s (s.mem.clearTile p)).updTile p fun t => { t with zeroizing := true, zres := 1 }) s
      else s

/-- WAKE_REQUEST (R472, R473): past the point of no return it waits for the state to be reached. -/
def execWakeRequest (n : SecIx) (s : State) : Host.Outcome State Fault Refusal :=
  let x := s.sector n
  .next (if x.wakeDue || !x.inbox.isEmpty || (x.pstate != .brew && s.wordWaits n) then s.startWake n else s)

/-- The sector fence is released: senders' credits over the border are counted anew (R122). -/
def State.recountBorder (s : State) (n : Nat) : State :=
  let homes := sectorTiles n
  let ls := sectorLinks n ++ homes.flatMap fun h => (List.range 20).filterMap (outLink h)
  (ls.filter linkBoundary).foldl (fun s l => State.updLink s l (Link.recount true)) s

/-- The sector is in Brew: the inbox is applied in the first cycle (R466, R472). -/
def State.reachBrew (s : State) (n : Nat) : State :=
  let box := (s.sector n).inbox
  let s := s.updSector n fun x =>
    { x with pstate := .brew, fenced := false, waking := false, wakeDue := false, inbox := [], wakes := x.wakes + 1 }
  box.foldl (fun s f => State.arriveFlag s f.1 f.2.1 f.2.2.1 f.2.2.2) (s.recountBorder n)

/-- STEEP_WAKE_DONE (R466). -/
def execSteepWakeDone (n : SecIx) (s : State) : Host.Outcome State Fault Refusal :=
  let x := s.sector n
  .next (if x.waking ∧ x.pstate = .steep then s.reachBrew n else s)

def pmStick (s : State) (bits : BitVec 32) : State := { s with power := { s.power with sticky := s.power.sticky ||| bits } }

/-- A tile's fence takes the value of its mirror at the end of a wake (R466, R474). -/
def State.wakeFence (s : State) (p : Nat) : State :=
  let t := s.tile p
  if t.fenceReq && !t.fenced then s.applyFence p
  else if !t.fenceReq && t.fenced && s.allocated p then s.releaseFence p
  else s

/-- DEEP_WAKE_DONE (R466, R467): a wake from Cold ends once its zeroizations and refills have; `late` says that the refills
took longer than 256 µs. Tile fences take the mirror's values. -/
def execDeepWakeDone (n : SecIx) (late : Bool) (s : State) : Host.Outcome State Fault Refusal :=
  let x := s.sector n
  let cold := x.pstate == .cold
  let busy := (sectorTiles n).any fun p =>
    let t := s.tile p
    t.zeroizing || t.fill.isSome || !t.fillQ.isEmpty || !t.fillWait.isEmpty
  if !x.waking ∨ (x.pstate ≠ .cool ∧ x.pstate ≠ .cold) ∨ (cold ∧ busy) then .next s
  else
    let s := (sectorTiles n).foldl State.wakeFence (s.reachBrew n)
    .next (if cold && late then pmStick s 0x40 else s)

/-- TIMER_WAKE (R471, Table 15-3): a sector that sleeps wakes for an enabled timer. -/
def execTimerWake (n : SecIx) (s : State) : Host.Outcome State Fault Refusal :=
  let x := s.sector n
  .next (if x.pstate ≠ .brew ∧ (s.timerDue n).isSome then
    (s.updSector n fun x => { x with wakeDue := true }).startWake n
  else s)

/-- A wake source is raised at a sector (Table 15-3); a sector in Brew ignores it. -/
def State.raiseWake (s : State) (n : Nat) : State :=
  if (s.sector n).pstate = .brew then s else s.updSector n fun x => { x with wakeDue := true }

/-- A source that wakes a sector in Steep, and none in Cool or Cold (Table 15-3). -/
def State.wakeSteep (s : State) (n : Nat) : State :=
  if (s.sector n).pstate = .steep ∧ !(s.sector n).committed then s.raiseWake n else s

/-- SEC_FORCE is written (R474). -/
def State.forceAwake (s : State) (n : Nat) (v : Bool) : State :=
  let s := s.updSector n fun x => { x with force := v }
  if v then s.raiseWake n else s

/-- SEC_FORCE_WRITE (R472, R474). -/
def execSecForceWrite (n : SecIx) (w : Word) (s : State) : Host.Outcome State Fault Refusal :=
  .next (s.forceAwake n (w.getLsbD 0))

/-! ## Clocks, the cap and temperature (R475 to R482) -/

/-- CLOCK_STEP (R475, R477): one step of 25 MHz, in Brew or Steep; the LDO follows V(f). -/
def execClockStep (n : SecIx) (s : State) : Host.Outcome State Fault Refusal :=
  let x := s.sector n
  let c := s.ceiling n
  let step (f : Nat) : State := s.updSector n fun x => { x with clk := f, ldo := supplyAt f }
  .next (if (x.pstate ≠ .brew ∧ x.pstate ≠ .steep) ∨ x.committed then s
    else if x.clk + 25 ≤ c then step (x.clk + 25)
    else if c < x.clk then step (x.clk - 25)
    else s)

/-- A sensor's reading is taken (R363). -/
def State.sense (s : State) (k : Nat) (v : Int) : State :=
  let w := s.power
  let upd (f : Int → Int) (t : Tab (Option Int)) : Tab (Option Int) := tset none t k (some (f ((tget none t k).getD v)))
  { s with power := { w with now := tset 0 w.now k v, low := upd (min v) w.low, high := upd (max v) w.high } }

/-- POWER_CAP_UPDATE (R480): the device power averaged over 100 µs and the sectors' powers, in mW, as measured; then
one pass of the cap loop, once boot is complete (R476). -/
def execPowerCapUpdate (watts : BitVec 32) (sectors : List (BitVec 32)) (s : State) : Host.Outcome State Fault Refusal :=
  let w := watts.toNat
  let s := (List.range (min 8 sectors.length)).foldl (fun s i => State.sense s (17 + i) (sectors.getD i 0).toNat) (s.sense 16 w)
  let u : Power := { s.power with watts := w }
  let cap := u.cap
  let u' : Power :=
    if !s.boot.ready then u
    else if cap = 185000 then { u with p := 1600, under := 0 }
    else if cap < w then { u with p := if 400 < u.p then u.p - 25 else u.p, under := 0 }
    else if w + 2000 < cap then
      if 99 ≤ u.under ∧ u.p < 1600 then { u with p := u.p + 25, under := 0 } else { u with under := u.under + 1 }
    else { u with under := 0 }
  let unmet := decide (cap < w) && u'.p == 400 && s.boot.ready
  let s := { s with power := { u' with capUnmet := unmet } }
  .next (pmStick s ((if u'.p < u.p then 1 else 0) ||| (if unmet then 2 else 0)))

/-- Neighbouring sectors (R478). -/
def neighbours (n : Nat) : List Nat :=
  (List.range 8).filter fun m => (m / 2 == n / 2 && m != n) || (m % 2 == n % 2 && (m == n + 2 || n == m + 2))

/-- tdiff(n), in 1/16 °C (R481). -/
def State.tdiff (s : State) (n : Nat) : Int :=
  (neighbours n).foldl (fun d m => if (s.sector m).live then max d ((s.sector n).temp - (s.sector m).temp) else d) 0

/-- One pass of R481 for a sector, from the readings in `s0`. -/
def State.thermal (s0 s : State) (n : Nat) : State :=
  let x := s0.sector n
  let w := s0.power
  let tj : Int := 16 * (w.tjMax : Int)
  let d := s0.tdiff n
  let hot := decide (tj ≤ x.temp)
  let apart := decide (480 < d)
  if !x.live then s
  else if hot || apart then
    let fell := decide (400 < x.limit)
    let s := s.updSector n fun y =>
      { y with limit := if fell then y.limit - 25 else y.limit, limitBy := bit hot + 2 * bit apart, okCount := 0 }
    pmStick s ((if hot && fell then 4 else 0) ||| (if apart then 8 else 0))
  else if x.temp ≤ tj - 48 ∧ d ≤ 400 then
    let hold := 100 * (8 - w.airflow)
    if hold ≤ x.okCount + 1 ∧ x.limit < 1600 then s.updSector n fun y => { y with limit := y.limit + 25, okCount := 0 }
    else s.updSector n fun y => { y with okCount := y.okCount + 1 }
  else s.updSector n fun y => { y with okCount := 0 }

/-- THERMAL_UPDATE (R363, R481, R482): temperatures of sensors 0 to 10 in 1/16 °C, as measured; then one pass of the
thermal loop, once boot is complete and no critical alarm stands. -/
def execThermalUpdate (temps : List (BitVec 16)) (s : State) : Host.Outcome State Fault Refusal :=
  let s := (List.range (min 11 temps.length)).foldl (fun s k =>
    let v := (temps.getD k 0).toInt
    let s := State.sense s k v
    if k < 8 then s.updSector k fun x => { x with temp := v } else s) s
  let warn := s.power.tjWarn != 0 && (List.range 11).any fun k => decide (16 * (s.power.tjWarn : Int) ≤ tget 0 s.power.now k)
  let s := if warn then pmStick s 0x10 else s
  .next (if !s.boot.ready || s.power.crit then s else (List.range 8).foldl (State.thermal s) s)

/-- CRITICAL_ALARM (R482): every thermal ceiling falls to 400 MHz and FAULT_N is asserted. -/
def execCriticalAlarm (s : State) : Host.Outcome State Fault Refusal :=
  let hot := (List.range 11).any fun k => decide (16 * ((s.power.tjMax : Int) + 5) ≤ tget 0 s.power.now k)
  if !hot then .next s
  else
    let s := { s with power := { s.power with crit := true } }
    .next (pmStick ((List.range 8).foldl (fun s n =>
      State.updSector s n fun x => { x with limit := 400, limitBy := 1, okCount := 0 }) s) 0x20)

/-- CRITICAL_CLEAR (R482). -/
def execCriticalClear (s : State) : Host.Outcome State Fault Refusal :=
  let cool := (List.range 11).all fun k => decide (tget 0 s.power.now k ≤ 16 * ((s.power.tjMax : Int) - 3))
  .next (if cool then { s with power := { s.power with crit := false } } else s)

end Sys2Proof.Machine
end

