-- ==== Sys2Proof/Machine/BootImage.lean ====
section
/-!
DEFINITION. Machine/BootImage.lean: boot images, their checks and contents (R494 to R501), boot control copies (R502),
the certificate area (R507), the fuses (R433 to R436), the device's identity (R412).
-/
namespace Sys2Proof.Machine

/-! ## Fuses and identity -/

/-- The device's SERIAL and unique device secret. -/
def serial : List Byte := (List.range 16).map Config.serialByte
def uds : List Byte := (List.range 32).map Config.udsByte
/-- STEPPING, four bits. -/
def stepping : Nat := Config.steppingCode % 16

/-- The active platform-owner slot (R433). -/
def Fuses.active (f : Fuses) : Option Nat := ([3, 2, 1, 0] : List Nat).find? fun k => (tget none f.slots k).isSome
def Fuses.hash (f : Fuses) (k : Nat) : List Byte := (tget none f.slots k).getD (List.replicate 48 0)
def Fuses.activeHash (f : Fuses) : Option (List Byte) := f.active.map f.hash

/-- seed_l of R412, 64 bytes. -/
def identitySeed (label : List Byte) : List Byte :=
  padTo 64 (Config.hkdfExpand (Config.hkdfExtract serial uds) label 64)

/-- The bytes of an ASCII label (R415). -/
def ascii (t : String) : List Byte := t.toList.map fun c => BitVec.ofNat 8 c.toNat

/-- Identity keys (Table 13-4); `dbg`: debug is unlocked. -/
def dakEc : List Byte := Config.ecScalar (identitySeed (ascii "DY7440 dak ec"))
def dakPqSeed : List Byte := (identitySeed (ascii "DY7440 dak pq")).take 32
def dekEc (dbg : Bool) : List Byte :=
  Config.ecScalar (identitySeed (ascii (if dbg then "DY7440 dek ec debug" else "DY7440 dek ec")))
def dekKem (dbg : Bool) : List Byte := identitySeed (ascii (if dbg then "DY7440 dek kem debug" else "DY7440 dek kem"))

/-! ## Byte strings -/

def slice (b : List Byte) (a n : Nat) : List Byte := (b.drop a).take n
def num (b : List Byte) (a n : Nat) : Nat := leNat (slice b a n)
def zeros (b : List Byte) (a n : Nat) : Bool := num b a n == 0

/-- The CRC of R105. -/
def crc105 (b : List Byte) : Nat := (b.foldl crcByte (0 : Word)).toNat

/-- Ranges (offset, length) that overlap. -/
def overlaps (a b : Nat × Nat) : Bool := decide (a.1 < b.1 + b.2) && decide (b.1 < a.1 + a.2)

/-- No two ranges of a list overlap. -/
def disjointRanges : List (Nat × Nat) → Bool
  | [] => true
  | r :: rest => rest.all (fun x => !overlaps r x) && disjointRanges rest

/-- No value occurs twice. -/
def distinct {α : Type} [DecidableEq α] : List α → Bool
  | [] => true
  | a :: rest => !rest.contains a && distinct rest

/-! ## Verification (R494 to R499) -/

/-- The manifest of an image. -/
def manifest (b : List Byte) : List Byte := slice b (num b 36 4) (num b 40 4)

/-- Section entry `i` of a manifest (Table 16-5). -/
def bootSection (m : List Byte) (i : Nat) : List Byte := slice m (96 + 88 * i) 88

/-- Checks of the header (R495). -/
def headerReason (b : List Byte) : Nat :=
  let bind := num b 5 1 % 2 == 1
  if slice b 0 4 ≠ [0x44, 0x59, 0x42, 0x54] ∨ num b 4 1 ≠ 1 ∨ 1 < num b 5 1 ∨ !zeros b 6 2 ∨ !zeros b 44 16 ∨
      num b 60 4 ≠ crc105 (b.take 60) ∨ (!bind ∧ !zeros b 16 16) then 2
  else if num b 8 2 ≠ 0x00A1 ∨ num b 10 2 ≠ 0x7440 ∨ !(num b 12 4).testBit stepping ∨ (bind ∧ slice b 16 16 ≠ serial) then 3
  else if num b 32 4 < 64 ∨ 67108864 < num b 32 4 ∨ num b 36 4 < 64 ∨ num b 36 4 % 64 ≠ 0 ∨
      num b 32 4 < num b 36 4 + num b 40 4 then 10
  else 0

/-- Checks of the manifest and its sections' places (R496). -/
def manifestReason (b : List Byte) : Nat :=
  let m := manifest b
  let es := (List.range 4).map (bootSection m)
  let rs := es.map fun e => (num e 4 4, num e 8 4)
  if num b 40 4 ≠ 7923 ∨ num m 0 1 ≠ 1 ∨ num m 1 1 ≠ 4 ∨ !zeros m 2 2 ∨ !zeros m 24 8 ∨ !zeros m 44 4 ∨
      256 < num m 4 4 ∨ num m 4 4 < num m 8 4 ∨ 2048 < num m 12 4 ∨ num m 12 4 < num m 16 4 ∨
      es.any (fun e => !zeros e 1 3) then 4
  else if !(List.range 4).all (fun t => es.any fun e => num e 0 1 == t + 1) ∨ !disjointRanges rs ∨
      rs.any (fun r => r.1 % 64 != 0 || decide (r.1 < num b 36 4 + 7923) || decide (num b 32 4 < r.1 + r.2)) then 10
  else 0

/-- The signatures, the endorsement and the rollback check (R497 to R499). -/
def signatureReason (f : Fuses) (b : List Byte) : Nat :=
  let m := manifest b
  let body := m.take 448
  let ec := slice m 448 97
  let lms := slice m 545 56
  let e := slice m 2469 5454
  let endorsed := match f.activeHash with
    | none => zeros e 0 5454
    | some h => Config.sha384 (e.take 2049) == h && Config.ecdsaVerify (e.take 97) body (slice e 2049 96)
        && Config.pqVerify (slice e 97 1952) body (slice e 2145 3309)
  if Config.sha384 ec ≠ Config.vendorEcHash ∨ Config.sha384 lms ≠ Config.vendorLmsHash ∨
      !Config.lmsVerify lms body (slice m 601 1772) ∨ !Config.ecdsaVerify ec body (slice m 2373 96) then 5
  else if !endorsed then 6
  else if num m 4 4 < f.vendor ∨ num m 12 4 < f.config then 7
  else 0

/-- The first of the reasons that is not 0. -/
def firstReason : List Nat → Nat
  | [] => 0
  | r :: rest => if r = 0 then firstReason rest else r

/-- Stage 4 of an image (R494 to R499). -/
def verifyReason (f : Fuses) (b : List Byte) : Nat :=
  let h := headerReason b
  if h ≠ 0 then h else firstReason [manifestReason b, signatureReason f b]

/-! ## Contents (R500, R501) -/

/-- The decrypted sections, by TYPE 1 to 4; `none`: an unwrap, a tag or a measurement fails. -/
def openSections (b : List Byte) : Option (List (List Byte)) :=
  let m := manifest b
  let head := b.take 64
  match Config.gcmOpen Config.firmwareKey (slice m 32 12) head (slice m 48 32) (slice m 80 16) with
  | none => none
  | some key =>
    let one (t : Nat) : Option (List Byte) :=
      match ((List.range 4).map (bootSection m)).find? (fun e => num e 0 1 == t) with
      | none => none
      | some e =>
        match Config.gcmOpen key (slice e 12 12) (head ++ e.take 24) (slice b (num e 4 4) (num e 8 4)) (slice e 24 16) with
        | some d => if Config.sha384 d = slice e 40 48 then some (padTo (num e 8 4) d) else none
        | none => none
    match one 1, one 2, one 3, one 4 with
    | some x, some y, some z, some w => some [x, y, z, w]
    | _, _, _, _ => none

/-- The shell configuration is within Table 16-6. -/
def shellOk (d : List Byte) : Bool :=
  let w := num d 1 1
  let po := num d 2 1
  let there := po == 255 || (decide (po < 4) && (w == 0 || (w == 1 && po % 2 == 0) || (w == 2 && po == 0)))
  num d 0 1 == 1 && decide (w < 3) && there && zeros d 3 1 && zeros d 24 40 &&
    (List.range 8).all fun n => let f := num d (8 + 2 * n) 2; decide (400 ≤ f) && decide (f ≤ 1600) && f % 25 == 0

/-- Record `i` of the lane tables. -/
def laneRecord (d : List Byte) (i : Nat) : List Byte := slice d (24 * i) 24

/-- The lane tables are within Table 16-7 (R501). -/
def lanesOk (d : List Byte) : Bool :=
  let rs := (List.range (d.length / 24)).map (laneRecord d)
  distinct (rs.map fun r => num r 0 1) &&
    rs.all fun r =>
      let w (i : Nat) : Word := BitVec.ofNat 32 (num r (4 + 4 * i) 4)
      decide (num r 0 1 < 64) && decide (num r 1 1 < 4) && zeros r 2 2 &&
        w 0 &&& ~~~eqTxMask == 0 && w 1 &&& ~~~eqRxMask == 0 && w 4 &&& ~~~winMask == 0 && cursorsOk (w 0)

/-- Stage 5 of an image: a reason, and its sections (R500, R501). -/
def loadReason (b : List Byte) : Nat × List (List Byte) :=
  match openSections b with
  | some [fw, sec, sh, la] =>
    if 491520 < fw.length ∨ 262144 < sec.length ∨ sh.length ≠ 64 ∨ la.length % 24 ≠ 0 ∨ 24 * 64 < la.length then (10, [])
    else if !shellOk sh ∨ !lanesOk la then (9, [])
    else (0, [fw, sec, sh, la])
  | _ => (8, [])

/-! ## Flash (R493, R502, R507) -/

def State.flashByte (s : State) (a : Nat) : Byte := tget 0xFF s.flash a
def State.flashBytes (s : State) (a n : Nat) : List Byte := (List.range n).map fun i => s.flashByte (a + i)
def State.flashWrite (s : State) (a : Nat) (b : List Byte) : State :=
  { s with flash := (List.range b.length).foldl (fun t i => tset 0xFF t (a + i) (b.getD i 0)) s.flash }
/-- Bytes of the range `[a, a + n)` are erased. -/
def State.flashErase (s : State) (a n : Nat) : State := { s with flash := dropRange s.flash a n }

def slotBase (k : Nat) : Nat := 0x04000000 * k
/-- The image in a slot: as many bytes as its header says, 64 at least and a slot at most. -/
def State.slotImage (s : State) (k : Nat) : List Byte :=
  s.flashBytes (slotBase k) (max 64 (min 67108864 (leNat (s.flashBytes (slotBase k + 32) 4))))

/-- Boot control copy `k`: GEN and PREF, when it is valid (R502). -/
def State.control (s : State) (k : Nat) : Option (Nat × Nat) :=
  let b := s.flashBytes (0x08012000 + 0x1000 * k) 16
  if slice b 0 4 = [0x44, 0x59, 0x42, 0x43] ∧ num b 8 1 ≤ 1 ∧ zeros b 9 3 ∧ num b 12 4 = crc105 (b.take 12) then
    some (num b 4 4, num b 8 1)
  else none

/-- GEN x is newer than GEN y. -/
def newer (x y : Nat) : Bool := let d := (x + 2 ^ 32 - y) % 2 ^ 32; decide (1 ≤ d) && decide (d < 2 ^ 31)

/-- The preferred slot, and whether a valid copy was found. -/
def State.preferred (s : State) : Nat × Bool :=
  match s.control 0, s.control 1 with
  | some a, some b => (if newer b.1 a.1 then b.2 else a.2, true)
  | some a, none => (a.2, true)
  | none, some b => (b.2, true)
  | none, none => (0, false)

/-- Entries of a certificate area: kind and content; `none`: malformed (R507). -/
def certEntries (b : List Byte) : Nat → Nat → Option (List (Nat × List Byte))
  | 0, _ => some []
  | n + 1, a =>
    let len := num b (a + 4) 4
    if !zeros b (a + 2) 2 ∨ b.length < a + 8 + len then none
    else (certEntries b n (a + 8 + len)).map fun r => (num b a 2, slice b (a + 8) len) :: r

/-- The entries of the firmware's copy of the certificate area. -/
def certArea (b : List Byte) : Option (List (Nat × List Byte)) :=
  let len := num b 8 4
  if slice b 0 4 ≠ [0x44, 0x59, 0x43, 0x45] ∨ num b 4 1 ≠ 1 ∨ !zeros b 6 2 ∨ 65536 < len then none
  else certEntries (b.take (max 12 len)) (num b 5 1) 12

end Sys2Proof.Machine
end

