-- ==== Sys2Proof/Machine/Boot.lean ====
section
/-!
DEFINITION. Machine/Boot.lean: device reset (R488), the boot stages (R489 to R506), the test access port (R535), the
security engine's slots (R430).
-/
namespace Sys2Proof.Machine

/-! ## Random values -/

/-- The number of a fresh draw of the random number generator, from 1 up. -/
def State.drawKey (s : State) : Nat × State := (s.drawn + 1, { s with drawn := s.drawn + 1 })

/-- `n` bytes from the random number generator (R410, R414). -/
def State.random (s : State) (n : Nat) : List Byte × State :=
  let (k, s) := s.draw
  (leBytes n (Config.free k), s)

/-! ## Device reset (R488, R491, R535) -/

/-- Device reset is asserted: everything but the fuses, the flash, the test port, the levels of the board's inputs and
the commands that wait returns to its reset value. -/
def State.deviceReset (s : State) : State :=
  { State.reset with
    pending := s.pending
    drawn := s.drawn
    fuses := s.fuses
    shadow := s.fuses
    flash := s.flash
    tap := s.tap
    ports := s.ports.foldl (fun (t : Tab HostPort) (e : Nat × HostPort) => tset {} t e.1 { perst := e.2.perst }) [] }

/-- DEVICE_RESET (R488). -/
def execDeviceReset (s : State) : Host.Outcome State Fault Refusal := .next s.deviceReset

/-- SUPPLY_MONITOR_TRIP (R523): device reset is held until its release. -/
def execSupplyMonitorTrip (s : State) : Host.Outcome State Fault Refusal := .next s.deviceReset

/-- RESET_RELEASE (R488, R520, R523): the straps are sampled and stage 0 begins. -/
def execResetRelease (b : BoardIn) (s : State) : Host.Outcome State Fault Refusal :=
  if !s.boot.held ∨ !b.rails ∨ !b.rstN ∨ b.testEn then .next s
  else
    let s := b.flash.foldl (fun s e => State.flashWrite s e.1.toNat e.2) s
    .next { s with smbAddr := b.smb, boot := { s.boot with held := false, status := 0 } }

/-! ## Boot stages -/

def State.setBoot (s : State) (b : Boot) : State := { s with boot := b }
def State.updBoot (s : State) (f : Boot → Boot) : State := { s with boot := f s.boot }

/-- Boot halts with a code (R506): the ports stay as four x4 links. -/
def State.bootHalt (s : State) (code : Nat) : State :=
  s.updBoot fun b => { b with status := code, shell := { b.shell with width := 0, poPort := 255 } }

/-- FAULT_N is asserted: in a critical alarm and in a boot halt (R482, R506, Table 17-4). -/
def State.faultAsserted (s : State) : Bool := !s.boot.held && (s.power.crit || decide (0x8000 ≤ s.boot.status))

/-- The test port drives the balls (R535, R539). -/
def Tap.drives (t : Tap) : Bool := t.instr == .extest || t.instr == .pulse || t.instr == .train

/-- A tile fails the memory test (R459): its sector's spare takes its home, if it is still free. -/
def State.failTile (s : State) (p : Nat) : State :=
  let n := sectorOf p
  let spare := posOf n 31
  let l := (s.tm p).logical
  let free := (s.tm spare).logical == 255 && (s.tm spare).owner == 16 && p != spare
  let s := if free && decide (l < 248) then s.setTm spare { logical := l, owner := 31 } else s
  let s := s.setTm p { logical := 254, owner := 31 }
  s.updSector n fun x => { x with noSpare := true, cupFailed := x.cupFailed ||| (1#32 <<< indexOf p) }

/-- The lanes of a side whose resistor is out of range (R520). -/
def State.failLanes (s : State) (lo : Nat) : State :=
  (List.range 32).foldl (fun s i => (State.updLane s (lo + i) fun k => { k with status := 1 }).laneStick (lo + i) lsBadConfig) s

/-- A slot fails with a reason: the other slot is tried once (R503). -/
def State.slotFails (s : State) (x r : Nat) : State :=
  let s := s.updBoot fun b => { b with reason := b.reason.setIfInBounds x r }
  let other := s.boot.reason.toList.getD (1 - x) 15
  if other = 15 then s.updBoot fun b => { b with status := 5 - x }
  else s.bootHalt (0x8100 + 16 * s.boot.reason.toList.getD 0 15 + s.boot.reason.toList.getD 1 15)

/-- The loaded sections take their places (R336, R491, R500). -/
def State.loadSections (s : State) (b : List Byte) (d : List (List Byte)) : State :=
  let sh := d.getD 2 []
  let s := s.setMem ((s.mem.setBytes 0x20000000 (d.getD 0 [])).setBytes 0x20100000 (d.getD 1 []))
  let s := s.updBoot fun x =>
    { x with
      shell := { width := num sh 1 1, poPort := num sh 2 1, subsys := num sh 4 4 }
      clocks := (List.range 8).map fun n => num sh (8 + 2 * n) 2
      lanes := d.getD 3 []
      fwVersion := num (manifest b) 20 4
      meas := Config.romHash :: d.map Config.sha384 }
  (List.range 4).foldl (fun s n => State.updPort s n fun p => { p with training := !p.perst && s.portWidth n != 0 }) s

/-- The handover record (R434): 0 none, or for a slot already programmed; 1 met; 2 failed. -/
def State.handover (s : State) (vpp : Bool) : Nat × Nat × List Byte :=
  let r := s.flashBytes 0x08010000 5522
  let slot := num r 1 1
  let hash := slice r 20 48
  let signer := Config.sha384 (slice r 3473 97 ++ slice r 3570 1952)
  let next := match s.fuses.active with
    | some a => a + 1
    | none => 0
  if r.getD 0 0 = 0xFF#8 ∨ slot < next then (0, 0, [])
  else if num r 0 1 = 1 ∧ zeros r 2 2 ∧ slice r 4 16 = serial ∧ slot = next ∧ slot < 4 ∧ vpp ∧
      signer = (s.fuses.activeHash.getD hash) ∧
      Config.ecdsaVerify (slice r 3473 97) (r.take 68) (slice r 68 96) ∧
      Config.pqVerify (slice r 3570 1952) (r.take 68) (slice r 164 3309) then (1, slot, hash)
  else (2, 0, [])

/-- Stage 6 (R436, R504, R524). -/
def State.programFuses (s : State) (e : BootIn) : State :=
  let m := manifest (s.slotImage s.boot.active)
  let f := s.fuses
  let (kind, slot, hash) := s.handover e.vpp
  let up (v floor : Nat) : Nat := if e.vpp then max v (min floor (v + 64)) else v
  let f' : Fuses :=
    { slots := if kind = 1 then tset none f.slots slot (some hash) else f.slots
      vendor := up f.vendor (num m 8 4), config := up f.config (num m 16 4) }
  let s := { s with fuses := f' }
  let s := s.updBoot fun b => { b with deferred := !e.vpp, done := kind == 1, rejected := kind == 2 }
  if f' ≠ f ∧ !e.readback then s.bootHalt 0x8301 else s.updBoot fun b => { b with status := 8 }

/-- The values of a lane table record enter its lane's registers (R501). -/
def State.laneTable (s : State) (r : List Byte) : State :=
  let w (i : Nat) : Word := BitVec.ofNat 32 (num r (4 + 4 * i) 4)
  s.updLane (num r 0 1) fun k =>
    { k with
      ctrl := (k.ctrl &&& ~~~0xC00#32) ||| BitVec.ofNat 32 (num r 1 1 % 2 * 0x800 + num r 1 1 / 2 % 2 * 0x400)
      eqTx := w 0 &&& eqTxMask, eqRx := w 1 &&& eqRxMask, dfeA := w 2, dfeB := w 3, win := w 4 &&& winMask }

/-- The boot status of a completed boot (Table 16-8). -/
def Boot.completeCode (b : Boot) : Nat :=
  let fell := b.active != b.pref
  0x1000 + 0x800 * bit b.deferred + 0x400 * bit b.done + 0x200 * bit b.rejected + 0x100 * b.active + 0x80 * bit fell
    + (if fell then b.reason.toList.getD b.pref 0 else 0)

/-- Stage 7 ends: identity, nonce and keys; certificates; lane tables; READY; the ceilings rise (R412 to R414, R476). -/
def State.bootComplete (s : State) : State :=
  let (n, s) := s.random 32
  let (k, s) := s.drawKey
  let s := s.setMem { s.mem with key := tset 0 s.mem.key 16 k }
  let certs := s.flashBytes 0x08000000 65536
  let s := s.updBoot fun b => { b with nonce := n, certs := certs, ready := true, status := b.completeCode }
  let s := (List.range (s.boot.lanes.length / 24)).foldl (fun s i => State.laneTable s (laneRecord s.boot.lanes i)) s
  let s := (List.range 8).foldl (fun s i =>
    State.updSector s i fun x => { x with clkMax := s.boot.clocks.getD i 1600, limit := 1600 }) s
  { s with power := { s.power with p := 1600 } }

/-- BOOT_STAGE (R489 to R506): the stage that runs ends, and the next begins. -/
def execBootStage (e : BootIn) (s : State) : Host.Outcome State Fault Refusal :=
  let b := s.boot
  let at_ (n : Nat) : Host.Outcome State Fault Refusal := .next (s.updBoot fun b => { b with status := n })
  let cut := s.tap.drives
  if b.held ∨ b.ready then .next s
  else match b.status with
  | 0 =>
    if !e.fuses then .next (s.bootHalt 0x8005)
    else if s.tap.instr = .idcode ∨ s.tap.instr = .bypass then at_ 1 else .next s
  | 1 =>
    let s := if e.calW then s else s.failLanes 0
    let s := if e.calE then s else s.failLanes 32
    .next (s.updBoot fun b => { b with status := 2 })
  | 2 =>
    if e.selfTest.val ≠ 0 then .next (s.bootHalt (0x8000 + e.selfTest.val))
    else .next ((e.badTiles.foldl (fun s (p : TileIx) => State.failTile s p) s).updBoot fun b => { b with status := 3 })
  | 3 =>
    if !e.flash ∨ cut then .next (s.bootHalt 0x8201)
    else if !e.profile then .next (s.bootHalt 0x8202)
    else
      let (p, v) := s.preferred
      .next (s.updBoot fun b => { b with pref := p, ctrlValid := v, status := 4 + p })
  | 4 | 5 =>
    let x := b.status - 4
    let r := if !e.slot ∨ cut then 1 else verifyReason s.fuses (s.slotImage x)
    if r ≠ 0 then .next (s.slotFails x r) else .next (s.updBoot fun b => { b with active := x, status := 6 })
  | 6 =>
    let img := s.slotImage b.active
    let (r, d) := if !e.slot ∨ cut then (1, []) else loadReason img
    if r ≠ 0 then .next (s.slotFails b.active r)
    else .next ((s.loadSections img d).updBoot fun b => { b with status := 7, reason := b.reason.setIfInBounds b.active 0 })
  | 7 => .next (s.programFuses e)
  | 8 => if e.firmware then .next s.bootComplete else .next (s.bootHalt 0x8401)
  | _ => .next s

/-! ## The test access port (R535) -/

def State.setTap (s : State) (t : Tap) (out : List Byte) : State := { s with tap := t, readOut := out }
/-- Bits as bytes 0 and 1, for `readOut`. -/
def bitBytes (b : List Bool) : List Byte := b.map fun x => if x then 1 else 0

/-- TAP_RESET: the instruction is IDCODE. -/
def execTapReset (s : State) : Host.Outcome State Fault Refusal :=
  .next { s with tap := { s.tap with instr := .idcode } }

/-- A scan of the one-bit bypass register: it captures 0, and bits leave it one later than they enter. -/
def State.scanBypass (s : State) (bits : List Bool) : State :=
  s.setTap { s.tap with instr := .bypass, bypass := bits.getLastD false } (bitBytes ((false :: bits).take bits.length))

/-- JTAG_BYPASS. -/
def execJtagBypass (bits : List Bool) (s : State) : Host.Outcome State Fault Refusal := .next (s.scanBypass bits)

/-- JTAG_IDCODE. -/
def execJtagIdcode (s : State) : Host.Outcome State Fault Refusal :=
  .next (s.setTap { s.tap with instr := .idcode } (leBytes 4 (stepping * 2 ^ 28 + 0x7440 * 2 ^ 12 + 0x4F1 * 2 + 1)))

/-- A scan of the boundary register: the balls' levels leave it, the bits given stand in it. -/
def State.scanBoundary (s : State) (i : TapInstr) (pins load : List Bool) : State :=
  s.setTap { s.tap with instr := i, boundary := load } (bitBytes pins)

/-- JTAG_SAMPLE_PRELOAD. -/
def execJtagSamplePreload (pins load : List Bool) (s : State) : Host.Outcome State Fault Refusal :=
  .next (s.scanBoundary .sample pins load)
/-- JTAG_EXTEST: the boundary register drives the balls. -/
def execJtagExtest (pins load : List Bool) (s : State) : Host.Outcome State Fault Refusal :=
  .next (s.scanBoundary .extest pins load)
/-- JTAG_EXTEST_PULSE. -/
def execJtagExtestPulse (pins load : List Bool) (s : State) : Host.Outcome State Fault Refusal :=
  .next (s.scanBoundary .pulse pins load)
/-- JTAG_EXTEST_TRAIN. -/
def execJtagExtestTrain (pins load : List Bool) (s : State) : Host.Outcome State Fault Refusal :=
  .next (s.scanBoundary .train pins load)

/-- JTAG_PRIVATE: BYPASS, unless debug access is open; what it does then is not given. -/
def execJtagPrivate (bits : List Bool) (s : State) : Host.Outcome State Fault Refusal :=
  if s.dbgAccess.tapOpen then .refused .privateTestInstruction else .next (s.scanBypass bits)

/-! ## The security engine (R430) -/

/-- SECURE_SLOT_END (R430): the next bank's slot begins. DESIGN CHOICE (log entry 68): an operation is made whole in a slot
of its bank, so none pauses. -/
def execSecureSlotEnd (s : State) : Host.Outcome State Fault Refusal := .next { s with secSlot := (s.secSlot + 1) % 17 }

end Sys2Proof.Machine
end

