-- ==== Sys2Proof/Machine/CmdBase.lean ====
section
/-!
DEFINITION. Machine/CmdBase.lean: how Barista takes a command up (R343 to R350), the checks all commands share (R358,
R359), pointer descriptors (R342), the device's own accesses to memory on a caller's behalf (R376).
-/
namespace Sys2Proof.Machine

/-! ## What a command's work answers -/

/-- What a command's work is given beside the state: what it waits for, when it has been started before, and its
payload from host memory, once read: `some none` when the read met an error. -/
structure CmdIn where
  wait : Option Wait := none
  payload : Option (Option (List Byte)) := none
  deriving DecidableEq, Repr

/-- What a command's work comes to. -/
inductive CmdOut where
  /-- it ends with a status and a RESULT -/
  | reply (status : Nat) (result : List Byte) (s : State)
  /-- it waits -/
  | wait (w : Wait) (s : State)
  /-- it reads its payload from host memory: address, bytes -/
  | host (addr len : Nat) (s : State)
  deriving DecidableEq

/-- The progress a command noted when it began to wait. -/
def CmdIn.progress (i : CmdIn) : List Nat :=
  match i.wait with
  | some (.again p) => p
  | _ => []

/-- The payload that a command which waits for the security engine has read. -/
def CmdIn.held (i : CmdIn) : Option (List Byte) :=
  match i.wait with
  | some (.engine b) => some b
  | _ => none

/-- An operation of the security engine for a key bank: it runs in a slot of that bank only (R430). -/
def whenSlot (bank : Nat) (held : List Byte) (s : State) (k : State → CmdOut) : CmdOut :=
  if s.secSlot = bank then k s else .wait (.engine held) s

/-! ## Opcodes and roles (Table 12-1) -/

/-- Opcode, whether the platform owner may issue it, whether a partition owner may. -/
def opcodes : List (Nat × Bool × Bool) :=
  [(0x0001, true, true), (0x0002, true, true), (0x0003, true, true), (0x0005, true, false), (0x0101, true, false),
   (0x0102, true, false), (0x0103, true, false), (0x0104, true, false), (0x0105, true, true), (0x0106, true, true),
   (0x0201, true, true), (0x0202, true, true), (0x0203, true, false), (0x0204, true, false), (0x0205, true, false),
   (0x0206, true, false), (0x0301, true, true), (0x0302, true, true), (0x0303, true, true), (0x0304, true, true)]
  ++ [(0x0401, false, true), (0x0402, false, true), (0x0403, false, true), (0x0404, false, true), (0x0405, false, true),
   (0x0501, false, true), (0x0502, false, true), (0x0503, false, true), (0x0504, false, true), (0x0505, false, true),
   (0x0506, false, true), (0x0507, false, true), (0x0508, false, true), (0x0601, false, true), (0x0602, false, true),
   (0x0603, false, true), (0x0604, false, true), (0x0605, false, true), (0x0701, false, true), (0x0702, true, true)]
  ++ [(0x0703, true, false), (0x0801, true, true), (0x0802, true, false), (0x0803, true, false), (0x0804, true, true),
   (0x0805, true, true), (0x0901, true, true), (0x0902, true, true), (0x0903, true, true), (0x0904, true, true),
   (0x0905, true, false), (0x0906, true, false), (0x0907, true, false), (0x0A01, true, true), (0x0A02, true, true)]

def opcodeKnown (op : Nat) : Bool := opcodes.any fun o => o.1 == op

/-- The role of the command's queue may issue it (Table 12-1, R370, R371, Table 12-9). -/
def CmdRec.roleOk (c : CmdRec) : Bool :=
  let po := c.stamp == 16
  opcodes.any (fun o => o.1 == c.opcode && (if po then o.2.1 else o.2.2)) &&
    (po || !((c.opcode == 0x0201 && c.num 17 1 != 2 && c.num 17 1 != 3) || (c.opcode == 0x0202 && c.num 17 1 % 2 == 1))) &&
    !(c.opcode == 0x0805 && (if po then c.num 16 1 == 4 || c.num 16 1 == 5 else c.num 16 1 == 6))

/-! ## Authentication (R343, R344) -/

/-- The opcodes that are accepted without a MAC. -/
def openOpcode (op : Nat) : Bool := op == 0x0001 || op == 0x0002 || op == 0x0901 || op == 0x0106

/-- The MAC of a command under a key. -/
def CmdRec.macOk (c : CmdRec) (key : List Byte) : Bool :=
  padTo 6 (Config.gmac key (macIv c.qid c.seq 0) (c.bytes.take 10 ++ leBytes 6 0 ++ c.bytes.drop 16)) == c.sub 10 6

/-- The command authenticates: `none` when it fails; else whether it carried a MAC. -/
def State.authenticate (s : State) (c : CmdRec) : Option Bool :=
  let macv := c.flags.testBit 1
  let q := s.queue c.qid
  let d := (c.seq + 2 ^ 32 - q.last.toNat) % 2 ^ 32
  if !macv then (if openOpcode c.opcode then some false else none)
  else match (s.role c.stamp).session with
  | none => none
  | some k =>
    if c.macOk k.kcmd && decide (1 ≤ d) && decide (d < 2 ^ 31) && (q.rseq != 0xFFFFFFFF#32 || c.opcode == 0x0904) then some true
    else none

/-- A command fails authentication (R343): the 16th in a row faults the queue once its reply is written. -/
def State.authFail (s : State) (c : CmdRec) : State :=
  let q := s.queue c.qid
  let n := q.authFails + 1
  if n = 16 then
    let s := s.setQueue c.qid { q with authFails := n }
    let s := s.sysFault 0x55 (qidKind c.qid * 2 ^ 12 + qidHost c.qid * 2 ^ 8 + c.qid % 64) c.qid 0 q.owner
    s.reply c stAuth [] true
  else (s.setQueue c.qid { q with authFails := n }).reply c stAuth []

/-! ## Running a command (R345, R347 to R350) -/

/-- Ends a command with what its work answered. -/
def State.finish (s0 : State) (c : CmdRec) (out : CmdOut) : State :=
  match out with
  | .reply st result s =>
    let number := if st ≠ stOk then none
      else if c.opcode = 0x0106 then some 0
      else if c.opcode = 0x0904 then some (((s0.queue c.qid).rseq.toNat + (s0.queue c.qid).unnumbered + 1) % 2 ^ 32)
      else none
    s.reply c st result false number
  | .wait w s => { s with running := s.running ++ [{ cmd := c, wait := w }] }
  | .host a n s =>
    { s with running := s.running ++ [{ cmd := c, wait := .payload }]
             hostReads := s.hostReads ++ [{ port := qidHost c.qid, addr := a, len := n, payload := some c }] }

/-- A waiting command has come to an end, or further than it was in state `s`. -/
def CmdOut.moved (o : CmdOut) (w : Wait) (s : State) : Bool :=
  match o with
  | .wait v t => v != w || t != s
  | _ => true

/-! ### Order of effects (R349) -/

/-- Where a command's pointer descriptors lie (R342, Table 12-1). -/
def CmdRec.descs (c : CmdRec) : List Nat :=
  let op := c.opcode
  if op = 0x0301 ∨ op = 0x0302 then (if c.num 28 1 = 1 then [32] else [])
  else if op = 0x0106 ∨ op = 0x0904 then [16, 32]
  else if op = 0x0204 ∨ op = 0x0905 then [16]
  else if op = 0x0801 then [32]
  else if op = 0x0901 ∨ op = 0x0902 then [48]
  else if op = 0x0105 ∨ op = 0x0202 ∨ op = 0x0401 ∨ op = 0x0508 ∨ op = 0x0804 ∨ op = 0x0906 then [24]
  else []

/-- The byte ranges of memory that a command names, alias bits dropped. -/
def CmdRec.ranges (c : CmdRec) : List (Nat × Nat) :=
  let op := c.opcode
  let own := if op = 0x0301 ∨ op = 0x0302 ∨ op = 0x0303 then [(c.num 16 8, c.num 24 4)]
    else if op = 0x0304 then [(c.num 16 8, c.num 25 1)]
    else if op = 0x0801 then [(c.num 16 8, c.num 24 8)] else []
  let named := c.descs.filterMap fun o =>
    if c.num (o + 12) 1 = 1 then some (c.num o 8, c.num (o + 8) 4) else none
  (own ++ named).map fun x => (x.1 % 2 ^ 44, x.2)

/-- The objects that a command names: 1 a stream, 2 a task, 3 a lane, 4 a partner, 5 a personality, 6 a tile. -/
def CmdRec.objects (c : CmdRec) : List (Nat × Nat) :=
  let op := c.opcode
  if op = 0x0201 ∨ op = 0x0202 ∨ op = 0x0902 ∨ op = 0x0903 then [(3, c.num 16 1)]
  else if op = 0x0203 then [(4, c.num 16 2)]
  else if 0x0401 ≤ op ∧ op ≤ 0x0405 then [(5, c.num 16 1)]
  else if 0x0501 ≤ op ∧ op ≤ 0x0508 ∧ op ≠ 0x0503 then [(1, c.num 16 2)]
  else if 0x0601 ≤ op ∧ op ≤ 0x0604 then [(2, c.num 16 2)]
  else if op = 0x0805 ∧ c.num 16 1 = 4 then [(6, c.num 32 2)]
  else []

/-- Two byte ranges overlap. -/
def rangesMeet (a b : Nat × Nat) : Bool := decide (a.1 < b.1 + b.2) && decide (b.1 < a.1 + a.2)

/-- Two commands of one partition name a common object, or overlapping memory. -/
def CmdRec.conflicts (c d : CmdRec) : Bool :=
  c.stamp == d.stamp && (c.objects.any d.objects.contains || c.ranges.any fun a => d.ranges.any fun b => rangesMeet a b)

/-- The command has started and not begun to take effect. -/
def Wait.idle : Wait → Bool
  | .payload | .translate | .turn | .engine _ => true
  | .again _ => false

/-- An earlier command holds this one back. -/
def State.heldBack (s : State) (c : CmdRec) : Bool :=
  s.running.any fun r => decide (r.cmd.no < c.no) && r.wait.idle && r.cmd.conflicts c

/-- A waiting command's work, if nothing holds it back. -/
def State.goOn (s : State) (body : CmdRec → CmdIn → State → CmdOut) (r : Running) : CmdOut :=
  if r.wait = .turn then (if s.heldBack r.cmd then .wait .turn s else body r.cmd {} s)
  else body r.cmd { wait := some r.wait } s

/-- The first command of a list that its work takes further, with what it answers. -/
def State.firstMoved (s : State) (body : CmdRec → CmdIn → State → CmdOut) : List Running → Option (Running × CmdOut)
  | [] => none
  | r :: rest =>
    let s' := { s with running := s.running.erase r }
    let o := s'.goOn body r
    if o.moved r.wait s' then some (r, o) else s.firstMoved body rest

/-- Takes up the oldest command of the recipient's buffer: the checks of R345, then its work. -/
def State.takeUp (s : State) (c : CmdRec) (served : Bool) (body : CmdRec → CmdIn → State → CmdOut) : State :=
  match s.authenticate c with
  | none => s.authFail c
  | some auth =>
    let q := s.queue c.qid
    let s := s.setQueue c.qid { q with authFails := 0, last := if auth then BitVec.ofNat 32 c.seq else q.last }
    let s : State := { s with starts := s.starts + 1 }
    let c := { c with auth := auth, key := if auth then (s.role c.stamp).session.map (·.krpl) else none
                      core := s.coreOf c.stamp, no := s.starts }
    if !opcodeKnown c.opcode then s.reply c stUnknownOpcode []
    else if !c.roleOk then s.reply c stWrongRole []
    else if 4 ≤ c.flags ∨ c.num 3 1 ≠ 0 then s.reply c stReserved []
    else if !served then s.reply c stBusy []
    else s.finish c (if s.heldBack c then .wait .turn s else body c {} s)

/-- A command with ORDER = 1 starts when every earlier command of its queue has been replied to (R349). -/
def State.orderOk (s : State) (c : CmdRec) : Bool :=
  c.flags % 2 == 0 || s.running.all fun r => r.cmd.qid != c.qid

/-- Barista works for a recipient on the commands that `sel` picks by opcode: a waiting one that can go on does, in
a slice of its owner on its own core; otherwise the oldest of the buffer starts, in a slice of its owner, or is answered BUSY in a system slice when its
partition has none (R347, R348). A RECOVERING partition's commands wait (R442); none starts between the reply of
FW_ACTIVATE and its reset. -/
def State.runCommand (s : State) (r : Nat) (sel : Nat → Bool) (body : CmdRec → CmdIn → State → CmdOut) : State :=
  let mine := s.running.filter fun x => x.cmd.stamp == r && sel x.cmd.opcode && x.wait != .payload && s.onCore x.cmd
  match s.firstMoved body mine with
  | some (x, o) => State.finish { s with running := s.running.erase x } x.cmd o
  | none =>
    match s.buffer r with
    | [] => s
    | c :: rest =>
      let served := s.hasSlice r
      if !sel c.opcode ∨ !s.boot.ready ∨ s.boot.activate ∨ (r < 16 ∧ (s.part r).state = 3) ∨ !s.orderOk c ∨
          !(if served then s.inSlice r else s.inSlice 16) then s
      else (s.setBuffer r rest).takeUp c served body

/-- UNKNOWN_OPCODE (R345, R357). -/
def execUnknownOpcode (r : Recip) (s : State) : Host.Outcome State Fault Refusal :=
  .next (s.runCommand r (fun op => !opcodeKnown op) fun _ _ s => .reply stUnknownOpcode [] s)

/-! ## Shared checks (R358) -/

/-- The first failing check of a list of (fails, status). -/
def firstFail : List (Bool × Nat) → Option Nat
  | [] => none
  | (b, st) :: rest => if b then some st else firstFail rest

/-- Runs checks; the first that fails decides the reply. -/
def checked (cs : List (Bool × Nat)) (s : State) (k : State → CmdOut) : CmdOut :=
  match firstFail cs with
  | some st => .reply st [] s
  | none => k s

/-- Some parameter byte outside the ranges (offset, length) is not 0. -/
def CmdRec.stray (c : CmdRec) (used : List (Nat × Nat)) : Bool :=
  (List.range 48).any fun i => (c.bytes.getD (16 + i) 0) != 0 && !used.any fun u => decide (u.1 ≤ 16 + i) && decide (16 + i < u.1 + u.2)

/-! ## Pointer descriptors (R342, R359) -/

/-- A pointer descriptor. -/
structure Desc where
  addr : Nat
  len : Nat
  space : Nat
  rsv : Nat
  deriving DecidableEq, Repr

def CmdRec.desc (c : CmdRec) (a : Nat) : Desc := { addr := c.num a 8, len := c.num (a + 8) 4, space := c.num (a + 12) 1, rsv := c.num (a + 13) 3 }

/-- A reserved SPACE, or host memory named from a queue that has none. -/
def Desc.spaceBad (d : Desc) (c : CmdRec) : Bool := decide (1 < d.space) || (d.space == 0 && qidKind c.qid != 0)

/-- The parts of a range that do not cross a 256-byte boundary, with at most `fuel` of them. -/
def pieces (a n : Nat) : Nat → List (Nat × Nat)
  | 0 => []
  | fuel + 1 => if n = 0 then [] else
    let k := min n (256 - a % 256)
    (a, k) :: pieces (a + k) (n - k) fuel

def piecesOf (a n : Nat) : List (Nat × Nat) := pieces a n (n / 256 + 2)

/-- A device address range that the platform owner may name (R359): DRAM bank regions with OWNER 31. -/
def State.ownerRange (s : State) (a n : Nat) : Bool :=
  let b := a % 2 ^ 44
  let g := max 1 s.mem.regionBytes
  decide (a / 2 ^ 44 < 3) && decide (dramBase ≤ b) && decide (b + n ≤ dramBase + s.mem.capacity) &&
    (List.range 16).all fun r =>
      s.mem.bankOwner r == 31 || decide (b + n ≤ dramBase + r * g) || decide (dramBase + (r + 1) * g ≤ b)

/-- Where a caller's address leads: R44 for a partition owner, R359 for the platform owner. -/
def State.locate (s : State) (r a n : Nat) (isWrite : Bool) : Translated :=
  if r = 16 then (if s.ownerRange a n then .ok a else .fail) else s.translate r a isWrite

/-- The recipient holds a mesh slot, so that its packets move (R288), and its pool has a tag left (R291, R292). DESIGN
CHOICE (log entry 95): the accesses of a command are made in the row that makes them, and give their tags back in it. -/
def State.meshOpen (s : State) (r : Nat) : Bool :=
  (List.range 64).any (fun k => slotOwner ((s.router 0).slotAt k) == some r) &&
    decide (s.mesh.held r < s.mesh.quota r) && decide (s.mesh.txns.length < 2 ^ 17)

/-- A controller has a slot for the recipient in a direction, and the line's region does not initialise (R319, R330). -/
def State.lineServed (s : State) (r l : Nat) (isWrite : Bool) : Bool :=
  let p := s.mem.place l
  let k := s.mem.ctlOf p.chan
  !k.initBusy p.bank &&
    (List.range 64).any fun i => slotOwner (k.slotAt i &&& 0x1F#8) == some r && (k.slotAt i).getLsbD 7 == isWrite

/-- A request at a device address is served without waiting: a tile's sector in Steep wakes first (R294). -/
def State.servedAt (s : State) (r a n : Nat) (isWrite : Bool) : Bool :=
  let b := a % 2 ^ 44
  s.meshOpen r && (match areaOf b with
    | .data p | .tap p => let x := s.sector (sectorOf p); x.pstate != .steep || x.committed
    | .dram => (linesOf b n).all fun l => s.lineServed r l isWrite
    | _ => true)

/-- A caller's range: 0 all of it translates and can be served, 1 some of it fails, 2 some of it waits. -/
def State.rangeAt (s : State) (r a n : Nat) (isWrite : Bool) : Nat :=
  let ps := piecesOf a n
  let ts := ps.map fun p => s.locate r p.1 p.2 isWrite
  if ts.contains .fail then 1
  else if (ts.zip ps).any fun x => match x.1 with
    | .ok d => !s.servedAt r d x.2.2 isWrite
    | _ => true
  then 2 else 0

/-- The sectors in Steep that a caller's range names are woken. -/
def State.wakeRange (s : State) (r a n : Nat) (isWrite : Bool) : State :=
  (piecesOf a n).foldl (fun s p => match State.locate s r p.1 p.2 isWrite with
    | .ok d => (match areaOf (d % 2 ^ 44) with
      | .data t | .tap t => s.wakeSteep (sectorOf t)
      | _ => s)
    | _ => s) s

/-- A descriptor's address fails translation. -/
def State.descFails (s : State) (c : CmdRec) (d : Desc) (n : Nat) (isWrite : Bool) : Bool :=
  d.space == 1 && s.rangeAt c.stamp d.addr n isWrite == 1

/-- The caller has no tag for a mesh transaction (R292). -/
def State.noTags (s : State) (r : Nat) : Bool := decide (r < 16) && s.mesh.quota r == 0

/-- The descriptor needs a tag, and the caller has none. -/
def State.descTags (s : State) (c : CmdRec) (d : Desc) : Bool := d.space == 1 && s.noTags c.stamp

/-- Waits until a caller's range can be served (R46, R294), then goes on. -/
def whenRange (c : CmdRec) (a n : Nat) (isWrite : Bool) (s : State) (k : State → CmdOut) : CmdOut :=
  if s.rangeAt c.stamp a n isWrite = 2 then .wait .translate (s.wakeRange c.stamp a n isWrite) else k s

/-- Waits until a descriptor's range can be served, then goes on. -/
def whenDesc (c : CmdRec) (d : Desc) (n : Nat) (isWrite : Bool) (s : State) (k : State → CmdOut) : CmdOut :=
  if d.space = 1 then whenRange c d.addr n isWrite s k else k s

/-! ## Accesses on a caller's behalf (R280, R376, R474) -/

/-- One mesh request of the caller's at device address `a`: a tile of a sector in Cool or Cold answers DOMAIN_OFF, one of
a sector in Steep wakes it. -/
def State.serve (s : State) (r opc a n : Nat) (data : List Byte) : Nat × List Byte × Nat × State :=
  let k : Packet := { part := r, opc := opc, addr := a, len := n, data := data }
  match areaOf (a % 2 ^ 44) with
  | .data p | .tap p =>
    let x := s.sector (sectorOf p)
    if x.pstate = .cool ∨ x.pstate = .cold ∨ x.committed then (stDomainOff, [], 0, s)
    else (s.raiseWake (sectorOf p)).memServe k
  | _ => s.memServe k

/-- A caller's address as a device address. -/
def State.deviceOf (s : State) (r a n : Nat) (isWrite : Bool) : Option Nat :=
  match s.locate r a n isWrite with
  | .ok d => some d
  | _ => none

/-- What a run of requests has come to: bytes done, status of the stop, bytes read, poisoned places, state. -/
structure Moved where
  done : Nat := 0
  status : Nat := stOk
  data : List Byte := []
  /-- offset of the first byte in a poisoned flit -/
  poison : Option Nat := none
  s : State
  deriving DecidableEq

/-- Reads a caller's range in ascending requests (R376); poison does not stop it. -/
def State.readRange (s : State) (r a n : Nat) : Moved :=
  (piecesOf a n).foldl (fun m p =>
    if m.status ≠ stOk then m
    else match State.deviceOf m.s r p.1 p.2 false with
    | none => { m with status := stWrongPartition }
    | some d =>
      let (st, b, bad, s) := State.serve m.s r 1 d p.2 []
      if st ≠ stOk ∧ st ≠ stPoison then { m with status := st, s := s }
      else
        let first := (List.range p.2).find? fun i => bad.testBit (flitOf i)
        { m with done := m.done + p.2, data := m.data ++ b, s := s
                 poison := match m.poison, first with
                   | some x, _ => some x
                   | none, some i => some (m.done + i)
                   | none, none => none }) { s := s }

/-- Writes bytes to a caller's range in ascending requests (R376). -/
def State.writeRange (s : State) (r a : Nat) (data : List Byte) : Moved :=
  (piecesOf a data.length).foldl (fun m p =>
    if m.status ≠ stOk then m
    else match State.deviceOf m.s r p.1 p.2 true with
    | none => { m with status := stWrongPartition }
    | some d =>
      let (st, _, _, s) := State.serve m.s r 2 d p.2 ((data.drop m.done).take p.2)
      if st ≠ stOk then { m with status := st, s := s } else { m with done := m.done + p.2, s := s }) { s := s }

/-- Reads the `n` bytes an input descriptor names, then goes on with them; a failing read is poison (R359), one that
another status stops ends with that status. -/
def withInput (c : CmdRec) (i : CmdIn) (d : Desc) (n : Nat) (s : State) (k : List Byte → State → CmdOut) : CmdOut :=
  match i.held, i.payload with
  | some b, _ => k b s
  | none, some (some b) => k b s
  | none, some none => .reply stPoison [] s
  | none, none =>
    if d.space = 0 then .host d.addr n s
    else
      let m := s.readRange c.stamp d.addr n
      if m.status ≠ stOk then .reply m.status [] m.s
      else if m.poison.isSome then .reply stPoison [] m.s
      else k m.data m.s

/-- Writes a command's output to its descriptor: to host memory through its port, or to the caller's range. `false`: the
write failed (R359). Whether a write to host memory meets a PCI Express error is the host's, a free value (log entry 93). -/
def State.output (s : State) (c : CmdRec) (d : Desc) (data : List Byte) : Bool × State :=
  if d.len = 0 ∨ data = [] then (true, s)
  else if d.space = 0 then
    let (n, s) := s.draw
    let port := qidHost c.qid
    if c.silent then (true, s)
    else if Sys2Proof.Config.hostWriteFails n then (false, s.hpStick port hpPcieErr)
    else (true, { s with hostWrites := s.hostWrites ++ [{ port := port, addr := d.addr, bytes := data }] })
  else
    let m := s.writeRange c.stamp d.addr data
    (m.status == stOk, m.s)

/-- Writes the output and ends with OK, or with POISONED_DATA when the write failed. -/
def replyWith (c : CmdRec) (d : Desc) (data result : List Byte) (s : State) : CmdOut :=
  let (ok, s) := s.output c d data
  .reply (if ok then stOk else stPoison) (if ok then result else []) s

/-! ## RESULT -/

/-- RESULT bytes from fields (offset in the reply, bytes, value); bytes that no field names are 0 (R360). -/
def resultOf (fs : List (Nat × Nat × Nat)) : List Byte :=
  (List.range 12).map fun i => BitVec.ofNat 8 (fs.foldl (fun v f =>
    if f.1 ≤ 14 + i ∧ 14 + i < f.1 + f.2.1 then f.2.2 / 2 ^ (8 * (14 + i - f.1)) else v) 0)

/-! ## Blocks of names (R366) -/

/-- The caller holds the block of a stream, rule, task, stream set, timer. -/
def Part.hasStream (p : Part) (k : Nat) : Bool := decide (k < 8192) && p.streams.testBit (k / 32)
def Part.hasRule (p : Part) (r : Nat) : Bool := decide (r < 1024) && p.rules.testBit (r / 16)
def Part.hasTask (p : Part) (t : Nat) : Bool := decide (t < 16384) && p.tasks.testBit (t / 64)
def Part.hasSet (p : Part) (n g : Nat) : Bool := p.sets.testBit (8 * n + g)
def Part.hasTimer (p : Part) (n t : Nat) : Bool := p.timers.testBit (16 * n + t)

end Sys2Proof.Machine
end

