-- ==== Sys2Proof/Machine/CmdSystem.lean ====
section
/-!
DEFINITION. Machine/CmdSystem.lean: the commands about the device as a whole: identity, status, telemetry, environment,
time, lanes and partners, DRAM description, power, integrity, events (R361 to R363, R370 to R375, R388 to R391, R393 to
R396, R404, R405).
-/
namespace Sys2Proof.Machine

/-- A command from the platform owner. -/
def CmdRec.po (c : CmdRec) : Bool := c.stamp == 16

/-- The descriptor is shorter than the entry needs (step 4 of R358). -/
def Desc.short (d : Desc) (need : Nat) : Bool := decide (d.len < need)

/-! ## Identity and status -/

/-- NOP (R361). -/
def bodyNop (c : CmdRec) (_ : CmdIn) (s : State) : CmdOut :=
  checked [(c.stray [], stReserved)] s fun s => .reply stOk [] s

def execNop (r : Recip) (s : State) : Host.Outcome State Fault Refusal := .next (s.runCommand r (· == 0x0001) bodyNop)

/-- IDENTIFY (R361). -/
def bodyIdentify (c : CmdRec) (_ : CmdIn) (s : State) : CmdOut :=
  checked [(c.stray [], stReserved)] s fun s =>
    .reply stOk (resultOf [(14, 2, 0x00A1), (16, 2, 0x7440), (18, 1, stepping), (20, 4, s.boot.fwVersion), (24, 1, s.boot.active)]) s

def execIdentify (r : Recip) (s : State) : Host.Outcome State Fault Refusal := .next (s.runCommand r (· == 0x0002) bodyIdentify)

/-- Some entry of the fault log has not been written by a FAULT_LOG_READ of the platform owner (R362). -/
def State.logUnread (s : State) : Bool := s.log.any fun e => !(tget false s.logRead e.index)

/-- GET_STATUS (R362). -/
def bodyGetStatus (c : CmdRec) (_ : CmdIn) (s : State) : CmdOut :=
  checked [(c.stray [], stReserved)] s fun s =>
    let flags := bit s.boot.ready + 2 * bit (s.perc.status == 1) + 4 * bit (c.po && s.logUnread)
    .reply stOk (resultOf [(14, 2, s.boot.status), (16, 1, flags), (18, 1, if c.po then 0 else (s.part c.stamp).state),
      (20, 2, s.inFlight c.stamp), (22, 2, (s.evb c.stamp).entries.length)]) s

def execGetStatus (r : Recip) (s : State) : Host.Outcome State Fault Refusal :=
  .next (s.runCommand r (· == 0x0003) bodyGetStatus)

/-- A signed or unsigned reading as 32 bits. -/
def reading (v : Int) : Nat := (BitVec.ofInt 32 v).toNat

/-- READ_TELEMETRY (R363): the minimum and maximum start again. -/
def bodyReadTelemetry (c : CmdRec) (_ : CmdIn) (s : State) : CmdOut :=
  let k := c.num 16 1
  checked [(c.stray [(16, 1)], stReserved), (!(decide (k ≤ 10) || (decide (16 ≤ k) && decide (k ≤ 24))), stReserved)] s fun s =>
    let w := s.power
    let v := tget 0 w.now k
    .reply stOk (resultOf [(14, 4, reading v), (18, 4, reading ((tget none w.low k).getD v)), (22, 4, reading ((tget none w.high k).getD v))])
      { s with power := { w with low := tset none w.low k none, high := tset none w.high k none } }

def execReadTelemetry (r : Recip) (s : State) : Host.Outcome State Fault Refusal :=
  .next (s.runCommand r (· == 0x0005) bodyReadTelemetry)

/-! ## Surroundings -/

/-- ENV_SET (R374). -/
def bodyEnvSet (c : CmdRec) (_ : CmdIn) (s : State) : CmdOut :=
  let tj := c.num 16 1
  let warn := c.num 17 1
  let air := c.num 18 1
  checked
    [(c.stray [(16, 3)], stReserved), (tj == 0, stZero),
     (decide (tj < 60) || decide (105 < tj) || (warn != 0 && (decide (warn < 50) || decide (tj < warn + 5))) || decide (7 < air), stReserved)]
    s fun s => .reply stOk [] { s with power := { s.power with tjMax := tj, tjWarn := warn, airflow := air } }

def execEnvSet (r : Recip) (s : State) : Host.Outcome State Fault Refusal := .next (s.runCommand r (· == 0x0205) bodyEnvSet)

/-- The operation that TIME_SET asks for. -/
def CmdRec.timeOp (c : CmdRec) : TimeOp :=
  match c.num 16 1 with
  | 1 => .load (c.num 24 6) (field (c.num 20 4) 0 30)
  | 2 => .adjust (BitVec.ofNat 32 (c.num 20 4)).toInt
  | _ => .incr (BitVec.ofNat 32 (c.num 20 4))

/-- TIME_SET (R239, R240, R375): with the counter running the operation takes effect at a TIME cycle before the reply. -/
def bodyTimeSet (c : CmdRec) (_ : CmdIn) (s : State) : CmdOut :=
  let op := c.num 16 1
  checked
    [(c.stray (if op = 1 then [(16, 1), (20, 10)] else [(16, 1), (20, 4)]) || (op == 1 && decide (2 ^ 30 ≤ c.num 20 4)), stReserved),
     ((op == 2 || op == 3) && c.num 20 4 == 0, stZero), (op == 0 || decide (3 < op), stReserved)] s fun s =>
    let s := s.updTime fun t => { t with ops := t.ops ++ [c.timeOp] }
    let s := if s.time.locked then s.updTime TimeUnit.cycle else s
    .reply stOk (resultOf [(14, 4, s.time.ns), (18, 4, s.time.sec % 2 ^ 32), (22, 1, bit (!s.time.locked))]) s

def execTimeSet (r : Recip) (s : State) : Host.Outcome State Fault Refusal := .next (s.runCommand r (· == 0x0206) bodyTimeSet)

/-- PFC_TH_c is written (R237): an XON_c that is not below XOFF_c is recorded. -/
def State.setPfcTh (s : State) (l c : Nat) (w : Word) : State :=
  let s := s.updLane l fun k => { k with pfcTh := tset 0 k.pfcTh c w }
  if field w.toNat 16 16 ≠ 0 ∧ field w.toNat 16 16 ≤ field w.toNat 0 16 then s.laneStick l lsBadConfig else s

/-- A stream that is not CLOSED is bound to the lane. -/
def State.laneInUse (s : State) (l : Nat) : Bool := s.streams.any fun e => e.2.state != 0 && e.2.lane == l

/-- A 32-bit parameter. -/
def CmdRec.word (c : CmdRec) (a : Nat) : Word := BitVec.ofNat 32 (c.num a 4)

/-- LANE_CONFIG page 0 (Table 12-4): presets, auxiliary fields and address first, so that a restart takes them. -/
def State.lanePage0 (s : State) (c : CmdRec) (l : Nat) : State :=
  let f := c.num 20 1
  let k := s.lane l
  let owner := if f.testBit 6 then 16 else if k.owner = 16 then 31 else field k.ctrl.toNat 24 5
  let ctrl := owner * 2 ^ 24 + field (c.num 18 1) 0 4 * 2 ^ 16 + field (c.num 19 1) 0 2 * 2 ^ 14 + bit (f.testBit 0) * 2 ^ 13
    + bit (f.testBit 1) * 2 ^ 12 + bit (f.testBit 2) * 2 ^ 11 + bit (f.testBit 3) * 2 ^ 10 + field f 4 2 * 2 ^ 8
  let s := s.updLane l fun k =>
    { k with
      eqTx := c.word 24, eqRx := c.word 28, dfeA := c.word 32, dfeB := c.word 36, win := c.word 40, aux := c.word 44
      macLo := c.word 48, macHi := BitVec.ofNat 32 (c.num 52 2), tsCorr := c.word 56 }
  s.setLaneCtrl l (BitVec.ofNat 32 ctrl)

/-- LANE_CONFIG pages 1 to 3 (Table 12-4). -/
def State.lanePage (s : State) (c : CmdRec) (l page : Nat) : State :=
  if page = 1 then
    ((List.range 8).foldl (fun s i => State.setPfcTh s l i (c.word (24 + 4 * i))) s).updLane l fun k => { k with pfcCfg := c.word 56 }
  else if page = 2 then
    s.updLane l fun k =>
      { k with txSciLo := c.word 24, txSciHi := c.word 28, replayWin := c.word 32, pnWarnLo := c.word 36, pnWarnHi := c.word 40
               msecCtrl := BitVec.ofNat 32 (c.num 44 1) }
  else s.updLane l fun k => { k with rxSci := (List.range 8).foldl (fun t i => tset 0 t i (c.word (24 + 4 * i))) k.rxSci }

/-- Bits of a page that its registers reserve. -/
def CmdRec.lanePageReserved (c : CmdRec) (page : Nat) : Bool :=
  if page = 0 then
    c.word 24 &&& ~~~eqTxMask != 0 || c.word 28 &&& ~~~eqRxMask != 0 || c.word 40 &&& ~~~winMask != 0 ||
      c.word 44 &&& ~~~auxMask != 0 || (c.num 20 1).testBit 7
  else if page = 2 then c.word 32 &&& 0xC0000000#32 != 0 || c.num 44 1 / 4 % 4 != 0
  else false

def lanePageUsed (page : Nat) : List (Nat × Nat) :=
  if page = 0 then [(16, 2), (18, 3), (24, 20), (44, 4), (48, 6), (56, 4)]
  else if page = 1 then [(16, 2), (24, 32), (56, 4)]
  else if page = 2 then [(16, 2), (24, 8), (32, 4), (36, 8), (44, 1)]
  else [(16, 2), (24, 32)]

/-- LANE_CONFIG (R370). -/
def bodyLaneConfig (c : CmdRec) (_ : CmdIn) (s : State) : CmdOut :=
  let l := c.num 16 1
  let page := c.num 17 1
  let f := c.num 20 1
  let owner := (s.lane l).owner
  checked
    [(decide (page < 4) && (c.stray (lanePageUsed page) || c.lanePageReserved page), stReserved),
     (decide (3 < page) || decide (63 < l) ||
       (page == 0 && (decide (3 < c.num 19 1) || !fecPermitted (c.num 18 1) (c.num 19 1) || field f 4 2 == 3 || !cursorsOk (c.word 24))),
      stReserved),
     (decide (2 ≤ page) && owner != c.stamp, stWrongPartition),
     (page == 0 && f.testBit 6 && decide (owner < 16), stBusy),
     (page == 0 && !f.testBit 6 && owner == 16 && s.laneInUse l, stBusy)] s fun s =>
    .reply stOk [] (if page = 0 then s.lanePage0 c l else s.lanePage c l page)

def execLaneConfig (r : Recip) (s : State) : Host.Outcome State Fault Refusal :=
  .next (s.runCommand r (· == 0x0201) bodyLaneConfig)

/-- LANE_STATE (R214, R371). -/
def bodyLaneState (c : CmdRec) (_ : CmdIn) (s : State) : CmdOut :=
  let l := c.num 16 1
  let d := c.desc 24
  let k := s.lane l
  let shared := !c.po && k.owner == 16
  checked
    [(c.stray [(16, 2), (24, 16)] || decide (1 < c.num 17 1) || d.rsv != 0, stReserved),
     (decide (63 < l) || (d.len != 0 && d.spaceBad c), stReserved), (d.len != 0 && d.short 80, stBadLength),
     ((!c.po && k.owner != c.stamp && k.owner != 16) || (shared && d.len != 0) || (d.len != 0 && s.descFails c d 80 true), stWrongPartition),
     (d.len != 0 && s.descTags c d, stTags)]
    s fun s =>
    whenDesc c d (if d.len = 0 then 0 else 80) true s fun s =>
      let result := if shared then resultOf [(14, 4, (k.statusReg &&& 0xFF000000#32).toNat)]
        else resultOf [(14, 4, k.statusReg.toNat), (18, 4, k.sticky.toNat), (22, 4, k.nowRx.toNat)]
      let s := if c.num 17 1 = 1 then s.updLane l fun k => { k with sticky := 0 } else s
      replyWith c d ((List.range 20).flatMap fun j => leBytes 4 (tget 0 k.cnt j).toNat) result s

def execLaneState (r : Recip) (s : State) : Host.Outcome State Fault Refusal := .next (s.runCommand r (· == 0x0202) bodyLaneState)

/-- PARTNER_DEFINE (R216, R372). -/
def bodyPartnerDefine (c : CmdRec) (_ : CmdIn) (s : State) : CmdOut :=
  let p := c.num 16 2
  let f := c.num 18 1
  let valid := f.testBit 0
  let mask := c.num 32 8
  let e := c.num 24 6 * 2 ^ 32 + 2 ^ 31 + bit (f.testBit 1) * 2 ^ 30 + c.num 19 1 * 2 ^ 26 + bit (f.testBit 2) * 2 ^ 25 + c.num 20 1 * 2 ^ 21
  checked
    [(c.stray [(16, 5), (24, 6), (32, 8)] || decide (511 < p) || decide (7 < f) || decide (15 < c.num 19 1) || decide (15 < c.num 20 1), stReserved),
     (s.streams.any (fun x => x.2.state != 0 && (x.2.partner == p || mask.testBit x.2.lane)), stBusy),
     (valid && partnerIb e && s.partners.any (fun x => x.1 != p && x.2.testBit 31 && partnerIb x.2 && partnerIbh x.2 == partnerIbh e), stBusy)]
    s fun s =>
    let s := { s with partners := tset 0 s.partners p (if valid then e else 0) }
    .reply stOk [] ((List.range 64).foldl (fun s l =>
      let w := (State.lane s l).partner
      if valid ∧ mask.testBit l then s.updLane l fun k => { k with partner := BitVec.ofNat 32 (2 ^ 31 + p) }
      else if !valid ∧ (mask.testBit l ∨ (w.getLsbD 31 ∧ w.toNat % 512 = p)) then s.updLane l fun k => { k with partner := 0 }
      else s) s)

def execPartnerDefine (r : Recip) (s : State) : Host.Outcome State Fault Refusal :=
  .next (s.runCommand r (· == 0x0203) bodyPartnerDefine)

/-- The controllers start to initialise and calibrate; every DRAM address is a hole, and its contents are gone (R315). -/
def State.startCalibration (s : State) (b : List Byte) : State :=
  let old : DramBefore :=
    { capacity := s.mem.capacity, desc := s.mem.desc, lines := s.mem.lines, states := (List.range 12).map fun c => (s.mem.ctlOf c).state }
  let s := s.setMem { s.mem with capacity := 0, desc := b, lines := [], before := some old }
  (List.range 12).foldl (fun s c => State.updCtl s c fun k =>
    { k with state := 1, tops := [], store := [], out := [], failed := [], macStore := [], init := [] }) s

/-- A DRAM_DESCRIBE that times out leaves DRAM as it was (R357). -/
def State.undoCalibration (s : State) : State :=
  match s.mem.before with
  | none => s
  | some o =>
    let s := s.setMem { s.mem with capacity := o.capacity, desc := o.desc, lines := o.lines, before := none }
    (List.range 12).foldl (fun s c => State.updCtl s c fun k => { k with state := o.states.getD c 0 }) s

/-- DRAM_DESCRIBE (R314, R315, R373): replies when no channel calibrates any more. -/
def bodyDramDescribe (c : CmdRec) (i : CmdIn) (s : State) : CmdOut :=
  match i.progress with
  | [] =>
    let d := c.desc 16
    checked
      [(c.stray [(16, 16)] || d.rsv != 0, stReserved), (d.len == 0, stZero), (d.spaceBad c, stReserved), (d.short 32, stBadLength),
       (s.descFails c d 32 false, stWrongPartition)] s fun s =>
      whenDesc c d 32 false s fun s => withInput c i d 32 s fun b s =>
        let st := descStatus b
        if st ≠ stOk then .reply st [] s
        else if (List.range 16).any fun x => s.mem.bankOwner x != 31 then .reply stBusy [] s
        else .wait (.again [1]) (s.startCalibration (b.take 32))
  | _ =>
    if (List.range 12).any fun x => (s.mem.ctlOf x).state == 1 then .wait (.again [1]) s
    else
      let ok := (List.range 12).all fun x => (s.mem.ctlOf x).ready
      let s := s.setMem { s.mem with before := none }
      .reply stOk (resultOf [(14, 8, if ok then s.mem.capacity else 0), (22, 2, descFrame s.mem.desc)]) s

def execDramDescribe (r : Recip) (s : State) : Host.Outcome State Fault Refusal :=
  .next (s.runCommand r (· == 0x0204) bodyDramDescribe)

/-! ## Tasks and power -/

/-- AGING_SET (R203, R388). -/
def bodyAgingSet (c : CmdRec) (_ : CmdIn) (s : State) : CmdOut :=
  let q := c.stamp
  checked [(c.stray [(16, 1)], stReserved)] s fun s =>
    let old := (s.sector 0).urgOf q
    .reply stOk (resultOf [(14, 1, old)])
      ((List.range 8).foldl (fun s n => State.updSector s n fun x => { x with urg := tset 0 x.urg q (BitVec.ofNat 8 (c.num 16 1)) }) s)

def execAgingSet (r : Recip) (s : State) : Host.Outcome State Fault Refusal := .next (s.runCommand r (· == 0x0605) bodyAgingSet)

/-- The personalities loaded in a partition. -/
def Part.loaded (p : Part) : List (Nat × Pers) := p.pers.filterMap fun e => e.2.map fun v => (e.1, v)

/-- LATENCY_TOLERANCE_SET (R389). -/
def bodyLatencyToleranceSet (c : CmdRec) (_ : CmdIn) (s : State) : CmdOut :=
  let q := c.stamp
  let hold := c.num 20 4
  checked
    [(c.stray [(16, 8)], stReserved), (decide (65535 < hold), stReserved),
     ((s.part q).loaded.any (fun v => decide (hold < v.2.holdoff)), stBusy)] s fun s =>
    .reply stOk (resultOf [(14, 4, (s.part q).tol), (18, 4, s.holdoffOf q)])
      { (s.updPart q fun p => { p with tol := c.num 16 4 }) with holdoff := tset 4096 s.holdoff q hold }

def execLatencyToleranceSet (r : Recip) (s : State) : Host.Outcome State Fault Refusal :=
  .next (s.runCommand r (· == 0x0701) bodyLatencyToleranceSet)

/-- POWER_QUERY (R390). The temperature that SECTOR 8 returns is a free value: no rule says which sensor it is. -/
def bodyPowerQuery (c : CmdRec) (_ : CmdIn) (s : State) : CmdOut :=
  let n := c.num 16 1
  let temp (v : Int) : Nat := (BitVec.ofInt 16 v).toNat
  checked [(c.stray (if c.po then [(16, 1)] else []), stReserved), (c.po && decide (8 < n), stReserved)] s fun s =>
    if !c.po then .reply stOk (resultOf [(14, 4, (s.part c.stamp).tol), (18, 4, s.holdoffOf c.stamp)]) s
    else if n = 8 then
      let (v, s) := s.draw
      .reply stOk (resultOf [(20, 2, Config.free v % 2 ^ 16), (22, 4, reading (tget 0 s.power.now 16))]) s
    else
      let x := s.sector n
      .reply stOk (resultOf [(14, 1, x.pstate.code), (16, 2, x.clk), (18, 2, x.ldo), (20, 2, temp x.temp),
        (22, 4, reading (tget 0 s.power.now (17 + n)))]) s

def execPowerQuery (r : Recip) (s : State) : Host.Outcome State Fault Refusal := .next (s.runCommand r (· == 0x0702) bodyPowerQuery)

/-- POWER_CAP_SET (R391, R480). -/
def bodyPowerCapSet (c : CmdRec) (_ : CmdIn) (s : State) : CmdOut :=
  let v := c.num 16 4
  checked [(c.stray [(16, 4)], stReserved), (v == 0, stZero), (decide (v < 40000) || decide (185000 < v), stReserved)] s fun s =>
    .reply stOk (resultOf [(14, 4, s.power.cap)]) { s with power := { s.power with cap := v } }

def execPowerCapSet (r : Recip) (s : State) : Host.Outcome State Fault Refusal := .next (s.runCommand r (· == 0x0703) bodyPowerCapSet)

/-! ## Integrity -/

/-- PERCOLATOR_CONTROL (R393, R449): RELOAD loads all three copies from ROM and starts the pass again. -/
def bodyPercolatorControl (c : CmdRec) (_ : CmdIn) (s : State) : CmdOut :=
  let a := c.num 16 1
  checked [(c.stray [(16, 1)], stReserved), (!(a == 1 || a == 2), stReserved)] s fun s =>
    let w := if a = 1 then
        { s.perc with copies := Vector.replicate 3 0, status := 0, romPar := false, voteFail := false, tile := 0, frame := 0, later := [] }
      else s.perc
    .reply stOk (resultOf [(14, 1, w.status), (16, 4, w.silent.toNat), (20, 4, w.essential.toNat)]) { s with perc := w }

def execPercolatorControl (r : Recip) (s : State) : Host.Outcome State Fault Refusal :=
  .next (s.runCommand r (· == 0x0802) bodyPercolatorControl)

/-- Cupping steps completed, over all sectors. -/
def State.cupTotal (s : State) : Nat := (List.range 8).foldl (fun n i => n + (s.sector i).cupSteps.toNat) 0

/-- CUPPING_CONTROL (R394). -/
def bodyCuppingControl (c : CmdRec) (_ : CmdIn) (s : State) : CmdOut :=
  let a := c.num 16 1
  let per := c.num 20 4
  checked
    [(c.stray (if a = 2 then [(16, 2)] else [(16, 2), (20, 4)]) || decide (1 < c.num 17 1), stReserved),
     (a == 1 && per == 0, stZero),
     (!(a == 1 || a == 2) || (a == 1 && (decide (per < 100) || decide (3600000 < per))), stReserved)] s fun s =>
    let s := if a = 1 then { s with cupEn := c.num 17 1 == 1, cupPeriod := per } else s
    .reply stOk (resultOf [(14, 1, bit s.cupEn), (16, 4, s.cupPeriod), (20, 4, s.cupTotal)]) s

def execCuppingControl (r : Recip) (s : State) : Host.Outcome State Fault Refusal :=
  .next (s.runCommand r (· == 0x0803) bodyCuppingControl)

/-- INDEX of the oldest entry still held (Table 14-10). -/
def State.logOldest (s : State) : Nat := (s.logNext + 2 ^ 32 - s.log.length) % 2 ^ 32

/-- A log entry as a caller sees it: a partition owner reads its logical address (R460). -/
def State.logView (s : State) (r : Nat) (e : LogEntry) : List Byte :=
  if r = 16 ∨ (e.addr = 0 ∧ e.cls ≠ 4) then e.bytes else LogEntry.bytes { e with addr := s.logicalAddr r e.addr }

/-- Entries of an ascending run that the caller may see, `k` at most, and how many were examined. -/
def pickLog (r : Nat) : List LogEntry → Nat → List LogEntry × Nat
  | [], _ => ([], 0)
  | e :: rest, k =>
    if k = 0 then ([], 0)
    else
      let mine := r == 16 || e.part == r
      let (es, n) := pickLog r rest (if mine then k - 1 else k)
      (if mine then e :: es else es, n + 1)

/-- FAULT_LOG_READ (R395, R460). -/
def bodyFaultLogRead (c : CmdRec) (_ : CmdIn) (s : State) : CmdOut :=
  let first := c.num 16 4
  let n := c.num 20 2
  let d := c.desc 24
  checked
    [(c.stray [(16, 6), (24, 16)] || d.rsv != 0, stReserved), (n == 0, stZero), (decide (256 < n) || d.spaceBad c, stReserved),
     (d.short (32 * n), stBadLength), (s.descFails c d (32 * n) true, stWrongPartition), (s.descTags c d, stTags)] s fun s =>
    whenDesc c d (32 * n) true s fun s =>
      let dist := (first + 2 ^ 32 - s.logOldest) % 2 ^ 32
      let start := if dist < 2 ^ 31 then dist else 0
      let (es, seen) := pickLog c.stamp (s.log.reverse.drop start) n
      let next := if dist < 2 ^ 31 then (first + seen) % 2 ^ 32 else (s.logOldest + seen) % 2 ^ 32
      let s := if c.po then { s with logRead := es.foldl (fun t e => tset false t e.index true) s.logRead } else s
      replyWith c d (es.flatMap (s.logView c.stamp))
        (resultOf [(14, 4, es.length), (18, 4, next), (22, 4, (s.logNext + 2 ^ 32 - 1) % 2 ^ 32)]) s

def execFaultLogRead (r : Recip) (s : State) : Host.Outcome State Fault Refusal :=
  .next (s.runCommand r (· == 0x0804) bodyFaultLogRead)

/-! ## Flipped bits -/

/-- Bit `b` of the stored 39-bit codeword of the SRAM word at `w` flips: the check bits now differ from those of the
stored data by the bit's column (R302). -/
def Memory.flip (m : Memory) (w b : Nat) : Memory :=
  let m := if b < 32 then m.setByte (w + b / 8) (m.byte (w + b / 8) ^^^ BitVec.ofNat 8 (2 ^ (b % 8))) else m
  { m with syn := tset 0 m.syn (w / 4) (m.synOf w ^^^ columnOf b) }

/-- A list of bits with one toggled, in rising order. -/
def toggleBit : List Nat → Nat → List Nat
  | [], b => [b]
  | x :: r, b => if b < x then b :: x :: r else if b = x then r else x :: toggleBit r b

/-- Stored bit `b` of the line at `a` (beat b div 72) flips (R305). -/
def State.flipLine (s : State) (a b : Nat) : State :=
  let ln := s.storedLine a
  s.setLine a { ln with flips := toggleBit ln.flips b }

/-- The kinds 1 to 3 of Table 12-9 at a device address: bits flipped, or poison. -/
def State.injectAt (s : State) (kind a b : Nat) : State :=
  let bits := if kind = 1 then [b] else [b, b + 1]
  match areaOf a with
  | .dram =>
    if kind = 3 then
      s.setLine a ((s.storedLine a).rewritten (lineOf a) true)
    else bits.foldl (fun s b => State.flipLine s a (72 * (a / 8 % 8) + b)) s
  | _ =>
    let w := a / 4 * 4
    if kind = 3 then s.setMem { s.mem with syn := tset 0 s.mem.syn (w / 4) poisonSyn }
    else bits.foldl (fun s b => State.setMem s (s.mem.flip w b)) s

/-- A device address that a translation gave is the caller's own memory. -/
def State.ownMemory (s : State) (r a : Nat) : Bool :=
  match areaOf a with
  | .line n => (tget {} s.cells n).owner == r
  | .dram => s.dramOwned r a 1
  | _ => true

/-- The tile's sector holds no power for an access: Cool or Cold, or on the way there (R474). -/
def State.tileOff (s : State) (p : Nat) : Bool :=
  let x := s.sector (sectorOf p)
  x.pstate == .cool || x.pstate == .cold || x.committed

/-- A device address in a tile whose sector is off. -/
def State.addressOff (s : State) (a : Nat) : Bool :=
  match areaOf a with
  | .data p | .tap p => s.tileOff p
  | _ => false

/-- FAULT_INJECT kinds 1 to 3: memory at ADDR. -/
def injectMemory (c : CmdRec) (s : State) : CmdOut :=
  let k := c.num 16 1
  let b := c.num 35 1
  let at_ := s.locate c.stamp (c.num 24 8) 1 true
  let sram := match at_ with
    | .ok a => (areaOf (a % 2 ^ 44)).sram
    | _ => false
  let top := (if sram then 38 else 71) - (if k = 2 then 1 else 0)
  checked
    [(c.stray ([(16, 1), (24, 8)] ++ if k = 3 then [] else [(35, 1)]), stReserved), (k != 3 && decide (top < b), stReserved)] s fun s =>
    match at_ with
    | .fail => .reply stWrongPartition [] s
    | .wait => .wait .translate s
    | .ok a =>
      let a := a % 2 ^ 44
      if !s.ownMemory c.stamp a then .reply stWrongPartition [] s
      else if s.addressOff a then .reply stDomainOff [] s
      else .reply stOk [] (s.injectAt k a b)

/-- FAULT_INJECT (R396, Table 12-9). -/
def bodyFaultInject (c : CmdRec) (_ : CmdIn) (s : State) : CmdOut :=
  let k := c.num 16 1
  if k = 1 ∨ k = 2 ∨ k = 3 then injectMemory c s
  else if k = 4 then
    let tile := (s.tileOfLogical (c.num 32 2)).filter fun p => s.ownerOf p == c.stamp
    checked
      [(c.stray [(16, 1), (32, 6)], stReserved),
       (decide (63 < c.num 34 1) || decide (31 < c.num 35 1) || decide (255 < c.num 36 2), stReserved),
       (tile.isNone, stWrongPartition), (tile.any s.tileOff, stDomainOff)] s fun s =>
      match tile with
      | some p => .reply stOk [] (s.setMem (s.mem.flip (ctxBase p (c.num 34 1) + 4 * c.num 36 2) (c.num 35 1)))
      | none => .reply stOk [] s
  else if k = 5 then
    checked [(c.stray [(16, 1)], stReserved)] s fun s =>
      .reply stOk [] (s.raiseFault { cls := 2, part := c.stamp, source := 6, injected := true })
  else if k = 6 then
    checked [(c.stray [(16, 1), (35, 1)], stReserved)] s fun s =>
      let w := s.perc
      .reply stOk [] { s with perc := { w with copies := w.copies.set 0 (w.copies[0] ^^^ BitVec.ofNat 256 (2 ^ c.num 35 1)) } }
  else .reply stReserved [] s

def execFaultInject (r : Recip) (s : State) : Host.Outcome State Fault Refusal :=
  .next (s.runCommand r (· == 0x0805) bodyFaultInject)

/-! ## Events -/

/-- EVENT_SUBSCRIBE (R404). -/
def bodyEventSubscribe (c : CmdRec) (_ : CmdIn) (s : State) : CmdOut :=
  let code := c.num 16 2
  let act := c.num 18 1
  let x := c.num 20 4
  checked
    [(c.stray [(16, 3), (20, 4)], stReserved),
     (!(eventCodes.contains code || code == 0xFFFF) || (!c.po && code == 0x50) || decide (1 < act), stReserved),
     ((s.queue x).owner != c.stamp, stWrongPartition)] s fun s =>
    let codes := if code = 0xFFFF then eventCodes.filter fun e => c.po || e != 0x50 else [code]
    let b := s.evb c.stamp
    .reply stOk [] (s.setEvb c.stamp
      { b with subs := codes.foldl (fun t e => tset none t e (if act = 0 then some x else none)) b.subs })

def execEventSubscribe (r : Recip) (s : State) : Host.Outcome State Fault Refusal :=
  .next (s.runCommand r (· == 0x0A01) bodyEventSubscribe)

/-- The event waits to be written to its queue. -/
def State.eventQueued (s : State) (r eseq : Nat) : Bool :=
  s.queues.any fun e => (e.2.replies ++ e.2.sent).any fun y => y.isEvent && y.stamp == r && y.ident == eseq

/-- Once room has returned, an OVERFLOW event carries the count of discarded events (R354). -/
def State.tellOverflow (s : State) (r : Nat) : State :=
  let b := s.evb r
  if b.discarded ≠ 0 ∧ b.entries.length < 256 then
    (s.setEvb r { b with discarded := 0 }).raiseEvent r { code := 0x60, data := leBytes 4 b.discarded ++ leBytes 8 0 }
  else s

/-- EVENT_ACK (R354, R405). -/
def bodyEventAck (c : CmdRec) (_ : CmdIn) (s : State) : CmdOut :=
  let e := c.num 16 2
  checked [(c.stray [(16, 2)], stReserved)] s fun s =>
    let b := s.evb c.stamp
    let covered (y : EventEntry) : Bool :=
      y.delivered && decide ((e + 65536 - y.eseq) % 65536 ≤ 255) && !s.eventQueued c.stamp y.eseq
    let kept := b.entries.filter fun y => !covered y
    .reply stOk (resultOf [(14, 2, b.entries.length - kept.length)]) ((s.setEvb c.stamp { b with entries := kept }).tellOverflow c.stamp)

def execEventAck (r : Recip) (s : State) : Host.Outcome State Fault Refusal := .next (s.runCommand r (· == 0x0A02) bodyEventAck)

end Sys2Proof.Machine
end

