-- ==== Sys2Proof/Machine/CmdMemory.lean ====
section
/-!
DEFINITION. Machine/CmdMemory.lean: MEM_WRITE, MEM_READ, MEM_FILL, MEM_ATOMIC and SCRUB_RANGE (R376, R377, R392, R454 to
R456).
-/
namespace Sys2Proof.Machine

/-- 16 MiB, the longest range of a MEM_ command. -/
def memMax : Nat := 2 ^ 24

/-! ## MEM_WRITE, MEM_READ, MEM_FILL -/

/-- MEM_WRITE (R376). -/
def bodyMemWrite (c : CmdRec) (i : CmdIn) (s : State) : CmdOut :=
  let r := c.stamp
  let a := c.num 16 8
  let n := c.num 24 4
  let src := c.num 28 1
  let d := c.desc 32
  let ptr := src == 1
  checked
    [(c.stray (if ptr then [(16, 13), (32, 16)] else [(16, 13), (32, 32)]) || (ptr && d.rsv != 0), stReserved),
     (n == 0 || (ptr && d.len == 0), stZero),
     (decide (memMax < n) || decide (1 < src) || (ptr && d.spaceBad c), stReserved),
     ((src == 0 && decide (32 < n)) || (ptr && d.short n), stBadLength),
     (decide (n ≤ memMax) && (s.rangeAt r a n true == 1 || (ptr && s.descFails c d n false)), stWrongPartition),
     (s.noTags r, stTags)] s fun s =>
    let put (b : List Byte) (s : State) : CmdOut :=
      let m := s.writeRange r a (b.take n)
      .reply m.status (resultOf [(14, 4, m.done)]) m.s
    whenRange c a n true s fun s =>
      if ptr then whenDesc c d n false s fun s => withInput c i d n s put else put (c.sub 32 n) s

def execMemWrite (r : Recip) (s : State) : Host.Outcome State Fault Refusal := .next (s.runCommand r (· == 0x0301) bodyMemWrite)

/-- MEM_READ (R376): poison does not stop it; the reply tells of it. -/
def bodyMemRead (c : CmdRec) (_ : CmdIn) (s : State) : CmdOut :=
  let r := c.stamp
  let a := c.num 16 8
  let n := c.num 24 4
  let dst := c.num 28 1
  let d := c.desc 32
  let ptr := dst == 1
  checked
    [(c.stray (if ptr then [(16, 13), (32, 16)] else [(16, 13)]) || (ptr && d.rsv != 0), stReserved), (n == 0, stZero),
     (decide (memMax < n) || decide (1 < dst) || (ptr && d.spaceBad c), stReserved),
     ((dst == 0 && decide (8 < n)) || (ptr && d.short n), stBadLength),
     (decide (n ≤ memMax) && (s.rangeAt r a n false == 1 || (ptr && s.descFails c d n true)), stWrongPartition),
     (s.noTags r, stTags)] s fun s =>
    whenRange c a n false s fun s => whenDesc c d (if ptr then n else 0) true s fun s =>
      let m := s.readRange r a n
      let done := m.done + 2 ^ 31 * bit m.poison.isSome
      let st := if m.status ≠ stOk then m.status else if m.poison.isSome then stPoison else stOk
      if ptr then
        let (ok, s) := m.s.output c d m.data
        .reply (if ok then st else stPoison) (resultOf [(14, 4, done), (18, 4, m.poison.getD 0xFFFFFFFF)]) s
      else .reply st (resultOf [(14, 4, done), (18, 8, leNat m.data)]) m.s

def execMemRead (r : Recip) (s : State) : Host.Outcome State Fault Refusal := .next (s.runCommand r (· == 0x0302) bodyMemRead)

/-- MEM_FILL (R376). -/
def bodyMemFill (c : CmdRec) (_ : CmdIn) (s : State) : CmdOut :=
  let r := c.stamp
  let a := c.num 16 8
  let n := c.num 24 4
  let w := c.num 28 1
  checked
    [(c.stray [(16, 13), (32, 8)], stReserved), (n == 0, stZero), (decide (memMax < n) || !(w == 4 || w == 8), stReserved),
     (a % max 1 w != 0 || n % max 1 w != 0, stBadLength), (decide (n ≤ memMax) && s.rangeAt r a n true == 1, stWrongPartition), (s.noTags r, stTags)] s fun s =>
    whenRange c a n true s fun s =>
      let pat := c.sub 32 w
      let m := s.writeRange r a ((List.range n).map fun i => pat.getD (i % max 1 w) 0)
      .reply m.status (resultOf [(14, 4, m.done)]) m.s

def execMemFill (r : Recip) (s : State) : Host.Outcome State Fault Refusal := .next (s.runCommand r (· == 0x0303) bodyMemFill)

/-! ## MEM_ATOMIC -/

/-- MEM_ATOMIC (R312, R377). -/
def bodyMemAtomic (c : CmdRec) (_ : CmdIn) (s : State) : CmdOut :=
  let r := c.stamp
  let a := c.num 16 8
  let aop := c.num 24 1
  let w := c.num 25 1
  let tap := decide (0x04000000 ≤ a % 2 ^ 44) && decide (a % 2 ^ 44 < 0x04400000)
  checked
    [(c.stray [(16, 10), (32, 16)], stReserved), (aop == 0 || decide (8 < aop), stUnknownOpcode),
     (!(w == 4 || w == 8) || a % max 1 w != 0, stBadLength),
     (decide (2 ^ 44 ≤ a) || tap || s.rangeAt r a w true == 1, stWrongPartition), (s.noTags r, stTags)] s fun s =>
    whenRange c a w true s fun s =>
      match s.deviceOf r a w true with
      | none => .reply stWrongPartition [] s
      | some d =>
        let (st, old, _, s) := s.serve r 3 d 24 (c.sub 24 2 ++ leBytes 6 0 ++ c.sub 32 16)
        .reply st (if st = stOk ∨ st = stPoison then resultOf [(14, 8, leNat old)] else []) s

def execMemAtomic (r : Recip) (s : State) : Host.Outcome State Fault Refusal := .next (s.runCommand r (· == 0x0304) bodyMemAtomic)

/-! ## SCRUB_RANGE -/

/-- What a scrub has found. -/
structure Scrub where
  scanned : Nat := 0
  corrected : Nat := 0
  fresh : Nat := 0
  old : Nat := 0
  first : Nat := 0
  last : Nat := 0
  s : State
  deriving DecidableEq

/-- An uncorrectable word or line at the caller's address `la`. -/
def Scrub.uncorr (x : Scrub) (la : Nat) (s : State) : Scrub :=
  { x with fresh := x.fresh + 1, first := if x.fresh = 0 then la else x.first, last := la, s := s }

/-- One SRAM word is scrubbed (R454). -/
def Scrub.word (x : Scrub) (q la w : Nat) : Scrub :=
  let s := x.s
  let x := { x with scanned := x.scanned + 1 }
  match s.mem.read w with
  | (_, .clean) => x
  | (d, .corrected) =>
    let s := s.trackCorrected w
    { x with corrected := x.corrected + 1, s := s.setMem (s.mem.write w d false) }
  | (_, .poisoned) => { x with old := x.old + 1 }
  | (d, .uncorrectable) => x.uncorr la ((s.setMem (s.mem.write w d true)).unreqUncorr q 1 w)

/-- One DRAM line is scrubbed (R454). -/
def Scrub.line (x : Scrub) (la a : Nat) : Scrub :=
  let s := x.s
  let x := { x with scanned := x.scanned + 1 }
  let p := s.mem.place a
  match tget none s.mem.lines (a / 64) with
  | none => x
  | some ln =>
    let (corr, bad, _) := decodeLine (some ln)
    let s := s.dramRead p a corr bad
    if bad && ln.poison && ln.flips.isEmpty then { x with old := x.old + 1, s := s }
    else if bad then
      let s := s.setLine a (ln.rewritten (lineOf a) true)
      x.uncorr la (s.unreqUncorr (s.placeOwner p) 1 a)
    else if corr = 0 then { x with s := s }
    else { x with corrected := x.corrected + 1, s := s.writeBackLine a }

/-- The scrub of a caller's range. -/
def State.scrub (s : State) (r a n : Nat) : Scrub :=
  (piecesOf a n).foldl (fun x p =>
    match State.deviceOf x.s r p.1 p.2 false with
    | none => x
    | some d =>
      match areaOf d with
      | .dram => (List.range (p.2 / 64)).foldl (fun x i => Scrub.line x (p.1 + 64 * i) (d + 64 * i)) x
      | .line k => if (tget {} x.s.cells k).owner = r then
          (List.range (p.2 / 4)).foldl (fun x i => Scrub.word x r (p.1 + 4 * i) (d + 4 * i)) x else x
      | _ => (List.range (p.2 / 4)).foldl (fun x i => Scrub.word x r (p.1 + 4 * i) (d + 4 * i)) x) { s := s }

/-- The memory that a caller's range lies in: 1 an SRAM, 2 DRAM, 0 none (R392). -/
def scrubKind (a n : Nat) : Nat :=
  let e := a + n - 1
  match areaOf a, areaOf e with
  | .data p, .data q => if p = q then 1 else 0
  | .tap _, .tap _ => 1
  | .line _, .line _ => 1
  | .dram, .dram => 2
  | _, _ => 0

/-- Every DRAM part of a caller's range is the caller's, and none of it metadata. -/
def State.scrubOwned (s : State) (r a n : Nat) : Bool :=
  (piecesOf a n).all fun p => match s.deviceOf r p.1 p.2 false with
    | some d => areaOf d != .dram || s.dramOwned r d p.2
    | none => true

/-- Some tile of a caller's range is off. -/
def State.scrubOff (s : State) (r a n : Nat) : Bool :=
  (piecesOf a n).any fun p => match s.deviceOf r p.1 p.2 false with
    | some d => s.addressOff d
    | none => false

/-- SCRUB_RANGE (R392, R454, R456). -/
def bodyScrubRange (c : CmdRec) (_ : CmdIn) (s : State) : CmdOut :=
  let r := c.stamp
  let a := c.num 16 8
  let n := c.num 24 8
  let d := c.desc 32
  let kind := scrubKind a n
  let unit := if kind = 2 then 64 else 4
  checked
    [(c.stray [(16, 32)] || d.rsv != 0, stReserved), (n == 0, stZero), (d.spaceBad c, stReserved),
     (kind == 0 || a % unit != 0 || n % unit != 0 || d.short 64, stBadLength),
     ((kind != 0 && (s.rangeAt r a n false == 1 || !s.scrubOwned r a n)) || s.descFails c d 64 true, stWrongPartition),
     (kind != 0 && s.scrubOff r a n, stDomainOff), (s.noTags r, stTags)] s fun s =>
    whenRange c a n false s fun s => whenDesc c d 64 true s fun s =>
      let x := s.scrub r a n
      let (v, s) := x.s.draw
      let out := leBytes 8 x.scanned ++ leBytes 4 x.corrected ++ leBytes 4 x.fresh ++ leBytes 4 x.fresh ++ leBytes 4 x.old
        ++ leBytes 8 x.first ++ leBytes 8 x.last ++ leBytes 8 (a + n) ++ leBytes 8 (Config.free v) ++ leBytes 8 0
      replyWith c d out (resultOf [(14, 4, x.corrected), (18, 4, x.fresh)]) s

def execScrubRange (r : Recip) (s : State) : Host.Outcome State Fault Refusal := .next (s.runCommand r (· == 0x0801) bodyScrubRange)

end Sys2Proof.Machine
end

