-- ==== Sys2Proof/Machine/CmdPers.lean ====
section
/-!
DEFINITION. Machine/CmdPers.lean: the commands on personalities and contexts: the image format and its checks (R422 to
R425), PERS_LOAD, PERS_UNLOAD, CTX_PIN, GRAPH_START, GRAPH_STOP (R378 to R383).
-/
namespace Sys2Proof.Machine

/-! ## Sectors kept awake for a command (R474) -/

/-- Work on tiles of these sectors waits, with SEC_FORCE.AWAKE set, until all are in Brew. -/
def withSectors (ns p : List Nat) (s : State) (k : State → CmdOut) : CmdOut :=
  if ns.all fun n => (s.sector n).pstate == .brew then k s
  else .wait (.again p) (ns.foldl (fun s n => if (State.sector s n).force then s else s.forceAwake n true) s)

/-- AWAKE is cleared for the sectors before the reply. -/
def State.unforce (s : State) (ns : List Nat) : State := ns.foldl (fun s n => State.forceAwake s n false) s

/-- The sectors of a list of tiles, each once. -/
def sectorsOf (ps : List Nat) : List Nat := (List.range 8).filter fun n => ps.any fun p => sectorOf p == n

/-- Fences are requested for the tiles that have none (R124, R126). -/
def State.fenceAll (s : State) (ps : List Nat) : State :=
  ps.foldl (fun s p => if State.fenceWanted s p then s else s.requestFence p) s

/-- The fences of these tiles are released. -/
def State.unfenceAll (s : State) (ps : List Nat) : State := ps.foldl State.dropFence s

/-- A command notes the tiles it fenced by their logical numbers, since Cupping may move them. -/
def State.logicalsOf (s : State) (ps : List Nat) : List Nat := ps.map fun p => (s.tm p).logical
def State.unfenceLogicals (s : State) (ls : List Nat) : State := s.unfenceAll (ls.filterMap s.tileOfLogical)

/-! ## What a personality names -/

/-- Logical tiles of CONTEXT and SIGMAP records. -/
def Pers.logicals (v : Pers) : List Nat := ((v.ctxs.map (·.1)).filter (· != 0xFFFF) ++ v.sigs.map (·.1)).eraseDups

/-- The partition's tiles that a personality names, as physical tiles. -/
def State.persTiles (s : State) (q : Nat) (v : Pers) : List Nat :=
  (v.logicals.filterMap s.tileOfLogical).filter fun p => s.ownerOf p == q

/-- Another started personality of the partition names the tile. -/
def State.otherStarted (s : State) (q h p : Nat) : Bool :=
  (s.part q).loaded.any fun e => e.1 != h && e.2.started && (s.persTiles q e.2).contains p

/-- CTX_IDs of a personality. -/
def Pers.ids (v : Pers) : List Nat := (v.ctxs.map fun c => c.2.2.1).eraseDups

/-- The personality of a handle. -/
def Part.persAt (p : Part) (h : Nat) : Option Pers := tget none p.pers h

def State.setPers (s : State) (q h : Nat) (v : Option Pers) : State := s.updPart q fun p => { p with pers := tset none p.pers h v }

/-! ## The image (R422 to R425) -/

/-- `n` records of `k` bytes. -/
def splitEvery (k : Nat) (b : List Byte) : Nat → List (List Byte)
  | 0 => []
  | n + 1 => b.take k :: splitEvery k (b.drop k) n

/-- An image as its sections spell it, decrypted. -/
structure PersImage where
  version : Nat
  holdoff : Nat
  pmeas : List Byte
  /-- logical tile, cache frame, context -/
  ctxs : List (Nat × Nat × List Byte)
  tasks : List (List Byte)
  sigs : List (List Byte)
  sets : List (List Byte)
  timers : List (List Byte)
  eb : List (List Byte)
  deriving DecidableEq, Repr

/-- Section entry `i` of the table (Table 13-9). -/
def persEntry (b : List Byte) (i : Nat) : List Byte := slice b (1536 + 48 * i) 48

/-- Step 1 of R425: the header, the table and the length of the descriptor. -/
def persFormOk (b : List Byte) : Bool :=
  let n := num b 5 1
  let body := num b 40 4
  let es := (List.range n).map (persEntry b)
  slice b 0 4 == [0x44, 0x59, 0x50, 0x52] && num b 4 1 == 1 && decide (1 ≤ n) && decide (n ≤ 16) && decide (num b 6 1 < 2) &&
    zeros b 7 1 && zeros b 44 4 && zeros b 1329 207 &&
    decide (1536 + 48 * n ≤ body) && decide (body + 96 + (if num b 6 1 = 1 then 3309 else 0) ≤ b.length) &&
    es.all (fun e => zeros e 1 3 && zeros e 28 4 && num e 4 4 % 16 == 0 && decide (1536 + 48 * n ≤ num e 4 4) &&
      decide (num e 4 4 + num e 8 4 ≤ body)) &&
    (List.range (n - 1)).all (fun i => decide (num (persEntry b i) 4 4 + num (persEntry b i) 8 4 ≤ num (persEntry b (i + 1)) 4 4)
      && decide (num (persEntry b i) 4 4 < num (persEntry b (i + 1)) 4 4)) &&
    distinct (es.map fun e => slice e 16 12)

/-- K_P of R423. -/
def persKey (dbg : Bool) (b : List Byte) : Option (List Byte) :=
  let ec := slice b 96 97
  if !Config.ecValid ec then none
  else
    let z := Config.ecdh (dekEc dbg) ec ++ Config.kemDecaps (dekKem dbg) (slice b 193 1088)
    let kek := Config.hkdfExpand (Config.hkdfExtract (Config.sha384 (b.take 96)) z) (ascii "DY7440 pers") 32
    Config.gcmOpen kek (List.replicate 12 0) (b.take 96) (slice b 1281 32) (slice b 1313 16)

/-- Record sizes of Table 13-10. -/
def recordBytes (type : Nat) : Nat := ([0, 1032, 32, 8, 68, 12, 32] : List Nat).getD type 0

/-- Every section decrypted: type, records; `none`: a tag fails, or a type or length is not one of Table 13-10. -/
def persSections (key b : List Byte) : Option (List (Nat × List (List Byte))) :=
  (List.range (num b 5 1)).mapM fun i =>
    let e := persEntry b i
    let t := num e 0 1
    match Config.gcmOpen key (slice e 16 12) (b.take 48 ++ e.take 32) (slice b (num e 4 4) (num e 8 4)) (slice e 32 16) with
    | none => none
    | some d =>
      if t = 0 ∨ 6 < t ∨ num e 8 4 ≠ num e 12 4 * recordBytes t then none
      else some (t, splitEvery (recordBytes t) d (num e 12 4))

/-- Records of a section type. -/
def sectionOf (ss : List (Nat × List (List Byte))) (t : Nat) : List (List Byte) := ((ss.find? fun x => x.1 == t).map (·.2)).getD []

/-- CTX_ID of a context (Table 03-2). -/
def ctxIdOf (c : List Byte) : Nat := field (leNat (c.take 8)) 40 16

/-- Fields of a TASK record (Table 13-10): device task number, CTX_ID. -/
def taskOf (r : List Byte) : Nat := num r 0 2 % 2 ^ 14
def taskCtxOf (r : List Byte) : Nat := num r 20 2

/-- Conformance (R424). -/
def PersImage.conforms (m : PersImage) : Bool :=
  m.ctxs.all (fun c => (c.2.1 == 0 || (decide (16 ≤ c.2.1) && decide (c.2.1 < 64))) && ctxIdOf c.2.2 != 0 &&
      m.ctxs.all fun d => ctxIdOf d.2.2 != ctxIdOf c.2.2 || d.2.2 == c.2.2) &&
    m.tasks.all (fun r => m.ctxs.any fun c => ctxIdOf c.2.2 == taskCtxOf r) &&
    m.sigs.all (fun r => num r 0 2 / 31 == num r 4 2 % 2 ^ 14 / 2048 && decide (num r 2 1 < 4)) &&
    m.sets.all (fun r => decide (num r 0 1 < 8)) &&
    m.timers.all (fun r => decide (num r 0 1 < 8) && decide (num r 1 1 < 16)) &&
    m.eb.length == m.ctxs.length

/-- The image as verified (R425): a status, or its contents. -/
def State.verifyPers (s : State) (q : Nat) (b : List Byte) : Except Nat PersImage :=
  let r := s.role q
  let pq := num b 6 1 == 1
  let body := num b 40 4
  if !persFormOk b then .error stSignature
  else if num b 8 2 ≠ 0x00A1 ∨ num b 10 2 ≠ 0x7440 ∨ !(num b 12 4).testBit stepping ∨ slice b 16 16 ≠ serial then .error stIdentity
  else if slice b 48 48 ≠ r.ownerHash ∨ pq ≠ r.pqsig then .error stSignature
  else if !Config.ecdsaVerify r.ecPub (b.take body) (slice b body 96) ∨
      (pq ∧ !Config.pqVerify r.pqPub (b.take body) (slice b (body + 96) 3309)) then .error stSignature
  else match (persKey s.dbgAccess.unlocked b).bind fun k => persSections k (b.take body) with
  | none => .error stSignature
  | some ss =>
    let m : PersImage :=
      { version := num b 32 4, holdoff := num b 36 4, pmeas := Config.sha384 (b.take body)
        ctxs := (sectionOf ss 1).map fun r => (num r 0 2, num r 2 1, r.drop 8)
        tasks := sectionOf ss 2, sigs := sectionOf ss 3, sets := sectionOf ss 4, timers := sectionOf ss 5, eb := sectionOf ss 6 }
    if !distinct (ss.map (·.1)) ∨ !([1, 2, 6] : List Nat).all (fun t => ss.any fun x => x.1 == t) ∨ !m.conforms then .error stSignature
    else .ok m

/-! ## PERS_LOAD (R378, R379) -/

/-- CTX_IDs of an image, each once. -/
def PersImage.ids (m : PersImage) : List Nat := (m.ctxs.map fun c => ctxIdOf c.2.2).eraseDups

/-- Frames of the context store that no loaded personality holds, ascending, as many as `n` (R100). -/
def Part.freeFrames (p : Part) (n : Nat) : List Nat :=
  let used := p.loaded.flatMap fun e => e.2.ctxs.map fun c => c.2.2.2
  (((List.range 16384).filter fun f => !used.contains f)).take n

/-- What the device records of an image loaded into the frames given. -/
def PersImage.record (m : PersImage) (frames : List Nat) : Pers :=
  { version := m.version, pmeas := m.pmeas, holdoff := m.holdoff
    ctxs := m.ctxs.map fun c => (c.1, c.2.1, ctxIdOf c.2.2, frames.getD (m.ids.idxOf (ctxIdOf c.2.2)) 0)
    tasks := m.tasks.map taskOf
    sigs := m.sigs.map fun r => (num r 0 2, num r 2 1)
    sets := m.sets.map fun r => (num r 0 1, num r 1 1)
    timers := m.timers.map fun r => (num r 0 1, num r 1 1, (BitVec.ofNat 32 (num r 4 4)).getLsbD 31) }

/-- Device task numbers that an image names (step 5 of R378). -/
def PersImage.taskNames (m : PersImage) : List Nat :=
  m.tasks.map taskOf ++ m.sigs.map (fun r => num r 4 2 % 2 ^ 14) ++ m.timers.map (fun r => 2048 * num r 0 1 + num r 8 2 % 2048) ++
    (m.tasks.filter fun r => (num r 31 1).testBit 7).map fun r => num r 30 2 % 2 ^ 14

/-- Stream sets that an image names: those of its SET records and of its set tasks. -/
def PersImage.setNames (m : PersImage) : List (Nat × Nat) :=
  m.sets.map (fun r => (num r 0 1, num r 1 1)) ++
    (m.tasks.filter fun r => (num r 10 1).testBit 2).map fun r => (taskOf r / 2048, num r 16 1)

/-- Streams that the SET records of an image name. -/
def PersImage.streamNames (m : PersImage) : List Nat :=
  m.sets.flatMap fun r => (List.range 32).filterMap fun f =>
    let e := num r (4 + 2 * f) 2
    if e.testBit 15 then some (e % 8192) else none

/-- The tile of a logical number, if the partition owns it. -/
def State.ownTile (s : State) (q l : Nat) : Option Nat := (s.tileOfLogical l).filter fun p => s.ownerOf p == q

/-- Steps 3 to 6 of R378, and the tag that a write of the store needs. -/
def State.loadCheck (s : State) (q : Nat) (m : PersImage) : Option Nat :=
  let p := s.part q
  let v := m.record []
  firstFail
    [(p.loaded.any (fun e => e.2.ids.any m.ids.contains), stBusy),
     (decide (s.holdoffOf q < m.holdoff), stBusy),
     (v.logicals.any (fun l => (s.ownTile q l).isNone), stTiles),
     (m.taskNames.any (fun t => !p.hasTask t) || m.setNames.any (fun x => !p.hasSet x.1 (x.2 / 32)) ||
       v.timers.any (fun x => !p.hasTimer x.1 x.2.1) || m.streamNames.any (fun k => !p.hasStream k), stWrongPartition),
     (v.tasks.any (fun t => (s.task t).st.owner != 31) ||
       v.sigs.any (fun x => (tget 0 (s.sector (x.1 / 31)).sigmap (4 * (x.1 % 31) + x.2)).getLsbD 31) ||
       p.loaded.any (fun e => e.2.sets.any v.sets.contains || e.2.timers.any fun t => v.timers.any fun u => u.1 == t.1 && u.2.1 == t.2.1) ||
       (s.mem.reservedBase q).isNone || s.mem.capacity == 0 || decide ((p.freeFrames m.ids.length).length < m.ids.length), stBusy),
     (s.noTags q, stTags)]

/-- Every controller serves the partition's writes of its lowest region (R319, R330). -/
def State.storeServed (s : State) (q : Nat) : Bool :=
  s.meshOpen q && (List.range 12).all fun c =>
    let k := s.mem.ctlOf c
    (s.mem.lowestBank q).all (fun b => !k.initBusy b) &&
      (List.range 64).any fun i => slotOwner (k.slotAt i &&& 0x1F#8) == some q && (k.slotAt i).getLsbD 7

/-- Contexts and map entries are written to the store (R100): `false`, a write failed. -/
def State.writeStore (s : State) (q : Nat) (m : PersImage) (v : Pers) : Bool × State :=
  let d := (s.mem.reservedBase q).getD 0
  ((List.range m.ctxs.length).foldl (fun (ok, s) i =>
    let f := (v.ctxs.getD i (0, 0, 0, 0)).2.2.2
    let c := (m.ctxs.getD i (0, 0, [])).2.2
    let (a, s) := State.dramPut s (d + 1024 * f) 0 c fun _ => false
    let (b, s) := State.dramPut s (d + 16 * 2 ^ 20 + 32 * f) 0 (m.eb.getD i []) fun _ => false
    (ok && a && b, s)) (true, s))

/-- Contexts are written to the cache frames named, but for tiles in Cool or Cold and frames that hold a context of
another personality (R379). -/
def State.writeCache (s : State) (q : Nat) (m : PersImage) : State :=
  m.ctxs.foldl (fun (s : State) (c : Nat × Nat × List Byte) =>
    match State.ownTile s q c.1 with
    | none => s
    | some p =>
      let held : Bool := match tget none (State.tile s p).frameId c.2.1 with
        | some id => (State.part s q).loaded.any fun e => e.2.ids.contains id
        | none => false
      if c.2.1 = 0 ∨ State.tileOff s p ∨ held then s
      else
        let s := State.writeWords s (ctxBase p c.2.1) (wordsOf c.2.2 256)
        s.updTile p fun t => { t with frameId := tset none t.frameId c.2.1 (some (ctxIdOf c.2.2)) }) s

/-- The static fields that a TASK record gives (Tables 06-1, 06-2, 13-10), for owner q with the golden copy at `a`. -/
def taskStaticOf (r : List Byte) (q a : Nat) : TaskStatic :=
  { mask := BitVec.ofNat 32 (num r 4 4)
    ctrl := BitVec.ofNat 32 (num r 8 4 / 2 ^ 18 % 2 ^ 6 * 2 ^ 18 + q * 2 ^ 24)
    batch := BitVec.ofNat 16 (num r 12 2)
    stream := BitVec.ofNat 13 (num r 16 2)
    ctxId := BitVec.ofNat 16 (taskCtxOf r)
    storeLo := BitVec.ofNat 32 (a % 2 ^ 32 / 1024 * 1024)
    storeHi := BitVec.ofNat 16 (a / 2 ^ 32)
    eligible := BitVec.ofNat 31 (num r 24 4)
    notify := BitVec.ofNat 32 (num r 28 4) &&& 0xBFFF1F00#32 }

/-- Task entries, signal map, stream sets and timers are written (R379, R424). -/
def State.writeTables (s : State) (q : Nat) (m : PersImage) (v : Pers) : State :=
  let d := (s.mem.reservedBase q).getD 0
  let s := m.tasks.foldl (fun s r =>
    let f := ((v.ctxs.find? fun c => c.2.2.1 == taskCtxOf r).map fun c => c.2.2.2).getD 0
    let st := taskStaticOf r q (d + 1024 * f)
    let t := taskOf r
    ((State.updTask s t fun k => { k with imaged := true, state := .idle, resid := 0 }).setStatic t st).checkMode t) s
  let s := m.sigs.foldl (fun s r => State.updSector s (num r 0 2 / 31) fun x =>
    { x with sigmap := tset 0 x.sigmap (4 * (num r 0 2 % 31) + num r 2 1) (BitVec.ofNat 32 (2 ^ 31 + num r 4 2 % 2048)) }) s
  let s := m.sets.foldl (fun s r => State.updSector s (num r 0 1) fun x =>
    { x with setent := (List.range 32).foldl (fun t f =>
        tset 0 t (32 * num r 1 1 + f) (BitVec.ofNat 16 (num r (4 + 2 * f) 2) &&& 0x9FFF#16)) x.setent }) s
  m.timers.foldl (fun s r => State.updSector s (num r 0 1) fun x =>
    let t : Timer := { cfg := BitVec.ofNat 32 (num r 4 4) &&& 0x4000FFFF#32, tgt := BitVec.ofNat 32 (num r 8 4) &&& 0x001F07FF#32 }
    { x with timers := tset {} x.timers (num r 1 1) t }) s

/-- The work of a PERS_LOAD whose tiles `mine` are fenced for it. -/
def State.loadPers (s : State) (q h : Nat) (m : PersImage) (mine : List Nat) : CmdOut :=
  let v := m.record ((s.part q).freeFrames m.ids.length)
  let (ok, s1) := s.writeStore q m v
  if !ok then .reply stPoison [] (s1.unfenceLogicals mine)
  else
    let s := ((s1.writeCache q m).writeTables q m v).setPers q h (some v)
    .reply stOk (resultOf [(14, 2, v.tasks.length), (16, 2, v.ctxs.length), (18, 4, v.version)]) (s.unfenceLogicals mine)

/-- The image has been read: it is checked; its tiles are fenced, those of sectors in Steep awake, and then it is written.
A command that waits for its fences carries the image along, and checks the objects again. -/
def loadImage (c : CmdRec) (mine : List Nat) (first : Bool) (b : List Byte) (s : State) : CmdOut :=
  let q := c.stamp
  let h := c.num 16 1
  let stop (st : Nat) (s : State) : CmdOut := .reply st [] (s.unfenceLogicals mine)
  if ((s.part q).persAt h).isSome then stop stBusy s
  else match s.verifyPers q b with
  | .error st => stop st s
  | .ok m =>
    match s.loadCheck q m with
    | some st => stop st s
    | none =>
      let ps := ((m.record []).logicals.filterMap (s.ownTile q)).filter fun p => !s.tileOff p && !s.otherStarted q h p
      let fresh := ps.filter fun p => !s.fenceWanted p
      let need := if first then s.logicalsOf fresh else mine
      let s := if first then s.fenceAll fresh else s
      let s := (sectorsOf ps).foldl State.raiseWake s
      if ps.all (fun p => (s.tile p).fenced && s.awake p && !(s.tm p).migrating) && s.storeServed q then s.loadPers q h m need
      else .wait (.again (need.length :: need ++ b.map (·.toNat))) s

/-- PERS_LOAD. -/
def bodyPersLoad (c : CmdRec) (i : CmdIn) (s : State) : CmdOut :=
  match i.progress with
  | n :: rest => loadImage c (rest.take n) false ((rest.drop n).map (BitVec.ofNat 8)) s
  | [] =>
    let d := c.desc 24
    checked
      [(c.stray [(16, 1), (24, 16)] || d.rsv != 0, stReserved), (d.len == 0, stZero), (decide (7 < c.num 16 1) || d.spaceBad c, stReserved),
       (s.descFails c d d.len false, stWrongPartition), (((s.part c.stamp).persAt (c.num 16 1)).isSome, stBusy),
       (s.descTags c d, stTags)] s fun s =>
      whenDesc c d d.len false s fun s => withInput c i d d.len s fun b s =>
        whenSlot c.stamp b s fun s => loadImage c [] true b s

def execPersLoad (r : Recip) (s : State) : Host.Outcome State Fault Refusal := .next (s.runCommand r (· == 0x0401) bodyPersLoad)

/-! ## PERS_UNLOAD (R380) -/

/-- A stream that is not CLOSED signals a task of the personality. -/
def State.signalled (s : State) (v : Pers) : Bool :=
  s.streams.any fun e => e.2.state != 0 && e.2.sigCells != 0 && v.tasks.contains e.2.taskNo

/-- The partition's tiles and frames that hold a context of the personality, in the dispatchers' record. -/
def State.persFrames (s : State) (q : Nat) (v : Pers) : List (Nat × Nat) :=
  ((List.range 256).filter fun p => s.ownerOf p == q).flatMap fun p =>
    (State.tile s p).frameId.filterMap fun e => match e.2 with
      | some id => if v.ids.contains id then some (p, e.1) else none
      | none => none

/-- Everything of a personality but its frames goes: tasks, pins, signal map, sets, timers (R195, R380). -/
def State.dropTables (s : State) (q : Nat) (v : Pers) : State :=
  let s := v.tasks.foldl (fun s t => State.updTask s t fun k =>
    { k with st := { k.st with ctrl := (k.st.ctrl &&& 0xE0FFFFFF#32) ||| 0x1F000000#32 }, imaged := false, state := .idle
             resid := 0, cancel := false, urgent := false }) s
  let s := v.sigs.foldl (fun s x => State.updSector s (x.1 / 31) fun y => { y with sigmap := tset 0 y.sigmap (4 * (x.1 % 31) + x.2) 0 }) s
  let s := v.sets.foldl (fun s x => State.updSector s x.1 fun y =>
    { y with setent := (List.range 32).foldl (fun t f => tset 0 t (32 * x.2 + f) 0) y.setent }) s
  let s := v.timers.foldl (fun s x => State.updSector s x.1 fun y => { y with timers := tset {} y.timers x.2.1 {} }) s
  (List.range 256).foldl (fun s p =>
    if State.ownerOf s p ≠ q then s
    else s.updTile p fun t => { t with pin := t.pin.filter fun e => match e.2 with
      | some id => !v.ids.contains id
      | none => true }) s

/-- A clear of one frame is requested (R118). -/
def State.requestClear (s : State) (p f : Nat) : State :=
  s.requestFill p { hot := if f < 16 then some f else none, cache := if f < 16 then none else some f, src := .zero, who := .unload }

/-- Clears of PERS_UNLOAD that have not ended on a tile. -/
def Tile.clearing (t : Tile) : Bool := (t.fill.toList ++ t.fillQ ++ t.fillWait).any fun f => f.who == .unload

/-- The unload at once, as where a fault or PART_DESTROY completes it: its frames are zero and EMPTY. -/
def State.unloadNow (s : State) (q h : Nat) : State :=
  match (s.part q).persAt h with
  | none => s
  | some v =>
    let s := (s.persFrames q v).foldl (fun s x =>
      let s := State.writeWords s (ctxBase x.1 x.2) (List.replicate 256 0)
      s.updTile x.1 fun t => { t with frameId := tset none t.frameId x.2 none, hot := t.hot.setIfInBounds x.2 .empty }) s
    (s.dropTables q v).setPers q h none

/-- A handle of the caller. -/
def CmdRec.handleBad (c : CmdRec) : Bool := c.stray [(16, 1)] || decide (7 < c.num 16 1)

/-- Tile, frame and CTX_ID of the frames that a PERS_UNLOAD clears, as its progress lists them. -/
def framesIn : List Nat → List (Nat × Nat × Nat)
  | p :: f :: id :: rest => (p, f, id) :: framesIn rest
  | _ => []

/-- PERS_UNLOAD: the progress is a phase, the tiles fenced for the command and, once they are being cleared, its frames. -/
def bodyPersUnload (c : CmdRec) (i : CmdIn) (s : State) : CmdOut :=
  let q := c.stamp
  let h := c.num 16 1
  match (s.part q).persAt h with
  | none => if c.handleBad then .reply stReserved [] s else .reply stNotLoaded [] s
  | some v =>
    let tiles := ((s.persFrames q v).map (·.1) ++ s.persTiles q v).eraseDups
    let ns := sectorsOf tiles
    match i.progress with
    | 2 :: n :: rest =>
      if ((List.range 256).filter fun p => s.ownerOf p == q).any fun p => (s.tile p).clearing then .wait (.again (2 :: n :: rest)) s
      else .reply stOk [] ((((s.dropTables q v).setPers q h none).unfenceLogicals (rest.take n)).unforce (sectorsOf (s.persTiles q v ++ (framesIn (rest.drop n)).map (·.1))))
    | 1 :: mine =>
      withSectors ns (1 :: mine) s fun s =>
        if tiles.all fun p => (s.tile p).fenced && !(s.tm p).migrating then
          let held := (s.persFrames q v).flatMap fun x => [x.1, x.2, (tget none (s.tile x.1).frameId x.2).getD 0]
          .wait (.again (2 :: mine.length :: mine ++ held)) ((s.persFrames q v).foldl (fun s x => State.requestClear s x.1 x.2) s)
        else .wait (.again (1 :: mine)) s
    | _ =>
      checked [(c.handleBad, stReserved), (v.started || s.signalled v, stBusy)] s fun s =>
        withSectors ns [] s fun s =>
          let mine := tiles.filter fun p => !s.fenceWanted p
          .wait (.again (1 :: s.logicalsOf mine)) (s.fenceAll mine)

def execPersUnload (r : Recip) (s : State) : Host.Outcome State Fault Refusal :=
  .next (s.runCommand r (· == 0x0402) bodyPersUnload)

/-! ## CTX_PIN (R381) -/

/-- The fill that a pin asks for: from a cache frame that holds the context, else from its golden copy. -/
def State.pinFill (s : State) (p h id : Nat) : Fill :=
  let g := s.goldenOf (s.ownerOf p) id
  { hot := some h, golden := g, ctxId := id, who := .barista
    src := match (s.tile p).cachedAt id with
      | some c => .cache c
      | none => .store g }

/-- CTX_PIN: a pin replies when its slot is VALID. -/
def bodyCtxPin (c : CmdRec) (i : CmdIn) (s : State) : CmdOut :=
  let q := c.stamp
  let h := c.num 18 1
  let unpin := c.num 19 1 == 1
  let id := c.num 20 2
  let tile := s.ownTile q (c.num 16 2)
  let p := tile.getD 0
  let t := s.tile p
  let done (s : State) : CmdOut := .reply stOk (resultOf [(14, 2, id)]) s
  match i.progress with
  | _ :: _ => if t.validWith id h then done s else .wait (.again [1]) s
  | [] =>
    checked
      [(c.stray [(16, 6)] || (unpin && id != 0), stReserved), (decide (15 < h) || decide (1 < c.num 19 1), stReserved),
       (tile.isNone, stWrongPartition),
       (!unpin && (s.part q).loaded.all (fun e => !e.2.ids.contains id), stNotLoaded), (!unpin && s.tileOff p, stDomainOff),
       (if unpin then (tget none t.pin h).isNone
        else h == t.hotSlot || (match tget none t.pin h with
          | some x => x != id
          | none => decide (8 ≤ t.pin.length)), stBusy)] s fun s =>
      if unpin then done (s.updTile p fun t => { t with pin := tset none t.pin h none })
      else
        let s := s.updTile p fun t => { t with pin := tset none t.pin h (some id) }
        if t.validWith id h then done s
        else .wait (.again [1]) (s.requestFill p (s.pinFill p h id))

def execCtxPin (r : Recip) (s : State) : Host.Outcome State Fault Refusal := .next (s.runCommand r (· == 0x0403) bodyCtxPin)

/-! ## GRAPH_START and GRAPH_STOP (R207, R382, R383) -/

/-- TASK_ARM on an entry (R207). -/
def State.armTask (s : State) (t : Nat) : State :=
  s.updTask t fun k => if k.state = .idle ∨ k.state = .cancelled then { k with state := .armed } else k

/-- TASK_CANCEL on an entry (R207): a running task's tile gets a yield. -/
def State.cancelTask (s : State) (t : Nat) : State :=
  let k := s.task t
  match k.state with
  | .cancelled => s
  | .running =>
    let s := s.updTask t fun k => { k with cancel := true }
    (match s.sectorTile (t / 2048) k.lastTile with
    | some p => s.updTile p fun x => { x with yieldSent := true }
    | none => s)
  | _ => s.setTask t { k with state := .cancelled, urgent := false }

/-- EN of the personality's timers as its records give it, or clear; EN written to 1 starts the count at 0 (R191). -/
def State.enableTimers (s : State) (v : Pers) (on : Bool) : State :=
  v.timers.foldl (fun s x => State.updSector s x.1 fun y =>
    let t := tget {} y.timers x.2.1
    let t := if on && x.2.2 then { t with cfg := t.cfg ||| 0x80000000#32, count := 0 } else { t with cfg := t.cfg &&& 0x7FFFFFFF#32 }
    { y with timers := tset {} y.timers x.2.1 t }) s

/-- GRAPH_START. -/
def bodyGraphStart (c : CmdRec) (_ : CmdIn) (s : State) : CmdOut :=
  let q := c.stamp
  let h := c.num 16 1
  match (s.part q).persAt h with
  | none => if c.handleBad then .reply stReserved [] s else .reply stNotLoaded [] s
  | some v =>
    let tiles := s.persTiles q v
    checked [(c.handleBad, stReserved), (v.started, stBusy)] s fun s =>
      withSectors (sectorsOf tiles) [] s fun s =>
        let s := (v.tasks.foldl State.armTask (s.unfenceAll tiles)).enableTimers v true
        .reply stOk (resultOf [(14, 2, v.tasks.length)]) ((s.setPers q h (some { v with started := true })).unforce (sectorsOf tiles))

def execGraphStart (r : Recip) (s : State) : Host.Outcome State Fault Refusal :=
  .next (s.runCommand r (· == 0x0404) bodyGraphStart)

/-- The egress stream whose packet an edge port's assembly buffer gathers, as far as its words tell. -/
def State.gathers (s : State) (e : Nat) (a : Asm) : Option Nat :=
  let bound := s.edgeStreams e true
  let who := if bound.any fun k => (s.stream k).phdr then a.words.head?.map fun w => field w.toNat 16 13 else bound.head?
  who.filter bound.contains

/-- Packets in the assembly buffer of an outbound edge port are discarded and counted (R383). -/
def State.dropAsm (s : State) (e : Nat) : State :=
  let a := tget {} s.asm e
  let partial_ := if a.words.isEmpty then [] else (s.gathers e a).toList
  (partial_ ++ a.ready.map (·.stream)).foldl (fun s k => State.txAbort s (s.stream k).lane (s.stream k).owner)
    { s with asm := tset {} s.asm e {} }

/-- The words held for a stopped graph at one of its tiles are discarded (R383). -/
def State.dropWords (s : State) (p : Nat) : State :=
  let s := s.updTile p fun t =>
    { t with enq := Vector.replicate 4 []
             deq := t.deq.map fun d =>
               { d with rows := [], landing := [], inBank := 0, gather := [], lastMap := [], armed := true } }
  match s.homeOf p with
  | none => s
  | some home =>
    let s := (List.range 20).foldl (fun s j => State.updLink s (linkId home j) fun k => { k with flight := [], held := [] }) s
    ((List.range 128).filter fun e => edgeHome (e / 64) (e % 64 / 4) == home).foldl State.dropAsm s

/-- The tasks are cancelled, their timers stopped and the partition's ingress streams that signal them (R260, R271) stopped;
how many streams that stops. -/
def State.stopGraph (s : State) (q : Nat) (v : Pers) : Nat × State :=
  let ks := (s.streams.filter fun e =>
    !e.2.egress && e.2.state == 1 && e.2.owner == q && e.2.sigCells != 0 && v.tasks.contains e.2.taskNo).map (·.1)
  (ks.length, ks.foldl State.stopStream ((v.tasks.foldl State.cancelTask s).enableTimers v false))

/-- GRAPH_STOP: the progress is a phase and the number of streams stopped. -/
def bodyGraphStop (c : CmdRec) (i : CmdIn) (s : State) : CmdOut :=
  let q := c.stamp
  let h := c.num 16 1
  match (s.part q).persAt h with
  | none => if c.handleBad then .reply stReserved [] s else .reply stNotLoaded [] s
  | some v =>
    let all := s.persTiles q v
    let tiles := all.filter fun p => !s.otherStarted q h p
    match i.progress with
    | 1 :: n =>
      if v.tasks.any fun t => (s.task t).state != .cancelled then .wait (.again (1 :: n)) s
      else .wait (.again (2 :: n)) (s.fenceAll tiles)
    | 2 :: n =>
      if tiles.any fun p => !(s.tile p).fenced || (s.tm p).migrating then .wait (.again (2 :: n)) s
      else
        let s := (tiles.foldl State.dropWords s).setPers q h (some { v with started := false })
        .reply stOk (resultOf [(14, 2, v.tasks.length), (16, 2, n.headD 0)]) (s.unforce (sectorsOf all))
    | _ =>
      checked [(c.handleBad, stReserved), (!v.started, stBusy)] s fun s =>
        withSectors (sectorsOf all) [] s fun s =>
          let (n, s) := s.stopGraph q v
          .wait (.again [1, n]) s

def execGraphStop (r : Recip) (s : State) : Host.Outcome State Fault Refusal :=
  .next (s.runCommand r (· == 0x0405) bodyGraphStop)

end Sys2Proof.Machine
end

