-- ==== Sys2Proof/Machine/CmdStream.lean ====
section
/-!
DEFINITION. Machine/CmdStream.lean: the commands on streams and classifier rules (R234, R250, R258, R264, R269, R272, R275,
R276, R384 to R386) and on tasks (R207, R387).
-/
namespace Sys2Proof.Machine

/-! ## STREAM_OPEN (R250, R384) -/

/-- Fields of Table 12-6. -/
def CmdRec.openEgress (c : CmdRec) : Bool := (c.num 18 1).testBit 0
def CmdRec.openPhdr (c : CmdRec) : Bool := (c.num 18 1).testBit 4
def CmdRec.openBypass (c : CmdRec) : Bool := (c.num 18 1).testBit 5
def CmdRec.openEp (c : CmdRec) : Bool := (c.num 19 1).testBit 0
/-- SIDE: for an egress stream the lane decides (R27, Table 08-3). -/
def CmdRec.openSide (c : CmdRec) : Nat := if c.openEgress then bit (decide (32 ≤ c.num 21 1)) else field (c.num 19 1) 1 1
def CmdRec.openRow (c : CmdRec) : Nat := c.num 20 1 % 16
def CmdRec.openMask (c : CmdRec) : Nat := c.num 20 1 / 16
def CmdRec.openTarget (c : CmdRec) : Option Nat := if (c.num 48 2).testBit 15 then some (c.num 48 2 % 8192) else none

/-- Reserved bits of Table 12-6. -/
def CmdRec.openReserved (c : CmdRec) : Bool :=
  c.stray [(16, 19), (36, 14)] || decide (8192 ≤ c.num 16 2) || decide (64 ≤ c.num 18 1) || decide (4 ≤ c.num 19 1) ||
    decide (512 ≤ c.num 22 2) || decide (16384 ≤ c.num 32 2) || decide (32 ≤ c.num 34 1) || c.num 39 1 != 0 ||
    field (c.num 48 2) 13 2 != 0

/-- Where a Carafe range of `n` bytes at a logical address lies (R44, R275): in the logical range of DRAM, whole in one
writable DRAM window. CARAFE_BASE records it without the alias bits (Table 08-2). -/
def State.carafeAt (s : State) (q a n : Nat) : Option Nat :=
  let ali := a / 2 ^ 44
  let b := a % 2 ^ 44
  let page := b / 4096
  match (List.range 16).find? (fun e =>
      let w := tget {} s.win (16 * q + e)
      w.valid && w.target == 1 && decide (w.logBase ≤ page) && decide (page < w.logBase + w.pages)) with
  | none => none
  | some e =>
    let w := tget {} s.win (16 * q + e)
    let d := w.devBase * 4096 + (b - w.logBase * 4096)
    let inside (x : Nat) : Bool := areaOf x == .dram && areaOf (x + n - 1) == .dram
    let hidden := (List.range 16).any fun p => match s.mem.reservedBase p with
      | some r => decide (d < r + 17 * 2 ^ 20) && decide (r < d + n)
      | none => false
    if decide (ali < 3) && w.write && decide (b + n ≤ 4096 * (w.logBase + w.pages)) && inside b && inside d && !hidden then
      some d
    else none

/-- Every port of the mask may be used beside the streams open on it (R258). -/
def State.portsShared (s : State) (c : CmdRec) : Bool :=
  let single (m : Nat) : Bool := ((List.range 4).filter m.testBit).length == 1
  ((List.range 4).filter c.openMask.testBit).all fun k =>
    let others := s.streams.filter fun z => z.2.state != 0 && z.2.egress == c.openEgress && z.2.usesEdge (64 * c.openSide + 4 * c.openRow + k)
    others.isEmpty || (c.openPhdr && single c.openMask && others.all fun z => z.2.phdr && single z.2.kmask)

/-- The stream table entry that STREAM_OPEN writes (R250). -/
def CmdRec.openStream (c : CmdRec) (mlf : Bool) (carafe : Nat) : Stream :=
  let f := c.num 18 1
  { ctrl := BitVec.ofNat 32 (2 ^ 29 + c.stamp * 2 ^ 24 + bit c.openEgress * 2 ^ 23 + bit mlf * 2 ^ 22 + field f 1 1 * 2 ^ 21
      + field f 2 1 * 2 ^ 20 + field f 3 1 * 2 ^ 19 + bit c.openPhdr * 2 ^ 18 + bit c.openBypass * 2 ^ 17 + 2 ^ 16)
    path := BitVec.ofNat 32 (bit c.openEp * 2 ^ 31 + c.openSide * 2 ^ 30 + c.openRow * 2 ^ 26 + c.openMask * 2 ^ 22
      + c.num 21 1 * 2 ^ 16 + c.num 22 2)
    size := BitVec.ofNat 32 (c.num 24 2 * 2 ^ 16 + c.num 26 2)
    thresh := BitVec.ofNat 32 (c.num 28 2 * 2 ^ 16 + c.num 30 2)
    task := BitVec.ofNat 32 (c.num 32 2 * 2 ^ 16 + c.num 34 1 * 2 ^ 8)
    carafeBase := BitVec.ofNat 32 (carafe / 4096)
    carafeCells := BitVec.ofNat 32 (c.num 36 3)
    bypTarget := BitVec.ofNat 32 ((c.openTarget.map fun t => 2 ^ 31 + t).getD (c.num 48 2 % 8192)) }

/-- STREAM_OPEN. -/
def bodyStreamOpen (c : CmdRec) (_ : CmdIn) (s : State) : CmdOut :=
  let q := c.stamp
  let k := c.num 16 2
  let p := s.part q
  let l := c.num 21 1
  let e := tget 0 s.partners (c.num 22 2)
  let mlf := e.testBit 31 && partnerMlf e
  let cells := c.num 36 3
  let carafe := if cells = 0 then some 0 else s.carafeAt q (c.num 40 8) (256 * cells)
  let laneOk := decide (l < 64) && s.partnerOf l == some (c.num 22 2) &&
    ((s.lane l).owner == q || ((s.lane l).owner == 16 && s.laneMlf l))
  let tileOk := match s.tileAtHome (edgeHome c.openSide c.openRow) with
    | some t => s.ownerOf t == q
    | none => false
  let target := s.stream (c.openTarget.getD 8191)
  checked
    [(c.openReserved, stReserved),
     (!p.hasStream k, stWrongPartition), ((s.stream k).state != 0, stBusy),
     ((!c.openEgress && c.num 24 2 == 0) || (!c.openEgress && mlf && c.num 26 2 == 0) || (c.openEp && c.openMask == 0), stZero),
     (!laneOk || (c.num 28 2 != 0 && !p.hasTask (c.num 32 2)) || (c.openEp && !tileOk) ||
       c.openTarget.any (fun t => !p.hasStream t), stWrongPartition),
     (cells != 0 && c.num 40 8 % 4096 != 0, stBadLength), (carafe.isNone, stWrongPartition),
     (c.openEp && !s.portsShared c, stBusy),
     (c.openBypass && (c.openEp || (!c.openEgress && !(c.openTarget.isSome && target.egress && target.bypassed))), stReserved)]
    s fun s => .reply stOk [] (s.setStream k (c.openStream mlf (carafe.getD 0)))

def execStreamOpen (r : Recip) (s : State) : Host.Outcome State Fault Refusal :=
  .next (s.runCommand r (· == 0x0501) bodyStreamOpen)

/-! ## Other stream commands (R385) -/

/-- STREAM has bits above 12. -/
def CmdRec.streamBits (c : CmdRec) : Bool := decide (8192 ≤ c.num 16 2)

/-- The stream is the caller's. -/
def State.streamOf (s : State) (c : CmdRec) : Bool := (s.part c.stamp).hasStream (c.num 16 2) && (s.stream (c.num 16 2)).owner == c.stamp

/-- An ingress stream, OPEN or STOPPED. -/
def Stream.liveIn (x : Stream) : Bool := !x.egress && (x.state == 1 || x.state == 2)

/-- STR_STATUS (Table 08-1); only an MLF ingress stream keeps an OUT (R263). -/
def Stream.statusReg (x : Stream) : Word :=
  BitVec.ofNat 32 (bit x.drain * 2 ^ 31 + (if !x.egress && x.mlf then (BitVec.ofInt 17 x.out).toNat else 0))

/-- A position as its register holds it. -/
def pos32 (n : Nat) : Nat := n % 2 ^ 32

/-- STREAM_CLOSE (R276): replies when the stream is CLOSED. The progress is the cells discarded and the state it was in. -/
def bodyStreamClose (c : CmdRec) (i : CmdIn) (s : State) : CmdOut :=
  let k := c.num 16 2
  let x := s.stream k
  match i.progress with
  | n :: old => if x.state = 0 then .reply stOk (resultOf [(14, 4, n)]) s else .wait (.again (n :: old)) s
  | [] =>
    checked
      [(c.stray [(16, 2)] || c.streamBits, stReserved), (!s.streamOf c, stWrongPartition), (!(x.state == 1 || x.state == 2), stBusy)] s
      fun s =>
        let n := if x.egress then 0 else x.wpos - x.mpos
        let s := s.closeStream k
        if (s.stream k).state = 0 then .reply stOk (resultOf [(14, 4, n)]) s else .wait (.again [n, x.state]) s

def execStreamClose (r : Recip) (s : State) : Host.Outcome State Fault Refusal :=
  .next (s.runCommand r (· == 0x0502) bodyStreamClose)

/-- STREAM_CREDIT_SET (R264). -/
def bodyStreamCreditSet (c : CmdRec) (_ : CmdIn) (s : State) : CmdOut :=
  let k := c.num 16 2
  let x := s.stream k
  checked
    [(c.stray [(16, 4)] || c.streamBits, stReserved), (c.num 18 2 == 0, stZero), (!s.streamOf c, stWrongPartition),
     (!(x.mlf && x.liveIn), stBusy)] s fun s =>
    .reply stOk (resultOf [(14, 2, x.credLimit), (16, 4, (BitVec.ofInt 32 x.out).toNat)])
      (s.updStream k fun x => { x with size := BitVec.ofNat 32 (x.ring * 2 ^ 16 + c.num 18 2) })

def execStreamCreditSet (r : Recip) (s : State) : Host.Outcome State Fault Refusal :=
  .next (s.runCommand r (· == 0x0504) bodyStreamCreditSet)

/-- MARK_SET (R269). -/
def bodyMarkSet (c : CmdRec) (_ : CmdIn) (s : State) : CmdOut :=
  let k := c.num 16 2
  let x := s.stream k
  checked
    [(c.stray [(16, 3)] || c.streamBits, stReserved), (decide (1 < c.num 18 1), stReserved), (!s.streamOf c, stWrongPartition),
     (!x.liveIn, stBusy)] s fun s =>
    let s := if c.num 18 1 = 0 then s.release k (s.markTarget x x.rpos) else s
    let s := s.updStream k fun x => x.setMark true
    .reply stOk (resultOf [(14, 4, pos32 (s.stream k).mpos)]) s

def execMarkSet (r : Recip) (s : State) : Host.Outcome State Fault Refusal := .next (s.runCommand r (· == 0x0505) bodyMarkSet)

/-- MARK_ADVANCE (R269). -/
def bodyMarkAdvance (c : CmdRec) (_ : CmdIn) (s : State) : CmdOut :=
  let k := c.num 16 2
  let x := s.stream k
  let toRead := (c.num 18 1).testBit 0
  let n := c.num 20 4
  checked
    [(c.stray [(16, 3), (20, 4)] || c.streamBits || decide (1 < c.num 18 1), stReserved), (!toRead && n == 0, stZero),
     (toRead && n != 0, stReserved), (!s.streamOf c, stWrongPartition), (!x.liveIn, stBusy)] s fun s =>
    let s := s.release k (s.markTarget x (if toRead then x.rpos else x.mpos + n))
    .reply stOk (resultOf [(14, 4, pos32 (s.stream k).mpos)]) s

def execMarkAdvance (r : Recip) (s : State) : Host.Outcome State Fault Refusal :=
  .next (s.runCommand r (· == 0x0506) bodyMarkAdvance)

/-- STREAM_REPLAY (R272, Table 08-8). -/
def bodyStreamReplay (c : CmdRec) (_ : CmdIn) (s : State) : CmdOut :=
  let k := c.num 16 2
  let x := s.stream k
  let mode := c.num 18 1
  checked
    [(c.stray [(16, 3)] || c.streamBits, stReserved), (decide (1 < mode), stReserved), (!s.streamOf c, stWrongPartition),
     (x.state != 2, stBusy), (mode == 0 && !x.markValid, stMarkLost)] s fun s =>
    let s := s.replay k (if mode = 0 then x.mpos else s.resumeAt k)
    .reply stOk (resultOf [(14, 4, pos32 (s.stream k).rpos)]) s

def execStreamReplay (r : Recip) (s : State) : Host.Outcome State Fault Refusal :=
  .next (s.runCommand r (· == 0x0507) bodyStreamReplay)

/-- STREAM_STATS (Table 12-7). -/
def bodyStreamStats (c : CmdRec) (_ : CmdIn) (s : State) : CmdOut :=
  let k := c.num 16 2
  let x := s.stream k
  let d := c.desc 24
  checked
    [(c.stray [(16, 3), (24, 16)] || c.streamBits || decide (1 < c.num 18 1) || d.rsv != 0, stReserved),
     (d.len != 0 && d.spaceBad c, stReserved), (d.len != 0 && d.short 64, stBadLength),
     (!s.streamOf c || (d.len != 0 && s.descFails c d 64 true), stWrongPartition), (x.state == 0, stBusy),
     (d.len != 0 && s.descTags c d, stTags)] s fun s =>
    whenDesc c d (if d.len = 0 then 0 else 64) true s fun s =>
      let data := (List.range 8).flatMap (fun j => leBytes 4 (tget 0 x.cnt j).toNat) ++
        ([x.wpos, x.rpos, x.mpos, x.spos, x.crTotal, x.seqNext, x.sticky.toNat, x.statusReg.toNat] : List Nat).flatMap (leBytes 4)
      let s := if c.num 18 1 = 1 then s.updStream k fun x => { x with sticky := 0 } else s
      replyWith c d data (resultOf [(14, 4, x.ctrl.toNat), (18, 4, x.sticky.toNat)]) s

def execStreamStats (r : Recip) (s : State) : Host.Outcome State Fault Refusal :=
  .next (s.runCommand r (· == 0x0508) bodyStreamStats)

/-! ## STREAM_CLASSIFY (R234, R386) -/

/-- Bits of words 0 to 6 that Table 07-15 names, OWNER apart. -/
def ruleMasks : List Word := [0xE03F1FFF, 0xFFFFFFFF, 0x0000FFFF, 0xFFFFFFFF, 0x0000FFFF, 0x0FFF0FFF, 0x00000773]

def State.setRule (s : State) (r i : Nat) (w : Word) : State :=
  { s with rules := tset (if i = 0 then 0x1F000000#32 else 0) s.rules (8 * r + i) w }

/-- STREAM_CLASSIFY. -/
def bodyStreamClassify (c : CmdRec) (_ : CmdIn) (s : State) : CmdOut :=
  let q := c.stamp
  let r := c.num 16 2
  let write := c.num 18 1 == 0
  let w (i : Nat) : Word := c.word (20 + 4 * i)
  let stream := s.stream ((w 0).toNat % 8192)
  checked
    [(c.stray [(16, 3), (20, 28)] || ((List.range 7).any fun i => w i &&& ~~~(ruleMasks.getD i 0) != 0), stReserved),
     (decide (1023 < r) || decide (1 < c.num 18 1), stReserved),
     (!(s.part q).hasRule r, stWrongPartition),
     (write && ((s.lane (field (w 0).toNat 16 6)).owner != q ||
       (!(w 0).getLsbD 29 && !(stream.owner == q && !stream.egress && stream.state != 0))), stWrongPartition)] s fun s =>
    let hits := (s.rule r 7).toNat
    let s := if write then
        ((List.range 7).foldl (fun s i => State.setRule s r i (w i ||| if i = 0 then BitVec.ofNat 32 (q * 2 ^ 24) else 0)) s).setRule r 7 0
      else s.setRule r 0 (s.rule r 0 &&& 0x7FFFFFFF#32)
    .reply stOk (resultOf [(14, 4, hits)]) s

def execStreamClassify (r : Recip) (s : State) : Host.Outcome State Fault Refusal :=
  .next (s.runCommand r (· == 0x0503) bodyStreamClassify)

/-! ## Tasks (R387) -/

/-- T has bits above 13. -/
def CmdRec.taskBits (c : CmdRec) : Bool := decide (16384 ≤ c.num 16 2)

/-- The checks of a task command on the entry it names. -/
def State.taskChecks (s : State) (c : CmdRec) : List (Bool × Nat) :=
  [(!(s.part c.stamp).hasTask (c.num 16 2), stWrongPartition), ((s.task (c.num 16 2)).st.owner != c.stamp, stNotLoaded)]

/-- TASK_ARM. -/
def bodyTaskArm (c : CmdRec) (_ : CmdIn) (s : State) : CmdOut :=
  let t := c.num 16 2
  checked ((c.stray [(16, 2)] || c.taskBits, stReserved) :: s.taskChecks c) s fun s =>
    let s := s.armTask t
    .reply stOk (resultOf [(14, 4, (s.task t).status.toNat)]) s

def execTaskArm (r : Recip) (s : State) : Host.Outcome State Fault Refusal := .next (s.runCommand r (· == 0x0601) bodyTaskArm)

/-- TASK_CANCEL: completes when STATE is CANCELLED. -/
def bodyTaskCancel (c : CmdRec) (i : CmdIn) (s : State) : CmdOut :=
  let t := c.num 16 2
  let finish (s : State) : CmdOut :=
    if (s.task t).state = .cancelled then .reply stOk (resultOf [(14, 4, (s.task t).status.toNat)]) s else .wait (.again [1]) s
  match i.progress with
  | _ :: _ => finish s
  | [] => checked ((c.stray [(16, 2)] || c.taskBits, stReserved) :: s.taskChecks c) s fun s => finish (s.cancelTask t)

def execTaskCancel (r : Recip) (s : State) : Host.Outcome State Fault Refusal :=
  .next (s.runCommand r (· == 0x0602) bodyTaskCancel)

/-- TASK_SIGNAL: the flags of a sector that is not in Brew wait in its inbox and wake it (R472). -/
def bodyTaskSignal (c : CmdRec) (i : CmdIn) (s : State) : CmdOut :=
  let t := c.num 16 2
  let m := c.word 20
  let n := t / 2048
  let awake (s : State) : Bool := (s.sector n).pstate == .brew
  let done (s : State) : CmdOut := .reply stOk (resultOf [(14, 4, (s.task t).flags.toNat)]) s
  match i.progress with
  | _ :: _ => if awake s then done s else .wait (.again [1]) s
  | [] =>
    checked ([(c.stray [(16, 2), (20, 4)] || c.taskBits, stReserved), (m == 0, stZero)] ++ s.taskChecks c) s fun s =>
      if awake s then done (s.setFlags t m)
      else
        let fs := ((List.range 32).filter m.getLsbD).map fun f => (t, f, c.stamp, 0)
        .wait (.again [1]) (s.updSector n fun x => { x with inbox := x.inbox ++ fs, wakeDue := true })

def execTaskSignal (r : Recip) (s : State) : Host.Outcome State Fault Refusal :=
  .next (s.runCommand r (· == 0x0603) bodyTaskSignal)

/-- TASK_QUERY. -/
def bodyTaskQuery (c : CmdRec) (_ : CmdIn) (s : State) : CmdOut :=
  let k := s.task (c.num 16 2)
  checked ((c.stray [(16, 2)] || c.taskBits, stReserved) :: s.taskChecks c) s fun s =>
    .reply stOk (resultOf [(14, 4, k.status.toNat), (18, 4, k.flags.toNat), (22, 4, k.grants.toNat)]) s

def execTaskQuery (r : Recip) (s : State) : Host.Outcome State Fault Refusal := .next (s.runCommand r (· == 0x0604) bodyTaskQuery)

end Sys2Proof.Machine
end

