-- ==== Sys2Proof/Machine/CmdEnd.lean ====
section
/-!
DEFINITION. Machine/CmdEnd.lean: commands that end before their work is done: TIMEOUT, DISCARDED and DISCARDED_RESET (R348,
R350, R357, R367, R442, Table 14-4).
-/
namespace Sys2Proof.Machine

/-- Logical tiles of the mask of PART_GRANT and PART_REVOKE kind 1. -/
def CmdRec.tileMask (c : CmdRec) : List Nat := (List.range 248).filter (c.num 24 31).testBit

/-- The sectors that a command keeps awake (R474). -/
def State.heldAwake (s : State) (c : CmdRec) (w : Wait) : List Nat :=
  let op := c.opcode
  let cleared := match op == 0x0402, w with
    | true, .again (2 :: n :: rest) => framesIn (rest.drop n)
    | _, _ => []
  if op = 0x0402 ∨ op = 0x0404 ∨ op = 0x0405 then
    match (s.part c.stamp).persAt (c.num 16 1) with
    | some v => sectorsOf (s.persTiles c.stamp v ++ (s.persFrames c.stamp v ++ cleared.map fun x => (x.1, x.2.1)).map (·.1))
    | none => []
  else if (op = 0x0102 ∨ op = 0x0103) ∧ c.num 17 1 = 1 then sectorsOf (c.tileMask.filterMap s.tileOfLogical)
  else if op = 0x0104 then sectorsOf ((List.range 256).filter fun p => s.ownerOf p == c.num 16 1)
  else []

/-- Clears that PERS_UNLOAD has requested and that have not started are withdrawn. -/
def State.dropClears (s : State) (q : Nat) : State :=
  (List.range 256).foldl (fun s p =>
    if State.ownerOf s p ≠ q ∨ !(State.tile s p).clearing then s
    else s.updTile p fun t =>
      { t with fillQ := t.fillQ.filter fun f => f.who != .unload, fillWait := t.fillWait.filter fun f => f.who != .unload }) s

/-- The contexts that a PERS_UNLOAD has cleared, or is clearing, are filled again from their golden copies: one that times
out leaves no change (R357). -/
def State.undoClears (s : State) (xs : List (Nat × Nat × Nat)) : State :=
  xs.foldl (fun s (p, f, id) =>
    let t := State.tile s p
    let gone := tget none t.frameId f != some id || t.fill.any fun x => x.who == FillWho.unload && (x.hot == some f || x.cache == some f)
    if gone then s.refill p f id .barista else s) s

/-- The flags of a TASK_SIGNAL that still wait in an inbox are withdrawn. -/
def State.undoSignal (s : State) (c : CmdRec) : State :=
  let t := c.num 16 2
  s.updSector (t / 2048) fun x => { x with inbox := x.inbox.filter fun e => !(e.1 == t && (c.num 20 4).testBit e.2.1 && e.2.2.1 == c.stamp) }

/-- BANK_OWNER_b is written to every controller, where it differs. -/
def State.writeBank (s : State) (b : Nat) (w : BitVec 32) : State :=
  (List.range 12).foldl (fun s c =>
    if (s.mem.ctlOf c).ownerCheck b = w then s else State.updCtl s c fun k => { k with ownerNext := tset none k.ownerNext b (some w) }) s

/-- No write of these regions is pending and none initialises. -/
def State.regionsSettled (s : State) (bs : List Nat) : Bool :=
  (List.range 12).all fun c => bs.all fun b => (tget none (s.mem.ctlOf c).ownerNext b).isNone && !(s.mem.ctlOf c).initBusy b

/-- A grant or revoke of regions that times out leaves them as they were (R357). -/
def State.undoRegions (s : State) (before : List Nat) : State :=
  if s.regionsSettled (List.range 16) then s
  else (List.range 16).foldl (fun s b => State.writeBank s b (BitVec.ofNat 32 (before.getD b 0x1F))) s

/-- A slot table from the numbers of its 64 bytes. -/
def slotTab (reset : Nat → BitVec 8) (before : List Nat) : Tab (BitVec 8) :=
  (List.range 64).foldl (fun t i => tset (reset i) t i (BitVec.ofNat 8 (before.getD i 0))) []

/-- A grant or revoke of DRAM slots that times out before every controller has its table leaves the tables as they were. -/
def State.undoDramSlots (s : State) (before : List Nat) : State :=
  if (List.range 12).all fun x => !(s.mem.ctlOf x).apply then s
  else
    let t := slotTab (fun i => if i < 32 then 0x10#8 else 0x90#8) before
    (List.range 12).foldl (fun s x => State.updCtl s x fun k => { k with slotNext := t, apply := k.slot != t }) s

/-- A grant or revoke of mesh slots that times out while a router drains leaves every router's table as it was. -/
def State.undoMeshSlots (s : State) (before : List Nat) : State :=
  if (List.range 64).all fun r => !(State.router s r).draining then s
  else
    let t := slotTab (fun _ => 0x10#8) (before.drop 1)
    let en := BitVec.ofNat 32 (before.headD 0)
    (List.range 64).foldl (fun s r => State.updRouter s r fun x =>
      { x with slotNext := t, vcEnNext := en, draining := x.slot != t || x.vcEn != en, drainCycles := 0 }) s

/-- What a grant or revoke of PART_GRANT's kinds 5 to 7 leaves at TIMEOUT (R366): no change unless it is complete. -/
def State.undoGrant (s : State) (c : CmdRec) (progress : List Nat) : State :=
  let k := c.num 17 1
  if progress = [] then s
  else if k = 5 then s.undoRegions (progress.drop 1)
  else if k = 6 then s.undoDramSlots (progress.drop 1)
  else if k = 7 then s.undoMeshSlots (progress.drop 1)
  else s

/-- What a command leaves when it ends early: a PERS_LOAD nothing but its fences released; a PERS_UNLOAD that a fault ends
is complete, one that ends otherwise has not happened; a GRAPH_STOP's personality is stopped; a FW_UPDATE_STAGE's slot has no
header; and at TIMEOUT a STREAM_CLOSE, a TASK_SIGNAL, a DRAM_DESCRIBE, a grant or a revoke no change (R357). -/
def State.leave (s : State) (c : CmdRec) (w : Wait) (status : Nat) : State :=
  let q := c.stamp
  let h := c.num 16 1
  let progress := match w with
    | .again p => p
    | _ => []
  let op := c.opcode
  if op = 0x0401 then
    match progress with
    | n :: rest => s.unfenceLogicals (rest.take n)
    | [] => s
  else if op = 0x0402 then
    let s := s.dropClears q
    match progress with
    | 2 :: n :: rest =>
      let s := if status = stDiscarded then s.unloadNow q h else s.undoClears (framesIn (rest.drop n))
      s.unfenceLogicals (rest.take n)
    | _ => (if status = stDiscarded then s.unloadNow q h else s).unfenceLogicals (progress.drop 1)
  else if status = stTimeout ∧ op = 0x0502 then
    match progress with
    | [_, old] => if (s.stream (c.num 16 2)).state = 3 then s.updStream (c.num 16 2) fun x => x.setState old else s
    | _ => s
  else if status = stTimeout ∧ op = 0x0603 ∧ progress ≠ [] then s.undoSignal c
  else if status = stTimeout ∧ op = 0x0204 ∧ progress ≠ [] then s.undoCalibration
  else if status = stTimeout ∧ (op = 0x0102 ∨ op = 0x0103) then s.undoGrant c progress
  else if op = 0x0405 then
    match (s.part q).persAt h with
    | some v => ((s.stopGraph q v).2).setPers q h (some { v with started := false })
    | none => s
  else if op = 0x0906 then { s with boot := { s.boot with staging := false } }
  else s

/-- RESULT of a command that ends early with DISCARDED or TIMEOUT (R360). -/
def State.earlyResult (s : State) (c : CmdRec) (w : Wait) : List Byte :=
  let op := c.opcode
  if op = 0x0602 then resultOf [(14, 4, (s.task (c.num 16 2)).status.toNat)]
  else if op = 0x0403 then resultOf [(14, 2, c.num 20 2)]
  else match op == 0x0405, (s.part c.stamp).persAt (c.num 16 1), w with
    | true, some v, .again (_ :: n :: _) =>
      resultOf [(14, 2, (v.tasks.filter fun t => (s.task t).state == .cancelled).length), (16, 2, n)]
    | _, _, _ => []

/-- A started command ends with DISCARDED, DISCARDED_RESET or TIMEOUT. -/
def State.cut (s : State) (r : Running) (status : Nat) : State :=
  let c := r.cmd
  let ns := s.heldAwake c r.wait
  let s : State :=
    { s with running := s.running.erase r, hostReads := s.hostReads.filter fun h => h.payload != some c }
  let s := (s.leave c r.wait status).unforce ns
  s.reply c status (if status = stDiscarded ∨ status = stTimeout then s.earlyResult c r.wait else [])

/-- A host queue's command that waits for a tag, travels or waits at Barista's port is taken off the mesh. -/
def State.takeCmd (s : State) (k : Packet) : State :=
  let s := s.purge k.id
  let m := s.mesh
  { s with mesh := { m with waiting := m.waiting.filter fun x => x.id != k.id
                            arrived := m.arrived.filter fun x => x.id != k.id
                            unanswered := m.unanswered.filter fun x => x.id != k.id
                            txns := if m.unanswered.any fun x => x.id == k.id
                              then m.txns.filter fun t => !(t.part == k.part && t.tag == k.tag) else m.txns } }

/-- Every command of a partition in flight ends with a status: started, buffered, on its way to Barista or sent back from
it, or being fetched. -/
def State.discardCommands (s : State) (q status : Nat) : State :=
  let s := (s.running.filter fun r => r.cmd.stamp == q).foldl (fun s r => State.cut s r status) s
  let waiting := s.buffer q
  let s := waiting.foldl (fun s c => State.reply s c status []) (s.setBuffer q [])
  let mine (k : Packet) : Bool := k.opc == 4 && k.part == q && qidKind k.addr == 0
  let ks := s.mesh.waiting.filter mine ++ s.mesh.unanswered.filter fun k => mine k && s.onTheWay k
  let s := ks.foldl (fun s k => (State.takeCmd s k).reply { qid := k.addr, stamp := q, bytes := k.data } status []) s
  let back := s.mesh.unanswered.filter fun k => mine k && s.sentBack k
  let s : State := { s with mesh := { s.mesh with unanswered := s.mesh.unanswered.filter fun k => !back.contains k } }
  let s := back.foldl (fun s k => State.reply s { qid := k.addr, stamp := q, bytes := k.data } status []) s
  { s with hostReads := s.hostReads.map fun h => match h.fetch with
      | some (_, r) => if r = q then { h with stop := some status } else h
      | none => h }

end Sys2Proof.Machine
end

