-- ==== Sys2Proof/Machine/CmdPart.lean ====
section
/-!
DEFINITION. Machine/CmdPart.lean: PART_CREATE, PART_GRANT, PART_REVOKE, PART_DESTROY, PART_QUERY (R364 to R368, Table 12-3,
R408 to R411).
-/
namespace Sys2Proof.Machine

/-! ## PART_CREATE (R364, R410) -/

/-- PART_CREATE. -/
def bodyPartCreate (c : CmdRec) (_ : CmdIn) (s : State) : CmdOut :=
  let q := c.num 16 1
  checked
    [(c.stray [(16, 2)], stReserved), (decide (15 < q) || decide (1 < c.num 17 1), stReserved), ((s.part q).state != 0, stBusy)] s
    fun s => whenSlot q [] s fun s =>
      let (key, s) := s.drawKey
      let (inst, s) := s.random 32
      let s := (List.range 8).foldl (fun s n => State.updSector s n fun x => { x with urg := tset 0 x.urg q 0 }) s
      let s := (s.setPart q { state := 1, isSealed := c.num 17 1 == 1 }).setRole q { inst := inst }
      let s := s.setEvb q {}
      .reply stOk [] { s with holdoff := tset 4096 s.holdoff q 4096, mem := { s.mem with key := tset 0 s.mem.key q key } }

def execPartCreate (r : Recip) (s : State) : Host.Outcome State Fault Refusal :=
  .next (s.runCommand r (· == 0x0101) bodyPartCreate)

/-! ## Tiles (kind 1) -/

/-- Zeroization of a tile starts (R128). -/
def State.startZero (s : State) (p : Nat) : State := (s.zeroizeTile p).updTile p fun t => { t with zeroizing := true, zres := 1 }

/-- Zeroization has passed for every tile; one that a spare has come to hold in the meantime starts its own. -/
def State.wiped (s : State) (ps : List Nat) : Bool × State :=
  let s := ps.foldl (fun s p => if (State.tile s p).zres = 0 ∧ (State.tile s p).fenced then s.startZero p else s) s
  (ps.all fun p => (s.tile p).zres == 2 && !(s.tile p).zeroizing, s)

def State.setTileOwner (s : State) (ps : List Nat) (q : Nat) : State :=
  ps.foldl (fun s p => State.setTm s p { State.tm s p with owner := q }) s

/-- An edge port of a stream that is not CLOSED reaches the tile at a home (R275). -/
def State.edgeUsed (s : State) (p : Nat) : Bool :=
  s.streams.any fun z => z.2.state != 0 && z.2.ep && !z.2.bypassed && s.homeOf p == some (edgeHome z.2.side z.2.row)

/-- PART_GRANT of tiles: those without an owner are zeroized, then bound (R366); they stay fenced. -/
def grantTiles (c : CmdRec) (i : CmdIn) (s : State) : CmdOut :=
  let q := c.num 16 1
  let free := (c.tileMask.filterMap s.tileOfLogical).filter fun p => s.ownerOf p == 31
  let ns := sectorsOf (c.tileMask.filterMap s.tileOfLogical)
  match i.progress with
  | [] => withSectors ns [] s fun s =>
      if free.any fun p => (s.tm p).migrating then .wait (.again []) s else .wait (.again [1]) (free.foldl State.startZero s)
  | p =>
    let (ok, s) := s.wiped free
    if ok then .reply stOk [] ((s.setTileOwner free q).unforce ns) else .wait (.again p) s

/-- PART_REVOKE of tiles: fence, zeroization, OWNER 31 (R130). -/
def revokeTiles (c : CmdRec) (i : CmdIn) (s : State) : CmdOut :=
  let q := c.num 16 1
  let mine := (c.tileMask.filterMap s.tileOfLogical).filter fun p => s.ownerOf p == q
  let ns := sectorsOf (c.tileMask.filterMap s.tileOfLogical)
  match i.progress with
  | [] => withSectors ns [] s fun s => .wait (.again [1]) (s.fenceAll mine)
  | 1 :: _ =>
    if mine.all fun p => (s.tile p).fenced && (s.tile p).seq == .off && !(s.tm p).migrating then
      withSectors ns [1] s fun s => .wait (.again [2]) (mine.foldl State.startZero s)
    else .wait (.again [1]) s
  | p =>
    let (ok, s) := s.wiped mine
    if ok then .reply stOk [] ((s.setTileOwner mine 31).unforce ns) else .wait (.again p) s

/-! ## Lanes (kind 2) -/

/-- OWNER of a lane is written; a lane that ends without an owner goes down with cause RECONFIG (R215). -/
def State.bindLane (s : State) (l q : Nat) : State :=
  s.setLaneCtrl l (((s.lane l).ctrl &&& 0xE0FFFFFF#32) ||| BitVec.ofNat 32 (q * 2 ^ 24))

/-- A lane is removed from a partition: its associations are destroyed and the partition's rules for it are invalid. -/
def State.unbindLane (s : State) (q l : Nat) : State :=
  let s := (s.bindLane l 31).updLane l fun k => { k with sa := [] }
  (List.range 1024).foldl (fun s r =>
    let w := State.rule s r 0
    if w.getLsbD 31 ∧ field w.toNat 24 5 = q ∧ field w.toNat 16 6 = l then s.setRule r 0 (w &&& 0x7FFFFFFF#32) else s) s

/-! ## DRAM bank regions (kind 5, R323, R332) -/

/-- Regions of a partition, pending writes counted as done. -/
def Memory.regionsOf (m : Memory) (q : Nat) : List Nat :=
  (List.range 16).filter fun b => ownerField ((m.ctlOf 0).ownerCheck b) == q

/-- The regions a partition is to hold are written with their SEALED bits: the lowest always sealed, the others by the
partition's mode. -/
def State.writeRegions (s : State) (q : Nat) (bs : List Nat) : State :=
  bs.foldl (fun s b =>
    let on := (s.part q).isSealed || bs.all fun x => decide (b ≤ x)
    State.writeBank s b (BitVec.ofNat 32 (q + bit on * 2 ^ 31))) s

/-- A region holds part of the Carafe of a stream that is not CLOSED. -/
def State.carafeIn (s : State) (b : Nat) : Bool :=
  let lo := dramBase + b * s.mem.regionBytes
  s.streams.any fun z => z.2.state != 0 && z.2.carafe != 0 && decide (z.2.carafeBase.toNat * 4096 < lo + s.mem.regionBytes) &&
    decide (lo < z.2.carafeBase.toNat * 4096 + 256 * z.2.carafe)

def grantRegions (c : CmdRec) (i : CmdIn) (revoke : Bool) (s : State) : CmdOut :=
  let q := c.num 16 1
  let named := (List.range 16).filter (c.num 24 2).testBit
  let old := s.mem.regionsOf q
  let before := (List.range 16).map fun b => ((s.mem.ctlOf 0).ownerCheck b).toNat
  if i.progress = [] then
    let s := if revoke then
        (named.filter old.contains).foldl (fun s b => State.writeBank s b 0x1F#32) (s.writeRegions q (old.filter fun b => !named.contains b))
      else s.writeRegions q ((List.range 16).filter fun b => old.contains b || named.contains b)
    .wait (.again (1 :: before)) s
  else if s.regionsSettled (List.range 16) then .reply stOk [] s
  else .wait (.again i.progress) s

/-! ## Slots (kinds 6 and 7) -/

/-- The slot byte of DRAM slot `i` after a grant, or after a revoke. -/
def dramSlotByte (old : BitVec 8) (q : Nat) (hit dir revoke : Bool) : BitVec 8 :=
  if !hit then old
  else if revoke then (if slotOwner (old &&& 0x1F#8) = some q then (old &&& 0x80#8) ||| 0x1F#8 else old)
  else BitVec.ofNat 8 (q + bit dir * 128)

/-- SLOT_NEXT of a controller as PART_GRANT or PART_REVOKE makes it. -/
def CmdRec.dramTable (c : CmdRec) (revoke : Bool) (k : DramCtl) : Tab (BitVec 8) :=
  (List.range 64).foldl (fun t i =>
    tset (if i < 32 then 0x10#8 else 0x90#8) t i
      (dramSlotByte (k.nextAt i) (c.num 16 1) ((c.num 24 8).testBit i) ((c.num 32 8).testBit i) revoke)) k.slotNext

def grantDramSlots (c : CmdRec) (i : CmdIn) (revoke : Bool) (s : State) : CmdOut :=
  if i.progress = [] then
    .wait (.again (1 :: (List.range 64).map fun j => ((s.mem.ctlOf 0).nextAt j).toNat))
      ((List.range 12).foldl (fun s x => State.updCtl s x fun k => { k with slotNext := c.dramTable revoke k, apply := true }) s)
  else if (List.range 12).all fun x => !(s.mem.ctlOf x).apply then .reply stOk [] s
  else .wait (.again i.progress) s

/-- The slot byte of a mesh slot after a grant or revoke. -/
def meshSlotByte (old : BitVec 8) (q : Nat) (hit revoke : Bool) : BitVec 8 :=
  if !hit then old else if revoke then (if slotOwner old = some q then 0x1F#8 else old) else BitVec.ofNat 8 q

/-- SLOT_NEXT and VC_EN_NEXT of a router, and its drain (R295, R296): the partition's VCs are on when it holds a slot. -/
def CmdRec.meshTable (c : CmdRec) (revoke : Bool) (x : Router) : Router :=
  let q := c.num 16 1
  let t := (List.range 64).foldl (fun t i =>
    tset 0x10#8 t i (meshSlotByte (x.nextAt i) q ((c.num 24 8).testBit i) revoke)) x.slotNext
  let holds := (List.range 64).any fun i => slotOwner (tget 0x10#8 t i) == some q
  let b := BitVec.ofNat 32 (2 ^ q)
  { x with slotNext := t, vcEnNext := if holds then x.vcEnNext ||| b else x.vcEnNext &&& ~~~b, draining := true, drainCycles := 0 }

def grantMeshSlots (c : CmdRec) (i : CmdIn) (revoke : Bool) (s : State) : CmdOut :=
  let idle := (List.range 64).all fun r => !(s.router r).draining
  if !idle then .wait (.again i.progress) s
  else if i.progress = [] then
    .wait (.again (1 :: (s.router 0).vcEnNext.toNat :: (List.range 64).map fun j => ((s.router 0).nextAt j).toNat))
      ((List.range 64).foldl (fun s r => State.updRouter s r (c.meshTable revoke)) s)
  else .reply stOk [] s

/-! ## Slices (kind 8) -/

/-- The partition's slices change; when a revoke takes its last, its started commands end with TIMEOUT (R348). -/
def State.grantSlices (s : State) (c : CmdRec) (revoke : Bool) : State :=
  let q := c.num 16 1
  let had := s.hasSlice q
  let s := (List.range 256).foldl (fun s i =>
    if !(c.num 24 32).testBit i ∨ i % 8 = 0 ∨ (revoke ∧ State.sliceOwner s (i / 64) (i % 64) ≠ q) then s
    else { s with slices := tset 16 s.slices i (if revoke then 31 else q) }) s
  if had && !s.hasSlice q then (s.running.filter fun r => r.cmd.stamp == q).foldl (fun s r => State.cut s r stTimeout) s else s

/-! ## Queues (kind 9) -/

/-- A QID that names a queue of the device (R334, R366). -/
def State.isQueue (s : State) (x : Nat) : Bool :=
  x == qidOf (qidKind x) (qidHost x) (x % 64) &&
    (if qidKind x = 0 then decide (qidHost x < 4) && s.portWidth (qidHost x) != 0
     else if qidKind x = 1 then decide (qidHost x < 12) && decide (x % 64 < 16) else x == mgmtQid)

/-- A queue may be bound to the platform owner (R335). -/
def State.poQueue (s : State) (x : Nat) : Bool := x == mgmtQid || (qidKind x == 0 && qidHost x == s.boot.shell.poPort)

/-! ## Names and timers (kinds 10 to 12) -/

def State.rulesValid (s : State) (m : Nat) : Bool :=
  (List.range 1024).any fun r => m.testBit (r / 16) && (s.rule r 0).getLsbD 31

/-- Blocks of the kind that a partition holds: the first and the second mask. -/
def Part.blocks (p : Part) (kind : Nat) : Nat × Nat :=
  if kind = 10 then (p.streams, p.rules) else if kind = 11 then (p.tasks, p.sets) else (p.timers, 0)

def Part.setBlocks (p : Part) (kind a b : Nat) : Part :=
  if kind = 10 then { p with streams := a, rules := b } else if kind = 11 then { p with tasks := a, sets := b } else { p with timers := a }

/-- The masks of a command of these kinds. -/
def CmdRec.blockMasks (c : CmdRec) : Nat × Nat := if c.num 17 1 = 12 then (c.num 24 16, 0) else (c.num 24 32, c.num 56 8)

/-- Bits of `a` that are not in `b`. -/
def dropBits (a b : Nat) : Nat := a ^^^ (a &&& b)

/-- Some block of the masks, which the partition holds, is in use (Table 12-3). -/
def State.blocksBusy (s : State) (q kind a b : Nat) : Bool :=
  let p := s.part q
  let a := a &&& (p.blocks kind).1
  let b := b &&& (p.blocks kind).2
  if kind = 10 then s.streams.any (fun z => a.testBit (z.1 / 32) && z.2.state != 0) || s.rulesValid b
  else if kind = 11 then
    s.tasks.any (fun z => a.testBit (z.1 / 64) && z.2.st.owner == q) ||
      p.loaded.any fun e => e.2.sets.any fun x => b.testBit (8 * x.1 + x.2 / 32)
  else p.loaded.any fun e => e.2.timers.any fun x => a.testBit (16 * x.1 + x.2.1)

/-! ## PART_GRANT and PART_REVOKE (R365) -/

/-- The kind-specific parameter bytes. -/
def CmdRec.kindBytes (c : CmdRec) : List (Nat × Nat) :=
  let k := c.num 17 1
  if k = 1 then [(24, 31)] else if k = 2 ∨ k = 7 then [(24, 8)] else if k = 3 ∨ k = 4 then [(24, 4)]
  else if k = 5 then [(24, 2)] else if k = 6 ∨ k = 12 then [(24, 16)] else if k = 8 then [(24, 32)]
  else if k = 9 then (if qidKind (c.num 24 4) = 1 then [(24, 6)] else [(24, 4)])
  else [(24, 40)]

/-- Sum of the cell quotas of R253 with the new one in force. -/
def State.cellSum (s : State) (q v : Nat) : Nat :=
  (List.range 16).foldl (fun n p => n + max (if p = q then v else s.quotaOf p) (s.usedCells p + s.resvCells p)) 0

/-- Sum of the tag quotas with the new one in force. -/
def State.tagSum (s : State) (q v : Nat) : Nat := (List.range 16).foldl (fun n p => n + if p = q then v else s.mesh.quota p) 0

/-- Another partition holds one of the resources that a grant names. -/
def State.grantHeld (s : State) (c : CmdRec) : Bool :=
  let q := c.num 16 1
  let k := c.num 17 1
  let other (o : Option Nat) : Bool := match o with
    | some x => decide (x < 16) && x != q
    | none => false
  if k = 2 then (List.range 64).any fun l => (c.num 24 8).testBit l && (s.lane l).owner != 31 && (s.lane l).owner != q
  else if k = 5 then
    let lowest := (s.mem.regionsOf q).headD 16
    (List.range 16).any fun b => (c.num 24 2).testBit b &&
      (other (some (ownerField ((s.mem.ctlOf 0).ownerCheck b))) ||
        (!(s.part q).loaded.isEmpty && decide (b < lowest)))
  else if k = 6 then (List.range 64).any fun i => (c.num 24 8).testBit i && other (slotOwner ((s.mem.ctlOf 0).nextAt i &&& 0x1F#8))
  else if k = 7 then (List.range 64).any fun i => (c.num 24 8).testBit i && other (slotOwner ((s.router 0).nextAt i))
  else if k = 8 then (List.range 256).any fun i => (c.num 24 32).testBit i && other (some (s.sliceOwner (i / 64) (i % 64)))
  else if k = 9 then (s.queue (c.num 24 4)).owner != 31 && (s.queue (c.num 24 4)).owner != q
  else if 10 ≤ k then (List.range 16).any fun p => p != q &&
    (((s.part p).blocks k).1 &&& c.blockMasks.1 != 0 || ((s.part p).blocks k).2 &&& c.blockMasks.2 != 0)
  else false

/-- A revoke meets a resource in use. -/
def State.revokeBusy (s : State) (c : CmdRec) : Bool :=
  let q := c.num 16 1
  let k := c.num 17 1
  if k = 1 then c.tileMask.any fun l => match s.ownTile q l with
    | some p => s.edgeUsed p
    | none => false
  else if k = 5 then
    let mine := s.mem.regionsOf q
    mine.any fun b => (c.num 24 2).testBit b && (s.carafeIn b || (!(s.part q).loaded.isEmpty && mine.headD 16 == b))
  else if 10 ≤ k then s.blocksBusy q k c.blockMasks.1 c.blockMasks.2
  else false

/-- Checks of PART_GRANT and PART_REVOKE (R358, R365, R366). -/
def State.grantChecks (s : State) (c : CmdRec) (revoke : Bool) : List (Bool × Nat) :=
  let q := c.num 16 1
  let k := c.num 17 1
  let v := c.num 24 4
  let inband := k == 9 && qidKind v == 1 && !revoke
  [(c.stray ((16, 2) :: c.kindBytes), stReserved),
   (inband && c.num 28 2 == 0, stZero),
   (k == 0 || decide (12 < k) || decide ((if k = 9 then 16 else 15) < q) || ((k == 3 || k == 4) && decide (98304 < v)) ||
     (k == 9 && !s.isQueue v) || (inband && decide (4096 < c.num 28 2)) ||
     (k == 8 && !revoke && (List.range 32).any fun i => (c.num 24 32).testBit (8 * i)) ||
     (k == 6 && !revoke && decide (2 < { s.mem.ctlOf 0 with slotNext := c.dramTable false (s.mem.ctlOf 0) }.turns)), stReserved),
   (decide (q < 16) && (s.part q).state == 0, stNotLoaded),
   ((decide (q < 16) && (s.part q).state == 4) || (!revoke && s.grantHeld c) || (revoke && s.revokeBusy c), stBusy),
   (k == 4 && decide (122880 < s.tagSum q v), stTags),
   (k == 1 && !revoke && c.tileMask.any fun l => match s.tileOfLogical l with
     | some p => s.ownerOf p != 31 && s.ownerOf p != q
     | none => true, stTiles),
   (k == 3 && decide (98304 < s.cellSum q v), stCells)]

/-- The kinds that take effect at once. -/
def State.grantNow (s : State) (c : CmdRec) (revoke : Bool) : CmdOut :=
  let q := c.num 16 1
  let k := c.num 17 1
  let v := c.num 24 4
  if k = 2 then
    .reply stOk [] (((List.range 64).filter (c.num 24 8).testBit).foldl (fun s l =>
      let o := (State.lane s l).owner
      if revoke then (if o = q then s.unbindLane q l else s) else if o = q then s else s.bindLane l q) s)
  else if k = 3 then .reply stOk [] { s with alloc := { s.alloc with quota := tset 0 s.alloc.quota q v } }
  else if k = 4 then .reply stOk [] { s with mesh := { s.mesh with tagQuota := tset 0 s.mesh.tagQuota q v } }
  else if k = 8 then .reply stOk [] (s.grantSlices c revoke)
  else if k = 9 then
    if !revoke ∧ q = 16 ∧ !s.poQueue v then
      .reply stWrongRole [] (if qidKind v = 0 then s.hpStick (qidHost v) hpBadBind else s)
    else if v = mgmtQid ∨ (revoke ∧ (s.queue v).owner ≠ q) then .reply stOk [] s
    else .reply stOk [] (s.updQueue v fun x =>
      { x with owner := if revoke then 31 else q, depth := if qidKind v = 1 ∧ !revoke then c.num 28 2 else x.depth })
  else
    let (a, b) := c.blockMasks
    .reply stOk [] (s.updPart q fun p =>
      let (x, y) := p.blocks k
      if revoke then p.setBlocks k (dropBits x a) (dropBits y b) else p.setBlocks k (x ||| a) (y ||| b))

/-- PART_GRANT and PART_REVOKE. -/
def grantOrRevoke (revoke : Bool) (c : CmdRec) (i : CmdIn) (s : State) : CmdOut :=
  let k := c.num 17 1
  let work (s : State) : CmdOut :=
    if k = 1 then (if revoke then revokeTiles c i s else grantTiles c i s)
    else if k = 5 then grantRegions c i revoke s
    else if k = 6 then grantDramSlots c i revoke s
    else if k = 7 then grantMeshSlots c i revoke s
    else s.grantNow c revoke
  if i.progress = [] then checked (s.grantChecks c revoke) s work else work s

def bodyPartGrant (c : CmdRec) (i : CmdIn) (s : State) : CmdOut := grantOrRevoke false c i s
def bodyPartRevoke (c : CmdRec) (i : CmdIn) (s : State) : CmdOut := grantOrRevoke true c i s

def execPartGrant (r : Recip) (s : State) : Host.Outcome State Fault Refusal :=
  .next (s.runCommand r (· == 0x0102) bodyPartGrant)
def execPartRevoke (r : Recip) (s : State) : Host.Outcome State Fault Refusal :=
  .next (s.runCommand r (· == 0x0103) bodyPartRevoke)

/-! ## PART_DESTROY (R367, R411) -/

/-- A Cupping migration of a sector is given up: the tile keeps its logical number, and a fence of Cupping's falls
(Tables 02-20, 14-11). -/
def State.abortMove (s : State) (n : Nat) : State :=
  let x := s.sector n
  match x.cupMove with
  | none => s
  | some (p, sp) =>
    let s := if x.cupPhase = 2 then
        ((s.setTm p { s.tm p with migrating := false }).setTm sp { s.tm sp with migrating := false }).updTile sp fun t => { t with zres := 0 }
      else s
    let s := s.updSector n fun y => { y with cupMove := none, cupFence := false, cupPhase := if y.cupPhase = 2 then 0 else y.cupPhase }
    if x.cupFence then s.dropFence p else s

/-- Migrations of a partition's tiles are given up. -/
def State.abortMovesOf (s : State) (q : Nat) : State :=
  (List.range 8).foldl (fun s n =>
    if (State.sector s n).cupMove.any fun x => State.ownerOf s x.1 == q then s.abortMove n else s) s

/-- Every packet that the mesh or a target holds, those apart that wait for a tag. -/
def State.packets (s : State) : List Packet :=
  let m := s.mesh
  m.inject.map (·.1) ++ (m.vc.flatMap fun e => e.2.flits.map (·.pkt)) ++ m.arrived ++ m.answered
    ++ s.mem.joins.map (·.pkt)

/-- Transactions of a partition whose packets a fault has destroyed (R297): their tags are free; a command so lost ends
with `status`, a reply is sent again. -/
def State.dropLost (s : State) (q status : Nat) : State :=
  let ps := s.packets
  let alive (t : Nat) : Bool := ps.any fun k => k.part == q && k.tag == t
  let m := s.mesh
  let gone := m.unanswered.filter fun k => k.part == q && !alive k.tag
  let s : State := { s with mesh := { m with txns := m.txns.filter fun t => t.part != q || alive t.tag
                                             unanswered := m.unanswered.filter fun k => k.part != q || alive k.tag } }
  gone.foldl (fun s k =>
    if k.opc = 6 then State.issue s k
    else if k.opc = 4 ∧ qidKind k.addr = 0 then State.reply s { qid := k.addr, stamp := q, bytes := k.data } status [] else s) s

/-- Every dispatch of a partition is aborted, its requests for work withdrawn and its tiles fenced; EPOCH_q advances, and
requests that wait for a tag are withdrawn (R293, R367, R442). -/
def State.quiesce (s : State) (q status : Nat) : State :=
  let s := s.abortMovesOf q
  let ps := (List.range 256).filter fun p => s.ownerOf p == q
  let s := { s with grants := s.grants.filter fun g => !ps.contains g.1 }
  let s := ps.foldl (fun s p =>
    (((State.updTile s p fun t => { t with fenceReq := true, yieldSent := false, yieldHere := false }).abortTile p 3).applyFence p)) s
  let m := s.mesh
  let waits (k : Packet) : Bool := k.part == q && !k.purpose.exempt
  let s : State := { s with mesh := { m with epoch := tset 0 m.epoch q ((tget 0 m.epoch q + 1) % 16)
                                             waiting := m.waiting.filter fun k => !waits k } }
  s.dropLost q status

/-- Steps 1 to 3 of R367. -/
def State.destroyStart (s : State) (q : Nat) : State :=
  let s := s.discardCommands q stDiscardedReset
  let ps := (List.range 256).filter fun p => s.ownerOf p == q
  let s := s.quiesce q stDiscardedReset
  let mine (d : Done) : Bool := ps.any fun p => sectorOf p == d.sector && (State.tm s p).logical % 31 == d.tile
  let s := (s.dones.filter mine).foldl State.takeDone s
  let s : State := { s with dones := s.dones.filter fun d => !mine d, recovery := tset none s.recovery q none }
  let s := s.restartCarafe q
  let ks := (s.streams.filter fun z => z.2.owner == q && (z.2.state == 1 || z.2.state == 2)).map (·.1)
  let s := ks.foldl State.closeStream s
  (s.part q).loaded.foldl (fun s e => State.unloadNow s q e.1) s

/-- Steps 4 and 5 of R367, tiles apart, and Table 13-3. -/
def State.destroyEnd (s : State) (q : Nat) : State :=
  let s := ((List.range 64).filter fun l => (s.lane l).owner == q).foldl (fun s l => State.unbindLane s q l) s
  let s := (s.mem.regionsOf q).foldl (fun s b => State.writeBank s b 0x1F#32) s
  let s := (List.range 12).foldl (fun s x => State.updCtl s x fun k =>
    { k with slotNext := (List.range 64).foldl (fun t i => tset (if i < 32 then 0x10#8 else 0x90#8) t i
               (dramSlotByte (k.nextAt i) q true false true)) k.slotNext, apply := true }) s
  let all : CmdRec := { qid := 0, stamp := 16, bytes := List.replicate 16 0 ++ leBytes 1 q ++ List.replicate 7 0 ++ List.replicate 8 255 ++ List.replicate 32 0 }
  let s := (List.range 64).foldl (fun s r => State.updRouter s r (all.meshTable true)) s
  let s : State := { s with slices := (List.range 256).foldl (fun t i => if tget 16 t i = q then tset 16 t i 31 else t) s.slices
                            queues := s.queues.map fun e => if e.2.owner = q then (e.1, { e.2 with owner := 31 }) else e }
  let s := (List.range 8).foldl (fun s n => State.updSector s n fun x => { x with urg := tset 0 x.urg q 0 }) s
  let m := s.mesh
  let s : State := { s with alloc := { s.alloc with quota := tset 0 s.alloc.quota q 0 }
                            mesh := { m with tagQuota := tset 0 m.tagQuota q 0 }
                            holdoff := tset 4096 s.holdoff q 4096, mem := { s.mem with key := tset 0 s.mem.key q 0 } }
  let s := (s.setEvb q {}).setRole q {}
  let old : Part := s.part q
  let s := (List.range 1024).foldl (fun s r => if old.hasRule r then s.setRule r 0 (State.rule s r 0 &&& 0x7FFFFFFF#32) else s) s
  s.setPart q { state := 4 }

/-- What PART_DESTROY waits for at its end: pending bank owners, slot tables, drains. -/
def State.destroySettled (s : State) : Bool :=
  s.regionsSettled (List.range 16) && (List.range 12).all (fun c => !(s.mem.ctlOf c).apply) && (List.range 64).all fun r => !(s.router r).draining

/-- PART_DESTROY: a repeated one completes what an earlier one left. -/
def bodyPartDestroy (c : CmdRec) (i : CmdIn) (s : State) : CmdOut :=
  let q := c.num 16 1
  let ps := (List.range 256).filter fun p => s.ownerOf p == q
  let ns := sectorsOf ps
  match i.progress with
  | [] =>
    checked [(c.stray [(16, 1)], stReserved), (decide (15 < q), stReserved), ((s.part q).state == 0, stNotLoaded)] s fun s =>
      .wait (.again [1]) ((s.updPart q fun p => { p with state := 4 }).destroyStart q)
  | 1 :: _ =>
    if s.streams.any fun z => z.2.owner == q && z.2.state == 3 then .wait (.again [1]) s
    else withSectors ns [1] s fun s => .wait (.again [2]) (ps.foldl State.startZero s)
  | 2 :: _ =>
    let (ok, s) := s.wiped ps
    if !ok ∨ (List.range 64).any fun r => (s.router r).draining then .wait (.again [2]) s
    else .wait (.again [3]) (((s.setTileOwner ps 31).unforce ns).destroyEnd q)
  | _ =>
    if s.destroySettled ∧ s.secSlot = q then .reply stOk [] ((s.discardCommands q stDiscardedReset).setPart q {})
    else .wait (.again [3]) s

def execPartDestroy (r : Recip) (s : State) : Host.Outcome State Fault Refusal :=
  .next (s.runCommand r (· == 0x0104) bodyPartDestroy)

/-! ## PART_QUERY (R368) -/

/-- Bit mask of the numbers below `n` that satisfy a predicate. -/
def maskOf (n : Nat) (f : Nat → Bool) : Nat := (List.range n).foldl (fun m i => m + bit (f i) * 2 ^ i) 0

/-- Bytes 24 to 63 of a PART_GRANT that describe the partition's holding of a kind. -/
def State.holding (s : State) (q k : Nat) : List Byte :=
  padTo 40 (
    if k = 1 then leBytes 31 (maskOf 248 fun l => (s.ownTile q l).isSome)
    else if k = 2 then leBytes 8 (maskOf 64 fun l => (s.lane l).owner == q)
    else if k = 3 then leBytes 4 (s.quotaOf q) ++ leBytes 4 (s.usedCells q) ++ leBytes 4 (s.resvCells q)
    else if k = 4 then leBytes 4 (s.mesh.quota q) ++ leBytes 4 (s.mesh.held q)
    else if k = 5 then leBytes 2 (maskOf 16 fun b => s.mem.bankOwner b == q)
    else if k = 6 then
      let own (i : Nat) : Bool := slotOwner ((s.mem.ctlOf 0).slotAt i &&& 0x1F#8) == some q
      leBytes 8 (maskOf 64 own) ++ leBytes 8 (maskOf 64 fun i => own i && ((s.mem.ctlOf 0).slotAt i).getLsbD 7)
    else if k = 7 then leBytes 8 (maskOf 64 fun i => slotOwner ((s.router 0).slotAt i) == some q)
    else if k = 8 then leBytes 32 (maskOf 256 fun i => s.sliceOwner (i / 64) (i % 64) == q)
    else if k = 9 then
      let xs := ((s.queues.filter fun e => e.2.owner == q).map (·.1)).take 9
      (xs ++ List.replicate (9 - xs.length) 0xFFFFFFFF).flatMap (leBytes 4)
    else
      let (a, b) := (s.part q).blocks k
      if k = 12 then leBytes 16 a else leBytes 32 a ++ leBytes 8 b)

/-- PART_QUERY. -/
def bodyPartQuery (c : CmdRec) (_ : CmdIn) (s : State) : CmdOut :=
  let q := c.num 16 1
  let k := c.num 17 1
  let d := c.desc 24
  checked
    [(c.stray [(16, 2), (24, 16)] || d.rsv != 0, stReserved),
     (decide (15 < q) || k == 0 || decide (12 < k) || d.spaceBad c, stReserved), (d.short 40, stBadLength),
     ((!c.po && c.stamp != q) || s.descFails c d 40 true, stWrongPartition), ((s.part q).state == 0, stNotLoaded),
     (s.descTags c d, stTags)] s fun s =>
    whenDesc c d 40 true s fun s =>
      replyWith c d (s.holding q k)
        (resultOf [(14, 1, bit (s.part q).isSealed), (15, 1, (s.queues.filter fun e => e.2.owner == q).length)]) s

def execPartQuery (r : Recip) (s : State) : Host.Outcome State Fault Refusal :=
  .next (s.runCommand r (· == 0x0105) bodyPartQuery)

end Sys2Proof.Machine
end

