-- ==== Sys2Proof/Machine/CmdSecurity.lean ====
section
/-!
DEFINITION. Machine/CmdSecurity.lean: enrolment, rekeying, attestation, MACsec keys, debug unlock, field update (R369,
R397 to R403, R416 to R421, R426 to R429, R438, R439, R509, R510).
-/
namespace Sys2Proof.Machine

/-! ## Sessions (R419) -/

/-- One byte of R415's r. -/
def roleByte (r : Nat) : List Byte := leBytes 1 r

/-- The keys that a prk gives. -/
def sessionOf (prk : List Byte) (r : Nat) : Session :=
  let k (label : String) : List Byte := padTo 32 (Config.hkdfExpand prk (ascii label ++ roleByte r) 32)
  { prk := prk, kcmd := k "DY7440 cmd", krpl := k "DY7440 rpl", kwrp := k "DY7440 wrap", sid := k "DY7440 sid" }

/-- The role's session starts, or takes new keys: LAST and RSEQ of its queues start again (R344). -/
def State.installSession (s : State) (r : Nat) (x : Role) : State :=
  let held := (s.role r).session.isSome
  let s : State := { s with queues := s.queues.map fun e =>
      if e.2.owner = r then (e.1, { e.2.settle held with last := 0, rseq := 0 }) else e }
  s.setRole r x

/-- The device's answer to a request (Table 13-6): the response block and the session it leads to. `extra`: prk_old. -/
def State.keyExchange (s : State) (format r : Nat) (req ephEc ephKem extra : List Byte) : (List Byte × Session) × State :=
  let (seed, s) := s.random 64
  let d := Config.ecScalar seed
  let (n, s) := s.draw
  let (ct, zKem) := Config.kemEncaps ephKem n
  let head := leBytes 1 format ++ roleByte r ++ leBytes 6 0 ++ padTo 48 (Config.sha384 req) ++ padTo 97 (Config.ecPublic d) ++ padTo 1088 ct
  let salt := Config.sha384 (req ++ head)
  let z := padTo 48 (Config.ecdh d ephEc) ++ padTo 32 zKem
  let x := sessionOf (Config.hkdfExtract salt (z ++ extra)) r
  let text := head ++ x.sid
  let (a, s) := s.draw
  let (b, s) := s.draw
  ((text ++ padTo 96 (Config.ecdsaSign dakEc text a) ++ padTo 3309 (Config.pqSign dakPqSeed text b), x), s)

/-- The identity a role's requests carry: INSTANCE_q, or BOOT_NONCE. -/
def State.instanceOf (s : State) (r : Nat) : List Byte := if r = 16 then s.boot.nonce else padTo 32 (s.role r).inst

/-- The role's partition is RECOVERING or DESTROYING. -/
def State.partBusy (s : State) (r : Nat) : Bool := decide (r < 16) && ((s.part r).state == 3 || (s.part r).state == 4)

/-- The checks of R418 that the request block decides: a status, or OK. -/
def State.enrolStatus (s : State) (r : Nat) (b : List Byte) : Nat :=
  let pq := (num b 1 1).testBit 0
  let ec := slice b 56 97
  let pqk := slice b 1434 1952
  let text := b.take 3386
  let owner := Config.sha384 (ec ++ (if pq then pqk else []))
  (firstFail
    [(num b 0 1 != 1 || decide (2 ≤ num b 1 1) || !zeros b 2 6 || (!pq && !(zeros b 1434 1952 && zeros b 3482 3309)), stReserved),
     (slice b 8 16 != serial || slice b 24 32 != s.instanceOf r, stIdentity),
     (r == 16 && (!pq || s.fuses.activeHash != some owner), stSignature),
     (!(Config.ecValid ec && Config.ecValid (slice b 153 97) && Config.kemValid (slice b 250 1184) && (!pq || Config.pqValid pqk))
        || !Config.ecdsaVerify ec text (slice b 3386 96) || (pq && !Config.pqVerify pqk text (slice b 3482 3309)), stSignature)]).getD stOk

/-- An enrolment of the role has started and not ended. -/
def State.enrolling (s : State) (r : Nat) : Bool := s.running.any fun x => x.cmd.stamp == r && x.cmd.opcode == 0x0106

/-- OWNER_ENROLL (R369, R418, R420). -/
def bodyOwnerEnroll (c : CmdRec) (i : CmdIn) (s : State) : CmdOut :=
  let r := c.stamp
  let d := c.desc 16
  let e := c.desc 32
  checked
    [(c.stray [(16, 32)] || d.rsv != 0 || e.rsv != 0, stReserved), (d.len == 0 || e.len == 0, stZero),
     (d.spaceBad c || e.spaceBad c, stReserved), (d.short 6791 || e.short 4678, stBadLength),
     (s.descFails c d 6791 false || s.descFails c e 4678 true, stWrongPartition),
     ((s.role r).session.isSome || s.partBusy r || s.enrolling r, stBusy), (s.descTags c d || s.descTags c e, stTags)] s fun s =>
    whenDesc c d 6791 false s fun s => whenDesc c e 4678 true s fun s => withInput c i d 6791 s fun b s =>
     whenSlot r b s fun s =>
      let st := s.enrolStatus r b
      if st ≠ stOk then .reply st [] s
      else
        let pq := (num b 1 1).testBit 0
        let ec := slice b 56 97
        let pqk := if pq then slice b 1434 1952 else []
        let (out, s) := s.keyExchange 1 r b (slice b 153 97) (slice b 250 1184) []
        let (ok, s) := s.output c e out.1
        if !ok then .reply stPoison [] s
        else
          let s := s.installSession r
            { s.role r with session := some out.2, ownerHash := Config.sha384 (ec ++ pqk), pqsig := pq, ecPub := ec, pqPub := pqk }
          .reply stOk [] (if r < 16 then s.updPart r fun p => { p with state := 2 } else s)

def execOwnerEnroll (r : Recip) (s : State) : Host.Outcome State Fault Refusal :=
  .next (s.runCommand r (· == 0x0106) bodyOwnerEnroll)

/-- The checks of R421 that the request block decides. -/
def rekeyStatus (x : Role) (k : Session) (b : List Byte) : Nat :=
  let text := b.take 1321
  (firstFail
    [(num b 0 1 != 2 || !zeros b 1 7 || (!x.pqsig && !zeros b 1417 3309), stReserved), (slice b 8 32 != k.sid, stIdentity),
     (!(Config.ecValid (slice b 40 97) && Config.kemValid (slice b 137 1184)) || !Config.ecdsaVerify x.ecPub text (slice b 1321 96)
        || (x.pqsig && !Config.pqVerify x.pqPub text (slice b 1417 3309)), stSignature)]).getD stOk

/-- SESSION_REKEY (R400, R421): the reply goes out under the old reply key. -/
def bodySessionRekey (c : CmdRec) (i : CmdIn) (s : State) : CmdOut :=
  let r := c.stamp
  let d := c.desc 16
  let e := c.desc 32
  checked
    [(c.stray [(16, 32)] || d.rsv != 0 || e.rsv != 0, stReserved), (d.len == 0 || e.len == 0, stZero),
     (d.spaceBad c || e.spaceBad c, stReserved), (d.short 4726 || e.short 4678, stBadLength),
     (s.descFails c d 4726 false || s.descFails c e 4678 true, stWrongPartition), (s.partBusy r, stBusy),
     (s.descTags c d || s.descTags c e, stTags)] s fun s =>
    whenDesc c d 4726 false s fun s => whenDesc c e 4678 true s fun s => withInput c i d 4726 s fun b s =>
     whenSlot r b s fun s =>
      let x := s.role r
      match x.session with
      | none => .reply stAuth [] s
      | some k =>
        let st := rekeyStatus x k b
        if st ≠ stOk then .reply st [] s
        else
          let (out, s) := s.keyExchange 2 r b (slice b 40 97) (slice b 137 1184) k.prk
          let (ok, s) := s.output c e out.1
          if !ok then .reply stPoison [] s else .reply stOk [] (s.installSession r { x with session := some out.2 })

def execSessionRekey (r : Recip) (s : State) : Host.Outcome State Fault Refusal :=
  .next (s.runCommand r (· == 0x0904) bodySessionRekey)

/-! ## Attestation (R397, R426, R427) -/

/-- The certificates of R413, in area order. -/
def State.certificates (s : State) : List Byte :=
  match certArea s.boot.certs with
  | some es => (es.filter fun e => decide (1 ≤ e.1) && decide (e.1 ≤ 5)).flatMap fun e => e.2
  | none => []

/-- The 56 bytes of a handle. -/
def persReport (p : Option Pers) : List Byte :=
  match p with
  | some v => leBytes 1 (1 + 2 * bit v.started) ++ leBytes 3 0 ++ leBytes 4 v.version ++ padTo 48 v.pmeas
  | none => leBytes 56 0

/-- Bytes 0 to 1,047 of the report (Table 13-11). -/
def State.reportBody (s : State) (r : Nat) (nonce : List Byte) : List Byte :=
  let po := r == 16
  let p := s.part r
  let b := s.boot
  let dbg := s.dbgAccess.unlocked
  leBytes 4 0x54415944 ++ leBytes 1 1 ++ leBytes 1 (bit po) ++ roleByte r ++ leBytes 1 (if po then 0 else p.state) ++ padTo 16 serial
    ++ padTo 32 nonce ++ padTo 32 (s.instanceOf r) ++ padTo 240 (b.meas.flatMap (padTo 48)) ++ leBytes 4 b.fwVersion
    ++ leBytes 2 s.fuses.vendor ++ leBytes 2 s.fuses.config ++ leBytes 1 b.active ++ leBytes 1 (s.fuses.active.getD 255)
    ++ leBytes 1 (bit dbg) ++ leBytes 1 stepping ++ leBytes 4 0 ++ padTo 48 (s.fuses.activeHash.getD [])
    ++ padTo 48 (if po then [] else (s.role r).ownerHash)
    ++ padTo 48 (Config.sha384 (Config.ecPublic (dekEc dbg) ++ Config.kemPublic (dekKem dbg)))
    ++ (if po then leBytes 560 0
        else
          (List.range 8).flatMap (fun h => persReport (p.persAt h)) ++ (s.holding r 1).take 31 ++ leBytes 1 (bit p.isSealed)
            ++ (s.holding r 2).take 8 ++ leBytes 4 (s.quotaOf r) ++ leBytes 4 (s.mesh.quota r) ++ (s.holding r 5).take 2 ++ leBytes 2 0
            ++ (s.holding r 6).take 16 ++ (s.holding r 7).take 8 ++ (s.holding r 8).take 32 ++ leBytes 4 0)

/-- The report is signed and written; its first bytes are those of the moment ATTEST started. -/
def attestWrite (c : CmdRec) (body : List Byte) (s : State) : CmdOut :=
  let d := c.desc 48
  let certs := s.certificates
  let n := 4460 + certs.length
  let len := if d.len < n then 4460 else n
  if d.space = 1 ∧ s.rangeAt c.stamp d.addr len true = 2 then
    .wait (.again (body.map (·.toNat))) (s.wakeRange c.stamp d.addr len true)
  else if s.secSlot ≠ c.stamp then .wait (.again (body.map (·.toNat))) s
  else
    let (a, s) := s.draw
    let (b, s) := s.draw
    let report := body ++ padTo 96 (Config.ecdsaSign dakEc body a) ++ padTo 3309 (Config.pqSign dakPqSeed body b) ++ leBytes 3 0 ++ leBytes 4 certs.length
    replyWith c d ((report ++ certs).take len) (resultOf [(14, 4, n)]) s

/-- ATTEST. -/
def bodyAttest (c : CmdRec) (i : CmdIn) (s : State) : CmdOut :=
  let d := c.desc 48
  match i.progress with
  | [] =>
    checked
      [(d.rsv != 0, stReserved), (d.spaceBad c, stReserved), (d.short 4460, stBadLength),
       (s.descFails c d (let n := 4460 + s.certificates.length; if d.len < n then 4460 else n) true, stWrongPartition),
       (s.descTags c d, stTags)] s fun s => attestWrite c (s.reportBody c.stamp (c.sub 16 32)) s
  | p => attestWrite c (p.map (BitVec.ofNat 8)) s

def execAttest (r : Recip) (s : State) : Host.Outcome State Fault Refusal := .next (s.runCommand r (· == 0x0901) bodyAttest)

/-! ## MACsec keys (R398, R399, R428, R429) -/

/-- The place of the association that a command names: lane, SC, AN in bytes 16 to 18. -/
def CmdRec.saIndex (c : CmdRec) : Nat := 4 * c.num 17 1 + c.num 18 1

/-- The lane, secure channel or association number is out of range. -/
def CmdRec.saBad (c : CmdRec) : Bool := decide (63 < c.num 16 1) || decide (4 < c.num 17 1) || decide (3 < c.num 18 1)

/-- The SAK of a wrapped key block; `none`: it disagrees with the command, or its tag fails. -/
def unwrapSak (c : CmdRec) (kwrp b : List Byte) : Option (List Byte) :=
  if num b 0 1 ≠ 1 ∨ slice b 1 3 ≠ c.sub 16 3 ∨ slice b 4 4 ≠ c.sub 20 4 ∨ slice b 8 12 ≠ c.sub 24 12 then none
  else Config.gcmOpen kwrp (slice b 20 12) (b.take 32) (slice b 32 32) (slice b 64 16)

/-- KEY_LOAD. -/
def bodyKeyLoad (c : CmdRec) (i : CmdIn) (s : State) : CmdOut :=
  let l := c.num 16 1
  let d := c.desc 48
  let chan := (List.range 4).map fun a => 4 * c.num 17 1 + a
  let held := chan.filter fun j => (tget none (s.lane l).sa j).isSome
  checked
    [(c.stray [(16, 3), (20, 16), (48, 16)] || d.rsv != 0, stReserved), (d.len == 0, stZero), (c.saBad || d.spaceBad c, stReserved),
     (d.short 80, stBadLength), ((s.lane l).owner != c.stamp || s.descFails c d 80 false, stWrongPartition),
     (decide (2 ≤ held.length) && !held.contains c.saIndex, stBusy), (s.descTags c d, stTags)] s fun s =>
    whenDesc c d 80 false s fun s => withInput c i d 80 s fun b s =>
     whenSlot c.stamp b s fun s =>
      match (s.role c.stamp).session with
      | none => .reply stAuth [] s
      | some k => match unwrapSak c k.kwrp b with
        | none => .reply stSignature [] s
        | some sak =>
          let sa : Sa := { key := padTo 32 sak, salt := c.sub 24 12, ssci := c.num 20 4 }
          .reply stOk [] (s.updLane l fun x => { x with sa := tset none x.sa c.saIndex (some sa) })

def execKeyLoad (r : Recip) (s : State) : Host.Outcome State Fault Refusal := .next (s.runCommand r (· == 0x0902) bodyKeyLoad)

/-- KEY_DESTROY. -/
def bodyKeyDestroy (c : CmdRec) (_ : CmdIn) (s : State) : CmdOut :=
  let l := c.num 16 1
  checked
    [(c.stray [(16, 3)], stReserved), (c.saBad, stReserved), ((s.lane l).owner != c.stamp, stWrongPartition),
     ((tget none (s.lane l).sa c.saIndex).isNone, stNotLoaded)] s fun s => whenSlot c.stamp [] s fun s =>
    .reply stOk [] (s.updLane l fun x => { x with sa := tset none x.sa c.saIndex none })

def execKeyDestroy (r : Recip) (s : State) : Host.Outcome State Fault Refusal :=
  .next (s.runCommand r (· == 0x0903) bodyKeyDestroy)

/-! ## Debug unlock (R401, R438, R439) -/

/-- Qorganil's debug keys, from the certificate area. -/
def State.debugKeys (s : State) : Option (List Byte × List Byte) :=
  match certArea s.boot.certs with
  | none => none
  | some es =>
    let one (k : Nat) (h : List Byte) : Option (List Byte) := ((es.filter fun e => e.1 == k).map (·.2)).find? fun b => Config.sha384 b == h
    match one 6 Config.debugEcHash, one 7 Config.debugPqHash with
    | some a, some b => some (a, b)
    | _, _ => none

/-- The checks of R438 that the token decides. -/
def State.tokenStatus (s : State) (b : List Byte) : Nat :=
  let x := s.role 16
  let vendor := b.take 100
  let owner := b.take 3505
  let good := match s.debugKeys with
    | none => false
    | some (ec, pq) =>
      Config.ecdsaVerify ec vendor (slice b 100 96) && Config.pqVerify pq vendor (slice b 196 3309)
        && Config.ecdsaVerify x.ecPub owner (slice b 3505 96) && Config.pqVerify x.pqPub owner (slice b 3601 3309)
  (firstFail
    [(num b 0 1 != 1 || decide (4 ≤ num b 1 1) || num b 1 1 == 0 || !zeros b 2 2, stReserved),
     (slice b 4 16 != serial || slice b 20 32 != s.boot.nonce || some (slice b 52 48) != s.fuses.activeHash, stIdentity),
     (!good, stSignature)]).getD stOk

/-- The partitions that are not ABSENT. -/
def State.existing (s : State) : List Nat := (List.range 16).filter fun q => (s.part q).state != 0

/-- The unlock starts: every partition is destroyed, and a running FW_UPDATE_STAGE ends. -/
def State.unlockStart (s : State) : State :=
  let s := (s.running.filter fun x => x.cmd.opcode == 0x0906).foldl (fun s x => State.cut s x stDiscardedReset) s
  s.existing.foldl (fun s q => (State.updPart s q fun p => { p with state := 4 }).destroyStart q) s

/-- The keys are erased, the system's drawn anew, and debug access opens with the scope granted. -/
def State.unlockEnd (s : State) (scope : Nat) : State :=
  let s : State := s.existing.foldl (fun s q => State.setPart s q {}) s
  let (k, s) := s.drawKey
  let s := s.setMem { s.mem with key := (List.range 16).foldl (fun t q => tset 0 t q 0) (tset 0 s.mem.key 16 k) }
  let s := (List.range 64).foldl (fun s l => State.updLane s l fun x => { x with sa := [] }) s
  let s := (List.range 17).foldl (fun s r => State.setRole s r {}) s
  { s with dbgAccess := { unlocked := true, tapOpen := scope.testBit 0, fwOpen := scope.testBit 1 } }

/-- DEBUG_UNLOCK. -/
def bodyDebugUnlock (c : CmdRec) (i : CmdIn) (s : State) : CmdOut :=
  let d := c.desc 16
  let ps := (List.range 256).filter fun p => s.existing.contains (s.ownerOf p)
  let ns := sectorsOf ps
  match i.progress with
  | [] =>
    checked
      [(c.stray [(16, 16)] || d.rsv != 0, stReserved), (d.spaceBad c, stReserved), (d.short 6910, stBadLength),
       (s.descFails c d 6910 false, stWrongPartition), (s.descTags c d, stTags)] s fun s =>
      whenDesc c d 6910 false s fun s => withInput c i d 6910 s fun b s =>
       whenSlot 16 b s fun s =>
        let st := s.tokenStatus b
        if st ≠ stOk then .reply st [] s else .wait (.again [1, num b 1 1]) s.unlockStart
  | [1, scope] =>
    if s.streams.any fun z => z.2.state == 3 then .wait (.again [1, scope]) s
    else withSectors ns [1, scope] s fun s => .wait (.again [2, scope]) (ps.foldl State.startZero s)
  | [2, scope] =>
    let (ok, s) := s.wiped ps
    if !ok ∨ (List.range 64).any fun r => (s.router r).draining then .wait (.again [2, scope]) s
    else .wait (.again [3, scope]) (s.existing.foldl State.destroyEnd ((s.setTileOwner ps 31).unforce ns))
  | p =>
    if s.destroySettled ∧ s.secSlot = 16 then .reply stOk [] (s.unlockEnd (p.getD 1 0)) else .wait (.again p) s

def execDebugUnlock (r : Recip) (s : State) : Host.Outcome State Fault Refusal :=
  .next (s.runCommand r (· == 0x0905) bodyDebugUnlock)

/-! ## Field update (R402, R403, R509, R510) -/

/-- The status of a slot failure reason (R509). -/
def reasonStatus (r : Nat) : Nat :=
  if r = 0 then stOk else if r = 2 ∨ r = 3 ∨ r = 10 then stIdentity else if r = 7 then stRollback else stSignature

/-- The reason why an image in memory fails the checks of R495 to R500, 0 when it passes. -/
def State.imageReason (s : State) (b : List Byte) : Nat :=
  let h := headerReason b
  if h ≠ 0 then h
  else if b.length < num b 32 4 then 10
  else
    let image := b.take (num b 32 4)
    firstReason [verifyReason s.fuses image, (loadReason image).1]

/-- FW_UPDATE_STAGE: checks, then erases the slot, writes the image and last its header, and checks what it reads back. -/
def bodyFwUpdateStage (c : CmdRec) (i : CmdIn) (s : State) : CmdOut :=
  let k := c.num 16 1
  let d := c.desc 24
  match i.progress with
  | [] =>
    checked
      [(c.stray [(16, 1), (24, 16)] || d.rsv != 0, stReserved), (d.len == 0, stZero),
       (decide (1 < k) || decide (67108864 < d.len) || d.spaceBad c, stReserved), (s.descFails c d d.len false, stWrongPartition),
       (k == s.boot.active || s.boot.staging, stBusy), (s.descTags c d, stTags)] s fun s =>
      whenDesc c d d.len false s fun s => withInput c i d d.len s fun b s =>
       whenSlot 16 b s fun s =>
        let st := reasonStatus (s.imageReason b)
        if st ≠ stOk then .reply st [] s
        else
          let s := s.updBoot fun x => { x with staged := x.staged.setIfInBounds k false, staging := true }
          .wait (.again (1 :: (b.take (num b 32 4)).map (·.toNat))) (s.flashErase (slotBase k) 67108864)
  | 1 :: image =>
    .wait (.again (2 :: image)) (s.flashWrite (slotBase k + 64) ((image.drop 64).map (BitVec.ofNat 8)))
  | p =>
    let s := s.flashWrite (slotBase k) (((p.drop 1).take 64).map (BitVec.ofNat 8))
    let b := s.slotImage k
    let st := reasonStatus (s.imageReason b)
    let s := s.updBoot fun x => { x with staged := x.staged.setIfInBounds k (st == stOk), staging := false }
    let m := manifest b
    .reply st (if st = stOk then resultOf [(14, 4, num m 20 4), (18, 2, num m 4 4), (20, 2, num m 12 4)] else []) s

def execFwUpdateStage (r : Recip) (s : State) : Host.Outcome State Fault Refusal :=
  .next (s.runCommand r (· == 0x0906) bodyFwUpdateStage)

/-- The boot control copy that is written, and the GEN it takes (R510). -/
def State.controlPlace (s : State) : Nat × Nat :=
  match s.control 0, s.control 1 with
  | some a, some b => if newer b.1 a.1 then (0, b.1 + 1) else (1, a.1 + 1)
  | some a, none => (1, a.1 + 1)
  | none, some b => (0, b.1 + 1)
  | none, none => (0, 1)

/-- FW_ACTIVATE: the copy that was written is read back, which may fail (R510): whether it does, and what the copy then
holds, are free values. What else is in flight ends; the reply goes out; the device reset that follows is DEVICE_RESET. -/
def bodyFwActivate (c : CmdRec) (_ : CmdIn) (s : State) : CmdOut :=
  let k := c.num 16 1
  checked
    [(c.stray [(16, 1)], stReserved), (decide (1 < k), stReserved),
     (k != s.boot.active && !(s.boot.staged.toList.getD k false), stNotLoaded)] s fun s =>
    let (x, gen) := s.controlPlace
    let text := leBytes 4 0x43425944 ++ leBytes 4 (gen % 2 ^ 32) ++ leBytes 1 k ++ leBytes 3 0
    let s := s.flashErase (0x08012000 + 0x1000 * x) 4096
    let (n, s) := s.draw
    if Sys2Proof.Config.flashReadFails n then
      .reply stPoison [] (s.flashWrite (0x08012000 + 0x1000 * x) (leBytes 16 (Sys2Proof.Config.free n)))
    else
    let s := s.flashWrite (0x08012000 + 0x1000 * x) (text ++ leBytes 4 (crc105 text))
    let s := (List.range 17).foldl (fun s r => State.discardCommands s r stDiscardedReset) s
    .reply stOk [] (s.updBoot fun b => { b with activate := true })

def execFwActivate (r : Recip) (s : State) : Host.Outcome State Fault Refusal :=
  .next (s.runCommand r (· == 0x0907) bodyFwActivate)

end Sys2Proof.Machine
end

