-- ==== Sys2Proof/Machine/Commands.lean ====
section
/-!
DEFINITION. Machine/Commands.lean: what a started command that waits does when what it waits for has come, or its time
limit has (R46, R339, R342, R357, R359).
-/
namespace Sys2Proof.Machine

/-- The work of every opcode (Table 12-1). -/
def bodies : List (Nat × (CmdRec → CmdIn → State → CmdOut)) :=
  [(0x0001, bodyNop), (0x0002, bodyIdentify), (0x0003, bodyGetStatus), (0x0005, bodyReadTelemetry), (0x0101,
   bodyPartCreate), (0x0102, bodyPartGrant), (0x0103, bodyPartRevoke), (0x0104, bodyPartDestroy), (0x0105,
   bodyPartQuery), (0x0106, bodyOwnerEnroll), (0x0201, bodyLaneConfig)]
  ++ [(0x0202, bodyLaneState), (0x0203, bodyPartnerDefine), (0x0204, bodyDramDescribe), (0x0205, bodyEnvSet),
   (0x0206, bodyTimeSet), (0x0301, bodyMemWrite), (0x0302, bodyMemRead), (0x0303, bodyMemFill), (0x0304,
   bodyMemAtomic), (0x0401, bodyPersLoad), (0x0402, bodyPersUnload)]
  ++ [(0x0403, bodyCtxPin), (0x0404, bodyGraphStart), (0x0405, bodyGraphStop), (0x0501, bodyStreamOpen), (0x0502,
   bodyStreamClose), (0x0503, bodyStreamClassify), (0x0504, bodyStreamCreditSet), (0x0505, bodyMarkSet), (0x0506,
   bodyMarkAdvance), (0x0507, bodyStreamReplay), (0x0508, bodyStreamStats)]
  ++ [(0x0601, bodyTaskArm), (0x0602, bodyTaskCancel), (0x0603, bodyTaskSignal), (0x0604, bodyTaskQuery), (0x0605,
   bodyAgingSet), (0x0701, bodyLatencyToleranceSet), (0x0702, bodyPowerQuery), (0x0703, bodyPowerCapSet), (0x0801,
   bodyScrubRange), (0x0802, bodyPercolatorControl), (0x0803, bodyCuppingControl)]
  ++ [(0x0804, bodyFaultLogRead), (0x0805, bodyFaultInject), (0x0901, bodyAttest), (0x0902, bodyKeyLoad), (0x0903,
   bodyKeyDestroy), (0x0904, bodySessionRekey), (0x0905, bodyDebugUnlock), (0x0906, bodyFwUpdateStage), (0x0907,
   bodyFwActivate), (0x0A01, bodyEventSubscribe), (0x0A02, bodyEventAck)]

/-- The work of an opcode; nothing that has started has another. -/
def bodyOf (op : Nat) : CmdRec → CmdIn → State → CmdOut :=
  ((bodies.find? fun b => b.1 == op).map (·.2)).getD fun _ _ s => .reply stUnknownOpcode [] s

/-- HOST_READ_COMPLETION (R339, R342, R359): the answer to the `i`-th read that the port waits for: the entries of a
fetch, or the payload of a started command, which goes on in a slice of its owner on its core. -/
def execHostReadCompletion (n : Fin 4) (i : Fin 256) (data : List Byte) (err : Bool) (s : State) :
    Host.Outcome State Fault Refusal :=
  match (s.hostReads.filter fun h => h.port == n.val)[i.val]? with
  | none => .next s
  | some h =>
    let s' : State := { s with hostReads := s.hostReads.erase h }
    match h.fetch, h.payload with
    | some (x, r), _ => .next (s'.fetchDone h x r data err)
    | none, some c =>
      match s.running.find? fun x => x.cmd == c && x.wait == .payload with
      | none => .next s'
      | some x =>
        if !s.onCore c then .next s
        else
          let s' : State := if err then s'.hpStick n hpPcieErr else s'
          let s' : State := { s' with running := s'.running.erase x }
          .next (s'.finish c (bodyOf c.opcode c { payload := some (if err then none else some (padTo h.len data)) } s'))
    | none, none => .next s'

/-- REQUEST_TRANSLATE_RETRY (R46): the oldest started command of the recipient that waits at translation, and that can go
on in a slice of its core, does. -/
def execRequestTranslateRetry (r : Recip) (s : State) : Host.Outcome State Fault Refusal :=
  let waits := s.running.filter fun x => x.cmd.stamp == r.val && x.wait == .translate && s.onCore x.cmd
  let go (x : Running) : Option (Running × CmdOut) := s.firstMoved (bodyOf x.cmd.opcode) [x]
  match waits.findSome? go with
  | some (x, o) => .next (State.finish { s with running := s.running.erase x } x.cmd o)
  | none => .next s

/-- COMMAND_TIMEOUT (R348, R350, R357): the `i`-th started command of the recipient reaches its time limit. -/
def execCommandTimeout (r : Recip) (i : Fin 4096) (s : State) : Host.Outcome State Fault Refusal :=
  match (s.running.filter fun x => x.cmd.stamp == r.val)[i.val]? with
  | none => .next s
  | some x => .next (s.cut x stTimeout)

end Sys2Proof.Machine
end

