-- ==== Sys2Proof/Machine/Recovery.lean ====
section
/-!
DEFINITION. Machine/Recovery.lean: faults of the PARTITION and TILE classes and recovery from them (R441 to R446, R453).
-/
namespace Sys2Proof.Machine

def State.rec_ (s : State) (q : Nat) : Option Recovery := tget none s.recovery q
def State.setRec (s : State) (q : Nat) (r : Option Recovery) : State := { s with recovery := tset none s.recovery q r }

/-- The physical tiles of a partition. -/
def State.tilesOf (s : State) (q : Nat) : List Nat := (List.range 256).filter fun p => s.ownerOf p == q

/-- The task entries of a partition. -/
def State.tasksOf (s : State) (q : Nat) : List Nat := (s.tasks.filter fun e => e.2.st.owner == q).map (·.1)

/-! ## Phase 1 (Table 14-2, Table 03-12) -/

/-- Fills into a tile are cancelled and their slots are EMPTY; those of a wake from Cold, without which its sector is not
released (Table 03-7), are requested anew. A repair of Percolator's leaves its slot as it is. -/
def State.cancelFills (s : State) (p : Nat) : State :=
  s.updTile p fun t =>
    let all := t.fill.toList ++ t.fillQ ++ t.fillWait
    let keep (f : Fill) : Bool := f.who == .coldWake
    let slots := (all.filter fun f => !keep f).filterMap Fill.fillsHot
    { t with
      fill := none
      fillQ := (t.fill.toList ++ t.fillQ).filter keep |>.map fun f =>
        { f with src := .store f.golden, rowsLeft := [], bad := false, waits := false }
      fillWait := t.fillWait.filter keep
      hot := (all.filterMap Fill.fillsHot).foldl (fun v h => v.setIfInBounds h .empty) t.hot
      frameId := slots.foldl (fun ids h => tset none ids h none) t.frameId }

/-- What R444 makes of the tasks that are not IDLE: the task, and whether it becomes CANCELLED. -/
def State.taskFates (s : State) (q : Nat) : List (Nat × Bool) :=
  (s.tasksOf q).filterMap fun t =>
    let k := s.task t
    match k.state with
    | .idle => none
    | .cancelled => some (t, true)
    | .running => some (t, k.cancel)
    | _ => some (t, false)

/-- FLAGS of every task are cleared; a dispatch whose DONE is not on its way is aborted (R444). -/
def State.quietTasks (s : State) (q : Nat) : State :=
  (s.tasksOf q).foldl (fun s t =>
    let on := s.dones.any fun d => 2048 * d.sector + d.task == t
    State.updTask s t fun k =>
      { k with flags := 0, consumed := 0, lastCode := if k.state = .running ∧ !on then 3 else k.lastCode }) s

/-- The PARTITION_FAULT event (R461). -/
def State.faultEvent (s : State) (q index source object commands : Nat) : State :=
  s.raiseEvent q { code := 0x40, status := stDiscarded, object := q
                   data := leBytes 4 index ++ leBytes 2 source ++ leBytes 2 object ++ leBytes 4 commands }

/-- Recovery starts (R442, phase 1): the fault that `index` logs. -/
def State.startRecovery (s : State) (q : Nat) (f : FaultRec) (index : Nat) : State :=
  let commands := s.inFlight q
  let back := (s.part q).state
  let s := (s.updPart q fun p => { p with state := 3 }).abortMovesOf q
  let s := s.discardCommands q stDiscarded
  let ps := s.tilesOf q
  let r : Recovery :=
    { back := back, frames := f.frame.toList, tasks := s.taskFates q, unfenced := ps.filter fun p => !(s.tile p).fenceReq
      stopped := (s.streams.filter fun z => z.2.owner == q && !z.2.egress && z.2.state == 1).length }
  let s := ((s.quietTasks q).quiesce q stDiscarded).restartCarafe q
  let s := ps.foldl State.cancelFills s
  let s := ((s.streams.filter fun z => z.2.owner == q).map (·.1)).foldl State.stopStream s
  let s := (sectorsOf ps).foldl State.wakeSteep s
  (s.setRec q (some r)).faultEvent q index f.source (f.object % 2 ^ 16) commands

/-- A fault joins a recovery that runs (R446). -/
def Recovery.join (r : Recovery) (f : FaultRec) : Recovery :=
  { r with frames := r.frames ++ f.frame.toList, again := true, phase := if 4 ≤ r.phase then 3 else r.phase }

/-- A PARTITION or TILE fault is logged, and starts or joins the recovery of its partition, if that is CREATED, ENROLLED or
RECOVERING (R442). -/
def State.takeFault (s : State) (f : FaultRec) (detail : Nat) : State :=
  let q := f.part
  let index := s.logNext
  let joins := (s.rec_ q).isSome
  let s := s.logFault f.cls q (2 * bit f.injected + 4 * bit joins) f.source f.object detail f.addr
  match s.rec_ q with
  | some r => s.setRec q (some (r.join f))
  | none => if (s.part q).state = 1 ∨ (s.part q).state = 2 then s.startRecovery q f index else s

/-- PARTITION_FAULT (R441, R442, R446): the oldest fault of the partition that has been detected and not handled. -/
def execPartitionFault (q : PartIx) (s : State) : Host.Outcome State Fault Refusal :=
  match s.faults.find? fun f => f.cls == 2 && f.part == q.val with
  | none => .next s
  | some f => .next (State.takeFault { s with faults := s.faults.erase f } f f.detail)

/-! ## Hard-failed tiles (R453) -/

/-- A failed tile holds no logical tile any more. -/
def State.retire (s : State) (p : Nat) : State :=
  (s.setTm p { logical := 254, owner := 31 }).updSector (sectorOf p) fun x =>
    { x with cupFailed := x.cupFailed ||| (1#32 <<< indexOf p), noSpare := true }

/-- The sector's spare, while it is free. -/
def State.freeSpare (s : State) (n : Nat) : Option Nat :=
  let x := s.sector n
  let sp := posOf n x.cupSpare
  if !x.noSpare && (s.tm sp).logical == 255 && (s.tm sp).owner == 16 then some sp else none

/-- The fill that ran into a tile whose spare takes over counts as completed: its slot moves with the tile's other contexts
(Table 03-12). -/
def State.keepFill (s : State) (p : Nat) (run : Option Fill) : State :=
  match run.bind fun f => f.fillsHot.map fun h => (h, f.ctxId) with
  | some (h, id) => s.updTile p fun t => { t with frameId := tset none t.frameId h (some id) }
  | none => s

/-- TILE_FAULT (R441, R442, R453): the oldest hard failure that has been detected and not handled. The spare is taken; its
test or a migration onto it is given up; recovery makes it take over. -/
def execTileFault (s : State) : Host.Outcome State Fault Refusal :=
  match s.faults.find? fun f => f.cls == 3 with
  | none => .next s
  | some f =>
    let s : State := { s with faults := s.faults.erase f }
    let p := f.tile.getD 0
    let n := sectorOf p
    let q := s.ownerOf p
    let due := (s.rec_ q).any fun r => r.takeover.any fun x => x.1 == p
    if 15 < q then .next (s.logFault 5 q 0 f.source (s.tm p).logical f.detail f.addr)
    else if (s.part q).state = 0 ∨ (s.part q).state = 4 then .next ((s.logFault 3 q 0 f.source f.object f.detail f.addr).retire p)
    else if due then .next (s.takeFault { f with part := q } f.detail)
    else
      let s := s.abortMove n
      match s.freeSpare n with
      | none => .next ((s.takeFault { f with part := q } 3).retire p)
      | some sp =>
        let run := (s.tile p).fill
        let s := s.takeFault { f with part := q } f.detail
        let s := s.keepFill p run
        let s := s.updSector n fun x => { x with noSpare := true, cupPhase := 3 }
        .next (s.setRec q ((s.rec_ q).map fun r => { r with takeover := r.takeover ++ [(p, sp)] }))

/-- The spare takes over from the failed tile (R93, R453): its frames are to be filled as the dispatcher's record shows. -/
def State.takeOver (s : State) (q p sp : Nat) : State :=
  let e := s.tm p
  let t := s.tile p
  let s := (s.setTm sp { logical := e.logical, owner := q }).retire p
  let s := s.updTile sp fun x => { x with frameId := t.frameId, pin := t.pin, named := [], zres := 0 }
  let s := s.updSector (sectorOf p) fun x => { x with cupPhase := 0 }
  let held := t.frameId.filterMap fun e => e.2.map fun id => (sp, e.1, id)
  s.setRec q ((s.rec_ q).map fun r =>
    { r with
      frames := (r.frames.filter fun f => f.1 != p) ++ held
      unfenced := r.unfenced.map fun x => if x = p then sp else x
      takeover := r.takeover.erase (p, sp), taken := sp :: r.taken })

/-- One takeover that is due goes as far as it can: the spare is zeroized first, if it has not been; one that fails is
failed itself. -/
def State.takeOverStep (s : State) (q : Nat) (x : Nat × Nat) : State :=
  let t := s.tile x.2
  if t.zeroizing then s
  else if t.zres = 2 then s.takeOver q x.1 x.2
  else if t.zres = 3 then
    ((((s.retire x.1).retire x.2).updSector (sectorOf x.1) fun y => { y with cupPhase := 0 }).setRec q
      ((s.rec_ q).map fun r => { r with takeover := r.takeover.erase x }))
  else s.startZero x.2

/-! ## Phases 2 and 3 -/

/-- Words toward and from a tile that recovery discards (Table 14-3). -/
def State.dropHeld (s : State) (p : Nat) : State :=
  let s := s.dropWords p
  match s.homeOf p with
  | none => s
  | some home => ((List.range 128).filter fun e => edgeHome (e / 64) (e % 64 / 4) == home).foldl (fun s e =>
      State.updLink s (edgeOut (e / 64) (e % 64 / 4) (e % 4)) fun k => { k with flight := [], held := [] }) s

/-- A tag that the partition held at detection has not been freed (R293). -/
def State.oldTags (s : State) (q : Nat) : Bool :=
  s.mesh.txns.any fun t => t.part == q && !t.purpose.exempt && t.epoch != s.epochOf q

/-- Frames of the partition's tiles in Brew that hold a context and fail their check. -/
def State.damaged (s : State) (q : Nat) : List (Nat × Nat × Nat) :=
  ((s.tilesOf q).filter s.awake).flatMap fun p =>
    let t := s.tile p
    t.frameId.filterMap fun e => match e.2 with
      | some id => if (16 ≤ e.1 || t.hotAt e.1 == .valid) && !s.mem.frameCrcOk p e.1 then some (p, e.1, id) else none
      | none => none

/-- The static fields of the partition's task entries are rewritten from Barista's image (R188, R442 phase 3). DESIGN CHOICE
(log entry 89): an image with an uncorrectable word leaves its entry as it is. -/
def State.restoreTasks (s : State) (q : Nat) : State :=
  ((s.tasks.filter fun e => e.2.imaged && e.2.st.owner == q).map (·.1)).foldl (fun s t =>
    match State.takeImage s t with
    | (some x, s) => s.updTask t fun k => { k with st := x }
    | (none, s) => s) s

/-- RECOVERY_CHECK (R442, phases 2 and 3): held words go; once takeovers are made, sectors in Steep awake, wakes from Cold
complete and old tags free, frames are checked and task entries restored. -/
def execRecoveryCheck (q : PartIx) (s : State) : Host.Outcome State Fault Refusal :=
  match s.rec_ q with
  | none => .next s
  | some r =>
    if r.phase = 2 then .next (((s.tilesOf q).foldl State.dropHeld s).setRec q (some { r with phase := 3 }))
    else if r.phase ≠ 3 then .next s
    else if r.takeover ≠ [] then .next (r.takeover.foldl (fun s x => State.takeOverStep s q x) s)
    else
      let ns := sectorsOf (s.tilesOf q)
      let asleep := ns.any fun n =>
        let x := s.sector n
        (x.pstate == .steep && !x.committed) || (x.pstate == .cold && x.waking)
      if asleep ∨ s.oldTags q then .next (ns.foldl State.wakeSteep s)
      else
        let frames := (r.frames ++ s.damaged q).eraseDups
        .next ((s.restoreTasks q).setRec q (some { r with phase := 4, frames := frames }))

/-! ## Phases 4 and 5 -/

/-- A tile has a fill of recovery's, or of a takeover's, that has not ended. -/
def Tile.recovering (t : Tile) : Bool :=
  (t.fill.toList ++ t.fillQ ++ t.fillWait).any fun f => f.who == .recovery || f.who == .cupping

/-- The requester of a refill of recovery: Cupping for a tile that has taken over (R111, R453). -/
def Recovery.requester (r : Recovery) (p : Nat) : FillWho := if r.taken.contains p then .cupping else .recovery

/-- RECOVERY_REFILL (R442, phase 4): the refills are requested; it ends when they have. -/
def execRecoveryRefill (q : PartIx) (s : State) : Host.Outcome State Fault Refusal :=
  match s.rec_ q with
  | none => .next s
  | some r =>
    if r.phase ≠ 4 then .next s
    else if r.frames ≠ [] then
      let fs := r.frames.filter fun f => s.ownerOf f.1 == q.val && s.awake f.1
      let s := fs.foldl (fun s f => State.refill s f.1 f.2.1 f.2.2 (r.requester f.1)) s
      .next (s.setRec q (some { r with frames := [], refilled := r.refilled + fs.length }))
    else if (s.tilesOf q).any fun p => (s.tile p).recovering then
      .next ((sectorsOf ((s.tilesOf q).filter fun p => (s.tile p).recovering)).foldl State.wakeSteep s)
    else .next (s.setRec q (some { r with phase := 5 }))

/-- The partition holds a read slot and a write slot in every DRAM channel, and a mesh slot at every router (R443). -/
def State.slotsFor (s : State) (q : Nat) : Bool :=
  let has (c : Nat) (isWrite : Bool) : Bool := (List.range 64).any fun i =>
    let b := (s.mem.ctlOf c).slotAt i
    slotOwner (b &&& 0x1F#8) == some q && b.getLsbD 7 == isWrite
  (List.range 12).all (fun c => has c false && has c true) &&
    (List.range 64).all fun r => (List.range 64).any fun i => slotOwner ((s.router r).slotAt i) == some q

/-- A task of the partition takes its state of R444. -/
def Task.resume (k : Task) (fate : Option Bool) : Task :=
  { k with
    state := match fate with
      | none => .idle
      | some true => .cancelled
      | some false => .armed
    resid := 0, age := 0, urgent := false, cancel := false }

/-- RECOVERY_RESUME (R409, R442 phase 5, R443, R444, R461). The recovery's time is a free value. -/
def execRecoveryResume (q : PartIx) (s : State) : Host.Outcome State Fault Refusal :=
  match s.rec_ q with
  | none => .next s
  | some r =>
    if r.phase ≠ 5 then .next s
    else
      let mine (d : Done) : Bool := (s.task (2048 * d.sector + d.task)).st.owner == q.val
      let late := r.again || !s.slotsFor q || decide (64 < r.refilled)
      let s := (s.dones.filter mine).foldl (fun s d => State.updTask s (2048 * d.sector + d.task) fun k => { k with lastCode := d.code }) s
      let s : State := { s with dones := s.dones.filter fun d => !mine d }
      let s := (s.tasksOf q).foldl (fun s t =>
        State.updTask s t fun k => k.resume ((r.tasks.find? fun x => x.1 == t).map (·.2))) s
      let s := (s.setRec q none).updPart q fun p => { p with state := r.back }
      let s := (r.unfenced.filter fun p => s.ownerOf p == q.val).foldl State.dropFence s
      let (n, s) := s.draw
      let ns := Sys2Proof.Config.free n % 2 ^ 32
      let index := s.logNext
      let s := s.logFault 2 q (bit late) 0x40 0 ns 0
      .next (s.raiseEvent q { code := 0x41, object := q
                              data := leBytes 4 index ++ leBytes 4 ns ++ leBytes 2 r.refilled ++ leBytes 2 r.stopped })

end Sys2Proof.Machine
end

