-- ==== Sys2Proof/Machine/Integrity.lean ====
section
/-!
DEFINITION. Machine/Integrity.lean: Percolator (R447 to R449), Cupping (R95, R450 to R452), upsets (R98).
-/
namespace Sys2Proof.Machine

/-! ## Percolator -/

/-- Frame `f` of tile `p` is one that Percolator reads (R447). -/
def State.visits (s : State) (p f : Nat) : Bool :=
  s.allocated p && s.awake p && (decide (16 ≤ f) || (s.tile p).hotAt f == .valid)

/-- Words of a frame whose syndrome is not 0, or all of them when there are none (R448). -/
def Memory.upsetWords (m : Memory) (p f : Nat) : List Nat :=
  let ws := (List.range 256).filter fun w => m.synOf (ctxBase p f + 4 * w) != 0
  if ws = [] then List.range 256 else ws

/-- The essential-bit map entry of a context, as the context store holds it (R100). -/
def State.mapEntry (s : State) (q id : Nat) : List Byte × State :=
  let d := (s.mem.reservedBase q).getD 0
  let (bs, s) := s.dramBytes (d + 16 * 2 ^ 20 + (s.goldenOf q id - d) / 1024 * 32) 32
  (bs.map (·.1), s)

/-- A golden copy fails (R117, R448). -/
def State.goldenBad (s : State) (p f id : Nat) : State :=
  s.raiseFault { cls := 2, part := s.ownerOf p, source := 2, object := (s.tm p).logical, detail := f, frame := some (p, f, id) }

/-- A frame's CRC has failed (R448). -/
def State.frameUpset (s : State) (p f : Nat) : State :=
  let q := s.ownerOf p
  let ws := s.mem.upsetWords p f
  match tget none (s.tile p).frameId f with
  | none => s.goldenBad p f 0
  | some id =>
    if s.goldenOf q id = 0 then s.goldenBad p f id
    else
      let (map, s) := if f < 16 then s.mapEntry q id else ([], s)
      if ws.any fun w => (map.getD (w / 8) 0).getLsbD (w % 8) then
        { s with perc := { s.perc with essential := s.perc.essential + 1 } }.raiseFault
          { cls := 2, part := q, source := 1, object := (s.tm p).logical, detail := 256 * f + ws.headD 0, frame := some (p, f, id) }
      else s.requestFill p { s.refillOf p f id .percolator with words := ws }

/-- One visit of a frame. -/
def State.visit (s : State) (p f : Nat) : State :=
  if !s.visits p f ∨ s.mem.frameCrcOk p f then s else s.frameUpset p f

/-- The pass goes on to the next frame, or with `whole` to the next tile. -/
def Percolator.advance (w : Percolator) (whole : Bool) : Percolator :=
  if !whole ∧ w.frame < 63 then { w with frame := w.frame + 1 }
  else if w.tile < 255 then { w with tile := w.tile + 1, frame := 0 }
  else { w with tile := 0, frame := 0, passes := w.passes + 1 }

/-- PERCOLATOR_FRAME_CHECK (R447, R448): one frame is visited; a tile that migrates is passed over and visited
afterwards. -/
def execPercolatorFrameCheck (s : State) : Host.Outcome State Fault Refusal :=
  let w := s.perc
  if w.status ≠ 0 then .next s
  else match w.later.find? fun e => !(s.tm e.1).migrating with
  | some (p, f) =>
    let rest := w.later.erase (p, f)
    let w := { w with later := if f < 63 then (p, f + 1) :: rest else rest }
    .next (State.visit { s with perc := w } p f)
  | none =>
    if (s.tm w.tile).migrating then .next { s with perc := { w with later := w.later ++ [(w.tile, w.frame)] }.advance true }
    else .next (State.visit { s with perc := w.advance false } w.tile w.frame)

/-- The golden copy of a silent repair has been read whole: the upset words of its frame are rewritten in place, if the frame
still holds the context that was found. -/
def State.rewrite (s : State) (p : Nat) (f : Fill) : State :=
  let x := f.hot.getD (f.cache.getD 0)
  let s := s.updTile p fun t => { t with fill := none }
  if !s.visits p x ∨ tget none (s.tile p).frameId x ≠ some f.ctxId then s
  else
    let s := f.words.foldl (fun s w => State.writeWord s (ctxBase p x + 4 * w) (f.golden256.getD w 0) false) s
    { s with perc := { s.perc with silent := s.perc.silent + 1 } }

/-- PERCOLATOR_REPAIR (R111, R112, R448): the oldest silent repair whose golden copy the fill unit has read. -/
def execPercolatorRepair (s : State) : Host.Outcome State Fault Refusal :=
  match s.perc.repairs with
  | [] => .next s
  | p :: rest =>
    let s : State := { s with perc := { s.perc with repairs := rest } }
    match (s.tile p).fill with
    | some f => .next (if f.who = .percolator ∧ f.rowsLeft = [] ∧ !f.waits then s.rewrite p f else s)
    | none => .next s

/-- Word `i` of a latch copy, as its difference from ROM. -/
def latchWord (c : BitVec 256) (i : Nat) : BitVec 16 := c.extractLsb' (16 * i) 16
/-- The word carries correct parity. -/
def evenWord (w : BitVec 16) : Bool := ((List.range 16).filter w.getLsbD).length % 2 == 0

/-- What the vote finds for word `i`: 0 agreement, 1 to 3 the odd copy, 4 beyond correction. -/
def voteWord (copies : Vector (BitVec 256) 3) (i : Nat) : Nat :=
  let a := latchWord copies[0] i
  let b := latchWord copies[1] i
  let d := latchWord copies[2] i
  if a = b ∧ b = d then 0
  else if a = b ∧ evenWord a then 3
  else if a = d ∧ evenWord a then 2
  else if b = d ∧ evenWord b then 1
  else 4

/-- Word `i` of a copy is replaced. -/
def putLatch (c : BitVec 256) (i : Nat) (w : BitVec 16) : BitVec 256 :=
  c ^^^ (((latchWord c i ^^^ w).zeroExtend 256) <<< (16 * i))

/-- PERCOLATOR_LATCH_VOTE (R449): the three copies are compared word by word; `rom` says that ROM parity failed. -/
def execPercolatorLatchVote (rom : Bool) (s : State) : Host.Outcome State Fault Refusal :=
  let c := s.perc.copies
  let votes := (List.range 16).map (voteWord c)
  if s.perc.status ≠ 0 then .next s
  else if rom then
    .next ({ s with perc := { s.perc with status := 1, romPar := true } }.sysFault 0x21 0 2)
  else if votes.contains 4 then
    .next ({ s with perc := { s.perc with status := 1, voteFail := true } }.sysFault 0x21 0 1)
  else
    .next ((List.range 16).foldl (fun s i =>
      let v := votes.getD i 0
      if v = 0 then s
      else
        let w : Percolator := s.perc
        let good := latchWord (if v = 1 then w.copies[1] else w.copies[0]) i
        State.sysFault { s with perc :=
          { w with copies := w.copies.setIfInBounds (v - 1) (putLatch (w.copies.toList.getD (v - 1) 0) i good)
                   latchRepairs := w.latchRepairs + 1 } } 0x20 0 i) s)

/-! ## Cupping -/

/-- CUPPING_STEP (R450): the sector's step starts with the test of its spare. -/
def execCuppingStep (n : SecIx) (s : State) : Host.Outcome State Fault Refusal :=
  let x := s.sector n
  let sp := posOf n x.cupSpare
  if !s.cupEn ∨ !s.boot.ready ∨ x.pstate ≠ .brew ∨ x.noSpare ∨ x.cupPhase ≠ 0 ∨ x.cupMove.isSome ∨ (s.tile sp).zeroizing then .next s
  else .next (s.updSector n fun x => { x with cupPhase := 1 })

/-- In-sector index of the candidate: the next live tile from the one noted, wrapping. -/
def State.candidate (s : State) (n : Nat) : Option Nat :=
  ((List.range 32).map fun i => ((s.sector n).cupNext + i) % 32).find? fun i => decide ((s.tm (posOf n i)).logical < 248)

/-- The owner of a tile allows its migration (R450). -/
def State.mayMove (s : State) (p : Nat) : Bool :=
  let q := s.ownerOf p
  q == 31 || (decide (q < 16) && decide (6000 ≤ (s.part q).tol) && (s.part q).state != 3 && (s.part q).state != 4)

/-- The step's migration is asked for: the tile is to yield, and its fence is Cupping's unless it has one. -/
def State.askMove (s : State) (n p sp : Nat) : State :=
  let own := !(s.tile p).fenceReq
  let s := if own then s.requestFence p else s
  s.updSector n fun x => { x with cupMove := some (p, sp), cupFence := own }

/-- SPARE_TEST_DONE (R450, R452): a spare that passed has been zeroized, and the next candidate is taken; one that failed
is failed. -/
def execSpareTestDone (n : SecIx) (ok : Bool) (s : State) : Host.Outcome State Fault Refusal :=
  let x := s.sector n
  let sp := posOf n x.cupSpare
  if x.cupPhase ≠ 1 ∨ x.pstate ≠ .brew then .next s
  else if !ok then
    .next (((s.retire sp).updSector n fun y => { y with cupPhase := 0, cupSteps := y.cupSteps + 1 }).sysFault 0x30 n (indexOf sp))
  else
    let s := (s.zeroizeTile sp).updTile sp fun t => { t with zres := 2 }
    match s.candidate n with
    | none => .next (s.updSector n fun y => { y with cupPhase := 0, cupSteps := y.cupSteps + 1 })
    | some i =>
      let p := posOf n i
      let s := s.updSector n fun y => { y with cupPhase := 0, cupNext := (i + 1) % 32 }
      if s.mayMove p then .next (s.askMove n p sp)
      else .next (s.updSector n fun y => { y with cupSkips := y.cupSkips + 1, cupSteps := y.cupSteps + 1 })

/-- CUPPING_MIGRATION (R95, R451): the tile has yielded and stands fenced; MIGRATING is set on both tiles. -/
def execCuppingMigration (n : SecIx) (s : State) : Host.Outcome State Fault Refusal :=
  let x := s.sector n
  match x.cupMove with
  | none => .next s
  | some (p, sp) =>
    let t := s.tile p
    if x.cupPhase ≠ 0 ∨ x.pstate ≠ .brew ∨ !t.fenced ∨ t.seq ≠ .off ∨ t.zeroizing ∨ s.grants.any (fun g => g.1 == p) then .next s
    else
      let mark (s : State) (p : Nat) : State := s.setTm p { s.tm p with migrating := true }
      .next ((mark (mark s p) sp).updSector n fun y => { y with cupPhase := 2 })

/-- The place in tile `sp` of a byte of tile `p`. -/
def movedAddr (sp a : Nat) : Nat :=
  match areaOf a with
  | .data _ => dataBase sp + a % 0x40000
  | .tap _ => tapBase sp 0 + (a - 0x04000000) % 0x4000
  | .ctx _ => ctxBase sp 0 + a % 0x10000
  | _ => a

/-- An address lies in the memories of a tile. -/
def inTile (p a : Nat) : Bool :=
  match areaOf a with
  | .data x | .tap x | .ctx x => x == p
  | _ => false

/-- The copy of a migration (R451): corrected words corrected, poisoned words poisoned, uncorrectable ones poisoned and
logged. -/
def State.copyTile (s : State) (p sp : Nat) : State :=
  let m := s.mem
  let s := s.setMem ((m.cells.filter fun e => inTile p e.1).foldl (fun k e => Memory.setByte k (movedAddr sp e.1) e.2) (m.clearTile sp))
  (m.syn.filter fun e => inTile p (4 * e.1)).foldl (fun s e =>
    let a := 4 * e.1
    let fresh := (s.mem.read a).2 == .uncorrectable
    let (d, bad, s) := State.readWord s a
    let s := State.writeWord s (movedAddr sp a) d bad
    if fresh then s.unreqUncorr (s.ownerOf p) 2 a else s) s

/-- What a tile takes over from another in a migration (R95): hot-slot state, queues and pointers, requests for fills and
what the dispatcher knows of it; its own status registers stay. -/
def Tile.moveFrom (t x : Tile) : Tile :=
  { t with
    deq := Vector.ofFn fun k => { x.deq[k] with underruns := t.deq[k].underruns }
    hotSlot := x.hotSlot, hot := x.hot, pin := x.pin, frameId := x.frameId, named := x.named, fillQ := x.fillQ, fillWait := x.fillWait
    fenced := true, fenceReq := x.fenceReq, seq := .off, zres := 0
    heldWrites := [] }

/-- What is left of a tile whose contents have moved away: an unused spare. -/
def Tile.vacated (t : Tile) : Tile :=
  { t with
    deq := t.deq.map fun d => { underruns := d.underruns }
    hotSlot := 0, hot := Vector.replicate 16 .empty, pin := [], frameId := [], named := [], fillQ := [], fillWait := []
    heldWrites := [], fenced := true, fenceReq := true, zres := 0 }

/-- MIGRATION_DONE (R95, R450, R451): the copy is complete once no fill runs in the tile; the LOGICAL fields change places,
steering switches, and the fence falls. The time from fence to release is a free value of at most 5 µs. -/
def execMigrationDone (n : SecIx) (s : State) : Host.Outcome State Fault Refusal :=
  let x := s.sector n
  match x.cupMove with
  | none => .next s
  | some (p, sp) =>
    let t := s.tile p
    if x.cupPhase ≠ 2 ∨ x.pstate ≠ .brew ∨ t.fill.isSome ∨ !t.heldWrites.isEmpty then .next s
    else
      let e := s.tm p
      let s := s.copyTile p sp
      let s := (s.updTile sp fun y => y.moveFrom t).updTile p Tile.vacated
      let s := (s.setTm sp { e with migrating := false }).setTm p { logical := 255, owner := 16 }
      let (k, s) := s.draw
      let s := s.updSector n fun y =>
        { y with cupPhase := 0, cupMove := none, cupFence := false, cupSpare := indexOf p, cupSteps := y.cupSteps + 1
                 cupLastNs := BitVec.ofNat 32 (Sys2Proof.Config.free k % 5001) }
      .next (if x.cupFence then s.dropFence sp else s)

/-! ## Upsets -/

/-- UPSET (R98, R300, R449): a stored bit flips of itself; one that no memory holds is a fault. -/
def execUpset (u : UpsetAt) (s : State) : Host.Outcome State Fault Refusal :=
  match u with
  | .sram a b =>
    if (areaOf a.toNat).sram && decide (b < 39) then .next (s.setMem (s.mem.flip (a.toNat / 4 * 4) b)) else .fault .noSuchBit
  | .dram a b =>
    if areaOf a.toNat == .dram && decide (a.toNat - dramBase < s.mem.capacity) && decide (b < 576) then .next (s.flipLine a.toNat b)
    else .fault .noSuchBit
  | .latch k b =>
    if k < 3 ∧ b < 256 then
      let w := s.perc
      .next { s with perc := { w with copies := w.copies.setIfInBounds k ((w.copies.toList.getD k 0) ^^^ BitVec.ofNat 256 (2 ^ b)) } }
    else .fault .noSuchBit

end Sys2Proof.Machine
end

