-- ==== Sys2Proof/Machine/CsrSector.lean ====
section
/-!
DEFINITION. Machine/CsrSector.lean: the registers of a sector control block (Table 01-6): power block (Table 15-7), task
entries (Table 06-1), stream sets, signal map and timers (Table 06-5), dispatcher (Table 06-11), tile status
(Table 02-17), context control (Table 03-9), MAC status (Table 04-14) and channel status (Table 05-5).
A read function gives a register's value, `none` for a hole. A write function takes the bits written as 1 (`v`) and the
register's value with the written bytes replaced (`n`), and changes nothing where the register is RO (R14, R16).
-/
namespace Sys2Proof.Machine

def word (n : Nat) : Word := BitVec.ofNat 32 n

/-! ## Tile blocks -/

def SeqState.code : SeqState → Nat
  | .off => 0 | .ask => 1 | .load => 2 | .run => 3 | .drain => 4

/-- TILE_STATE (Table 02-18). -/
def Tile.stateReg (t : Tile) : Word :=
  word (bit t.fenced * 2 ^ 31 + t.seq.code * 2 ^ 28 + t.hotSlot % 16 * 2 ^ 24 + t.grant.task % 2048 * 2 ^ 11 + t.lastCode % 8 * 2 ^ 8)

/-- Tile status block (Table 02-17). -/
def State.tileReg (s : State) (p o : Nat) : Word :=
  let t := s.tile p
  if o = 0 then word (sectorOf p * 2 ^ 16 + p / 16 * 2 ^ 12 + p % 16 * 2 ^ 8 + indexOf p)
  else if o = 4 then t.stateReg
  else if o = 8 then t.sticky
  else if o = 0xC then word t.batchCount
  else if o = 0x10 then t.dispatches
  else if o = 0x14 then t.aborts
  else 0

def State.setTileReg (s : State) (p o : Nat) (v : Word) : State :=
  if o = 8 then s.updTile p fun t => { t with sticky := t.sticky &&& ~~~v } else s

/-- CTX_STATE (Table 03-10). -/
def Tile.ctxState (t : Tile) : Word :=
  word (bitsOf (fun h => t.hot.toList.getD h .empty == .valid) 16 * 2 ^ 16 + bit t.fill.isSome * 2 ^ 15 + t.fillSlot % 16 * 2 ^ 11
    + bit t.fillStore * 2 ^ 10 + t.fillQ.length % 4 * 2 ^ 8 + t.zres.toNat)

/-- CTX_ID of a hot slot as HOT_ID shows it: its header's (Table 03-3), and 0 unless the slot is VALID. -/
def State.hotId (s : State) (p h : Nat) : Nat := if (s.tile p).hotAt h = .valid then s.mem.ctxId p h else 0

/-- Context control block (Table 03-9). -/
def State.ctxReg (s : State) (p o : Nat) : Word :=
  let t := s.tile p
  if o = 0 then t.ctxState
  else if o = 4 then word (bit t.fenceReq + 2 * bit t.zeroizing)
  else if o = 8 then t.fillCount
  else if o = 0xC then t.fillRepairs
  else if 0x20 ≤ o ∧ o < 0x40 then
    (let m := (o - 0x20) / 4; word (s.hotId p (2 * m + 1) * 2 ^ 16 + s.hotId p (2 * m)))
  else 0

/-- A write of CTX_CTRL.ZEROIZE = 1 (R128, R130). -/
def State.startZeroize (s : State) (p : Nat) : State :=
  if (s.tile p).fenced then (s.zeroizeTile p).updTile p fun t => { t with zeroizing := true, zres := 1 }
  else s.configRefused (ctxOffset p 4)

/-- CTX_CTRL: FENCE as written (R126), then ZEROIZE (R128). -/
def State.setCtxReg (s : State) (p o : Nat) (v n : Word) : State :=
  if o = 4 then
    let f := n.getLsbD 0
    let s := if f then s.requestFence p else s.dropFence p
    if v.getLsbD 1 then s.startZeroize p else s
  else s

/-- MAC_RUN (Table 04-16). A unit stalled in the last cycle when it was stolen from, or when it goes on in RUN or DRAIN and
does not issue. -/
def State.macRun (s : State) (p : Nat) : Word :=
  let m := (s.tile p).mac
  let runs (u : Fin 4) : Bool := s.macOn p u && !m[u].stopped && !m[u].halted
  word ((List.finRange 4).foldl (fun w u =>
    w + bit (m[u].stalled || (runs u && ((s.tile p).seq == .run || (s.tile p).seq == .drain) && s.moving p && !s.yieldDue p
          && !s.macStops p u && !s.inClosed p u && !s.macIssues p u)) * 2 ^ (20 + u.val)
      + bit (runs u) * 2 ^ (16 + u.val) + m[u].pc.toNat * 2 ^ (4 * u.val)) 0)

/-- MAC status block (Table 04-14). -/
def State.macReg (s : State) (p o : Nat) : Word :=
  let t := s.tile p
  if o = 0 then t.macLost
  else if o = 4 then t.macSat
  else if o = 8 then t.macSticky
  else if o = 0xC then s.macRun p
  else if o = 0x10 then t.steals
  else 0

def State.setMacReg (s : State) (p o : Nat) (v : Word) : State :=
  if o = 0 then s.updTile p fun t => { t with macLost := t.macLost &&& ~~~v }
  else if o = 4 then s.updTile p fun t => { t with macSat := t.macSat &&& ~~~v }
  else if o = 8 then s.updTile p fun t => { t with macSticky := t.macSticky &&& ~~~v }
  else s

/-- DEQ_STATE_k (Table 05-6). -/
def State.deqState (s : State) (p : Nat) (k : Fin 4) : Word :=
  let d := (s.tile p).deq[k]
  word (bit (d.depth == 0) * 2 ^ 31 + bit (d.depth == d.geom.cap) * 2 ^ 30 + bit d.isOpen * 2 ^ 29 + bit (s.deqCtl p k).en * 2 ^ 28
    + bit d.held.isSome * 2 ^ 27 + d.depth % 8192)

/-- LINK_DEPTH_j (Table 05-8): of the home position that the tile holds; a spare reads 0. DESIGN CHOICE (log entry 87): BOUNDARY
and ABSENT say what the link is at reset already, where the table prints 0. -/
def State.linkDepth (s : State) (p j : Nat) : Word :=
  match s.homeOf p with
  | none => 0
  | some h =>
    if (outLink h j).isNone then word (2 ^ 30)
    else word (bit (linkBoundary (linkId h j)) * 2 ^ 31 + (s.link (linkId h j)).held.length % 64)

/-- Channel status block (Table 05-5), but for what a read of DEQ_POP_k returns, which `State.deqPop` gives. -/
def State.chanReg (s : State) (p o : Nat) : Word :=
  if o < 0x80 then
    let k : Fin 4 := Fin.ofNat 4 (o / 0x20)
    let d := (s.tile p).deq[k]
    let r := o % 0x20
    if r = 0 then s.deqState p k
    else if r = 4 then 0
    else if r = 8 then d.popFlags
    else if r = 0xC then d.popped.data
    else if r = 0x10 then d.underruns
    else 0
  else if o < 0xD0 then s.linkDepth p ((o - 0x80) / 4)
  else 0

/-! ## The dispatcher -/

/-- The register of a task entry (Table 06-1). -/
def Task.reg (k : Task) (o : Nat) : Word :=
  if o = 0 then k.flags
  else if o = 8 then k.st.mask
  else if o = 0xC then k.st.ctrl
  else if o = 0x10 then k.status
  else if o = 0x14 then k.resid ++ k.st.batch
  else if o = 0x18 then k.st.stream.setWidth 32
  else if o = 0x1C then k.st.ctxId ++ (0 : BitVec 16)
  else if o = 0x20 then k.st.storeLo
  else if o = 0x24 then k.st.storeHi.setWidth 32
  else if o = 0x28 then k.st.eligible.setWidth 32
  else if o = 0x2C then k.st.notify
  else if o = 0x30 then k.grants
  else 0

/-- The static fields with one register written (Tables 06-1, 06-2). -/
def TaskStatic.write (x : TaskStatic) (o : Nat) (n : Word) : TaskStatic :=
  if o = 8 then { x with mask := n }
  else if o = 0xC then { x with ctrl := n &&& 0x1FFC0000#32 }
  else if o = 0x14 then { x with batch := n.setWidth 16 }
  else if o = 0x18 then { x with stream := n.setWidth 13 }
  else if o = 0x1C then { x with ctxId := (n >>> 16).setWidth 16 }
  else if o = 0x20 then { x with storeLo := n &&& 0xFFFFFC00#32 }
  else if o = 0x24 then { x with storeHi := n.setWidth 16 }
  else if o = 0x28 then { x with eligible := n.setWidth 31 }
  else if o = 0x2C then { x with notify := n &&& 0xBFFF1F00#32 }
  else x

/-- The offset holds static fields (R188). -/
def taskStaticAt (o : Nat) : Bool := o == 8 || o == 0xC || (decide (0x14 ≤ o) && decide (o ≤ 0x2C))

/-- A write to a task entry: a static field is written only in IDLE or CANCELLED, with Barista's image; otherwise the
write is discarded and logged (R188). SET_TASK = 1 with MODE = ALL is stored and logged (R198). -/
def State.setTaskReg (s : State) (t o : Nat) (v n : Word) : State :=
  let off := 0x40000 + 0x40 * (t % 2048) + o
  let k := s.task t
  if o = 0 then s.updTask t fun k => { k with flags := k.flags &&& ~~~v }
  else if o = 4 then s.setFlags t v
  else if taskStaticAt o then
    if k.state = .idle ∨ k.state = .cancelled then
      let s := s.setStatic t (k.st.write o n)
      if o = 0xC then s.checkMode t else s
    else s.configRefused off
  else s

/-- Stream sets, signal map and timers (Table 06-5), from offset 0x6_0000. -/
def Sector.mapReg (x : Sector) (o : Nat) : Word :=
  if o < 0x4000 then tget 0 x.setent (o / 2 + 1) ++ tget 0 x.setent (o / 2)
  else if o < 0x41F0 then tget 0 x.sigmap ((o - 0x4000) / 4)
  else if 0x5000 ≤ o ∧ o < 0x5080 then
    let t := tget {} x.timers ((o - 0x5000) / 8)
    if o % 8 = 0 then t.cfg else t.tgt
  else 0

/-- A timer's count starts at 0 when EN is written to 1 (R191). -/
def Sector.setMapReg (x : Sector) (o : Nat) (n : Word) : Sector :=
  if o < 0x4000 then
    { x with setent := tset 0 (tset 0 x.setent (o / 2) (n.setWidth 16 &&& 0x9FFF#16)) (o / 2 + 1) ((n >>> 16).setWidth 16 &&& 0x9FFF#16) }
  else if o < 0x41F0 then { x with sigmap := tset 0 x.sigmap ((o - 0x4000) / 4) (n &&& 0x800007FF#32) }
  else if 0x5000 ≤ o ∧ o < 0x5080 then
    let i := (o - 0x5000) / 8
    let t := tget {} x.timers i
    let t' : Timer :=
      if o % 8 = 0 then { t with cfg := n &&& 0xC000FFFF#32, count := if n.msb then 0 else t.count }
      else { t with tgt := n &&& 0x001F07FF#32 }
    { x with timers := tset {} x.timers i t' }
  else x

/-- Dispatcher registers (Table 06-11), from offset 0x7_0000. -/
def State.dispReg (s : State) (n o : Nat) : Word :=
  let x := s.sector n
  if o = 0 then x.dispCtrl
  else if o = 4 then
    word (bitsOf (fun i => match s.tileOfLogical (31 * n + i) with
      | some p => (s.tile p).seq == .ask
      | none => false) 31)
  else if o = 8 then word ((s.tasks.filter fun e => e.1 / 2048 == n && e.2.state == .ready).length % 4096)
  else if o = 0xC then x.agePhase.setWidth 32
  else if o = 0x10 then x.grants
  else if o = 0x14 then x.prefetches
  else if o = 0x18 then x.dropped
  else if 0x40 ≤ o ∧ o < 0x80 then (tget 0 x.urg ((o - 0x40) / 4)).setWidth 32
  else 0

def Sector.setDispReg (x : Sector) (o : Nat) (n : Word) : Sector :=
  if o = 0 then { x with dispCtrl := n &&& 1 }
  else if 0x40 ≤ o ∧ o < 0x80 then { x with urg := tset 0 x.urg ((o - 0x40) / 4) (n.setWidth 8) }
  else x

/-! ## The power block -/

/-- SEC_LIMIT (Table 15-7): the ceilings at which f stands. 0 until boot is complete, while every ceiling is held. -/
def State.secLimit (s : State) (n : Nat) : Nat :=
  let x := s.sector n
  if !s.boot.ready then 0
  else bit (x.clk == s.power.p) + 2 * bit (x.clk == x.limit && x.limitBy.testBit 0)
    + 4 * bit (x.clk == x.limit && x.limitBy.testBit 1) + 8 * bit (x.clk == x.clkMax)

/-- Sector power block (Table 15-7). -/
def State.secReg (s : State) (n o : Nat) : Word :=
  let x := s.sector n
  if o = 0 then word (x.pstate.code + x.target.code * 4 + bit x.entering * 16 + bit x.waking * 32)
  else if o = 4 then word (s.ceiling n * 2 ^ 16 + x.clk)
  else if o = 8 then word x.clkMax
  else if o = 0xC then word x.ldo
  else if o = 0x10 then (BitVec.ofInt 16 x.temp).setWidth 32
  else if o = 0x14 then word (s.secLimit n)
  else if o = 0x18 then word (bit x.force)
  else if o = 0x1C then word (bitsOf (fun i => (s.tile (posOf n i)).fenced) 32)
  else if o = 0x20 then word ((s.sectorTol n).getD 0xFFFFFFFF)
  else if o = 0x24 then x.wakes
  else 0

/-- SEC_CLK_MAX takes 400 to 1,600 MHz in steps of 25; other values are ignored and logged. SEC_FORCE: R474. -/
def State.setSecReg (s : State) (n o : Nat) (w : Word) : State :=
  if o = 8 then
    let f := w.toNat % 2048
    if 400 ≤ f ∧ f ≤ 1600 ∧ f % 25 = 0 then s.updSector n fun x => { x with clkMax := f } else s.configRefused o
  else if o = 0x18 then s.forceAwake n (w.getLsbD 0)
  else s

/-! ## The region of a sector -/

/-- What an offset of a sector's region locates. -/
inductive SecItem where
  | power | task (e : Nat) | map | disp | tile (i : Nat) | ctx (i : Nat) | mac (i : Nat) | chan (i : Nat)
  deriving DecidableEq, Repr

/-- The item at an offset of a sector's region, with the offset inside it; `none`: a hole. -/
def secItem (o : Nat) : Option (SecItem × Nat) :=
  if o < 0x1000 then some (.power, o)
  else if 0x40000 ≤ o ∧ o < 0x60000 then some (.task ((o - 0x40000) / 0x40), o % 0x40)
  else if 0x60000 ≤ o ∧ o < 0x70000 then some (.map, o - 0x60000)
  else if 0x70000 ≤ o ∧ o < 0x80000 then some (.disp, o - 0x70000)
  else if 0x80000 ≤ o ∧ o < 0xA0000 then some (.tile ((o - 0x80000) / 0x1000), o % 0x1000)
  else if 0xA0000 ≤ o ∧ o < 0xA2000 then some (.ctx ((o - 0xA0000) / 0x100), o % 0x100)
  else if 0xB0000 ≤ o ∧ o < 0xB2000 then some (.mac ((o - 0xB0000) / 0x100), o % 0x100)
  else if 0xC0000 ≤ o ∧ o < 0xC2000 then some (.chan ((o - 0xC0000) / 0x100), o % 0x100)
  else none

def State.sectorReg (s : State) (n o : Nat) : Option Word :=
  match secItem o with
  | none => none
  | some (.power, r) => some (s.secReg n r)
  | some (.task e, r) => some ((s.task (2048 * n + e)).reg r)
  | some (.map, r) => some ((s.sector n).mapReg r)
  | some (.disp, r) => some (s.dispReg n r)
  | some (.tile i, r) => some (s.tileReg (posOf n i) r)
  | some (.ctx i, r) => some (s.ctxReg (posOf n i) r)
  | some (.mac i, r) => some (s.macReg (posOf n i) r)
  | some (.chan i, r) => some (s.chanReg (posOf n i) r)

def State.setSectorReg (s : State) (n o : Nat) (v w : Word) : State :=
  match secItem o with
  | none => s
  | some (.power, r) => s.setSecReg n r w
  | some (.task e, r) => s.setTaskReg (2048 * n + e) r v w
  | some (.map, r) => s.updSector n fun x => x.setMapReg r w
  | some (.disp, r) => s.updSector n fun x => x.setDispReg r w
  | some (.tile i, r) => s.setTileReg (posOf n i) r v
  | some (.ctx i, r) => s.setCtxReg (posOf n i) r v w
  | some (.mac i, r) => s.setMacReg (posOf n i) r v
  | some (.chan _, _) => s

end Sys2Proof.Machine
end

