-- ==== Sys2Proof/Machine/CsrLine.lean ====
section
/-!
DEFINITION. Machine/CsrLine.lean: the registers of the lane blocks (Tables 07-4, 07-14), of the line datapath common
region (Tables 07-3, 07-15, 08-1, 08-5, 08-6) and of the time unit (Table 07-16).
-/
namespace Sys2Proof.Machine

/-! ## Lane blocks -/

/-- MSEC_SA_STATE and the packet number of TX_AN (Table 07-14). -/
def Lane.saState (k : Lane) : Nat := bitsOf (fun i => (tget none k.sa i).isSome) 20
def Lane.txPn (k : Lane) : Nat :=
  match tget none k.sa (k.msecCtrl.toNat % 4) with
  | some a => a.pn
  | none => 0

/-- MACsec registers (Table 07-14). -/
def Lane.msecReg (k : Lane) (o : Nat) : Word :=
  if o = 0x200 then k.msecCtrl
  else if o = 0x204 then word k.saState
  else if o = 0x208 then k.txSciLo
  else if o = 0x20C then k.txSciHi
  else if o = 0x210 then k.replayWin
  else if o = 0x214 then k.pnWarnLo
  else if o = 0x218 then k.pnWarnHi
  else if o = 0x21C then word k.txPn
  else if o = 0x220 then word (k.txPn / 2 ^ 32)
  else if 0x228 ≤ o ∧ o < 0x248 then tget 0 k.rxSci ((o - 0x228) / 4)
  else 0

/-- Lane block (Table 07-4). -/
def Lane.reg (k : Lane) (o : Nat) : Word :=
  if o = 0 then k.ctrl
  else if o = 4 then k.partner
  else if o = 8 then k.statusReg
  else if o = 0xC then k.sticky
  else if o = 0x10 then k.aux
  else if o = 0x14 then k.macLo
  else if o = 0x18 then k.macHi
  else if o = 0x1C then k.tsCorr
  else if o = 0x20 then k.eqTx
  else if o = 0x24 then k.eqRx
  else if o = 0x28 then k.dfeA
  else if o = 0x2C then k.dfeB
  else if o = 0x30 then k.win
  else if o = 0x40 then k.nowRx
  else if o = 0x44 then k.nowA
  else if o = 0x48 then k.nowB
  else if 0x80 ≤ o ∧ o < 0xA0 then tget 0 k.pfcTh ((o - 0x80) / 4)
  else if o = 0xA0 then k.pfcCfg
  else if 0x100 ≤ o ∧ o < 0x150 then tget 0 k.cnt ((o - 0x100) / 4)
  else if 0x200 ≤ o then k.msecReg o
  else 0

/-- The MACsec registers of a lane with one written. -/
def Lane.writeMsec (k : Lane) (o : Nat) (w : Word) : Lane :=
  if o = 0x200 then { k with msecCtrl := w &&& 0xF3#32 }
  else if o = 0x208 then { k with txSciLo := w }
  else if o = 0x20C then { k with txSciHi := w }
  else if o = 0x210 then { k with replayWin := w &&& 0x3FFFFFFF#32 }
  else if o = 0x214 then { k with pnWarnLo := w }
  else if o = 0x218 then { k with pnWarnHi := w }
  else if 0x228 ≤ o ∧ o < 0x248 then { k with rxSci := tset 0 k.rxSci ((o - 0x228) / 4) w }
  else k

/-- The plain registers of a lane with one written; a preset waits for the next restart (R218). -/
def Lane.write (k : Lane) (o : Nat) (v w : Word) : Lane :=
  if o = 4 then { k with partner := w &&& 0x800001FF#32 }
  else if o = 0xC then { k with sticky := k.sticky &&& ~~~v }
  else if o = 0x10 then { k with aux := w &&& auxMask }
  else if o = 0x14 then { k with macLo := w }
  else if o = 0x18 then { k with macHi := w &&& 0xFFFF#32 }
  else if o = 0x1C then { k with tsCorr := w }
  else if o = 0x20 then { k with eqTx := w &&& eqTxMask }
  else if o = 0x24 then { k with eqRx := w &&& eqRxMask }
  else if o = 0x28 then { k with dfeA := w }
  else if o = 0x2C then { k with dfeB := w }
  else if o = 0x30 then { k with win := w &&& winMask }
  else if o = 0xA0 then { k with pfcCfg := w }
  else k.writeMsec o w

/-- A write to a lane block. -/
def State.setLaneReg (s : State) (l o : Nat) (v w : Word) : State :=
  if o = 0 then s.setLaneCtrl l w
  else if 0x80 ≤ o ∧ o < 0xA0 then s.setPfcTh l ((o - 0x80) / 4) w
  else s.updLane l fun k => k.write o v w

/-! ## Line datapath common -/

/-- Stream table entry (Table 08-1). -/
def Stream.reg (x : Stream) (o : Nat) : Word :=
  if o = 0 then x.ctrl
  else if o = 4 then x.path
  else if o = 8 then x.size
  else if o = 0xC then x.thresh
  else if o = 0x10 then x.task
  else if o = 0x14 then x.carafeBase
  else if o = 0x18 then x.carafeCells
  else if o = 0x1C then x.bypTarget
  else if o = 0x20 then word x.wpos
  else if o = 0x24 then word x.rpos
  else if o = 0x28 then word x.mpos
  else if o = 0x2C then word x.spos
  else if o = 0x30 then word x.crTotal
  else if o = 0x34 then word x.seqNext
  else if o = 0x38 then x.sticky
  else x.statusReg

def Stream.write (x : Stream) (o : Nat) (v w : Word) : Stream :=
  if o = 0 then { x with ctrl := (w &&& 0x1FBE0000#32) ||| (x.ctrl &&& 0xE0410000#32) }
  else if o = 4 then { x with path := w &&& 0xFFFF01FF#32 }
  else if o = 8 then { x with size := w }
  else if o = 0xC then { x with thresh := w }
  else if o = 0x10 then { x with task := w &&& 0x3FFF1F00#32 }
  else if o = 0x18 then { x with carafeCells := w &&& 0x00FFFFFF#32 }
  else if o = 0x1C then { x with bypTarget := w &&& 0x80001FFF#32 }
  else if o = 0x38 then { x with sticky := x.sticky &&& ~~~v }
  else x

/-- Partner entry (Table 07-3). -/
def partnerMask (i : Nat) : Nat := if i = 0 then 0xFFE00000 else if i = 1 then 0xFFFFFFFF else if i = 2 then 0xFFFF else 0

/-- Allocator registers (Table 08-6). -/
def State.allocReg (s : State) (o : Nat) : Word :=
  if o < 0x100 then
    let q := o / 16
    if o % 16 = 0 then word (s.quotaOf q)
    else if o % 16 = 4 then word (s.usedCells q)
    else if o % 16 = 8 then word (s.resvCells q)
    else tget 0 s.alloc.drops q
  else if o = 0x100 then word (98304 - (s.cells.filter fun e => decide (e.2.owner ≠ 31)).length)
  else if o = 0x104 then word (98304 - s.cellSum 16 0)
  else if o = 0x108 then s.alloc.bypFrames
  else if o = 0x10C then s.alloc.bypDiscards
  else if o = 0x110 then s.alloc.edgeW
  else if o = 0x114 then s.alloc.edgeE
  else 0

/-- Read of the line datapath common region. -/
def State.lineReg (s : State) (o : Nat) : Option Word :=
  if o < 0x80000 then some ((s.stream (o / 0x40)).reg (o % 0x40))
  else if 0x100000 ≤ o ∧ o < 0x140000 then some (tget 0 (s.stream ((o - 0x100000) / 0x20)).cnt (o % 0x20 / 4))
  else if 0x800000 ≤ o ∧ o < 0x802000 then some (word (tget 0 s.partners ((o - 0x800000) / 16) / 2 ^ (8 * (o % 16))))
  else if 0x900000 ≤ o ∧ o < 0x908000 then some (s.rule ((o - 0x900000) / 0x20) (o % 0x20 / 4))
  else if 0xA00000 ≤ o ∧ o < 0xA10000 then some (s.allocReg (o - 0xA00000))
  else none

/-- Word `i` of a partner entry is written. -/
def State.setPartnerWord (s : State) (p i : Nat) (w : Word) : State :=
  let e := tget 0 s.partners p
  let e' := e - field e (32 * i) 32 * 2 ^ (32 * i) + (w.toNat &&& partnerMask i) * 2 ^ (32 * i)
  { s with partners := tset 0 s.partners p e' }

/-- Word `i` of a classifier rule is written; HITS is RO. -/
def State.setRuleWord (s : State) (r i : Nat) (w : Word) : State :=
  if i = 7 then s else s.setRule r i (w &&& (ruleMasks.getD i 0 ||| if i = 0 then 0x1F000000#32 else 0))

def State.setLineReg (s : State) (o : Nat) (v w : Word) : State :=
  if o < 0x80000 then s.updStream (o / 0x40) fun x => x.write (o % 0x40) v w
  else if 0x800000 ≤ o ∧ o < 0x802000 then s.setPartnerWord ((o - 0x800000) / 16) (o % 16 / 4) w
  else if 0x900000 ≤ o ∧ o < 0x908000 then s.setRuleWord ((o - 0x900000) / 0x20) (o % 0x20 / 4) w
  else if 0xA00000 ≤ o ∧ o < 0xA00100 ∧ o % 16 = 0 then
    { s with alloc := { s.alloc with quota := tset 0 s.alloc.quota ((o - 0xA00000) / 16) (w.toNat % 2 ^ 17) } }
  else s

/-! ## Time unit -/

/-- Time unit registers (Table 07-16); WO registers read 0 (R14). -/
def TimeUnit.reg (t : TimeUnit) (o : Nat) : Word :=
  if o = 0 then word t.ns
  else if o = 4 then t.latchLo
  else if o = 8 then t.latchHi
  else if o = 0xC then t.incr
  else if o = 0x20 then word t.ppsNs
  else if o = 0x24 then word t.ppsSec
  else if o = 0x28 then word (bit t.ppsNew)
  else if o = 0x2C then word (bit t.locked)
  else 0

/-- What a read does: TIME_NS latches the seconds, PPS_STATUS clears (R239). -/
def TimeUnit.wasRead (t : TimeUnit) (o : Nat) : TimeUnit :=
  if o = 0 then { t with latchLo := word t.sec, latchHi := word (t.sec / 2 ^ 32) }
  else if o = 0x28 then { t with ppsNew := false }
  else t

def TimeUnit.write (t : TimeUnit) (o : Nat) (v w : Word) : TimeUnit :=
  if o = 0xC then { t with incr := w }
  else if o = 0x10 then { t with ops := t.ops ++ [.adjust v.toInt] }
  else if o = 0x14 then { t with loadNs := v &&& 0x3FFFFFFF#32 }
  else if o = 0x18 then { t with loadLo := v }
  else if o = 0x1C then
    { t with ops := t.ops ++ [.load (v.toNat % 2 ^ 16 * 2 ^ 32 + t.loadLo.toNat) (t.loadNs.toNat % 2 ^ 30)] }
  else t

end Sys2Proof.Machine
end

