-- ==== Sys2Proof/Machine/CsrMesh.lean ====
section
/-!
DEFINITION. Machine/CsrMesh.lean: the registers of the routers (Table 09-9), the mesh common registers (Table 09-10) and
the DRAM controllers (Tables 10-9, 10-10).
-/
namespace Sys2Proof.Machine

/-- Four slot bytes, the lowest slot in the low byte. -/
def slotWord (f : Nat → BitVec 8) (i : Nat) : Word := f (4 * i + 3) ++ f (4 * i + 2) ++ f (4 * i + 1) ++ f (4 * i)

/-- A slot table with four slots written; `d` is each slot's reset value. -/
def writeSlots (d : Nat → BitVec 8) (t : Tab (BitVec 8)) (i : Nat) (mask : BitVec 8) (w : Word) : Tab (BitVec 8) :=
  (List.range 4).foldl (fun t b => tset (d (4 * i + b)) t (4 * i + b) (BitVec.ofNat 8 (field w.toNat (8 * b) 8) &&& mask)) t

/-- The state of the proxy before a router's local port: 0 pass, 1 hold, 2 answer. -/
def State.proxyCode (s : State) (r o : Nat) : Nat :=
  match proxySector r o with
  | none => 0
  | some n => match (s.sector n).pstate with
    | .brew => 0
    | .steep => if (s.sector n).committed then 2 else 1
    | _ => 2

/-- Router registers (Table 09-9). -/
def State.routerReg (s : State) (r o : Nat) : Word :=
  let x := s.router r
  if o = 0 then word (bitsOf (fun p => portPresent r p) 8 * 2 ^ 8 + r)
  else if o = 4 then word (bit x.draining)
  else if o = 8 then word (bit x.draining * 2 ^ 31 + s.proxyCode r 5 * 4 + s.proxyCode r 0)
  else if o = 0xC then x.sticky
  else if o = 0x10 then x.vcEn
  else if o = 0x14 then x.vcEnNext
  else if o = 0x18 then x.drainLast
  else if o = 0x1C then x.drainMax
  else if 0x40 ≤ o ∧ o < 0x80 then slotWord x.slotAt ((o - 0x40) / 4)
  else if 0x80 ≤ o ∧ o < 0xC0 then slotWord x.nextAt ((o - 0x80) / 4)
  else if 0xC0 ≤ o ∧ o < 0xDC then tget 0 x.portFlits ((o - 0xC0) / 4)
  else 0

/-- RT_CTRL.APPLY is written: a second APPLY while draining has no effect (R295, R299). -/
def State.applyRouter (s : State) (r : Nat) : State :=
  if (s.router r).draining then s else s.updRouter r fun x => { x with draining := true, drainCycles := 0 }

/-- A write to VC_EN_NEXT or SLOT_NEXT while DRAINING is discarded and logged (R298). -/
def State.setRouterReg (s : State) (r o : Nat) (v w : Word) : State :=
  let next (f : Router → Router) : State :=
    if (s.router r).draining then s.configRefused (0x1000 * r + o) else s.updRouter r f
  if o = 4 then (if v.getLsbD 0 then s.applyRouter r else s)
  else if o = 0xC then s.updRouter r fun x => { x with sticky := x.sticky &&& ~~~v }
  else if o = 0x14 then next fun x => { x with vcEnNext := w &&& 0x1FFFF#32 }
  else if 0x80 ≤ o ∧ o < 0xC0 then
    next fun x => { x with slotNext := writeSlots (fun _ => 0x10#8) x.slotNext ((o - 0x80) / 4) 0x1F#8 w }
  else s

/-- Mesh common registers (Table 09-10). -/
def State.meshReg (s : State) (o : Nat) : Word :=
  let q := o / 16
  if o < 0x100 then
    if o % 16 = 0 then word (tget 0 s.mesh.tagQuota q)
    else if o % 16 = 4 then word (s.mesh.held q)
    else if o % 16 = 8 then word (s.epochOf q)
    else tget 0 s.mesh.tagWaits q
  else if o = 0x100 then word (s.mesh.held 16)
  else if o = 0x104 then s.mesh.slotCount.setWidth 32
  else 0

def State.setMeshReg (s : State) (o : Nat) (w : Word) : State :=
  if o < 0x100 ∧ o % 16 = 0 then
    { s with mesh := { s.mesh with tagQuota := tset 0 s.mesh.tagQuota (o / 16) (w.toNat % 2 ^ 17) } }
  else s

/-- DRAM controller registers (Table 10-9). -/
def State.dramReg (s : State) (c o : Nat) : Word :=
  let k := s.mem.ctlOf c
  if o = 0 then word (k.state * 2 ^ 30 + if k.ready then descFrame s.mem.desc % 512 else 0)
  else if o = 4 then k.sticky
  else if o = 8 then word (bit k.apply)
  else if o = 0xC then k.frameCount
  else if o = 0x10 then k.corr
  else if o = 0x14 then k.uncorr
  else if o = 0x18 then k.sealFails
  else if o = 0x1C then k.errAddr.setWidth 32
  else if o = 0x20 then word (k.errAddr.toNat / 2 ^ 32)
  else if 0x40 ≤ o ∧ o < 0x80 then
    (let b := (o - 0x40) / 4; (k.ownerCheck b &&& 0x8000001F#32) ||| word (bit (k.initBusy b) * 2 ^ 30))
  else if 0x80 ≤ o ∧ o < 0xC0 then slotWord k.nextAt ((o - 0x80) / 4)
  else if 0xC0 ≤ o ∧ o < 0x100 then slotWord k.slotAt ((o - 0xC0) / 4)
  else 0

/-- BANK_OWNER_b is written: it waits for the accepted requests to the region (R332). -/
def State.writeOwner (s : State) (c b : Nat) (w : Word) : State :=
  s.updCtl c fun k => { k with ownerNext := tset none k.ownerNext b (some (w &&& 0x8000001F#32)) }

def State.setDramReg (s : State) (c o : Nat) (v w : Word) : State :=
  if o = 4 then s.updCtl c fun k => { k with sticky := k.sticky &&& ~~~v }
  else if o = 8 then (if v.getLsbD 0 then s.updCtl c fun k => { k with apply := true } else s)
  else if 0x40 ≤ o ∧ o < 0x80 then s.writeOwner c ((o - 0x40) / 4) w
  else if 0x80 ≤ o ∧ o < 0xC0 then
    s.updCtl c fun k =>
      { k with slotNext := writeSlots (fun i => if i < 32 then 0x10#8 else 0x90#8) k.slotNext ((o - 0x80) / 4) 0x9F#8 w }
  else s

end Sys2Proof.Machine
end

