-- ==== Sys2Proof/Machine/CsrHost.lean ====
section
/-!
DEFINITION. Machine/CsrHost.lean: the registers of a host port, as its BAR0 and the control and status space show them
(R336, Tables 11-2 to 11-4), with its MSI-X table and pending bits (R353).
-/
namespace Sys2Proof.Machine

/-- Port registers (Table 11-3). -/
def State.portReg (s : State) (n o : Nat) : Word :=
  if o = 0 then word (n * 2 ^ 8 + s.portWidth n)
  else if o = 4 then word (bit s.boot.ready * 2 ^ 31 + bit (s.boot.shell.poPort == n) * 2 ^ 30 + s.boot.status % 2 ^ 16)
  else if o = 8 then (s.port n).ctrl
  else if o = 0xC then (s.port n).sticky
  else 0

/-- Queue registers (Table 11-4). -/
def Queue.reg (q : Queue) (o : Nat) : Word :=
  if o = 0 then q.sqBase.setWidth 32
  else if o = 4 then (q.sqBase >>> 32).setWidth 32
  else if o = 8 then q.cqBase.setWidth 32
  else if o = 0xC then (q.cqBase >>> 32).setWidth 32
  else if o = 0x10 then word (q.cqSize % 8192 * 2 ^ 16 + q.sqSize % 8192)
  else if o = 0x14 then word (bit q.en + 2 * bit q.ien)
  else if o = 0x18 then word (bit q.active * 2 ^ 31 + bit q.fault * 2 ^ 30 + q.fcode % 16 * 2 ^ 26 + q.owner % 32 * 2 ^ 20)
  else word (q.cqTail % 8192 * 2 ^ 16 + q.sqHead % 8192)

/-- Bases and sizes are written only while ACTIVE is 0 (Table 11-4). -/
def Queue.write (q : Queue) (o : Nat) (w : Word) : Queue :=
  let lo (b : BitVec 64) : BitVec 64 := (b &&& 0xFFFFFFFF00000000#64) ||| ((w &&& 0xFFFFF000#32).setWidth 64)
  let hi (b : BitVec 64) : BitVec 64 := (b &&& 0xFFFFFFFF#64) ||| (w.setWidth 64 <<< 32)
  if q.active then q
  else if o = 0 then { q with sqBase := lo q.sqBase }
  else if o = 4 then { q with sqBase := hi q.sqBase }
  else if o = 8 then { q with cqBase := lo q.cqBase }
  else if o = 0xC then { q with cqBase := hi q.cqBase }
  else if o = 0x10 then { q with sqSize := field w.toNat 0 13, cqSize := field w.toNat 16 13 }
  else q

/-- Bits that a word of an MSI-X entry holds: a vector's address is a multiple of 4, and its control is one mask bit. -/
def msixMask (i : Nat) : Word := if i = 0 then 0xFFFFFFFC else if i = 3 then 1 else 0xFFFFFFFF

/-- A word of the MSI-X table is written; a vector that pends is sent when its mask bit clears. -/
def State.setMsixWord (s : State) (n v i : Nat) (w : Word) : State :=
  let s := s.updPort n fun p => { p with msix := tset (if i = 3 then 1 else 0) p.msix (4 * v + i) (w &&& msixMask i) }
  if tget false (s.port n).pend v ∧ (s.port n).msixWord v 3 = 0 then
    (s.updPort n fun p => { p with pend := tset false p.pend v false }).sendMsix n v
  else s

/-- A read of BAR0 of port `n`; the outer `none`: a hole, for an absent port or beyond BAR0; the inner `none`: a doorbell,
whose read the specification does not give. -/
def State.hostReg (s : State) (n o : Nat) : Option (Option Word) :=
  if s.portWidth n = 0 ∨ 0x80000 ≤ o then none
  else some (
    if o < 0x1000 then some (s.portReg n o)
    else if o < 0x1800 then some ((s.queue (qidOf 0 n ((o - 0x1000) / 0x20))).reg (o % 0x20))
    else if 0x2000 ≤ o ∧ o < 0x2410 then some ((s.port n).msixWord ((o - 0x2000) / 16) (o % 16 / 4))
    else if 0x3000 ≤ o ∧ o < 0x3010 then
      some (word (bitsOf (fun i => tget false (s.port n).pend (8 * (o - 0x3000) + i)) 32))
    else if 0x40000 ≤ o ∧ o % 0x1000 < 8 then none
    else some 0)

/-- A write to BAR0 of a port that is there; reserved locations ignore it. -/
def State.setHostReg (s : State) (n o : Nat) (v w : Word) : State :=
  if o = 8 then s.updPort n fun p => { p with ctrl := w &&& 1 }
  else if o = 0xC then s.updPort n fun p => { p with sticky := p.sticky &&& ~~~v }
  else if 0x1000 ≤ o ∧ o < 0x1800 then
    let x := qidOf 0 n ((o - 0x1000) / 0x20)
    if o % 0x20 = 0x14 then s.queueCtrl x w else s.updQueue x fun q => q.write (o % 0x20) w
  else if 0x2000 ≤ o ∧ o < 0x2410 then s.setMsixWord n ((o - 0x2000) / 16) (o % 16 / 4) w
  else if 0x40000 ≤ o ∧ o < 0x80000 then
    let x := qidOf 0 n ((o - 0x40000) / 0x1000)
    if o % 0x1000 = 0 then s.tailWrite x (field w.toNat 0 13)
    else if o % 0x1000 = 4 then s.headWrite x (field w.toNat 0 13)
    else s
  else s

end Sys2Proof.Machine
end

