-- ==== Sys2Proof/Machine/CsrSystem.lean ====
section
/-!
DEFINITION. Machine/CsrSystem.lean: the registers of the device global region (fuse shadow, Barista's slices, boot:
Tables 13-15, 16-10, R347), of the power manager (Table 15-8), of the integrity region (Table 14-10) and of the
partition tables (Tables 01-8 to 01-10).
-/
namespace Sys2Proof.Machine

/-! ## Device global -/

/-- Fuse shadow registers (Table 13-15). -/
def State.fuseReg (s : State) (o : Nat) : Word :=
  let f := s.shadow
  if o < 0x10 then word (leNat ((List.range 4).map fun i => Config.serialByte (o + i)))
  else if o = 0x10 then
    word (bit f.active.isSome * 2 ^ 31 + f.active.getD 0 * 16 + bitsOf (fun i => (tget none f.slots i).isSome) 4)
  else if o = 0x14 then word (f.vendor % 512)
  else if o = 0x18 then word (f.config % 4096)
  else if o = 0x1C then word (bit s.dbgAccess.unlocked + 2 * bit s.dbgAccess.tapOpen + 4 * bit s.dbgAccess.fwOpen)
  else if 0x40 ≤ o ∧ o < 0x100 then
    word (leNat ((((tget none f.slots ((o - 0x40) / 0x30)).getD []).drop ((o - 0x40) % 0x30)).take 4))
  else 0

/-- BARISTA_SLICE_c_w (R347). -/
def State.sliceReg (s : State) (o : Nat) : Word :=
  word ((List.range 4).foldl (fun w b => w + s.sliceOwner (o / 0x40) (o % 0x40 + b) % 256 * 2 ^ (8 * b)) 0)

/-- Slices 0, 8, …, 56 of every core belong to 16, and writes to them are ignored. -/
def State.setSliceReg (s : State) (o : Nat) (w : Word) : State :=
  { s with slices := (List.range 4).foldl (fun t b =>
      if (o % 0x40 + b) % 8 = 0 then t else tset 16 t (o / 0x40 * 64 + (o % 0x40 + b)) (field w.toNat (8 * b) 8)) s.slices }

/-- Boot registers (Table 16-10). -/
def Boot.reg (b : Boot) (o : Nat) : Word :=
  if o = 0 then word (b.status % 2 ^ 16)
  else if o = 4 then
    word (b.pref * 2 ^ 31 + b.active * 2 ^ 30 + bit b.ctrlValid * 2 ^ 29 + b.reason[1] % 16 * 16 + b.reason[0] % 16)
  else if o = 8 then word (bit b.staged[0] + 2 * bit b.staged[1] + 4 * bit b.staging)
  else if o = 0xC then word b.fwVersion
  else 0

def State.globalReg (s : State) (o : Nat) : Option Word :=
  if 0x1000 ≤ o ∧ o < 0x2000 then some (s.fuseReg (o - 0x1000))
  else if 0x2000 ≤ o ∧ o < 0x2100 then some (s.sliceReg (o - 0x2000))
  else if 0x3000 ≤ o ∧ o < 0x4000 then some (s.boot.reg (o - 0x3000))
  else none

/-! ## Power manager -/

/-- Power manager registers (Table 15-8). -/
def State.powerReg (s : State) (o : Nat) : Word :=
  let p := s.power
  if o = 0 then word (p.p + bit p.capUnmet * 2 ^ 16 + bit p.crit * 2 ^ 17)
  else if o = 4 then p.sticky
  else if o = 8 then word p.cap
  else if o = 0xC then word (p.tjMax % 256 + p.tjWarn % 256 * 2 ^ 8 + p.airflow % 8 * 2 ^ 16)
  else if o = 0x10 then word p.watts
  else if 0x100 ≤ o ∧ o < 0x140 then word (s.part ((o - 0x100) / 4)).tol
  else if 0x140 ≤ o ∧ o < 0x180 then word (s.holdoffOf ((o - 0x140) / 4))
  else 0

def State.setPowerReg (s : State) (o : Nat) (v : Word) : State :=
  if o = 4 then { s with power := { s.power with sticky := s.power.sticky &&& ~~~v } } else s

/-! ## Integrity -/

/-- CUP_STATUS_n and its neighbours (Table 14-10). -/
def Sector.cupReg (x : Sector) (o : Nat) : Option Word :=
  if o = 0 then some (word (x.cupPhase % 4 * 2 ^ 30 + x.cupSpare % 32 * 2 ^ 24 + bit x.noSpare * 2 ^ 23 + x.cupNext % 32 * 2 ^ 16))
  else if o = 4 then some x.cupSteps
  else if o = 8 then some x.cupSkips
  else if o = 0xC then some x.cupLastNs
  else if o = 0x10 then some x.cupFailed
  else none

/-- Word `i` of entry `e` of a Correction Tracker. Word 1 holds address bits [47:32], which is what its 16 bits can hold
(Table 14-10 prints [47:16]). -/
def Tracker.reg (t : Tracker) (e i : Nat) : Word :=
  match t.entries[e]? with
  | none => 0
  | some x =>
    if i = 0 then word x.addr
    else if i = 1 then word (x.addr / 2 ^ 32 % 2 ^ 16)
    else if i = 2 then word (2 ^ 31 + bit x.repaired * 2 ^ 30 + x.count % 8)
    else 0

def Percolator.statusReg (p : Percolator) : Word :=
  word (p.status % 4 + bit p.romPar * 4 + bit p.voteFail * 8 + (p.tile % 256 * 64 + p.frame % 64) * 2 ^ 8)

/-- Integrity registers (Table 14-10). -/
def State.integrityReg (s : State) (o : Nat) : Option Word :=
  if o < 0x10000 then
    some (if o = 0 then s.perc.statusReg
      else if o = 4 then s.perc.passes
      else if o = 8 then s.perc.silent
      else if o = 0xC then s.perc.essential
      else if o = 0x10 then s.perc.latchRepairs
      else if o = 0x14 then 10000
      else 0)
  else if o < 0x10800 then (s.sector ((o - 0x10000) / 0x100)).cupReg (o % 0x100)
  else if o = 0x10800 then some (word (bit s.cupEn * 2 ^ 31))
  else if o = 0x10804 then some (word s.cupPeriod)
  else if 0x20000 ≤ o ∧ o < 0x66400 then
    some ((s.tracker ((o - 0x20000) / 0x400)).reg (o % 0x400 / 16) (o % 16 / 4))
  else if 0x80000 ≤ o ∧ o < 0x81190 then
    let t := s.tracker ((o - 0x80000) / 16)
    if o % 16 = 0 then some t.repairs else if o % 16 = 4 then some t.hard else if o % 16 = 8 then some t.evict else none
  else if o = 0x100000 then some (if s.log.isEmpty then 0xFFFFFFFF else word ((s.logNext + 2 ^ 32 - 1) % 2 ^ 32))
  else if o = 0x100004 then some (word ((s.log.getLast?.map LogEntry.index).getD 0))
  else none

/-- CUP_PERIOD takes 100 to 3,600,000 ms; other values are ignored and logged. -/
def State.setIntegrityReg (s : State) (o : Nat) (w : Word) : State :=
  if o = 0x10800 then { s with cupEn := w.msb }
  else if o = 0x10804 then
    if 100 ≤ w.toNat ∧ w.toNat ≤ 3600000 then { s with cupPeriod := w.toNat } else s.configRefused o
  else s

/-! ## Partition tables -/

/-- TILE_MAP_p (Table 01-9). -/
def TileMapEntry.reg (e : TileMapEntry) : Word := word (e.logical % 256 * 2 ^ 16 + e.owner % 32 * 2 ^ 8 + bit e.migrating)

def TileMapEntry.ofReg (w : Word) : TileMapEntry :=
  { logical := field w.toNat 16 8, owner := field w.toNat 8 5, migrating := w.getLsbD 0 }

/-- The 128 bits of a window entry (Table 01-10). -/
def Window.bits (w : Window) : Nat :=
  bit w.valid * 2 ^ 127 + w.target % 4 * 2 ^ 125 + bit w.write * 2 ^ 124 + w.logBase % 2 ^ 36 * 2 ^ 72 + w.devBase % 2 ^ 36 * 2 ^ 36
    + w.pages % 2 ^ 36

def Window.ofBits (n : Nat) : Window :=
  { valid := n.testBit 127, target := field n 125 2, write := n.testBit 124, logBase := field n 72 36, devBase := field n 36 36
    pages := field n 0 36 }

def State.tableReg (s : State) (o : Nat) : Word :=
  if o < 0x400 then (s.tm (o / 4)).reg
  else if 0x10000 ≤ o ∧ o < 0x11000 then word (field (tget {} s.win ((o - 0x10000) / 16)).bits (8 * (o % 16)) 32)
  else 0

/-- A table word is written: a tile with a reserved LOGICAL is fenced (Table 01-9); a window entry with a reserved TARGET is
logged (Table 01-10). -/
def State.setTableReg (s : State) (o : Nat) (w : Word) : State :=
  if o < 0x400 then
    let e := TileMapEntry.ofReg w
    let s := s.setTm (o / 4) e
    if e.unnamed then s.requestFence (o / 4) else s
  else if 0x10000 ≤ o ∧ o < 0x11000 then
    let x := (o - 0x10000) / 16
    let old := (tget {} s.win x).bits
    let i := 8 * (o % 16)
    let e := Window.ofBits (old - field old i 32 * 2 ^ i + w.toNat * 2 ^ i)
    let s := { s with win := tset {} s.win x e }
    if o % 16 = 12 ∧ 2 ≤ e.target then s.configRefused o else s
  else s

end Sys2Proof.Machine
end

