-- ==== Sys2Proof/Machine/Csr.lean ====
section
/-!
DEFINITION. Machine/Csr.lean: the control and status space as a whole (R40, Table 01-6): reads and writes of its 32-bit
registers by their access codes (R14 to R16), holes (R38), and REGISTER_WRITE.
-/
namespace Sys2Proof.Machine

/-- What an address of the control and status space reads as: the outer `none` is a hole, the inner `none` a value that
the specification does not state. -/
def State.csrPeek (s : State) (a : Nat) : Option (Option Word) :=
  let r := (a - 0x30000000) / 0x1000000
  let x := a % 0x1000000
  if r = 0 then (s.globalReg x).map some
  else if r = 1 then (if x < 0x800000 then (s.sectorReg (x / 0x100000) (x % 0x100000)).map some else none)
  else if r = 2 then (if x < 0x400000 then some (some ((s.lane (x / 0x10000)).reg (x % 0x10000))) else none)
  else if r = 3 then (if x < 0xC0000 then some (some (s.dramReg (x / 0x10000) (x % 0x10000))) else none)
  else if r = 4 then
    (if x < 0x40000 then some (some (s.routerReg (x / 0x1000) (x % 0x1000)))
     else if 0x80000 ≤ x ∧ x < 0x90000 then some (some (s.meshReg (x - 0x80000))) else none)
  else if r = 5 then (if x < 0x400000 then s.hostReg (x / 0x100000) (x % 0x100000) else none)
  else if r = 6 then (s.lineReg x).map some
  else if r = 7 then some (some (s.powerReg x))
  else if r = 8 then (s.integrityReg x).map some
  else if r = 9 then some (some (s.time.reg x))
  else if r = 10 then some (some (s.tableReg x))
  else none

/-- The endpoint whose DEQ_POP register an address names: tile, endpoint. -/
def deqPopAt (a : Nat) : Option (Nat × Fin 4) :=
  let r := (a - 0x30000000) / 0x1000000
  let x := a % 0x1000000
  if r = 1 ∧ x < 0x800000 then
    match secItem (x % 0x100000) with
    | some (.chan i, o) => if o < 0x80 ∧ o % 0x20 = 4 then some (posOf (x / 0x100000) i, Fin.ofNat 4 (o / 0x20)) else none
    | _ => none
  else none

/-- A read of a register: its value and the state after it, RC registers cleared (R14); `none`: it waits (R173).
Reading a hole gives 0. -/
def State.csrRead (s : State) (a : Nat) : Option (Word × State) :=
  match deqPopAt a with
  | some (p, k) => s.deqPop p k true false
  | none =>
    match s.csrPeek a with
    | some (some w) =>
      some (w, if (a - 0x30000000) / 0x1000000 = 9 then s.updTime fun t => t.wasRead (a % 0x1000000) else s)
    | some none => let (n, s) := s.draw; some (word (Sys2Proof.Config.free n), s)
    | none => some (0, s)

/-- The value of the register with the bytes that a write names replaced: `v` holds the written bytes, `m` their mask. -/
def State.merged (s : State) (a : Nat) (v m : Word) : Word :=
  (((s.csrPeek a).join.getD 0) &&& ~~~m) ||| (v &&& m)

/-- A write of a register: `v` the written bytes, `m` their mask. RO registers and reserved bits ignore it (R14, R16). -/
def State.csrWrite (s : State) (a : Nat) (v m : Word) : State :=
  let r := (a - 0x30000000) / 0x1000000
  let x := a % 0x1000000
  let v := v &&& m
  let w := s.merged a v m
  if r = 0 then (if 0x2000 ≤ x ∧ x < 0x2100 then s.setSliceReg (x - 0x2000) w else s)
  else if r = 1 then (if x < 0x800000 then s.setSectorReg (x / 0x100000) (x % 0x100000) v w else s)
  else if r = 2 then (if x < 0x400000 then s.setLaneReg (x / 0x10000) (x % 0x10000) v w else s)
  else if r = 3 then (if x < 0xC0000 then s.setDramReg (x / 0x10000) (x % 0x10000) v w else s)
  else if r = 4 then
    (if x < 0x40000 then s.setRouterReg (x / 0x1000) (x % 0x1000) v w
     else if 0x80000 ≤ x ∧ x < 0x90000 then s.setMeshReg (x - 0x80000) w else s)
  else if r = 5 then
    (if x < 0x400000 ∧ s.portWidth (x / 0x100000) ≠ 0 then s.setHostReg (x / 0x100000) (x % 0x100000) v w else s)
  else if r = 6 then s.setLineReg x v w
  else if r = 7 then s.setPowerReg x v
  else if r = 8 then s.setIntegrityReg x w
  else if r = 9 then s.updTime fun t => t.write x v w
  else if r = 10 then s.setTableReg x w
  else s

/-- A sector control block answers this address now: its sector is in Brew, or the register is supplied from VDD_SOC
(R294, R485). -/
def State.csrAwake (s : State) (a : Nat) : Bool :=
  let x := a % 0x1000000
  !((a - 0x30000000) / 0x1000000 == 1 && decide (x < 0x800000)) || alwaysOn a || (s.sector (x / 0x100000)).pstate == .brew

/-- REGISTER_WRITE (R14 to R16, R42, R187, R188, R191, R210, R217, R298, R337, R347, R353): a whole register is written,
by the system partition at its device address, or by a host at an offset of BAR0 of its port (R336). A write to a hole
is discarded and logged (R38); one for a sector that is not in Brew goes over the mesh to its proxy (R294). -/
def execRegisterWrite (bar : Option (Fin 4)) (a : BitVec 48) (w : Word) (s : State) : Host.Outcome State Fault Refusal :=
  let a := a.toNat
  if a % 4 ≠ 0 then .next s
  else match bar with
  | some n => .next (if s.portWidth n = 0 ∨ 0x80000 ≤ a then s else s.csrWrite (0x35000000 + 0x100000 * n.val + a) w 0xFFFFFFFF#32)
  | none =>
    if (s.destOf a).isNone then .next (s.holeAccess a)
    else if areaOf a ≠ .csr then .next s
    else if !s.csrAwake a then
      .next (s.issue { part := 16, opc := 2, addr := a, src := baristaPort, len := 4, data := leBytes 4 w.toNat, purpose := .register })
    else .next (if (s.csrPeek a).isNone then s.holeAccess a else s.csrWrite a w 0xFFFFFFFF#32)

end Sys2Proof.Machine
end

