-- ==== Sys2Proof/Machine/Targets.lean ====
section
/-!
DEFINITION. Machine/Targets.lean: what a target of the transaction mesh does with a request (R281, R286, R294): RD, WR,
writes through the aliases (R310), ATOM (R312), registers (R40), and the steal of a tap memory (R141).
-/
namespace Sys2Proof.Machine

/-! ## Registers as targets -/

/-- The words that a request covers, by address. -/
def wordsAt (a n : Nat) : List Nat := if n = 0 then [] else (List.range ((a + n + 3) / 4 - a / 4)).map fun i => 4 * (a / 4 + i)

/-- The checks of a request to the control and status space, in the order of R286: only the system partition reaches it,
no alias and no ATOM does (R37, R312), and every word is a register. -/
def State.csrCheck (s : State) (k : Packet) : Option Nat × State :=
  if !(k.opc == 1 || k.opc == 2 || k.opc == 3) || (k.opc == 3 && k.unknown) then (some stUnknownOpcode, s)
  else if k.part ≠ 16 ∨ 2 ^ 44 ≤ k.addr ∨ k.opc = 3 ∨ (wordsAt k.addr k.len).any fun a => (s.csrPeek a).isNone then
    (some stWrongPartition, s.holeAccess k.addr)
  else if k.crosses then (some stBadLength, s)
  else (none, s)

/-- Registers read in ascending order; `none`: one of them waits (R173). -/
def State.csrReads (s : State) : List Nat → Option (List Byte × State)
  | [] => some ([], s)
  | a :: r =>
    match s.csrRead a with
    | none => none
    | some (w, s) => (s.csrReads r).map fun x => (leBytes 4 w.toNat ++ x.1, x.2)

/-- One register written with the bytes of a request that fall on it. -/
def State.csrPut (s : State) (k : Packet) (a : Nat) : State :=
  let inside (i : Nat) : Bool := decide (k.addr ≤ a + i) && decide (a + i < k.addr + k.len)
  let v := leNat ((List.range 4).map fun i => if inside i then k.data.getD (a + i - k.addr) 0 else 0)
  let m := leNat ((List.range 4).map fun i => if inside i then 0xFF#8 else 0)
  s.csrWrite a (word v) (word m)

/-- A request at the control and status space: status, data and the state after it; `none`: it waits. A write with
poisoned flits stores nothing, since a register holds no poison. -/
def State.csrServe (s : State) (k : Packet) : Option (Nat × List Byte × Nat × State) :=
  match s.csrCheck k with
  | (some st, s) => let (st, d, m) := turnedAway k st; some (st, d, m, s)
  | (none, s) =>
    if k.opc = 1 then
      (s.csrReads (wordsAt k.addr k.len)).map fun x => (stOk, (x.1.drop (k.addr % 4)).take k.len, 0, x.2)
    else if k.poison ≠ 0 then some (stPoison, [], 0, s)
    else some (stOk, [], 0, (wordsAt k.addr k.len).foldl (fun s a => State.csrPut s k a) s)

/-! ## The grant of a tile's memory (R74, R141) -/

/-- The instruction at the unit's PC accesses slice `v` in slot A, and in slot B (Table 04-5, R146, R148). -/
def State.tapSlots (s : State) (p : Nat) (u : Fin 4) (v : Nat) : Bool × Bool :=
  let i := s.macNow p u
  let op := miOp i
  let cplx := s.macCplx p u
  let acts := inMask (actingMask cplx i) v
  if (s.tile p).mac[u].endSlot || s.macNowReserved p u then (false, false)
  else if 1 ≤ op ∧ op ≤ 5 then (acts, acts && (op == 1 || op == 3))
  else if op = 0x08 then (cplx || inMask (miMask i) v, !cplx && inMask (miMask i) v && miHalf i == 2)
  else (false, false)

/-- An STT of the slice writes in slot B of the unit's next issue slot (R152). -/
def Mac.sttLands (m : Mac) (v : Nat) : Bool :=
  match (m.pipe.drop 1).headD .bubble with
  | .stt ws => ws.any fun w => w.slice.val == v
  | _ => false

/-- The unit's next issue slot leaves a slot of the slice's tap memory free (R141). -/
def State.tapFree (s : State) (p : Nat) (u : Fin 4) (v : Nat) : Bool :=
  let (a, b) := s.tapSlots p u v
  !s.macIssues p u || !a || !(b || (s.tile p).mac[u].sttLands v)

/-- The unit and slice of a tap address (R36). -/
def tapSlice (a : Nat) : Fin 4 × Nat := (Fin.ofNat 4 (a % 0x4000 / 0x1000), a % 0x1000 / 0x400)

/-- Two requests are for the tap memory of one slice. -/
def sameSlice (x y : Packet) : Bool :=
  match areaOf (x.addr % 2 ^ 44), areaOf (y.addr % 2 ^ 44) with
  | .tap p, .tap q => p == q && tapSlice (x.addr % 2 ^ 44) == tapSlice (y.addr % 2 ^ 44)
  | _, _ => false

/-- The memory of a tile grants the request (R74), or its tap memory serves it, in arrival order (R141). -/
def State.granted (s : State) (k : Packet) (waited : Bool) : Bool :=
  let a := k.addr % 2 ^ 44
  let late := waited || decide (16 ≤ k.waited)
  match areaOf a with
  | .data p => s.bankFree p (a % 0x40000 / 0x4000) late
  | .tap p =>
    !(s.mesh.arrived.takeWhile (· != k)).any (sameSlice k) && (late || s.tapFree p (tapSlice a).1 (tapSlice a).2)
  | _ => true

/-! ## Serving a request -/

/-- A request acts at its target and is answered; `none`: it waits there. A DRAM controller takes it into its queue,
unless its partition's part of the queue is full (R319). -/
def State.serveRequest (s : State) (k : Packet) : Option State :=
  match areaOf (k.addr % 2 ^ 44) with
  | .csr => (s.csrServe k).map fun (st, d, m, s) => (s.answer k st d m).pump
  | .dram =>
    match s.memCheck k with
    | (some st, s) => let (st, d, m) := turnedAway k st; some (s.answer k st d m).pump
    | (none, s) => if s.localRoom k then some (s.dramAccept k) else none
  | _ => let (st, d, m, s) := s.memServe k; some (s.answer k st d m).pump

/-- A request comes to its target: one from outside meets the fence proxy on its way in (R294), which passes it, holds it
and raises a wake, or answers DOMAIN_OFF. `f` is what the target does to the words it changed. -/
def State.request (s : State) (r : Sys2Proof.MeshReq) (opc : Nat) (f : Packet → State → State → State) : State :=
  let (k, s1) := s.takeRequest r opc
  let d := portRouter k.dst
  let o := portNumber k.dst
  let proxy := if s.mesh.arrived.any (requestNames r opc) ∨ (s.destOf k.addr).isNone then 0 else s.proxy d o k
  if proxy = 1 then
    match proxySector d o with
    | some n => s.raiseWake n
    | none => s
  else if proxy = 2 then s1.answer k stDomainOff []
  else if (s1.memCheck k).1.isNone && !s.granted k r.waited then s
  else match s1.serveRequest k with
    | some s2 => f k s1 s2
    | none => s

/-- MESH_RD (R286). -/
def execMeshRd (r : MeshReq) (s : State) : Host.Outcome State Fault Refusal := .next (s.request r 1 fun _ _ s => s)

/-- Words of bank 0 that port A writes in the same cycle keep its data (R309): the mesh write's words of those indices are
put back as they were, and DP_CONFLICT is set. A write that its target turns away conflicts with nothing. -/
def keepPortA (is : List (Fin 65)) (k : Packet) (s0 s : State) : State :=
  let a := k.addr
  let hit (w : Nat) : Option Nat := match areaOf w with
    | .data p => if w % 0x40000 < 0x4000 then some p else none
    | _ => none
  let ws := if (s0.memCheck k).1.isSome then []
    else (wordsAt a k.data.length).zipIdx.filter fun x => is.any fun i => i.val == x.2
  ws.foldl (fun s x =>
    match hit x.1 with
    | none => s
    | some p =>
      let m : Memory := s.mem.setBytes x.1 (leBytes 4 (s0.mem.raw x.1).toNat)
      (State.setMem s { m with syn := tset 0 m.syn (x.1 / 4) (s0.mem.synOf x.1) }).stick p dpConflict) s

/-- MESH_WR (R286, R308, R309); `portA`: the words, by their index in the write, that port A of an exchange bank writes in
the same cycle. -/
def execMeshWr (r : MeshReq) (portA : List (Fin 65)) (s : State) : Host.Outcome State Fault Refusal :=
  .next (s.request r 2 (keepPortA portA))

/-- A write through an alias; the row's own alias only. -/
def State.aliased (s : State) (r : Sys2Proof.MeshReq) (ali : Nat) : State :=
  if r.addr.toNat / 2 ^ 44 = ali then s.request r 2 fun _ _ s => s else s

/-- ALIAS_BIT_SET (R310, R311). -/
def execAliasBitSet (r : MeshReq) (s : State) : Host.Outcome State Fault Refusal := .next (s.aliased r 1)

/-- ALIAS_BIT_CLEAR (R310, R311). -/
def execAliasBitClear (r : MeshReq) (s : State) : Host.Outcome State Fault Refusal := .next (s.aliased r 2)

/-- An ATOM whose AOP is the row's own, or reserved, which is answered UNKNOWN_OPCODE (R312). -/
def State.atom (s : State) (r : Sys2Proof.MeshReq) (aop : Nat) : State :=
  let own := ((s.takeRequest r 3).1.data.getD 0 0).toNat
  if own = aop ∨ own = 0 ∨ 8 < own then s.request r 3 fun _ _ s => s else s

/-- ATOM_SWAP (R312). -/
def execAtomSwap (r : MeshReq) (s : State) : Host.Outcome State Fault Refusal := .next (s.atom r 1)
/-- ATOM_CAS (R312). -/
def execAtomCas (r : MeshReq) (s : State) : Host.Outcome State Fault Refusal := .next (s.atom r 2)
/-- ATOM_FADD (R312). -/
def execAtomFadd (r : MeshReq) (s : State) : Host.Outcome State Fault Refusal := .next (s.atom r 3)
/-- ATOM_FOR (R312). -/
def execAtomFor (r : MeshReq) (s : State) : Host.Outcome State Fault Refusal := .next (s.atom r 4)
/-- ATOM_FAND (R312). -/
def execAtomFand (r : MeshReq) (s : State) : Host.Outcome State Fault Refusal := .next (s.atom r 5)
/-- ATOM_FXOR (R312). -/
def execAtomFxor (r : MeshReq) (s : State) : Host.Outcome State Fault Refusal := .next (s.atom r 6)
/-- ATOM_UMIN (R312). -/
def execAtomUmin (r : MeshReq) (s : State) : Host.Outcome State Fault Refusal := .next (s.atom r 7)
/-- ATOM_UMAX (R312). -/
def execAtomUmax (r : MeshReq) (s : State) : Host.Outcome State Fault Refusal := .next (s.atom r 8)

/-! ## Steals -/

/-- A unit about to issue stalls for the cycle, and STEAL_COUNT counts; one already stalled leaves the slot free. -/
def State.steal (s : State) (p : Nat) (u : Fin 4) : State :=
  if s.macIssues p u then
    s.updTile p fun t => { t with steals := t.steals + 1, mac := t.mac.set u { t.mac[u] with stalled := true } }
  else s

/-- TAP_STEAL (R141): the request, a write when it carries data, takes slot B of the unit whose tap memory it names. -/
def execTapSteal (p : TileIx) (u : Fin 4) (r : MeshReq) (s : State) : Host.Outcome State Fault Refusal :=
  let a := r.addr.toNat
  let opc := if r.data.isEmpty then 1 else 2
  let late := { r with waited := true }
  let k := (s.takeRequest late opc).1
  .next (match areaOf a with
    | .tap q =>
      if q ≠ p.val ∨ a % 0x4000 / 0x1000 ≠ u.val ∨ !s.awake p then s
      else
        let t := s.request late opc fun _ _ s => s
        if (s.memCheck k).1.isNone && s.granted k true then t.steal p u else t
    | _ => s)

end Sys2Proof.Machine
end

