-- ==== Sys2Proof/Machine/Dispatch.lean ====
section
/-!
DEFINITION. Machine/Dispatch.lean: one arm per command of the table, each a direct call of that command's meaning.
-/
namespace Sys2Proof.Machine

def exec (i : Instr) (s : State) : Host.Outcome State Fault Refusal :=
  match i with
  | .crossbarWordMove p src => Sys2Proof.Machine.execCrossbarWordMove p src s
  | .linkWordArrive l => Sys2Proof.Machine.execLinkWordArrive l s
  | .linkCreditReturn l => Sys2Proof.Machine.execLinkCreditReturn l s
  | .aluNop p n => Sys2Proof.Machine.execAluNop p n s
  | .aluMov p n => Sys2Proof.Machine.execAluMov p n s
  | .aluAdd p n => Sys2Proof.Machine.execAluAdd p n s
  | .aluSub p n => Sys2Proof.Machine.execAluSub p n s
  | .aluAdds p n => Sys2Proof.Machine.execAluAdds p n s
  | .aluSubs p n => Sys2Proof.Machine.execAluSubs p n s
  | .aluAnd p n => Sys2Proof.Machine.execAluAnd p n s
  | .aluOr p n => Sys2Proof.Machine.execAluOr p n s
  | .aluXor p n => Sys2Proof.Machine.execAluXor p n s
  | .aluAndn p n => Sys2Proof.Machine.execAluAndn p n s
  | .aluSll p n => Sys2Proof.Machine.execAluSll p n s
  | .aluSrl p n => Sys2Proof.Machine.execAluSrl p n s
  | .aluRol p n => Sys2Proof.Machine.execAluRol p n s
  | .aluRor p n => Sys2Proof.Machine.execAluRor p n s
  | .aluCmp p n => Sys2Proof.Machine.execAluCmp p n s
  | .aluCsel p n => Sys2Proof.Machine.execAluCsel p n s
  | .aluMin p n => Sys2Proof.Machine.execAluMin p n s
  | .aluMax p n => Sys2Proof.Machine.execAluMax p n s
  | .aluPopcnt p n => Sys2Proof.Machine.execAluPopcnt p n s
  | .aluShuf p n => Sys2Proof.Machine.execAluShuf p n s
  | .aluCrc32 p n => Sys2Proof.Machine.execAluCrc32 p n s
  | .aluGfmul p n => Sys2Proof.Machine.execAluGfmul p n s
  | .aluCrcapp p n => Sys2Proof.Machine.execAluCrcapp p n s
  | .crcappAppend p n => Sys2Proof.Machine.execCrcappAppend p n s
  | .aluResultReady p n => Sys2Proof.Machine.execAluResultReady p n s
  | .portRead p k => Sys2Proof.Machine.execPortRead p k s
  | .portWrite p k both => Sys2Proof.Machine.execPortWrite p k both s
  | .genRead p k => Sys2Proof.Machine.execGenRead p k s
  | .genWrite p k both => Sys2Proof.Machine.execGenWrite p k both s
  | .portSet p k => Sys2Proof.Machine.execPortSet p k s
  | .portClear p k => Sys2Proof.Machine.execPortClear p k s
  | .portReadReturn p k => Sys2Proof.Machine.execPortReadReturn p k s
  | .getWork p => Sys2Proof.Machine.execGetWork p s
  | .grant p => Sys2Proof.Machine.execGrant p s
  | .tileDrained p => Sys2Proof.Machine.execTileDrained p s
  | .tileAbort p => Sys2Proof.Machine.execTileAbort p s
  | .yieldRequest p => Sys2Proof.Machine.execYieldRequest p s
  | .yieldAccept p => Sys2Proof.Machine.execYieldAccept p s
  | .holdoffExpire p => Sys2Proof.Machine.execHoldoffExpire p s
  | .fillRequest p => Sys2Proof.Machine.execFillRequest p s
  | .fillStart p => Sys2Proof.Machine.execFillStart p s
  | .cacheFillComplete p => Sys2Proof.Machine.execCacheFillComplete p s
  | .storeFillResponse p => Sys2Proof.Machine.execStoreFillResponse p s
  | .cacheFrameWriteResume p => Sys2Proof.Machine.execCacheFrameWriteResume p s
  | .ctxCtrlFenceWrite p v => Sys2Proof.Machine.execCtxCtrlFenceWrite p v s
  | .fenceApply p => Sys2Proof.Machine.execFenceApply p s
  | .ctxCtrlZeroize p => Sys2Proof.Machine.execCtxCtrlZeroize p s
  | .zeroizeComplete p => Sys2Proof.Machine.execZeroizeComplete p s
  | .macNop p u => Sys2Proof.Machine.execMacNop p u s
  | .macMul p u => Sys2Proof.Machine.execMacMul p u s
  | .mack p u => Sys2Proof.Machine.execMack p u s
  | .fird p u => Sys2Proof.Machine.execFird p u s
  | .maxa p u => Sys2Proof.Machine.execMaxa p u s
  | .lda p u => Sys2Proof.Machine.execLda p u s
  | .inWord p u => Sys2Proof.Machine.execInWord p u s
  | .outWord p u => Sys2Proof.Machine.execOutWord p u s
  | .macOutEnqueue p u => Sys2Proof.Machine.execMacOutEnqueue p u s
  | .stt p u => Sys2Proof.Machine.execStt p u s
  | .sttTapWrite p u => Sys2Proof.Machine.execSttTapWrite p u s
  | .norm p u => Sys2Proof.Machine.execNorm p u s
  | .setp p u => Sys2Proof.Machine.execSetp p u s
  | .rept p u => Sys2Proof.Machine.execRept p u s
  | .jmp p u => Sys2Proof.Machine.execJmp p u s
  | .haltUnit p u => Sys2Proof.Machine.execHaltUnit p u s
  | .tapSteal p u r => Sys2Proof.Machine.execTapSteal p u r s
  | .ringRowWrite p r => Sys2Proof.Machine.execRingRowWrite p r s
  | .ringRowRead p k => Sys2Proof.Machine.execRingRowRead p k s
  | .ringRowArrive p k => Sys2Proof.Machine.execRingRowArrive p k s
  | .deqPopRead p k r => Sys2Proof.Machine.execDeqPopRead p k r s
  | .deqGeometryApply p k => Sys2Proof.Machine.execDeqGeometryApply p k s
  | .boundaryWriteSync l => Sys2Proof.Machine.execBoundaryWriteSync l s
  | .boundaryCreditSync l => Sys2Proof.Machine.execBoundaryCreditSync l s
  | .dispatcherFlagSet n => Sys2Proof.Machine.execDispatcherFlagSet n s
  | .taskReady t => Sys2Proof.Machine.execTaskReady t s
  | .dispatchSelect q n => Sys2Proof.Machine.execDispatchSelect q n s
  | .aheadFill q n => Sys2Proof.Machine.execAheadFill q n s
  | .dispatchDone n => Sys2Proof.Machine.execDispatchDone n s
  | .notifyArrive n => Sys2Proof.Machine.execNotifyArrive n s
  | .timerFire n t => Sys2Proof.Machine.execTimerFire n t s
  | .ageTick n => Sys2Proof.Machine.execAgeTick n s
  | .flagsSetWrite t w => Sys2Proof.Machine.execFlagsSetWrite t w s
  | .laneCtrlWrite l w => Sys2Proof.Machine.execLaneCtrlWrite l w s
  | .laneSignalPresent l => Sys2Proof.Machine.execLaneSignalPresent l s
  | .laneSignalLost l => Sys2Proof.Machine.execLaneSignalLost l s
  | .laneLocked l => Sys2Proof.Machine.execLaneLocked l s
  | .laneUp l => Sys2Proof.Machine.execLaneUp l s
  | .cdrLoss l => Sys2Proof.Machine.execCdrLoss l s
  | .alignLoss l => Sys2Proof.Machine.execAlignLoss l s
  | .hiBer l => Sys2Proof.Machine.execHiBer l s
  | .remoteFault l => Sys2Proof.Machine.execRemoteFault l s
  | .remoteFaultEnd l => Sys2Proof.Machine.execRemoteFaultEnd l s
  | .mlfDataRx l f => Sys2Proof.Machine.execMlfDataRx l f s
  | .mlfCreditRx l f => Sys2Proof.Machine.execMlfCreditRx l f s
  | .mlfControlRx l f => Sys2Proof.Machine.execMlfControlRx l f s
  | .mlfCommandRx l f => Sys2Proof.Machine.execMlfCommandRx l f s
  | .ethFrameRx l f => Sys2Proof.Machine.execEthFrameRx l f s
  | .pfcFrameRx l f => Sys2Proof.Machine.execPfcFrameRx l f s
  | .pauseFrameRx l f => Sys2Proof.Machine.execPauseFrameRx l f s
  | .pfcPauseExpire l c => Sys2Proof.Machine.execPfcPauseExpire l c s
  | .pfcXoffTx l c => Sys2Proof.Machine.execPfcXoffTx l c s
  | .pfcRepeatTx l c => Sys2Proof.Machine.execPfcRepeatTx l c s
  | .pfcXonTx l c => Sys2Proof.Machine.execPfcXonTx l c s
  | .edgeEgressPacket e => Sys2Proof.Machine.execEdgeEgressPacket e s
  | .dataFrameTx l => Sys2Proof.Machine.execDataFrameTx l s
  | .creditFrameTx l => Sys2Proof.Machine.execCreditFrameTx l s
  | .creditRepeat k => Sys2Proof.Machine.execCreditRepeat k s
  | .heartbeatTx l => Sys2Proof.Machine.execHeartbeatTx l s
  | .seqSyncTx k => Sys2Proof.Machine.execSeqSyncTx k s
  | .partnerSilent l => Sys2Proof.Machine.execPartnerSilent l s
  | .inbandReplyTx q => Sys2Proof.Machine.execInbandReplyTx q s
  | .timeNsRead => Sys2Proof.Machine.execTimeNsRead s
  | .timeAdjWrite w => Sys2Proof.Machine.execTimeAdjWrite w s
  | .loadSecHiWrite w => Sys2Proof.Machine.execLoadSecHiWrite w s
  | .ppsEdge => Sys2Proof.Machine.execPpsEdge s
  | .ppsStatusRead => Sys2Proof.Machine.execPpsStatusRead s
  | .timePllLock => Sys2Proof.Machine.execTimePllLock s
  | .timePllLoss => Sys2Proof.Machine.execTimePllLoss s
  | .carafeSpillWrite k => Sys2Proof.Machine.execCarafeSpillWrite k s
  | .carafeSpillDone k => Sys2Proof.Machine.execCarafeSpillDone k s
  | .carafeRefillRead k => Sys2Proof.Machine.execCarafeRefillRead k s
  | .carafeRefillDone k => Sys2Proof.Machine.execCarafeRefillDone k s
  | .creditEngineVisit k => Sys2Proof.Machine.execCreditEngineVisit k s
  | .edgeInjectPacket k => Sys2Proof.Machine.execEdgeInjectPacket k s
  | .bypassFrame k => Sys2Proof.Machine.execBypassFrame k s
  | .requestTranslateRetry r => Sys2Proof.Machine.execRequestTranslateRetry r s
  | .tagGrant q => Sys2Proof.Machine.execTagGrant q s
  | .meshFlitForward r o flips => Sys2Proof.Machine.execMeshFlitForward r o flips s
  | .meshCreditReturn r a v => Sys2Proof.Machine.execMeshCreditReturn r a v s
  | .meshRd r => Sys2Proof.Machine.execMeshRd r s
  | .meshWr r portA => Sys2Proof.Machine.execMeshWr r portA s
  | .aliasBitSet r => Sys2Proof.Machine.execAliasBitSet r s
  | .aliasBitClear r => Sys2Proof.Machine.execAliasBitClear r s
  | .atomSwap r => Sys2Proof.Machine.execAtomSwap r s
  | .atomCas r => Sys2Proof.Machine.execAtomCas r s
  | .atomFadd r => Sys2Proof.Machine.execAtomFadd r s
  | .atomFor r => Sys2Proof.Machine.execAtomFor r s
  | .atomFand r => Sys2Proof.Machine.execAtomFand r s
  | .atomFxor r => Sys2Proof.Machine.execAtomFxor r s
  | .atomUmin r => Sys2Proof.Machine.execAtomUmin r s
  | .atomUmax r => Sys2Proof.Machine.execAtomUmax r s
  | .meshCmd => Sys2Proof.Machine.execMeshCmd s
  | .meshEvt r => Sys2Proof.Machine.execMeshEvt r s
  | .meshRpl => Sys2Proof.Machine.execMeshRpl s
  | .meshResponse => Sys2Proof.Machine.execMeshResponse s
  | .proxyPassHeld r a v => Sys2Proof.Machine.execProxyPassHeld r a v s
  | .rtCtrlApply r => Sys2Proof.Machine.execRtCtrlApply r s
  | .routerReopen r => Sys2Proof.Machine.execRouterReopen r s
  | .systemRequestReissue => Sys2Proof.Machine.execSystemRequestReissue s
  | .dramSlot c => Sys2Proof.Machine.execDramSlot c s
  | .dramReadData c => Sys2Proof.Machine.execDramReadData c s
  | .dramRefresh c => Sys2Proof.Machine.execDramRefresh c s
  | .dcApplyWrite c => Sys2Proof.Machine.execDcApplyWrite c s
  | .slotTableApply c => Sys2Proof.Machine.execSlotTableApply c s
  | .bankOwnerWrite c b w => Sys2Proof.Machine.execBankOwnerWrite c b w s
  | .bankOwnerApply c b => Sys2Proof.Machine.execBankOwnerApply c b s
  | .sealedInit c b => Sys2Proof.Machine.execSealedInit c b s
  | .sealedInitDone c b => Sys2Proof.Machine.execSealedInitDone c b s
  | .dramCalibrationDone c ok => Sys2Proof.Machine.execDramCalibrationDone c ok s
  | .sqTailWrite n m b => Sys2Proof.Machine.execSqTailWrite n m b s
  | .cqHeadWrite n m b => Sys2Proof.Machine.execCqHeadWrite n m b s
  | .qCtrlWrite n m w => Sys2Proof.Machine.execQCtrlWrite n m w s
  | .queueDisableDone n m => Sys2Proof.Machine.execQueueDisableDone n m s
  | .commandFetch n m => Sys2Proof.Machine.execCommandFetch n m s
  | .completionWrite n m err => Sys2Proof.Machine.execCompletionWrite n m err s
  | .perstAssert n => Sys2Proof.Machine.execPerstAssert n s
  | .hostLinkDown n => Sys2Proof.Machine.execHostLinkDown n s
  | .perstDeassert n => Sys2Proof.Machine.execPerstDeassert n s
  | .baristaSliceEnd c => Sys2Proof.Machine.execBaristaSliceEnd c s
  | .smbusCommandWrite a data pec => Sys2Proof.Machine.execSmbusCommandWrite a data pec s
  | .smbusReplyRead a => Sys2Proof.Machine.execSmbusReplyRead a s
  | .smbusStatusRead a => Sys2Proof.Machine.execSmbusStatusRead a s
  | .smbusClockTimeout => Sys2Proof.Machine.execSmbusClockTimeout s
  | .eventDeliver r => Sys2Proof.Machine.execEventDeliver r s
  | .unknownOpcode r => Sys2Proof.Machine.execUnknownOpcode r s
  | .nop r => Sys2Proof.Machine.execNop r s
  | .identify r => Sys2Proof.Machine.execIdentify r s
  | .getStatus r => Sys2Proof.Machine.execGetStatus r s
  | .readTelemetry r => Sys2Proof.Machine.execReadTelemetry r s
  | .partCreate r => Sys2Proof.Machine.execPartCreate r s
  | .partGrant r => Sys2Proof.Machine.execPartGrant r s
  | .partRevoke r => Sys2Proof.Machine.execPartRevoke r s
  | .partDestroy r => Sys2Proof.Machine.execPartDestroy r s
  | .partQuery r => Sys2Proof.Machine.execPartQuery r s
  | .ownerEnroll r => Sys2Proof.Machine.execOwnerEnroll r s
  | .laneConfig r => Sys2Proof.Machine.execLaneConfig r s
  | .laneState r => Sys2Proof.Machine.execLaneState r s
  | .partnerDefine r => Sys2Proof.Machine.execPartnerDefine r s
  | .dramDescribe r => Sys2Proof.Machine.execDramDescribe r s
  | .envSet r => Sys2Proof.Machine.execEnvSet r s
  | .timeSet r => Sys2Proof.Machine.execTimeSet r s
  | .memWrite r => Sys2Proof.Machine.execMemWrite r s
  | .memRead r => Sys2Proof.Machine.execMemRead r s
  | .memFill r => Sys2Proof.Machine.execMemFill r s
  | .memAtomic r => Sys2Proof.Machine.execMemAtomic r s
  | .persLoad r => Sys2Proof.Machine.execPersLoad r s
  | .persUnload r => Sys2Proof.Machine.execPersUnload r s
  | .ctxPin r => Sys2Proof.Machine.execCtxPin r s
  | .graphStart r => Sys2Proof.Machine.execGraphStart r s
  | .graphStop r => Sys2Proof.Machine.execGraphStop r s
  | .streamOpen r => Sys2Proof.Machine.execStreamOpen r s
  | .streamClose r => Sys2Proof.Machine.execStreamClose r s
  | .streamClassify r => Sys2Proof.Machine.execStreamClassify r s
  | .streamCreditSet r => Sys2Proof.Machine.execStreamCreditSet r s
  | .markSet r => Sys2Proof.Machine.execMarkSet r s
  | .markAdvance r => Sys2Proof.Machine.execMarkAdvance r s
  | .streamReplay r => Sys2Proof.Machine.execStreamReplay r s
  | .streamStats r => Sys2Proof.Machine.execStreamStats r s
  | .taskArm r => Sys2Proof.Machine.execTaskArm r s
  | .taskCancel r => Sys2Proof.Machine.execTaskCancel r s
  | .taskSignal r => Sys2Proof.Machine.execTaskSignal r s
  | .taskQuery r => Sys2Proof.Machine.execTaskQuery r s
  | .agingSet r => Sys2Proof.Machine.execAgingSet r s
  | .latencyToleranceSet r => Sys2Proof.Machine.execLatencyToleranceSet r s
  | .powerQuery r => Sys2Proof.Machine.execPowerQuery r s
  | .powerCapSet r => Sys2Proof.Machine.execPowerCapSet r s
  | .scrubRange r => Sys2Proof.Machine.execScrubRange r s
  | .percolatorControl r => Sys2Proof.Machine.execPercolatorControl r s
  | .cuppingControl r => Sys2Proof.Machine.execCuppingControl r s
  | .faultLogRead r => Sys2Proof.Machine.execFaultLogRead r s
  | .faultInject r => Sys2Proof.Machine.execFaultInject r s
  | .attest r => Sys2Proof.Machine.execAttest r s
  | .keyLoad r => Sys2Proof.Machine.execKeyLoad r s
  | .keyDestroy r => Sys2Proof.Machine.execKeyDestroy r s
  | .sessionRekey r => Sys2Proof.Machine.execSessionRekey r s
  | .debugUnlock r => Sys2Proof.Machine.execDebugUnlock r s
  | .fwUpdateStage r => Sys2Proof.Machine.execFwUpdateStage r s
  | .fwActivate r => Sys2Proof.Machine.execFwActivate r s
  | .eventSubscribe r => Sys2Proof.Machine.execEventSubscribe r s
  | .eventAck r => Sys2Proof.Machine.execEventAck r s
  | .secureSlotEnd => Sys2Proof.Machine.execSecureSlotEnd s
  | .partitionFault q => Sys2Proof.Machine.execPartitionFault q s
  | .recoveryCheck q => Sys2Proof.Machine.execRecoveryCheck q s
  | .recoveryRefill q => Sys2Proof.Machine.execRecoveryRefill q s
  | .recoveryResume q => Sys2Proof.Machine.execRecoveryResume q s
  | .percolatorFrameCheck => Sys2Proof.Machine.execPercolatorFrameCheck s
  | .percolatorRepair => Sys2Proof.Machine.execPercolatorRepair s
  | .percolatorLatchVote rom => Sys2Proof.Machine.execPercolatorLatchVote rom s
  | .cuppingStep n => Sys2Proof.Machine.execCuppingStep n s
  | .spareTestDone n ok => Sys2Proof.Machine.execSpareTestDone n ok s
  | .cuppingMigration n => Sys2Proof.Machine.execCuppingMigration n s
  | .migrationDone n => Sys2Proof.Machine.execMigrationDone n s
  | .tileFault => Sys2Proof.Machine.execTileFault s
  | .sectorPowerChoose n => Sys2Proof.Machine.execSectorPowerChoose n s
  | .pointOfNoReturn n => Sys2Proof.Machine.execPointOfNoReturn n s
  | .sleepStateReached n => Sys2Proof.Machine.execSleepStateReached n s
  | .wakeRequest n => Sys2Proof.Machine.execWakeRequest n s
  | .steepWakeDone n => Sys2Proof.Machine.execSteepWakeDone n s
  | .deepWakeDone n late => Sys2Proof.Machine.execDeepWakeDone n late s
  | .timerWake n => Sys2Proof.Machine.execTimerWake n s
  | .secForceWrite n w => Sys2Proof.Machine.execSecForceWrite n w s
  | .clockStep n => Sys2Proof.Machine.execClockStep n s
  | .powerCapUpdate watts sectors => Sys2Proof.Machine.execPowerCapUpdate watts sectors s
  | .thermalUpdate temps => Sys2Proof.Machine.execThermalUpdate temps s
  | .criticalAlarm => Sys2Proof.Machine.execCriticalAlarm s
  | .criticalClear => Sys2Proof.Machine.execCriticalClear s
  | .deviceReset => Sys2Proof.Machine.execDeviceReset s
  | .supplyMonitorTrip => Sys2Proof.Machine.execSupplyMonitorTrip s
  | .bootStage e => Sys2Proof.Machine.execBootStage e s
  | .tapReset => Sys2Proof.Machine.execTapReset s
  | .jtagBypass bits => Sys2Proof.Machine.execJtagBypass bits s
  | .jtagIdcode => Sys2Proof.Machine.execJtagIdcode s
  | .jtagSamplePreload pins load => Sys2Proof.Machine.execJtagSamplePreload pins load s
  | .jtagExtest pins load => Sys2Proof.Machine.execJtagExtest pins load s
  | .jtagExtestPulse pins load => Sys2Proof.Machine.execJtagExtestPulse pins load s
  | .jtagExtestTrain pins load => Sys2Proof.Machine.execJtagExtestTrain pins load s
  | .jtagPrivate bits => Sys2Proof.Machine.execJtagPrivate bits s
  | .registerWrite bar a w => Sys2Proof.Machine.execRegisterWrite bar a w s
  | .commandTimeout r k => Sys2Proof.Machine.execCommandTimeout r k s
  | .resetRelease b => Sys2Proof.Machine.execResetRelease b s
  | .upset u => Sys2Proof.Machine.execUpset u s
  | .frameSentWhole l => Sys2Proof.Machine.execFrameSentWhole l s
  | .eqLimit l e up => Sys2Proof.Machine.execEqLimit l e up s
  | .fecCodeword l ok => Sys2Proof.Machine.execFecCodeword l ok s
  | .hostReadCompletion n k data err => Sys2Proof.Machine.execHostReadCompletion n k data err s
  | .smbusAlertResponse => Sys2Proof.Machine.execSmbusAlertResponse s

end Sys2Proof.Machine
end

