-- ==== Sys2Proof/Machine/Tick.lean ====
section
/-!
DEFINITION. Machine/Tick.lean: what passes by itself when no command waits: the counters that count clock cycles and that
no operation of the table moves: the time counter (R239), the global slot (R288), the length of a running drain (R296),
the dispatchers' age counters (R203), and the waiting of requests at their targets (R74, R141). DESIGN CHOICE: one tick is
one cycle of each of their clocks.
-/
namespace Sys2Proof.Machine

/-- A draining router counts the cycles since APPLY. -/
def Router.tick (r : Router) : Router := if r.draining then { r with drainCycles := r.drainCycles + 1 } else r

/-- The age counter of a sector in Brew counts toward its wrap, which AGE_TICK carries out. -/
def Sector.tick (x : Sector) : Sector :=
  if x.pstate = .brew ∧ x.agePhase ≠ 1023 then { x with agePhase := x.agePhase + 1 } else x

/-- TIME cycles in a microsecond: the time unit sends its tick to the timers after each (R191, Table 01-3). -/
def usCycles : Nat := 625

/-- The 1 µs tick reaches the timers of a sector (R191); in Cool and Cold the power manager counts for them (R471). -/
def Sector.usTick (x : Sector) : Sector := { x with timers := x.timers.map fun e => (e.1, e.2.tick) }

/-- One cycle of every clock. -/
def State.tick (s : State) : State :=
  let m := s.mesh
  { s with
    time := if s.time.locked then s.time.cycle else s.time
    usPhase := (s.usPhase + 1) % usCycles
    mesh := { m with slotCount := m.slotCount + 1, routers := m.routers.map fun e => (e.1, e.2.tick)
                     arrived := m.arrived.map fun k => { k with waited := k.waited + 1 } }
    sectors := (List.range 8).foldl (fun t n =>
      let x := (s.sector n).tick
      tset {} t n (if s.usPhase + 1 = usCycles then x.usTick else x)) s.sectors }

end Sys2Proof.Machine
end

