-- ==== Sys2Proof/Safety.lean ====
section
/-!
DEFINITION. Safety.lean: the terms in which claims about the block are stated: the canonical form of its memories, the
fuses that never clear, when a command of a host is accepted and what its start does.
-/
namespace Sys2Proof.Machine

/-! ## Canonical tables -/

/-- Every key of the table is above `lo`. -/
def keysAbove {α : Type} : Nat → Tab α → Bool
  | _, [] => true
  | lo, (k, _) :: r => decide (lo < k) && keysAbove k r

/-- The keys of the table rise strictly, and no value equals the one an absent key stands for. -/
def canonical {α : Type} [DecidableEq α] (d : α) (t : Tab α) : Bool :=
  (match t with
    | [] => true
    | (k, _) :: r => keysAbove k r) && t.all fun e => decide (e.2 ≠ d)

/-- The canonical form of the memories: equal contents are equal data. -/
def Memory.wf (m : Memory) : Bool := canonical 0 m.cells && canonical 0 m.syn && canonical none m.lines

/-! ## Fuses (R433, R436) -/

/-- Every fuse that is blown in `a` is blown in `b`: a programmed platform-owner slot stays as it is, and the rollback
counters do not fall. -/
def Fuses.keptIn (a b : Fuses) : Prop :=
  a.vendor ≤ b.vendor ∧ a.config ≤ b.config ∧ ∀ i, tget none a.slots i ≠ none → tget none b.slots i = tget none a.slots i

/-! ## Commands (R345, R347 to R350) -/

/-- The oldest command `c` of recipient `r`, with opcode `op`, passes every check that comes before its own work: it is
in a slice of its owner, the device is ready, no earlier command holds it back, it authenticates (`auth`: it carries a
MAC), its role may issue it, and its reserved header bits are 0; and no command of this opcode waits. -/
structure State.Starts (s : State) (r : Recip) (c : CmdRec) (rest : List CmdRec) (op : Nat) (auth : Bool) : Prop where
  buffer : s.buffer r = c :: rest
  opcode : c.opcode = op
  known : opcodeKnown op = true
  slice : s.inSlice r = true
  served : s.hasSlice r = true
  quiet : (s.running.filter fun x => x.cmd.stamp == r.val && x.cmd.opcode == op && x.wait != .payload && s.onCore x.cmd) = []
  ready : s.boot.ready = true
  notLeaving : s.boot.activate = false
  notRecovering : ¬(r.val < 16 ∧ (s.part r).state = 3)
  order : s.orderOk c = true
  authentic : (s.setBuffer r rest).authenticate c = some auth
  role : c.roleOk = true
  header : c.flags < 4 ∧ c.num 3 1 = 0

/-- And no command that has started before it names the same object and has still to take effect (R349). -/
structure State.Accepts (s : State) (r : Recip) (c : CmdRec) (rest : List CmdRec) (op : Nat) (auth : Bool) : Prop
    extends State.Starts s r c rest op auth where
  free : (s.running.any fun x => x.wait.idle && x.cmd.conflicts c) = false

/-- The command as it is worked on, with what authentication found. -/
def State.taken (s : State) (c : CmdRec) (auth : Bool) : CmdRec :=
  { c with auth := auth, key := if auth then (s.role c.stamp).session.map (·.krpl) else none
           core := s.coreOf c.stamp, no := s.starts }

/-- The state in which an accepted command's own work begins: it has left its buffer, and its queue's count of failures
is 0 and LAST its sequence number. -/
def State.begun (s : State) (r : Recip) (c : CmdRec) (rest : List CmdRec) (auth : Bool) : State :=
  let s := s.setBuffer r rest
  let q := s.queue c.qid
  let s := s.setQueue c.qid { q with authFails := 0, last := if auth then BitVec.ofNat 32 c.seq else q.last }
  { s with starts := s.starts + 1 }

/-- An accepted command is answered at once, with a status and a RESULT, in the state its work leaves. -/
def State.answered (s : State) (r : Recip) (c : CmdRec) (rest : List CmdRec) (auth : Bool) (status : Nat)
    (result : List Byte) (t : State) : State :=
  let b := s.begun r c rest auth
  b.finish (b.taken c auth) (.reply status result t)

/-- An accepted command starts and waits. -/
def State.waits (s : State) (r : Recip) (c : CmdRec) (rest : List CmdRec) (auth : Bool) (w : Wait) (t : State) : State :=
  { t with running := t.running ++ [{ cmd := (s.begun r c rest auth).taken c auth, wait := w }] }

/-- A descriptor of `n` bytes that a command can use at once: host memory behind its queue's port, or a range of its own,
with a tag to reach it (R359). -/
def State.descReady (s : State) (c : CmdRec) (d : Desc) (n : Nat) (isWrite : Bool) : Prop :=
  d.space = 0 ∧ qidKind c.qid = 0 ∨ d.space = 1 ∧ s.rangeAt c.stamp d.addr n isWrite = 0 ∧ s.noTags c.stamp = false

/-- Without a started command. -/
def State.without (s : State) (x : Running) : State := { s with running := s.running.erase x }

/-- A command's output goes to host memory: it is handed to its port, or meets a PCI Express error (R359); which of the two
is the host's, a free value (log entry 93). A port that was lost takes nothing (R340). -/
def State.hostWritten (s : State) (c : CmdRec) (d : Desc) (data : List Byte) : Bool × State :=
  let (n, s) := s.draw
  if c.silent then (true, s)
  else if Config.hostWriteFails n then (false, s.hpStick (qidHost c.qid) hpPcieErr)
  else (true, { s with hostWrites := s.hostWrites ++ [{ port := qidHost c.qid, addr := d.addr, bytes := data }] })

/-- A command's output goes where its descriptor says, if there is any (R359): whether the write succeeded. -/
def State.written (s : State) (c : CmdRec) (d : Desc) (data : List Byte) : Bool × State :=
  if data = [] then (true, s)
  else if d.space = 0 then s.hostWritten c d data
  else ((s.writeRange c.stamp d.addr data).status == stOk, (s.writeRange c.stamp d.addr data).s)

/-- An accepted command is answered once its output has been written, or has failed: with OK and its RESULT, or with
POISONED_DATA (R359). -/
def State.outputAnswered (s : State) (r : Recip) (c : CmdRec) (rest : List CmdRec) (auth : Bool) (result : List Byte)
    (o : Bool × State) : State :=
  s.answered r c rest auth (if o.1 then stOk else stPoison) (if o.1 then result else []) o.2

/-- A started command with opcode `op` is the oldest of recipient `r` with that opcode whose core is in a slice of its
owner, and waits for `w`. -/
structure State.WaitsFor (s : State) (r : Recip) (x : Running) (op : Nat) (w : Wait) : Prop where
  oldest : ∃ more, (s.running.filter fun y => y.cmd.stamp == r.val && y.cmd.opcode == op && y.wait != .payload && s.onCore y.cmd) = x :: more
  waits : x.wait = w

/-- It goes on from the progress `p`. -/
abbrev State.Resumes (s : State) (r : Recip) (x : Running) (op : Nat) (p : List Nat) : Prop := s.WaitsFor r x op (.again p)

/-- An accepted command reads `n` bytes of host memory, and waits for them (R339, R359). -/
def State.fetches (s : State) (r : Recip) (c : CmdRec) (rest : List CmdRec) (auth : Bool) (addr n : Nat) : State :=
  let b := s.begun r c rest auth
  let k := b.taken c auth
  { b with running := b.running ++ [{ cmd := k, wait := .payload }],
           hostReads := b.hostReads ++ [{ port := qidHost c.qid, addr := addr, len := n, payload := some k }] }

/-- What row `i` does with an accepted command that needs the `n` bytes its descriptor `d` names: it waits for those in host
memory; those of a range of its own are read at once, a request that fails ends it with its status, poison with
POISONED_DATA, and else `work` goes on with them (R359). -/
def State.takesInput (s : State) (i : Instr) (r : Recip) (c : CmdRec) (rest : List CmdRec) (auth : Bool) (d : Desc) (n : Nat)
    (work : List Byte → State → CmdOut) : Prop :=
  let b := s.begun r c rest auth
  let m := b.readRange c.stamp d.addr n
  (d.space = 0 → qidKind c.qid = 0 → exec i s = .next (s.fetches r c rest auth d.addr n)) ∧
  (d.space = 1 → b.rangeAt c.stamp d.addr n false = 0 → b.noTags c.stamp = false →
    (m.status ≠ stOk → exec i s = .next (s.answered r c rest auth m.status [] m.s)) ∧
    (m.status = stOk → m.poison ≠ none → exec i s = .next (s.answered r c rest auth stPoison [] m.s)) ∧
    (m.status = stOk → m.poison = none → exec i s = .next (b.finish (b.taken c auth) (work m.data m.s))))

/-- What a row of the security engine does (R430): its command, accepted, takes its input and waits with it for a slot of its
bank when there is none, and `work` runs in one; a command that waited goes on when its slot has come. `ok` is what the
command's own checks ask. -/
def engineRow (row : Recip → Instr) (op : Nat) (bank : CmdRec → Nat) (d : CmdRec → Desc) (n : CmdRec → Nat)
    (ok : CmdRec → State → Prop) (work : CmdRec → List Byte → State → CmdOut) : Prop :=
  ∀ (s : State) (r : Recip),
    (∀ c rest auth, s.Accepts r c rest op auth → ok c (s.begun r c rest auth) →
      s.takesInput (row r) r c rest auth (d c) (n c) fun data w =>
        if w.secSlot = bank c then work ((s.begun r c rest auth).taken c auth) data w else .wait (.engine data) w) ∧
    (∀ x data, s.WaitsFor r x op (.engine data) → ok x.cmd (s.without x) →
      (s.without x).descReady x.cmd (d x.cmd) (n x.cmd) false → (s.without x).secSlot = bank x.cmd →
      exec (row r) s = .next ((s.without x).finish x.cmd (work x.cmd data (s.without x))))

/-- A started command is answered in the state its work leaves. -/
def State.ended (s : State) (x : Running) (status : Nat) (result : List Byte) (t : State) : State :=
  (s.without x).finish x.cmd (.reply status result t)

/-- A started command goes on waiting. -/
def State.stays (s : State) (x : Running) (w : Wait) (t : State) : State :=
  (s.without x).finish x.cmd (.wait w t)

end Sys2Proof.Machine
end

