-- ==== Sys2Proof/Certificates/Slice0/Obligations.lean ====
section
/-!
DEFINITION. Certificates/Slice0/Obligations.lean: the statements for the provers, one definition each. A row whose
condition does not hold changes nothing (notes/assumptions/2.md); each statement says where a row completes with its own
effect, as an equation for the next state, so that it also says what the row leaves unchanged.
-/
open Sys2Proof Sys2Proof.Machine

/-- O1. When command c stands at the front of the queue, a step is exec of c on the state with the rest of the queue in its place. -/
def Obligations.StepRunsTheFrontCommand : Prop :=
  ∀ (c : Instr) (rest : List Instr) (s : State),
    step { s with pending := c :: rest } = exec c { s with pending := rest }

/-- O2. On an empty queue a step answers the next state in which the time counter (when it is locked), the phase of the microsecond tick, the global slot, the drain counters, the waiting of arrived requests and the age counters have moved by one cycle, and, when the microsecond is over, the timers of every sector have counted; every other field is as it was. That a tick stands in place of idling is the model's own choice (notes/assumptions/3.md). -/
def Obligations.IdleStepCountsOneCycle : Prop :=
  ∀ s : State, s.pending = [] → ∃ t : State, step s = .next t ∧
    t = { s with time := t.time, usPhase := (s.usPhase + 1) % usCycles, mesh := t.mesh, sectors := t.sectors } ∧
    t.time = (if s.time.locked then s.time.cycle else s.time) ∧
    t.mesh = { s.mesh with slotCount := s.mesh.slotCount + 1, routers := t.mesh.routers
                           arrived := s.mesh.arrived.map fun k => { k with waited := k.waited + 1 } } ∧
    (∀ r, t.router r = { s.router r with
      drainCycles := (s.router r).drainCycles + (if (s.router r).draining then 1 else 0) }) ∧
    (∀ n, n < 8 → t.sector n = { s.sector n with
      agePhase := if (s.sector n).pstate = .brew ∧ (s.sector n).agePhase ≠ 1023 then (s.sector n).agePhase + 1
        else (s.sector n).agePhase
      timers := if s.usPhase + 1 = usCycles then (s.sector n).timers.map fun e => (e.1, e.2.tick)
        else (s.sector n).timers })

/-- O3. If the on-chip bytes, the stored check bits and the DRAM lines are in canonical form (keys rising, no entry equal to what an unlisted one reads as) and a step answers a next state, they are in canonical form there too. -/
def Obligations.MemoryStaysCanonical : Prop :=
  ∀ s t : State, s.mem.wf = true → step s = .next t → t.mem.wf = true

/-- O4. For every bound v and c and every slot content h: if the vendor counter is at least v, the configuration counter at least c, and slot i holds the hash h, and a step answers a next state, then the same holds there. So the counters of the rollback check never fall, from any state. -/
def Obligations.BlownFusesStayBlown : Prop :=
  ∀ (f : Fuses) (s t : State), f.keptIn s.fuses → step s = .next t → f.keptIn t.fuses

/-- O5. State.reset has an empty queue, holds device reset, has canonical memories with nothing listed, every sector in Brew at 400 MHz with its ceilings at 400 MHz, every partition ABSENT, every cell free and every queue not enabled. That fuses are blank is the model's own choice (notes/assumptions/8.md). -/
def Obligations.ResetIsCanonicalAndBlank : Prop :=
  State.reset.pending = [] ∧ State.reset.boot.held = true ∧ State.reset.mem.wf = true ∧ State.reset.mem.cells = [] ∧
    (∀ n, (State.reset.sector n).pstate = .brew ∧ (State.reset.sector n).clk = 400 ∧ (State.reset.sector n).limit = 400) ∧
    State.reset.power.p = 400 ∧ (∀ q, (State.reset.part q).state = 0) ∧ (∀ n, (tget {} State.reset.cells n).owner = 31) ∧
    (∀ x, (State.reset.queue x).en = false)

/-- O6. For every data word: stored without error it is delivered clean; with any one of its 39 stored bits flipped the original data is delivered and the verdict is corrected; with any two different bits flipped the verdict is uncorrectable, which is delivered as poison. The stored bits are given as the stored data and the difference of the stored check bits from the check bits of that data. Flipping data bit b of a word changes its check bits by exactly column b, so the difference between stored and computed check bits after one flip is the column, whatever the word. -/
def Obligations.SecdedCorrectsOneBitAndReportsTwo : Prop :=
  (∀ d : Word, decodeWord d 0 = (d, .clean) ∧
    (∀ b, b < 32 → decodeWord (d ^^^ (1#32 <<< b)) (columnOf b) = (d, .corrected)) ∧
    (∀ j, 32 ≤ j → j < 39 → decodeWord d (columnOf j) = (d, .corrected)) ∧
    (∀ (x : Word) (b c : Nat), b < c → c < 39 → (decodeWord x (columnOf b ^^^ columnOf c)).2 = .uncorrectable) ∧
    (∀ x : Word, decodeWord x poisonSyn = (x, .poisoned))) ∧
  (∀ (d : Word) (b : Nat), b < 32 → checkBits (d ^^^ (1#32 <<< b)) = checkBits d ^^^ columnOf b)

/-- O7. After a word write at an aligned address, a read of that word delivers the data and clean, or poison when it was written with poison; a read of any other aligned word gives what it gave before. -/
def Obligations.SramReadsBackWhatWasWritten : Prop :=
  ∀ (m : Memory) (a : Nat) (d : Word) (bad : Bool), a % 4 = 0 →
    (m.write a d bad).read a = (d, if bad then .poisoned else .clean) ∧
    ∀ b, b % 4 = 0 → b ≠ a → (m.write a d bad).read b = m.read b

/-- O8. CROSSBAR_WORD_MOVE gathers the sources and units that must act together with the source. When every one of them can, the next state is that joint move; when some consumer cannot accept, every word stays at its source and nothing changes. Within a sector LINK_WORD_ARRIVE, and through a boundary queue BOUNDARY_WRITE_SYNC, moves the oldest word on its way to the end of the receiver's register. LINK_CREDIT_RETURN, where no fence stands across the link, and BOUNDARY_CREDIT_SYNC, whether one stands or not, give the sender back one credit. Nothing but that link changes. -/
def Obligations.WordsMoveOverLinksInOrder : Prop :=
  (∀ (s : State) (p : TileIx) (c : BitVec 6) (src units : List Nat), s.closure p 14 [c.toNat] [] = (src, units) →
    (s.jointOk p src units = true → exec (.crossbarWordMove p c) s = .next (s.jointMove p src units)) ∧
    (s.jointOk p src units = false → exec (.crossbarWordMove p c) s = .next s)) ∧
  (∀ (s : State) (l : LinkIx),
    (∀ w r, (s.link l).flight = w :: r →
      let t := s.setLink l { s.link l with flight := r, held := (s.link l).held ++ [w] }
      (linkBoundary l = false → exec (.linkWordArrive l) s = .next t) ∧
      (linkBoundary l = true → exec (.boundaryWriteSync l) s = .next t)) ∧
    (0 < (s.link l).credBack →
      let t := s.setLink l { s.link l with credBack := (s.link l).credBack - 1, spent := (s.link l).spent - 1 }
      (linkBoundary l = false → s.linkFenced l = false → exec (.linkCreditReturn l) s = .next t) ∧
      (linkBoundary l = true → exec (.boundaryCreditSync l) s = .next t)))

/-- O9. A link input holds w with r behind it; its only consumer is link output j, no unit takes part and COUNT_SRC is another source. When the move can be made, the source register then holds r and has one more credit on its way back, the output link carries w last of its words, without LAST if the output has CLRLAST, and has one credit fewer; the memories are unchanged. -/
def Obligations.LinkToLinkMove : Prop :=
  ∀ (s : State) (p : TileIx) (i j h l : Nat) (w : LinkWord) (r : List LinkWord), i < 20 → j < 20 →
    s.homeOf p = some h → (s.link (linkId h i)).held = w :: r → s.linkFenced (linkId h i) = false →
    s.sel p j = i + 2 → outLink h j = some l → l ≠ linkId h i → (∀ j', j' < 20 → j' ≠ j → s.sel p j' ≠ i + 2) →
    s.countSrc p ≠ i + 2 → s.closure p 14 [i + 2] [] = ([i + 2], []) → s.jointOk p [i + 2] [] = true →
    ∃ t : State, exec (.crossbarWordMove p (BitVec.ofNat 6 (i + 2))) s = .next t ∧
      t.link (linkId h i) = { s.link (linkId h i) with held := r, credBack := (s.link (linkId h i)).credBack + 1 } ∧
      t.link l = { s.link l with flight := (s.link l).flight ++ [if s.clrLast p j then { w with last := false } else w],
                                 spent := (s.link l).spent + 1 } ∧
      t.mem = s.mem

/-- O10. When the ALU and everything that must act with it can act, each ALU row whose code the active context selects answers the joint move of the ALU with the sources it takes. ALU_NOP of an ALU whose OP is NOP changes nothing; of one with a reserved OP, or CMP or CSEL with a reserved COND, it sets BAD_CODE while the tile runs and its words move. CRCAPP_APPEND of an ALU that owes the CRC word starts that word, the CRC state inverted with LAST = 1, and resets the state to all ones. ALU_RESULT_READY moves the oldest result in flight to the empty result register, or discards it when no output selects the ALU. Nothing but that ALU changes. -/
def Obligations.AlusIssueAndDeliver : Prop :=
  (∀ (s : State) (p : TileIx) (n : Fin 4) (src units : List Nat), s.closure p 14 [] [n.val] = (src, units) →
    ((s.aluCtl p n).op = 0 → exec (.aluNop p n) s = .next s) ∧
    ((s.aluCtl p n).reserved = true → (s.tile p).seq = .run → s.moving p = true →
      exec (.aluNop p n) s = .next (s.stick p badCode)) ∧
    (s.jointOk p src units = true →
      ((s.aluCtl p n).opActs = 0x01 → exec (.aluMov p n) s = .next (s.jointMove p src units)) ∧
      ((s.aluCtl p n).opActs = 0x02 → exec (.aluAdd p n) s = .next (s.jointMove p src units)) ∧
      ((s.aluCtl p n).opActs = 0x03 → exec (.aluSub p n) s = .next (s.jointMove p src units)) ∧
      ((s.aluCtl p n).opActs = 0x04 → exec (.aluAdds p n) s = .next (s.jointMove p src units)) ∧
      ((s.aluCtl p n).opActs = 0x05 → exec (.aluSubs p n) s = .next (s.jointMove p src units)) ∧
      ((s.aluCtl p n).opActs = 0x06 → exec (.aluAnd p n) s = .next (s.jointMove p src units)) ∧
      ((s.aluCtl p n).opActs = 0x07 → exec (.aluOr p n) s = .next (s.jointMove p src units)) ∧
      ((s.aluCtl p n).opActs = 0x08 → exec (.aluXor p n) s = .next (s.jointMove p src units)) ∧
      ((s.aluCtl p n).opActs = 0x09 → exec (.aluAndn p n) s = .next (s.jointMove p src units)) ∧
      ((s.aluCtl p n).opActs = 0x10 → exec (.aluSll p n) s = .next (s.jointMove p src units)) ∧
      ((s.aluCtl p n).opActs = 0x11 → exec (.aluSrl p n) s = .next (s.jointMove p src units)) ∧
      ((s.aluCtl p n).opActs = 0x12 → exec (.aluRol p n) s = .next (s.jointMove p src units)) ∧
      ((s.aluCtl p n).opActs = 0x13 → exec (.aluRor p n) s = .next (s.jointMove p src units)) ∧
      ((s.aluCtl p n).opActs = 0x18 → exec (.aluCmp p n) s = .next (s.jointMove p src units)) ∧
      ((s.aluCtl p n).opActs = 0x19 → exec (.aluCsel p n) s = .next (s.jointMove p src units)) ∧
      ((s.aluCtl p n).opActs = 0x1A → exec (.aluMin p n) s = .next (s.jointMove p src units)) ∧
      ((s.aluCtl p n).opActs = 0x1B → exec (.aluMax p n) s = .next (s.jointMove p src units)) ∧
      ((s.aluCtl p n).opActs = 0x20 → exec (.aluPopcnt p n) s = .next (s.jointMove p src units)) ∧
      ((s.aluCtl p n).opActs = 0x21 → exec (.aluShuf p n) s = .next (s.jointMove p src units)) ∧
      ((s.aluCtl p n).opActs = 0x22 → exec (.aluCrc32 p n) s = .next (s.jointMove p src units)) ∧
      ((s.aluCtl p n).opActs = 0x23 → exec (.aluGfmul p n) s = .next (s.jointMove p src units)) ∧
      ((s.aluCtl p n).opActs = 0x24 → exec (.aluCrcapp p n) s = .next (s.jointMove p src units)))) ∧
  (∀ (s : State) (p : TileIx) (n : Fin 4), s.runs p = true →
    let a := (s.tile p).alu[n]
    (a.append = true → a.flight.length < 2 →
      exec (.crcappAppend p n) s = .next (s.setAlu p n { a with
        append := false, crc := 0xFFFFFFFF#32
        flight := a.flight ++ [{ data := a.crc ^^^ 0xFFFFFFFF#32, last := true, poison := false }] })) ∧
    (∀ w r, a.flight = w :: r → a.result = none →
      exec (.aluResultReady p n) s = .next (s.setAlu p n { a with
        flight := r, result := if s.hasConsumer p (22 + n) then some w else none })))

/-- O11. For operands A and B, the result of each operation: MOV gives A; ADD and SUB are modulo 2^32; AND, OR, XOR and ANDN are bitwise; shifts and rotates take B[4:0]; SRL fills with the sign when SGN is 1; CMP gives all ones or zero; CSEL compares with IMM; MIN and MAX follow SGN; POPCNT counts the 1 bits. With SGN = 1 the result of ADDS and SUBS, read as signed, is the exact sum or difference clamped to the signed 32-bit range; with SGN = 0, read as unsigned, it is clamped to 0 to 2^32 − 1. -/
def Obligations.AluResultsAreTheTable : Prop :=
  (∀ (c : AluCtl) (a b : Word),
    (c.opActs = 0x01 → (aluEval c a b).res = a) ∧
    (c.opActs = 0x02 → (aluEval c a b).res.toNat = (a.toNat + b.toNat) % 2 ^ 32) ∧
    (c.opActs = 0x03 → (aluEval c a b).res.toNat = (2 ^ 32 + a.toNat - b.toNat) % 2 ^ 32) ∧
    (c.opActs = 0x06 → ∀ i, (aluEval c a b).res.getLsbD i = (a.getLsbD i && b.getLsbD i)) ∧
    (c.opActs = 0x07 → ∀ i, (aluEval c a b).res.getLsbD i = (a.getLsbD i || b.getLsbD i)) ∧
    (c.opActs = 0x08 → ∀ i, (aluEval c a b).res.getLsbD i = (a.getLsbD i ^^ b.getLsbD i)) ∧
    (c.opActs = 0x09 → ∀ i, i < 32 → (aluEval c a b).res.getLsbD i = (a.getLsbD i && !b.getLsbD i)) ∧
    (c.opActs = 0x10 → (aluEval c a b).res.toNat = a.toNat * 2 ^ (b.toNat % 32) % 2 ^ 32) ∧
    (c.opActs = 0x11 → c.sgn = false → (aluEval c a b).res.toNat = a.toNat / 2 ^ (b.toNat % 32)) ∧
    (c.opActs = 0x11 → c.sgn = true → (aluEval c a b).res.toInt = a.toInt / 2 ^ (b.toNat % 32)) ∧
    (c.opActs = 0x12 → (aluEval c a b).res = a.rotateLeft (b.toNat % 32)) ∧
    (c.opActs = 0x13 → (aluEval c a b).res = a.rotateRight (b.toNat % 32)) ∧
    (c.opActs = 0x18 → (aluEval c a b).res = if aluCond c.cond c.sgn a b = some true then 0xFFFFFFFF#32 else 0#32) ∧
    (c.opActs = 0x19 → (aluEval c a b).res = if aluCond c.cond c.sgn a c.imm = some true then a else b) ∧
    (c.opActs = 0x1A → readAs c.sgn (aluEval c a b).res = min (readAs c.sgn a) (readAs c.sgn b)) ∧
    (c.opActs = 0x1B → readAs c.sgn (aluEval c a b).res = max (readAs c.sgn a) (readAs c.sgn b)) ∧
    (c.opActs = 0x20 → (aluEval c a b).res.toNat = ((List.range 32).filter a.getLsbD).length)) ∧
  (∀ (c : AluCtl) (a b : Word),
    let lo : Int := if c.sgn then -2 ^ 31 else 0
    let hi : Int := if c.sgn then 2 ^ 31 - 1 else 2 ^ 32 - 1
    (c.opActs = 0x04 → readAs c.sgn (aluEval c a b).res = max lo (min hi (readAs c.sgn a + readAs c.sgn b))) ∧
    (c.opActs = 0x05 → readAs c.sgn (aluEval c a b).res = max lo (min hi (readAs c.sgn a - readAs c.sgn b))))

/-- O12. The overflow mark of an ALU operation is set exactly when it is ADD or SUB with SGN = 1 and the exact result leaves the signed 32-bit range, or ADDS or SUBS and the exact result leaves the range that SGN names. The result is not changed by it: an overflowing ADD or SUB still gives the result modulo 2^32. The mark of ALU n is bit 8 + n of TILE_STICKY. -/
def Obligations.OverflowIsSignedOverflowOrClamp : Prop :=
  ∀ (c : AluCtl) (a b : Word),
    ((aluEval c a b).ovf = true ↔
      (c.opActs = 0x02 ∧ c.sgn = true ∧ (a.toInt + b.toInt < -2 ^ 31 ∨ 2 ^ 31 ≤ a.toInt + b.toInt)) ∨
      (c.opActs = 0x03 ∧ c.sgn = true ∧ (a.toInt - b.toInt < -2 ^ 31 ∨ 2 ^ 31 ≤ a.toInt - b.toInt)) ∨
      (c.opActs = 0x04 ∧ (readAs c.sgn a + readAs c.sgn b < satLow c.sgn ∨ satHigh c.sgn < readAs c.sgn a + readAs c.sgn b)) ∨
      (c.opActs = 0x05 ∧ (readAs c.sgn a - readAs c.sgn b < satLow c.sgn ∨ satHigh c.sgn < readAs c.sgn a - readAs c.sgn b))) ∧
    (c.opActs = 0x02 → (aluEval c a b).res = a + b) ∧ (c.opActs = 0x03 → (aluEval c a b).res = a - b) ∧
    (∀ (s : State) (p : TileIx) (n : Fin 4) (src units : List Nat), s.closure p 14 [] [n.val] = (src, units) →
      (∀ u ∈ units, u < 4) → (s.onceTaken p src).takesPoison p units = false →
      ((s.jointMove p src units).tile p).sticky.getLsbD (8 + n.val) = ((s.tile p).sticky.getLsbD (8 + n.val) ||
        (aluEval (s.aluCtl p n) ((s.onceTaken p src).aluOperands p n).1.data ((s.onceTaken p src).aluOperands p n).2.data).ovf))

/-- O13. When an ALU issues together with ALUs only and no operand is poisoned, an operation that keeps no state of its own adds one word to its results in flight: the table's result of the delivered operands, with LAST of operand A or, with LSEL = 1, of operand B, and with POISON 0. CRC32 adds the CRC state after A, inverted, and resets the state after a LAST word; CRCAPP adds A with LAST = 0, moves the CRC state on, and owes the CRC word after a LAST word. -/
def Obligations.IssuedResultIsInFlight : Prop :=
  ∀ (s : State) (p : TileIx) (n : Fin 4) (src units : List Nat), s.closure p 14 [] [n.val] = (src, units) →
    (∀ u ∈ units, u < 4) → (s.onceTaken p src).takesPoison p units = false → s.jointOk p src units = true →
    let ab := (s.onceTaken p src).aluOperands p n
    let c := s.aluCtl p n
    let u := (s.tile p).alu[n]
    let v := ((s.jointMove p src units).tile p).alu[n]
    (c.opActs ≠ 0x22 → c.opActs ≠ 0x24 → v.flight = u.flight ++
      [{ data := (aluEval c ab.1.data ab.2.data).res, last := aluLast c ab.1 ab.2, poison := false }]) ∧
    (c.opActs = 0x22 → v.flight = u.flight ++
      [{ data := crcWord u.crc ab.1.data ^^^ 0xFFFFFFFF#32, last := aluLast c ab.1 ab.2, poison := false }] ∧
      v.crc = if ab.1.last then 0xFFFFFFFF#32 else crcWord u.crc ab.1.data) ∧
    (c.opActs = 0x24 → v.flight = u.flight ++ [{ data := ab.1.data, last := false, poison := false }] ∧
      v.crc = crcWord u.crc ab.1.data ∧ v.append = ab.1.last)

/-- O14. When the port and everything that must act with it can act and its bank grants, each port row whose mode the active context selects answers the joint move that makes the access. A write row whose operand says that both ports write in one cycle answers the joint move of the two, when they can act together. PORT_READ_RETURN moves the oldest read in flight to the return queue, or discards it when no output selects the port. -/
def Obligations.PortsMakeTheirAccess : Prop :=
  ∀ (s : State) (p : TileIx) (k : Fin 2) (src units : List Nat), s.closure p 14 [] [4 + k.val] = (src, units) →
    (s.jointOk p src units = true →
      ((s.portCtl p k).mode = 1 → exec (.portRead p k) s = .next (s.jointMove p src units)) ∧
      ((s.portCtl p k).mode = 2 → exec (.portWrite p k false) s = .next (s.jointMove p src units)) ∧
      ((s.portCtl p k).mode = 3 → exec (.genRead p k) s = .next (s.jointMove p src units)) ∧
      ((s.portCtl p k).mode = 4 → exec (.genWrite p k false) s = .next (s.jointMove p src units)) ∧
      ((s.portCtl p k).mode = 5 → exec (.portSet p k) s = .next (s.jointMove p src units)) ∧
      ((s.portCtl p k).mode = 6 → exec (.portClear p k) s = .next (s.jointMove p src units))) ∧
    (∀ src units, s.closure p 14 [] [4, 5] = (src, units) → (s.portCtl p (1 - k)).writes = true → s.jointOk p src units = true →
      ((s.portCtl p k).mode = 2 → exec (.portWrite p k true) s = .next (s.jointMove p src units)) ∧
      ((s.portCtl p k).mode = 4 → exec (.genWrite p k true) s = .next (s.jointMove p src units))) ∧
    (∀ w r, s.runs p = true → ((s.tile p).port[k]).flight = w :: r → ((s.tile p).port[k]).queue.length < 3 →
      exec (.portReadReturn p k) s = .next (s.updTile p fun t => { t with port := t.port.set k { (s.tile p).port[k] with
        flight := r
        queue := if s.hasConsumer p (30 + k) then ((s.tile p).port[k]).queue ++ [w] else ((s.tile p).port[k]).queue } }))

/-- O15. At word address a in range, WRITE stores the data word; SET and CLEAR of a clean word store it with the mask's bits set or cleared; a read puts the word's data on its flight with POISON as the check code says. Out of range, a WRITE, SET or CLEAR changes no memory, a read gives DATA 0 with POISON = 1, and MEM_RANGE is set in TILE_STICKY. -/
def Obligations.PortAccessEffects : Prop :=
  ∀ (s : State) (p : TileIx) (k : Fin 2) (a : Nat) (aw dw : LinkWord),
    let c := s.portCtl p k
    let t := s.portAccess p k a aw dw
    let addr := bankAddr p (a / 4096) (a % 4096)
    (a < 0xC000 → c.mode = 2 ∨ c.mode = 4 → t.mem.read addr = (dw.data, .clean)) ∧
    (∀ d, a < 0xC000 → c.mode = 5 → s.mem.read addr = (d, .clean) → t.mem.read addr = (d ||| dw.data, .clean)) ∧
    (∀ d, a < 0xC000 → c.mode = 6 → s.mem.read addr = (d, .clean) → t.mem.read addr = (d &&& ~~~dw.data, .clean)) ∧
    (a < 0xC000 → c.mode = 1 → ((t.tile p).port[k]).flight = ((s.tile p).port[k]).flight ++
      [{ data := (s.mem.read addr).1, last := aw.last, poison := (s.mem.read addr).2.isPoison }]) ∧
    (0xC000 ≤ a → t.mem = s.mem ∧ (t.tile p).sticky = (s.tile p).sticky ||| memRange ∧
      (c.mode = 1 ∨ c.mode = 3 → ∃ l, ((t.tile p).port[k]).flight =
        ((s.tile p).port[k]).flight ++ [{ data := 0, last := l, poison := true }]))

/-- O16. A GET_WORK on its way to an awake sector's dispatcher makes its tile the youngest candidate. A grant that reaches a live tile in ASK with no abort switches it to the granted slot, or, with FILL = 1 and the slot not VALID or a dispatcher's fill of it still to complete, puts it into LOAD with the grant held. A drained tile that has not yielded, has no fence requested and no unit stopped at a closed source sends DONE with COMPLETE and its batch counter, counts one dispatch, and asks for work again. -/
def Obligations.GrantsStartDispatches : Prop :=
  ∀ (s : State) (p : TileIx),
    (p.val ∈ s.getWorks → s.awake p = true →
      exec (.getWork p) s = .next ({ s with getWorks := s.getWorks.erase p.val }.updSector (sectorOf p) fun n =>
        { n with ask := n.ask ++ [(s.tm p).logical % 31] })) ∧
    (∀ (g : Grant) (old : List (Nat × Grant)) (rest : List (Nat × Grant)), s.grants = old ++ (p.val, g) :: rest →
      (∀ x ∈ old, x.1 ≠ p.val) → (s.tile p).abortSent ≠ some 3 → (s.tile p).fenced = false → (s.tile p).seq = .ask →
      let t : State := { s with grants := old ++ rest }
      (g.fill = false ∨ (s.tile p).hotAt g.slot = .valid ∧ (s.tile p).fillPending g.slot = false →
        exec (.grant p) s = .next (t.switchTo p g)) ∧
      (g.fill = true → (s.tile p).hotAt g.slot ≠ .valid ∨ (s.tile p).fillPending g.slot = true → exec (.grant p) s =
        .next (t.updTile p fun t => { t with seq := .load, grant := g, batchCount := 0, switched := false }))) ∧
    (s.drained p = true → (s.tile p).yielded = false → (s.tile p).fenceReq = false → (∀ u, s.inClosed p u = false) →
      ∃ t : State, exec (.tileDrained p) s = .next t ∧
        t.dones = s.dones ++ [{ sector := sectorOf p, tile := (s.tm p).logical % 31, task := (s.tile p).grant.task,
                                counter := (s.tile p).batchCount, code := 0 }] ∧
        t.getWorks = s.getWorks ++ [p.val] ∧ (t.tile p).seq = .ask ∧ (t.tile p).lastCode = 0 ∧
        (t.tile p).dispatches = (s.tile p).dispatches + 1 ∧ t.mem = s.mem ∧ t.tasks = s.tasks)

/-- O17. TILE_ABORT with an abort of code 3 on its way to a tile in LOAD, RUN or DRAIN: results, return queues, enqueue registers, ONCE words and the MAC pipelines and output queues are gone, DONE carries code 3 and the batch counter, the abort is counted, dequeue endpoints and memories are unchanged. In OFF or ASK nothing is sent. A yield is accepted when every enabled MAC unit is at a yield point, has halted or has stopped, or the tile is in LOAD, where no unit runs: the tile drains as yielded and its units stop. One that reaches a tile in RUN or LOAD, with no grant before it, is accepted there when it can be; else, with a hold-off limit above zero, it waits, and is accepted once it can be, at the latest when its limit expires. A yield not accepted when its limit expires is withdrawn and MAC_UNIT_STICKY.HOLDOFF is set. -/
def Obligations.DispatchesAbortAndYield : Prop :=
  (∀ (s : State) (p : TileIx), (s.tile p).abortSent = some 3 → ∃ t : State, exec (.tileAbort p) s = .next t ∧
    t.mem = s.mem ∧ (t.tile p).deq = (s.tile p).deq ∧ (t.tile p).abortSent = none ∧ (t.tile p).once = [] ∧
    (∀ n : Fin 4, ((t.tile p).alu[n]).flight = [] ∧ ((t.tile p).alu[n]).result = none ∧
      ((t.tile p).alu[n]).append = false ∧ (t.tile p).enq[n] = [] ∧ ((t.tile p).mac[n]).pipe = [] ∧
      ((t.tile p).mac[n]).due = [] ∧ ((t.tile p).mac[n]).outq = [] ∧ ((t.tile p).mac[n]).stopped = true ∧
      ((t.tile p).mac[n]).slices = ((s.tile p).mac[n]).slices) ∧
    (∀ k : Fin 2, ((t.tile p).port[k]).flight = [] ∧ ((t.tile p).port[k]).queue = []) ∧
    ((s.tile p).seq = .load ∨ (s.tile p).seq = .run ∨ (s.tile p).seq = .drain →
      t.dones = s.dones ++ [{ sector := sectorOf p, tile := (s.tm p).logical % 31, task := (s.tile p).grant.task,
                              counter := (s.tile p).batchCount, code := 3 }] ∧
      (t.tile p).aborts = (s.tile p).aborts + 1 ∧ (t.tile p).lastCode = 3 ∧
      (t.tile p).seq = (if (s.tile p).fenceReq then .off else .ask)) ∧
    ((s.tile p).seq = .off ∨ (s.tile p).seq = .ask → t.dones = s.dones ∧ (t.tile p).seq = (s.tile p).seq)) ∧
  (∀ (s : State) (p : TileIx),
    ((s.tile p).yieldSent = true → (s.grants.any fun g => g.1 == p.val) = false →
      (s.tile p).seq = .run ∨ (s.tile p).seq = .load →
      (s.canYield p = true → exec (.yieldRequest p) s =
        .next ((s.setTile p { s.tile p with yieldSent := false }).acceptYield p)) ∧
      (s.canYield p = false → s.holdoffOf (s.ownerOf p) ≠ 0 →
        exec (.yieldRequest p) s = .next (s.setTile p { s.tile p with yieldSent := false, yieldHere := true }))) ∧
    ((s.tile p).yieldHere = true → s.canYield p = true → exec (.holdoffExpire p) s = .next (s.acceptYield p)) ∧
    ((s.tile p).yieldHere = true → s.moving p = true → ((s.tile p).seq = .load ∨ (s.tile p).seq = .run ∧ s.allAtYield p = true) →
      exec (.yieldAccept p) s = .next (s.setTile p { s.tile p with
        yieldHere := false, yielded := true, seq := .drain, mac := (s.tile p).mac.map fun m => { m with stopped := true } })) ∧
    ((s.tile p).yieldHere = true → (s.tile p).seq ≠ .load → s.allAtYield p = false → ∃ t : State, exec (.holdoffExpire p) s = .next t ∧
      (t.tile p).yieldHere = false ∧ (t.tile p).seq = (s.tile p).seq ∧
      (t.tile p).macSticky = (s.tile p).macSticky ||| 0x100#32 ∧ t.mem = s.mem ∧ t.dones = s.dones))

/-- O18. The oldest waiting request enters the queue of two when a place is free, before every request that is no Percolator repair if it is one, else at the end; when the queue is full nothing changes. The head of the queue starts, when the unit is free, the sector can fill, R113 does not refuse it and the tile neither zeroizes nor migrates: a cache fill's slot becomes FILLING; a store fill from a frame of the owner's store begins with 32 rows to come under its own number. A cache fill whose copy meets no uncorrectable word and whose CRC matches completes: the slot is VALID, the fill is counted, and a tile in LOAD for that slot switches. A clear writes zeros and completes. The last response of a store fill, if it is of that fill, current, clean and leaves a frame whose CRC matches, completes it the same way and frees its tag; the last row of a sound golden copy that a Percolator repair reads leaves the repair to be written. A mesh write held behind a fill from its frame lands once no fill from that frame runs. -/
def Obligations.FillsQueueStartAndEnd : Prop :=
  (∀ (s : State) (p : TileIx) (f : Fill),
    (∀ w, (s.tile p).fillWait = f :: w → (s.tile p).fillQ.length < 2 →
      exec (.fillRequest p) s = .next (s.setTile p { s.tile p with
        fillWait := w
        fillQ := if f.who = .percolator
          then (s.tile p).fillQ.takeWhile (·.who == .percolator) ++ [f] ++ (s.tile p).fillQ.dropWhile (·.who == .percolator)
          else (s.tile p).fillQ ++ [f] })) ∧
    (∀ w, (s.tile p).fillWait = f :: w → 2 ≤ (s.tile p).fillQ.length → exec (.fillRequest p) s = .next s) ∧
    (∀ r, (s.tile p).fill = none → (s.tile p).fillQ = f :: r → s.fillPower p = true → (s.tile p).refuses f = false →
      (s.tile p).zeroizing = false → (s.tm p).migrating = false →
      let s1 := s.setTile p { s.tile p with
        fill := some f, fillQ := r, fillSlot := f.hot.getD (s.tile p).fillSlot, fillStore := false
        hot := match f.fillsHot with
          | some h => (s.tile p).hot.setIfInBounds h .filling
          | none => (s.tile p).hot }
      ((∀ a, f.src ≠ .store a) → exec (.fillStart p) s = .next s1) ∧
      (∀ a, f.src = .store a → s.storeFills (s.ownerOf p) < 32 → s1.storeFills (s1.ownerOf p) < 32 →
        s1.mem.storeFrame (s1.ownerOf p) a = true → let n := (s.tile p).fillNum
        exec (.fillStart p) s = .next ((s1.updTile p fun t =>
          { t with fill := some { f with rowsLeft := List.range 32, bad := false, waits := false, num := n }
                   fillStore := true, fillNum := n + 1 }).requestRows p a n)))) ∧
  (∀ (s : State) (p : TileIx),
    (∀ f c h, (s.tile p).fill = some f → f.src = .cache c → f.hot = some h → s.awake p = true →
      (s.copyFrame p c h).1 = false → (s.copyFrame p c h).2.mem.frameCrcOk p h = true →
      exec (.cacheFillComplete p) s = .next ((s.copyFrame p c h).2.finishFill p f)) ∧
    (∀ f, (s.tile p).fill = some f → f.src = .zero → s.awake p = true → exec (.cacheFillComplete p) s =
      .next ((s.writeWords (ctxBase p (f.hot.getD (f.cache.getD 0))) (List.replicate 256 0)).finishFill p f)) ∧
    (∀ f k r, s.mesh.answered.find? (fun k => (rowOf k.purpose p).isSome) = some k → rowOf k.purpose p = some (r, f.num) →
      (s.tile p).fill = some f → k.epoch = s.epochOf k.part → f.rowsLeft = [r] → f.bad = false → k.status = stOk → k.poison = 0 →
      let s0 : State := { s with mesh := { (s.mesh.freeTag k) with answered := s.mesh.answered.erase k } }
      let f' : Fill := { f with rowsLeft := [], bad := false }
      let s1 := (f.hot.toList ++ f.cache.toList).foldl (fun s x =>
        State.writeWords s (ctxBase p x + 32 * r) (wordsOf k.data 8) false) s0
      let g : Fill := { f' with got := f.got ++ [(r, wordsOf k.data 8)] }
      (f.who ≠ .percolator → s1.mem.frameCrcOk p (f.hot.getD (f.cache.getD 0)) = true →
        exec (.storeFillResponse p) s = .next (s1.finishFill p f')) ∧
      (f.who = .percolator → goldenOk g.golden256 = true → exec (.storeFillResponse p) s =
        .next (State.updTile { s0 with perc := { s0.perc with repairs := s0.perc.repairs ++ [p.val] } } p fun t =>
          { t with fill := some g }))) ∧
    (∀ w r, (s.tile p).heldWrites = w :: r →
      ((s.tile p).fill.any fun f => f.src == .cache w.frame || f.cache == some w.frame) = false →
      exec (.cacheFrameWriteResume p) s =
        .next ((s.setTile p { s.tile p with heldWrites := r }).ctxWrite p w.addr w.data w.poison)) ∧
    (∀ f h, f.hot = some h → h < 16 → f.src ≠ .zero → ((s.tile p).seq = .load → (s.tile p).grant.slot ≠ h) →
      ((s.finishFill p f).tile p).hotAt h = .valid ∧ ((s.finishFill p f).tile p).fill = none ∧
      ((s.finishFill p f).tile p).fillCount = (s.tile p).fillCount + 1))

/-- O19. Writing FENCE = 1 for a tile that Cupping does not move requests the fence and sends a yield to a tile in LOAD, RUN or DRAIN; a requested fence is applied in ASK or OFF, withdraws the request for work and puts the sequencer to OFF; FENCE = 0 on a fenced, allocated tile of a sector in Brew or Steep that neither moves nor zeroizes releases it, the tile asks for work, its links count their credits again and its queues signal as their depth says. ZEROIZE of a fenced tile clears its state and shows RUNNING, and is refused and logged otherwise. Zeroization that reads back clear ends with PASS, outside a wake from Cold with nothing else changed. -/
def Obligations.FencesAndZeroization : Prop :=
  ∀ (s : State) (p : TileIx),
    (s.cupMoves p = false → exec (.ctxCtrlFenceWrite p true) s = .next (s.setTile p { s.tile p with
      fenceReq := true
      yieldSent := (s.tile p).yieldSent || (s.tile p).seq == .run || (s.tile p).seq == .load || (s.tile p).seq == .drain })) ∧
    (s.cupMoves p = false → s.allocated p = true → (s.tile p).zeroizing = false → (s.tile p).fenced = true →
      (s.sector (sectorOf p)).pstate = .brew ∨ (s.sector (sectorOf p)).pstate = .steep →
      exec (.ctxCtrlFenceWrite p false) s = .next (({ (s.setTile p { s.tile p with
        fenced := false, fenceReq := false, seq := .ask }) with getWorks := s.getWorks ++ [p.val] } : State).recountLinks p
        |>.wakeDeqs p)) ∧
    ((s.tile p).fenceReq = true → (s.tile p).fenced = false → (s.tile p).seq = .ask ∨ (s.tile p).seq = .off →
      exec (.fenceApply p) s = .next ((s.withdrawAsk p).updTile p fun t => { t with fenced := true, seq := .off })) ∧
    ((s.tile p).fenced = true → exec (.ctxCtrlZeroize p) s =
      .next ((s.zeroizeTile p).updTile p fun t => { t with zeroizing := true, zres := 1 })) ∧
    ((s.tile p).fenced = false → exec (.ctxCtrlZeroize p) s =
      .next (s.sysFault 0x52 0 (0xA0000 + 0x100 * indexOf p + 4) 0 16)) ∧
    ((s.tile p).zeroizing = true → s.mem.tileClear p = true → (s.sector (sectorOf p)).pstate ≠ .cold →
      exec (.zeroizeComplete p) s = .next (s.setTile p { s.tile p with zeroizing := false, zres := 2 }))

/-- O20. Zeroizing tile p: every byte of the tile's data, tap and context memories is zero with the code of zero; every byte outside them is as it was; the tile's stickies, batch counter, dequeue queues, last popped words, ALUs, MAC units and hot slots are at their reset values; the underrun, dispatch and abort counters are kept. -/
def Obligations.ZeroizationLeavesNothing : Prop :=
  ∀ (s : State) (p : TileIx),
    let t := s.zeroizeTile p
    let inside (a : Nat) : Prop := areaOf a = .data p.val ∨ areaOf a = .tap p.val ∨ areaOf a = .ctx p.val
    (∀ a, inside a → t.mem.byte a = 0 ∧ t.mem.synOf a = 0) ∧
    (∀ a, (∀ d, d < 0x40000 → a ≠ dataBase p + d) → ¬inside a → t.mem.byte a = s.mem.byte a) ∧
    (t.tile p).sticky = 0 ∧ (t.tile p).macSticky = 0 ∧ (t.tile p).batchCount = 0 ∧ (t.tile p).lastCode = 0 ∧ (t.tile p).hotSlot = 0 ∧
    (∀ k : Fin 4, ((t.tile p).deq[k]).depth = 0 ∧ ((t.tile p).deq[k]).popFlags = 0 ∧ ((t.tile p).deq[k]).popped = {} ∧
      ((t.tile p).deq[k]).underruns = ((s.tile p).deq[k]).underruns ∧ (t.tile p).mac[k] = {} ∧ (t.tile p).alu[k] = {}) ∧
    (∀ h, (t.tile p).hotAt h = .empty) ∧ (t.tile p).dispatches = (s.tile p).dispatches ∧
    (t.tile p).aborts = (s.tile p).aborts

/-- O21. When the unit is not stopping, its instruction is not reserved, no end slot is due and it can issue, the row of the instruction at PC answers the state after that issue slot; a slot that meets a poisoned tap word aborts the dispatch with ABORTED_POISON. MAC_NOP issues a NOP, a reserved instruction or an end slot. IN moves its word and issues in one joint move; when its source can give no more, the unit stops and its MAC_CUT bit is set. A unit that is to stop stops, by whichever row comes. MAC_OUT_ENQUEUE puts the OUT word that is due at the end of the output queue while it holds fewer than two. STT_TAP_WRITE makes the writes that are due, in slice order. -/
def Obligations.MacUnitsIssueAndDeliver : Prop :=
  (∀ (s : State) (p : TileIx) (u : Fin 4), s.macStops p u = false →
    ((((s.tile p).mac[u]).endSlot = true ∨ s.macNowReserved p u = true ∨ miOp (s.macNow p u) = 0) → s.macCanIssue p u = true →
      exec (.macNop p u) s = .next (s.macIssue p u {}).2) ∧
    (s.inClosed p u = false → ∀ src units, s.closure p 14 [] [6 + u.val] = (src, units) → s.jointOk p src units = true →
      exec (.inWord p u) s = .next (s.jointMove p src units)) ∧
    (((s.tile p).mac[u]).endSlot = false → s.macNowReserved p u = false → s.macCanIssue p u = true →
      let t : State := if (s.macIssue p u {}).1 then (s.macIssue p u {}).2.abortTile p 2 else (s.macIssue p u {}).2
      (miOp (s.macNow p u) = 0x01 → exec (.macMul p u) s = .next t) ∧
      (miOp (s.macNow p u) = 0x02 → exec (.mack p u) s = .next t) ∧
      (miOp (s.macNow p u) = 0x03 → exec (.fird p u) s = .next t) ∧
      (miOp (s.macNow p u) = 0x04 → exec (.maxa p u) s = .next t) ∧
      (miOp (s.macNow p u) = 0x05 → exec (.lda p u) s = .next t) ∧
      (miOp (s.macNow p u) = 0x09 → exec (.outWord p u) s = .next t) ∧
      (miOp (s.macNow p u) = 0x0A → exec (.stt p u) s = .next t) ∧
      (miOp (s.macNow p u) = 0x0B → exec (.norm p u) s = .next t) ∧
      (miOp (s.macNow p u) = 0x10 → exec (.setp p u) s = .next t) ∧
      (miOp (s.macNow p u) = 0x18 → exec (.rept p u) s = .next t) ∧
      (miOp (s.macNow p u) = 0x19 → exec (.jmp p u) s = .next t) ∧
      (miOp (s.macNow p u) = 0x1A → exec (.haltUnit p u) s = .next t))) ∧
  (∀ (s : State) (p : TileIx) (u : Fin 4), let t := s.setMac p u { (s.tile p).mac[u] with stopped := true }
    (s.macStops p u = true → exec (.macNop p u) s = .next t ∧ exec (.inWord p u) s = .next t ∧ exec (.macMul p u) s = .next t ∧
      exec (.haltUnit p u) s = .next t) ∧
    (s.inClosed p u = true → exec (.inWord p u) s = .next (t.stickMac p 0 0 (1#32 <<< u.val)))) ∧
  (∀ (s : State) (p : TileIx) (u : Fin 4), s.runs p = true →
    let m := ((s.tile p).mac[u]).drainSlot
    (∀ w, m.due = [.out w] → m.outq.length < 2 → s.hasConsumer p (26 + u) = true →
      exec (.macOutEnqueue p u) s = .next (s.setMac p u { m with due := [], outq := m.outq ++ [w] })) ∧
    (∀ ws, m.due = [.stt ws] → exec (.sttTapWrite p u) s = .next (ws.foldl (fun (s : State) (w : TapStore) =>
      State.tapWrite s p (4 * u.val + w.slice.val) w.word.toNat w.value) (s.setMac p u { m with due := [] }))))

/-- O22. Issued outside a repeat block: JMP puts TARGET into PC; HALT stops the unit and PC moves on by one; REPT with LEN and COUNT above zero starts a block of LEN instructions from the next one; with COUNT 0 it passes over the block, with LEN 0 it goes on; SETP of AP_r puts VALUE + v × LANE, modulo 512, into the pointer of every slice v of SMASK and leaves the others, and PC moves on by one. Each leaves the memories and the accumulators unchanged. -/
def Obligations.MacControlFlow : Prop :=
  ∀ (s : State) (p : TileIx) (u : Fin 4),
    let i := s.macNow p u
    let m := (s.tile p).mac[u]
    let t := (s.macIssue p u {}).2
    let m' := (t.tile p).mac[u]
    m.endSlot = false → s.macNowReserved p u = false → m.rep = none →
    (miOp i = 0x19 → m'.pc = BitVec.ofNat 4 (miTarget i) ∧ m'.halted = m.halted ∧ m'.slices = m.slices ∧ t.mem = s.mem) ∧
    (miOp i = 0x1A → m'.pc = m.pc + 1 ∧ m'.halted = true ∧ m'.slices = m.slices ∧ t.mem = s.mem) ∧
    (miOp i = 0x18 → m'.slices = m.slices ∧ t.mem = s.mem ∧
      (miLen i = 0 → m'.pc = m.pc + 1 ∧ m'.rep = none) ∧
      (miLen i ≠ 0 → miCount i = 0 → m'.pc = m.pc + 1 + BitVec.ofNat 4 (miLen i) ∧ m'.rep = none) ∧
      (miLen i ≠ 0 → miCount i ≠ 0 → m'.pc = m.pc + 1 ∧
        m'.rep = some { left := miCount i, first := m.pc + 1, len := miLen i, at_ := 0 })) ∧
    (miOp i = 0x10 → ∀ r : Fin 4, miReg i = r.val → m'.pc = m.pc + 1 ∧ t.mem = s.mem ∧
      ∀ v : Fin 4, (m'.slices[v]).av = (m.slices[v]).av ∧ (m'.slices[v]).off = (m.slices[v]).off ∧
        (m'.slices[v]).ap = if inMask (miSetMask i) v
          then (m.slices[v]).ap.set r (BitVec.ofNat 9 (miValue i + v.val * miLane i)) else (m.slices[v]).ap)

/-- O23. A step adds p to ACC. With SAT_ACC the new ACC is the exact sum clamped to 40 signed bits, and LOST_D is set when it clamped. Without it ACC is the sum modulo 2^40; WC moves up by one when the sum passes the top, down when it passes the bottom, and stays otherwise; with WC free to move the pair ACC + 2^40 × WC is the exact sum as long as WC does not pass its limits. A store of width n with shift k from an accumulator with WC = 0 is floor(ACC / 2^k + 1/2) clamped to n signed bits, exact when k is 0, and reports a clamp; with WC above zero it is the largest value, below zero the smallest, and reports it. -/
def Obligations.AccumulatorsAndStores : Prop :=
  (∀ (v : AccView) (p : Int), -2 ^ 39 ≤ p → p < 2 ^ 39 →
    ((v.step true p).acc.toInt = max (-2 ^ 39) (min (2 ^ 39 - 1) (v.acc.toInt + p)) ∧ (v.step true p).wc = v.wc ∧
      ((v.step true p).lostD = true ↔ v.lostD = true ∨ v.acc.toInt + p < -2 ^ 39 ∨ 2 ^ 39 - 1 < v.acc.toInt + p)) ∧
    (v.wcHeld = false → v.wc ≠ 31#6 → v.wc ≠ 32#6 →
      (v.step false p).acc.toInt + 2 ^ 40 * (v.step false p).wc.toInt = v.acc.toInt + 2 ^ 40 * v.wc.toInt + p ∧
      (v.step false p).lostD = v.lostD)) ∧
  (∀ (v : AccView) (n k : Nat), n = 16 ∨ n = 32 → k ≤ 24 →
    (v.wc = 0 → (v.store n k).1 = max (-2 ^ (n - 1)) (min (2 ^ (n - 1) - 1)
        (if k = 0 then v.acc.toInt else (2 * v.acc.toInt + 2 ^ k) / 2 ^ (k + 1))) ∧
      ((v.store n k).2 = true ↔ roundShift v.acc.toInt k < -2 ^ (n - 1) ∨ 2 ^ (n - 1) - 1 < roundShift v.acc.toInt k)) ∧
    (0 < v.wc.toInt → v.store n k = (2 ^ (n - 1) - 1, true)) ∧ (v.wc.toInt < 0 → v.store n k = (-2 ^ (n - 1), true)))

/-- O24. While words move in the tile: a ring with four gathered words and no access ahead of it writes them to its bank and empties the gather row, and when port B of bank 0 writes one of those words in the same cycle DP_CONFLICT is set; a ring with words in its bank and room in its read rows takes its oldest row out of the bank; a row on its way lands behind the read rows. A held geometry takes effect when the queue is empty. A row's arrival and a new geometry then signal and open as the depth says. A read of DEQ_POP_k in an awake tile that Cupping does not hold: with the queue empty or the endpoint disabled it returns the DATA of the last popped word, counts an underrun and sets its sticky bit; a read that has waited 16 cycles, with words in the read rows of an enabled endpoint, returns the head word and pops it, and its flags show LAST and POISON; under a fence no other word of the queue moves. A push that falls in the same cycle is made with the read. -/
def Obligations.RingsMoveRowsAndPop : Prop :=
  (∀ (s : State) (p : TileIx) (k : Fin 4),
    let d := (s.tile p).deq[k]
    (s.moving p = true → d.wantsWrite = true → s.ringGranted p d.geom.bank k false = true →
      exec (.ringRowWrite p ⟨k, false⟩) s = .next ((s.writeRing p d).setDeq p k { d with
        gather := [], inBank := d.inBank + d.gather.length })) ∧
    (∀ a, s.portBWrite p = some a → let s1 := s.joint p [] [5]
      let e := (s1.tile p).deq[k]
      s1.moving p = true → e.wantsWrite = true → s1.ringGranted p e.geom.bank k false = true →
      let s2 := s1.writeRing p e
      exec (.ringRowWrite p ⟨k, true⟩) s = .next (State.setDeq (if e.geom.bank = 0 ∧ a ∈ e.rowWords then s2.stick p dpConflict else s2)
        p k { e with gather := [], inBank := e.inBank + e.gather.length })) ∧
    (s.moving p = true → d.wantsRead = true → s.ringGranted p d.geom.bank k true = true →
      let r := s.readRing p d (min 4 d.inBank)
      exec (.ringRowRead p k) s = .next (r.2.setDeq p k { d with landing := r.1, inBank := d.inBank - min 4 d.inBank })) ∧
    (s.moving p = true → exec (.ringRowArrive p k) s =
      .next ((s.setDeq p k { d with rows := d.rows ++ d.landing, landing := [] }.straighten).deqTouch p k)) ∧
    (∀ g, d.held = some g → d.depth = 0 → exec (.deqGeometryApply p k) s =
      .next ((s.setDeq p k { d with geom := g, held := none, pos := 0 }).deqTouch p k))) ∧
  (∀ (s : State) (p : TileIx) (k : Fin 4) (waited pushed : Bool), s.awake p = true → s.cupFenced p = false →
    let d := (s.tile p).deq[k]
    let flags (w : LinkWord) (under : Bool) : BitVec 32 := BitVec.ofNat 32 (bit w.last + 2 * bit w.poison + 4 * bit under)
    (((s.deqCtl p k).en = false ∨ d.depth = 0) →
      let t := (s.setDeq p k { d with popFlags := flags d.popped true, underruns := d.underruns + 1 }).stick p (underrunBit k)
      exec (.deqPopRead p k ⟨waited, pushed⟩) s = .next { (if pushed then t.joint p [(s.deqCtl p k).src] [] else t) with
        readOut := leBytes 4 d.popped.data.toNat }) ∧
    (∀ w r, (s.deqCtl p k).en = true → d.rows = w :: r →
      let d' := if (s.tile p).fenced then d.popHead else d.pop
      exec (.deqPopRead p k ⟨true, pushed⟩) s =
        .next { ((s.setDeq p k { d' with popFlags := flags w false }).pushToo p k pushed) with readOut := leBytes 4 w.data.toNat }))

/-- O25. In a sector in Brew: the oldest flag set on its way sets its task's flag, when it is a timer's or TASK_SIGNAL's, or its origin partition owns the task; another is dropped, counted and logged. A NOTIFY does the same for its target. FLAGS_SET sets the written flags. An enabled timer of period above zero that has counted its period sets its target's flag and starts again, and a one-shot one stops. An ARMED task whose readiness condition holds becomes READY with AGE 0, not urgent, and takes the dispatcher's next sequence number, which moves on. AGE_TICK adds one to the age of every READY task, up to 255, makes it urgent when it reaches its partition's URG, unless that is 0, and leaves every other task as it is. -/
def Obligations.FlagsMakeTasksReady : Prop :=
  (∀ (s : State) (n : SecIx), (s.sector n).pstate = .brew →
    (∀ t f q k r, (s.sector n).flagsIn = (t, f, q, k) :: r →
      let s1 := s.updSector n fun x => { x with flagsIn := r }
      (k = 0 ∨ (s.task t).st.owner = q → exec (.dispatcherFlagSet n) s =
        .next (s1.updTask t fun x => { x with flags := x.flags ||| (1#32 <<< (f % 32)) })) ∧
      (k ≠ 0 → (s.task t).st.owner ≠ q → exec (.dispatcherFlagSet n) s =
        .next ((s1.updSector (t / 2048) fun x => { x with dropped := x.dropped + 1 }).sysFault 0x54 (t / 2048) (k * 2 ^ 30 + t)))) ∧
    (∀ x, s.notifies.find? (fun x => x.task / 2048 == n.val) = some x → let s1 : State := { s with notifies := s.notifies.erase x }
      ((s.task x.task).st.owner = x.part → exec (.notifyArrive n) s =
        .next (s1.updTask x.task fun y => { y with flags := y.flags ||| (1#32 <<< (x.flag % 32)) })) ∧
      ((s.task x.task).st.owner ≠ x.part → exec (.notifyArrive n) s =
        .next ((s1.updSector n fun y => { y with dropped := y.dropped + 1 }).sysFault 0x54 n (2 * 2 ^ 30 + x.task)))) ∧
    (∀ (t : TaskIx) (w : Word), t.val / 2048 = n.val → exec (.flagsSetWrite t w) s =
      .next (s.updTask t fun x => { x with flags := x.flags ||| w })) ∧
    (∀ i : Fin 16, let m := tget {} (s.sector n).timers i
      m.cfg.getLsbD 31 = true → m.cfg.toNat % 65536 ≠ 0 → m.cfg.toNat % 65536 ≤ m.count → exec (.timerFire n i) s =
        .next ((s.updSector n fun x => { x with timers := tset {} x.timers i { m with
            cfg := if m.cfg.getLsbD 30 then m.cfg else m.cfg &&& 0x7FFFFFFF#32, count := 0 } }).updTask
          (2048 * n.val + m.tgt.toNat % 2048) fun x =>
            { x with flags := x.flags ||| (1#32 <<< (field m.tgt.toNat 16 5 % 32)) }))) ∧
  (∀ (s : State) (n : SecIx), (s.sector n).pstate = .brew →
    (∀ t : TaskIx, t.val / 2048 = n.val → (s.task t).state = .armed → s.condition t = true → exec (.taskReady t) s =
      .next ((s.updSector n fun x => { x with seqCtr := x.seqCtr + 1 }).setTask t
        { s.task t with state := .ready, seq := (s.sector n).seqCtr, age := 0, urgent := false })) ∧
    (canonical {} s.tasks = true → ∃ t : State, exec (.ageTick n) s = .next t ∧ (t.sector n).agePhase = 0 ∧ t.mem = s.mem ∧
      ∀ k, let a := s.task k
        let u := (s.sector n).urgOf a.st.owner
        (k / 2048 = n.val → a.state = .ready → a.st.owner < 16 → t.task k = { a with
          age := min 255 (a.age + 1), urgent := a.urgent || (u != 0 && decide (u ≤ min 255 (a.age + 1))) }) ∧
        (k / 2048 ≠ n.val ∨ a.state ≠ .ready ∨ 16 ≤ a.st.owner → t.task k = a)))

/-- O26. For a partition that is not recovering at a sector in Brew: the selection takes, of its READY tasks with a candidate tile, the top-ranked one and the chosen tile, and when a slot can be had the task runs there: a grant with the task, the slot, the batch (the residue of a yielded one, else BATCH) and, but for a task of a stream set, its stream is on its way, the tile's request is gone, and the consumed flags are cleared. AHEAD_FILL with PREFETCH set requests a fill into the victim slot of the first eligible idle tile of the top-ranked task without candidates. The oldest DONE of the sector, for a RUNNING task: COMPLETE leaves it CANCELLED, IDLE or ARMED, looks again at the queues and streams that signal it, and sends its NOTIFY; ABORTED_FAULT records the code and leaves the task to recovery; YIELDED makes it READY again with the consumed flags back and the rest of the batch as its residue, or CANCELLED when a cancel waits; ABORTED_POISON makes it IDLE and sends its owner the TASK_ABORTED event. A DONE for a task that is not RUNNING changes nothing else. -/
def Obligations.TasksRunAndEnd : Prop :=
  (∀ (s : State) (q : PartIx) (n : SecIx), s.recovering q = false → (s.sector n).pstate = .brew →
    (∀ t i p h fill s1, s.topTask ((s.readyTasks q n).filter fun t => !(s.candidates t).isEmpty) = some t →
      s.chooseTile t = some i → s.sectorTile n i = some p → s.chooseSlot t p = some (h, fill, s1) →
      t / 2048 = n.val → ∃ (r : State) (z : Nat), exec (.dispatchSelect q n) s = .next r ∧
        r.grants = s.grants ++ [(p, { task := t % 2048, slot := h, stream := z, fill := fill
                                      batch := if (s.task t).resid = 0 then (s.task t).st.batch.toNat else (s.task t).resid.toNat })] ∧
        ((s.task t).st.setTask = false → z = (s.task t).st.stream.toNat) ∧
        (r.task t).state = .running ∧ (r.task t).flags = (s.task t).flags &&& ~~~(s.consumes t).1 ∧ (r.task t).lastTile = i ∧
        (r.task t).grants = (s.task t).grants + 1 ∧ (r.sector n).ask = (s.sector n).ask.filter (· != i) ∧ r.mem = s.mem) ∧
    (∀ t p h, (s.sector n).dispCtrl.getLsbD 0 = true → s.topTask (s.readyTasks q n) = some t → s.candidates t = [] →
      ((s.eligibleTiles t).any fun p => decide ((s.tile p).rank (s.task t).st.ctxId.toNat < 2)) = false →
      (s.eligibleTiles t).find? (fun p => (s.tile p).fillQ.isEmpty && (s.tile p).fillWait.isEmpty &&
        !((s.tile p).fill.any (·.ahead))) = some p → s.victim p = some h →
      exec (.aheadFill q n) s = .next ((s.requestFill p (s.taskFill p t h true)).updSector n fun x =>
        { x with prefetches := x.prefetches + 1 }))) ∧
  (∀ (s : State) (n : SecIx) (d : Done), s.dones.find? (fun d => d.sector == n.val) = some d →
    let s1 : State := { s with dones := s.dones.erase d }
    let t := 2048 * n.val + d.task
    let a := s.task t
    (a.state ≠ .running → exec (.dispatchDone n) s = .next s1) ∧
    (a.state = .running → d.code = 3 → exec (.dispatchDone n) s = .next (s1.setTask t { a with lastCode := 3, cancel := false })) ∧
    (a.state = .running → d.code = 1 → exec (.dispatchDone n) s = .next (s1.setTask t { a with
      lastCode := 1, cancel := false, state := if a.cancel then .cancelled else .ready
      urgent := !a.cancel && a.wasUrgent, flags := a.flags ||| a.consumed, resid := BitVec.ofNat 16 (a.gbatch - d.counter) })) ∧
    (a.state = .running → d.code = 2 → a.st.owner < 16 → exec (.dispatchDone n) s =
      .next ((s1.setTask t { a with lastCode := 2, cancel := false, state := .idle, resid := 0 }).sendEvent (sectorPort n)
        a.st.owner { code := 3, status := stPoison, object := t
                     data := leBytes 2 (31 * d.sector + d.tile) ++ leBytes 10 0 })) ∧
    (a.state = .running → d.code = 0 → exec (.dispatchDone n) s = .next ((((s1.setTask t { a with
      lastCode := 0, cancel := false, resid := 0
      state := if a.cancel then .cancelled else if a.st.oneShot then .idle else .armed }).recheck t).streamRecheck t).sendNotify t)))

/-- O27. WAIT_SIGNAL goes to LOCKING on signal, LOCKING to ALIGNING on lock, ALIGNING to UP unless the partner signals remote fault, and back to UP at the end of a remote fault. From UP, loss of signal, clock, alignment, a high error ratio and a remote fault leave for WAIT_SIGNAL, LOCKING and ALIGNING with causes 1 to 5, no class stays paused, and the sticky bit of the cause is set. A running lane whose settings are legal and that loses its signal starts again from them; one whose settings are not legal stops in CONFIG_ERR with BAD_CONFIG. LANE_CTRL keeps its writable bits. Adaptation that asks beyond a window sets EQ_LIMIT; a corrected codeword counts in FEC_CORR_CW, an uncorrectable one in FEC_UNCORR_CW with FEC_UNCORR. -/
def Obligations.LanesFollowTheirStates : Prop :=
  ∀ (s : State) (l : LaneIx),
    let k := s.lane l
    let gone (o : Host.Outcome State Fault Refusal) (st cause : Nat) (bits : BitVec 32) : Prop :=
      ∃ t, o = .next t ∧ (t.lane l).status = st ∧ (t.lane l).cause = cause ∧ (t.lane l).paused = 0 ∧ (t.lane l).tx = none ∧
        (t.lane l).ctrl = k.ctrl ∧ (t.lane l).xoff = k.xoff ∧ t.mem = s.mem ∧ bits &&& ~~~(t.lane l).sticky = 0
    (k.status = 2 → exec (.laneSignalPresent l) s = .next (s.setLane l { k with status := 3 })) ∧
    (k.status = 3 → exec (.laneLocked l) s = .next (s.setLane l { k with status := 4, remote := false })) ∧
    (k.status = 4 → k.remote = false → ∃ t, exec (.laneUp l) s = .next t ∧ (t.lane l).status = 5 ∧ t.mem = s.mem) ∧
    (k.status = 4 → k.remote = true → ∃ t, exec (.remoteFaultEnd l) s = .next t ∧ (t.lane l).status = 5 ∧
      (t.lane l).remote = false ∧ t.mem = s.mem) ∧
    (k.status = 5 → (k.valid = true → gone (exec (.laneSignalLost l) s) 2 1 lsLos) ∧ gone (exec (.cdrLoss l) s) 3 2 lsCdr ∧
      gone (exec (.alignLoss l) s) 4 3 lsAlign ∧ gone (exec (.hiBer l) s) 4 4 lsHiBer ∧
      gone (exec (.remoteFault l) s) 4 5 lsRemote) ∧
    (2 ≤ k.status → k.status ≠ 5 →
      (k.valid = true → exec (.laneSignalLost l) s = .next (s.setLane l k.restart)) ∧
      (k.valid = false → exec (.laneSignalLost l) s = .next ((s.setLane l { k with status := 1 }).laneStick l lsBadConfig))) ∧
    (∀ w, ∃ t, exec (.laneCtrlWrite l w) s = .next t ∧ (t.lane l).ctrl = w &&& 0x1F0FFF00#32 ∧ t.mem = s.mem) ∧
    (∀ e up, 3 ≤ k.status → ∃ t, exec (.eqLimit l e up) s = .next t ∧ (t.lane l).sticky = k.sticky ||| lsEqLimit ∧
      (t.lane l).status = k.status ∧ t.mem = s.mem) ∧
    (4 ≤ k.status → k.fec ≠ 0 → exec (.fecCodeword l true) s = .next (s.setLane l { k with
        cnt := tset 0 k.cnt 9 (tget 0 k.cnt 9 + 1) }) ∧
      ∃ t, exec (.fecCodeword l false) s = .next t ∧ tget 0 (t.lane l).cnt 10 = tget 0 k.cnt 10 + 1 ∧
        (t.lane l).sticky = k.sticky ||| lsFecUncorr ∧ t.mem = s.mem)

/-- O28. On an UP lane, a frame that passes every check of the lane is taken by its kind. From an MLF partner, an MLF frame with VERSION 1, a whole header and a legal LEN that the frame holds is taken by its TYPE, after its credit record if it carries one: a DATA frame for an OPEN ingress stream of the lane, with the next SEQ and credit for its cells, moves the stream's sequence number on and its payload into cells; CREDIT adds its records' credits; CONTROL acts on its records. From a plain partner, a frame that a rule classifies to an OPEN ingress stream of the lane's owner is counted and placed behind its descriptor, or dropped for want of room; one that the rule discards is only counted. A PFC frame, on a lane with PFC whose partner is plain, pauses the enabled classes with a time above zero, resumes those with zero, leaves the others, and is counted; PAUSE and every other MAC control frame is counted in RX_OTHER. A frame that fails a check of the lane is counted once, by the first check it fails, and so is an MLF frame from no MLF partner, one whose VERSION or header is bad, and, after its credit record, one whose LEN is. A pause that runs out ends. -/
def Obligations.FramesReceivedByKind : Prop :=
  ∀ (s : State) (l : LaneIx) (f : RxFrame),
    let k := s.lane l
    let kind := (etherParse f.bytes).1
    let body := (etherParse f.bytes).2.1
    let h := mlfHeader body
    let payload := (body.drop 16).take h.len
    let s1 := s.setLane l (k.secAccept f)
    (k.up = true → kind = 0x88B5 → s.laneMlf l = true →
      (k.judge f = 100 → h.version = 1 → 16 ≤ body.length → h.lenOk k.maxFrame = true → h.len ≤ (body.drop 16).length →
        let s2 := if h.crv then s1.creditRecord l h.crStream h.crTotal else s1
        (h.type = 1 → exec (.mlfDataRx l f) s = .next (s2.dataFrame l h payload) ∧
          (let x := s2.stream h.stream
           let c := cellCount payload.length
           s2.boundHere l h.stream = true → x.egress = false → x.state = 1 → x.seqDiff h.seq = 0 → c ≤ x.out.toNat →
           let s3 := (s2.rxCount l 0).updStream h.stream fun x => { x with seqNext := x.seqNext + c }
           exec (.mlfDataRx l f) s = .next (s3.placePacket h.stream
             { owner := x.owner, lane := l, ts := s3.stamp (signed16 (s3.lane l).tsCorr.toNat) } payload false))) ∧
        (h.type = 2 → exec (.mlfCreditRx l f) s = .next ((recordsOf 4 payload).foldl (fun s v =>
          State.creditRecord s l (field v 16 13) (v % 65536)) (s2.rxCount l 0))) ∧
        (h.type = 3 → exec (.mlfControlRx l f) s = .next ((recordsOf 8 payload).foldl (fun s v =>
          State.controlRecord s l v) (s2.rxCount l 0)))) ∧
      (let only (t : State) : Prop := (h.type ≠ 2 → h.type ≠ 3 → h.type ≠ 4 → exec (.mlfDataRx l f) s = .next t) ∧
        (h.type = 2 → exec (.mlfCreditRx l f) s = .next t) ∧ (h.type = 3 → exec (.mlfControlRx l f) s = .next t) ∧
        (h.type = 4 → exec (.mlfCommandRx l f) s = .next t)
       (k.judge f ≠ 100 → only ((s.rxCount l (k.judge f)).brokenData l f (body.drop 16) h)) ∧
       (k.judge f = 100 → h.version ≠ 1 ∨ body.length < 16 → only (s1.rxCount l 4)) ∧
       (k.judge f = 100 → h.version = 1 → 16 ≤ body.length → ¬(h.lenOk k.maxFrame = true ∧ h.len ≤ (body.drop 16).length) →
         only ((if h.crv then s1.creditRecord l h.crStream h.crTotal else s1).rxCount l 4)))) ∧
    (k.up = true → kind = 0x88B5 → s.partnerOf l = none → k.judge f = 100 →
      (h.type ≠ 2 → h.type ≠ 3 → h.type ≠ 4 → exec (.mlfDataRx l f) s = .next (s1.rxCount l 5)) ∧
      (h.type = 2 → exec (.mlfCreditRx l f) s = .next (s1.rxCount l 5)) ∧
      (h.type = 3 → exec (.mlfControlRx l f) s = .next (s1.rxCount l 5)) ∧
      (h.type = 4 → exec (.mlfCommandRx l f) s = .next (s1.rxCount l 5))) ∧
    (k.up = true → (macControl f.bytes).isNone = true → kind ≠ 0x88B5 →
      (k.judge f ≠ 100 → exec (.ethFrameRx l f) s = .next (s.rxCount l (k.judge f))) ∧
      (k.judge f = 100 → s.laneMlf l = true → exec (.ethFrameRx l f) s = .next (s1.rxCount l 8)) ∧
      (∀ r, k.judge f = 100 → s.laneMlf l = false → (s.partnerOf l).isSome = true → k.owner < 16 →
        s1.classify l k.owner f.bytes = some r →
        let w := (s1.rule r 0)
        let z := field w.toNat 0 13
        let tag := (etherParse f.bytes).2.2
        let s2 : State := ({ s1 with rules := tset 0 s1.rules (8 * r + 7) (s1.rule r 7 + 1) } : State).rxCount l 0
        (w.getLsbD 29 = true → exec (.ethFrameRx l f) s = .next s2) ∧
        (w.getLsbD 29 = false → (s.stream z).egress = false → (s.stream z).state = 1 → (s.stream z).owner = k.owner →
          let cls := match tag with
            | some t => t / 8192
            | none => k.defPcp
          exec (.ethFrameRx l f) s = .next (s2.placeOrDrop z
            { owner := k.owner, lane := l, cls := cls, eth := true, ts := s2.stamp (signed16 (s2.lane l).tsCorr.toNat) }
            (leBytes 4 (f.bytes.length * 2 ^ 16 + cls * 2 ^ 13 + bit tag.isSome * 2 ^ 12) ++ f.bytes))))) ∧
    (∀ b, pfcBody f.bytes = some b → k.up = true → k.judge f = 100 → k.pfc = true → s.laneMlf l = false →
      exec (.pfcFrameRx l f) s = .next (s.setLane l { k with
        cnt := tset 0 k.cnt 14 (tget 0 k.cnt 14 + 1), paused := k.pausedBy b }) ∧
      ∀ c, c < 8 → (k.pausedBy b).getLsbD c =
        if (beNat (b.take 2)).testBit c && k.pfcCfg.getLsbD (16 + c)
        then decide (beNat ((b.drop (2 + 2 * c)).take 2) ≠ 0) else k.paused.getLsbD c) ∧
    ((pfcBody f.bytes).isSome = true → k.up = true →
      (k.judge f ≠ 100 → exec (.pfcFrameRx l f) s = .next (s.rxCount l (k.judge f))) ∧
      (k.judge f = 100 → k.pfc = false ∨ s.laneMlf l = true → exec (.pfcFrameRx l f) s = .next (s.rxCount l 8))) ∧
    ((macControl f.bytes).isSome = true → pfcBody f.bytes = none → k.up = true →
      exec (.pauseFrameRx l f) s = .next (s.rxCount l (if k.judge f = 100 then 8 else k.judge f))) ∧
    (∀ c : Fin 8, exec (.pfcPauseExpire l c) s = .next (s.setLane l { k with paused := k.paused &&& ~~~(1#8 <<< c.val) }))

/-- O29. A DATA frame for an ingress stream bound to the lane and OPEN, whose SEQ is the next expected: with credit for its cells, the stream's next sequence number and its visible and written positions advance by that number of cells; without, the sequence number advances, the cells are dropped, the dropped frame is counted and OVERRUN is set. A frame whose SEQ lies 2^31 or more ahead changes no stream. -/
def Obligations.DataFramesReachTheirStream : Prop :=
  ∀ (s : State) (l : Nat) (h : MlfHeader) (b : List Byte),
    let x := s.stream h.stream
    let c := cellCount b.length
    s.boundHere l h.stream = true → x.egress = false → x.state = 1 → x.owner < 16 →
    (x.seqDiff h.seq = 0 → c ≤ x.out.toNat → x.vpos = x.wpos →
      ((s.dataFrame l h b).stream h.stream).seqNext = x.seqNext + c ∧
      ((s.dataFrame l h b).stream h.stream).wpos = x.wpos + c ∧
      ((s.dataFrame l h b).stream h.stream).vpos = x.wpos + c ∧
      ((s.dataFrame l h b).stream h.stream).rpos = x.rpos) ∧
    (x.seqDiff h.seq = 0 → x.out.toNat < c →
      ((s.dataFrame l h b).stream h.stream).seqNext = x.seqNext + c ∧
      ((s.dataFrame l h b).stream h.stream).wpos = x.wpos ∧
      tget 0 ((s.dataFrame l h b).stream h.stream).cnt 3 = tget 0 x.cnt 3 + 1 ∧
      ((s.dataFrame l h b).stream h.stream).sticky = x.sticky ||| ssOverrun ∧ (s.dataFrame l h b).mem = s.mem) ∧
    (2 ^ 31 ≤ x.seqDiff h.seq → (s.dataFrame l h b).streams = s.streams ∧ (s.dataFrame l h b).mem = s.mem)

/-- O30. XOFF of a class is sent when its occupancy reaches XOFF and it is not yet in XOFF; it is repeated while the occupancy stays at XON or above; XON is sent once it falls below. On an MLF lane whose wire is free CREDIT_FRAME sends the totals due and, with a heartbeat period, HEARTBEAT the control records due; CREDIT_REPEAT the total of a stream with credit outstanding and SEQ_SYNC the next sequence number of an egress stream that owes a sync, each for a stream whose owner the lane serves. A silent partner sets PARTNER_SILENT. DATA_FRAME starts the packet whose turn it is. A frame sent whole leaves the wire, and counts in TX_FRAMES and, for a stream, in SENT_FRAMES; with LOOP = 0b01 the lane then receives it. -/
def Obligations.PausesAndFramesAreSent : Prop :=
  ∀ (s : State) (l : LaneIx),
    let k := s.lane l
    (∀ c : Fin 8,
      (s.pauses l c = true → k.xoff.getLsbD c = false → k.pfcCfg.toNat % 65536 ≠ 0 → k.xoffTh c ≤ s.occupancy l c →
        exec (.pfcXoffTx l c) s = .next ((s.setLane l { k with xoff := k.xoff ||| (1#8 <<< c.val) }).duePfc l c)) ∧
      (s.pauses l c = true → k.xoff.getLsbD c = true → k.xonTh c ≤ s.occupancy l c →
        exec (.pfcRepeatTx l c) s = .next (s.duePfc l c)) ∧
      (k.xoff.getLsbD c = true → s.occupancy l c < k.xonTh c →
        exec (.pfcXonTx l c) s = .next ((s.setLane l { k with xoff := k.xoff &&& ~~~(1#8 <<< c.val) }).duePfc l c))) ∧
    (s.mayStart l = true → s.laneMlf l = true →
      (k.hbPeriod ≠ 0 → exec (.heartbeatTx l) s = .next (s.sendControl l)) ∧
      (s.creditDue l ≠ [] → exec (.creditFrameTx l) s = .next (s.sendCredit l (s.creditDue l))) ∧
      (∀ z : StreamIx, (s.stream z).lane = l.val → k.hbPeriod ≠ 0 → s.laneAllows l (s.stream z).owner = true →
        ((s.stream z).egress = false → (s.stream z).mlf = true → (s.stream z).state = 1 ∨ (s.stream z).state = 2 →
          0 < (s.stream z).out → exec (.creditRepeat z) s = .next (s.sendCredit l [z.val])) ∧
        ((s.stream z).egress = true → (s.stream z).mlf = true → (s.stream z).state = 1 → (s.stream z).syncDue = true →
          exec (.seqSyncTx z) s = .next (((s.setStream z { s.stream z with syncDue := false }).setLane l { k with
            ctlDue := k.ctlDue ++ [(2, z.val, (s.stream z).seqNext)] }).sendControl l)))) ∧
    (k.up = true → s.laneMlf l = true → k.hbPeriod ≠ 0 → exec (.partnerSilent l) s = .next (s.laneStick l lsSilent)) ∧
    (∀ src r, s.mayStart l = true → k.ctlDue = [] → s.inbandWaits l = false →
      nextSource k.turn (s.dataSources l) = some (src, r) → exec (.dataFrameTx l) s = .next (s.sendData l src r)) ∧
    (∀ f, k.tx = some f →
      (field k.ctrl.toNat 8 2 ≠ 1 → exec (.frameSentWhole l) s = .next (s.frameSent l f)) ∧
      (field k.ctrl.toNat 8 2 = 1 → exec (.frameSentWhole l) s = .next ((s.frameSent l f).frameRx l (k.looped f))) ∧
      (∀ z, f.stream = some z → f.bypass = none →
        s.frameSent l f = ((s.setLane l { k with tx := none }).laneCount l 11).streamCount z 7))

/-- O31. A read of TIME_NS returns the nanoseconds and latches the seconds of that moment. A write of TIME_ADJ, or of LOAD_SEC_HI with the staged low words, waits behind the operations already waiting. A PPS edge captures the counter, as 0 while TIME is not locked, sets NEW and tells the platform owner; a read of PPS_STATUS returns NEW and clears it. Lock starts the counter and loss of lock holds it. -/
def Obligations.TimeIsKept : Prop :=
  ∀ (s : State) (w : Word),
    exec .timeNsRead s = .next { s with readOut := leBytes 4 s.time.ns
                                        time := { s.time with latchLo := BitVec.ofNat 32 s.time.sec
                                                              latchHi := BitVec.ofNat 32 (s.time.sec / 2 ^ 32) } } ∧
    exec (.timeAdjWrite w) s = .next { s with time := { s.time with ops := s.time.ops ++ [.adjust w.toInt] } } ∧
    exec (.loadSecHiWrite w) s = .next { s with time := { s.time with ops := s.time.ops ++
      [.load (w.toNat % 2 ^ 16 * 2 ^ 32 + s.time.loadLo.toNat) (s.time.loadNs.toNat % 2 ^ 30)] } } ∧
    (let ns := if s.time.locked then s.time.ns else 0
     let sec := if s.time.locked then s.time.sec % 2 ^ 32 else 0
     exec .ppsEdge s = .next (({ s with time := { s.time with ppsNs := ns, ppsSec := sec, ppsNew := true } } : State).raiseEvent 16
       { code := 0x30, data := leBytes 4 ns ++ leBytes 4 sec ++ leBytes 4 0 })) ∧
    exec .ppsStatusRead s = .next { s with time := { s.time with ppsNew := false }, readOut := leBytes 4 (bit s.time.ppsNew) } ∧
    exec .timePllLock s = .next { s with time := { s.time with locked := true } } ∧
    exec .timePllLoss s = .next { s with time := { s.time with locked := false } }

/-- O32. With the counter locked, its nanoseconds below 10^9, its fraction below 2^24 and no operation waiting, one TIME cycle adds TIME_INCR, in units of 2^-24 ns, to the time read as one number, modulo 2^48 seconds, and keeps the nanoseconds below 10^9. -/
def Obligations.TimeCycleAddsTheIncrement : Prop :=
  ∀ u : TimeUnit, u.locked = true → u.ops = [] → u.ns < 10 ^ 9 → u.frac < 2 ^ 24 → u.sec < 2 ^ 48 →
    let v := u.cycle
    let total (x : TimeUnit) : Nat := (x.sec * 10 ^ 9 + x.ns) * 2 ^ 24 + x.frac
    v.ns < 10 ^ 9 ∧ v.frac < 2 ^ 24 ∧ total v = (total u + u.incr.toNat) % (2 ^ 48 * 10 ^ 9 * 2 ^ 24)

/-- O33. For an OPEN stream: the injector starts the next packet when its port is free and its turn, pushes the words of each packet under way into that packet's own port while the port takes them, and moves RPOS past the packets that are through, in order; words that wait at an edge port are gathered into its assembly buffer, but none across a fence; a bypassed packet that is on chip whole and undamaged is framed for the lane of its target, behind its descriptor's length if that is no MLF stream, and one that is damaged or of another length is discarded and counted; the credit engine adds to CR_TOTAL the credits the rule allows, when the quota does not stop it. -/
def Obligations.StreamsFeedAndLeaveTheArray : Prop :=
  ∀ (s : State) (k : StreamIx),
    let x := s.stream k
    (x.egress = false → x.bypassed = false → x.ep = true → x.state = 1 →
      exec (.edgeInjectPacket k) s = .next ((s.injectStart k).injectAll k)) ∧
    (∀ i j, x.inj[i]? = some j → j.done = false → s.canSend (edgeIn j.port) = true →
      j.pos + (j.word - x.preface) / 64 < x.spos → ∀ n, let w := s.injectWord k j
      let s1 := (w.2.send (edgeIn j.port) w.1).updStream k fun x => { x with inj := x.inj.set i { j with word := j.word + 1, done := w.1.last } }
      s.injectRun k i (n + 1) = if w.1.last then { s1 with alloc := { s1.alloc with edgeTurn := tset 8191 s1.alloc.edgeTurn j.port k } }
        else s1.injectRun k i n) ∧
    (∀ e : Fin 128, let o := edgeOut (e / 64) (e % 64 / 4) (e % 4)
      let a := tget {} s.asm e
      exec (.edgeEgressPacket e) s = .next (s.gather e (s.link o).held.length) ∧
      (s.linkReads o = false → exec (.edgeEgressPacket e) s = .next s) ∧
      (∀ w, s.linkReads o = true → (s.link o).held = [w] → w.last = false → a.poison = false → a.tooLong = false →
        a.words.length < 1025 → a.load < 8192 → exec (.edgeEgressPacket e) s = .next { s.take o with
          asm := tset {} s.asm e { a with words := a.words ++ [w.data], poison := w.poison } })) ∧
    (∀ z e, x.target = some z → s.headPacket k = some e → x.egress = false → x.bypassed = true → x.state = 1 →
      x.bypBusy = false → e ≤ x.spos → (s.stream z).egress = true → (s.stream z).state = 1 →
      let r := s.packetBytes k x.rpos e
      let fits := (s.stream z).mlf = true ∨ (r.1.length + 3) / 4 = 1 + (descLen r.1 + 3) / 4
      (r.2.1 = true ∨ ¬fits → exec (.bypassFrame k) s = .next (r.2.2.bypDiscard k z e)) ∧
      (r.2.1 = false → fits → exec (.bypassFrame k) s = .next ((r.2.2.updStream k fun x => { x with bypBusy := true }).updLane
        (s.stream z).lane fun l => { l with byp := l.byp ++ [{ stream := z, bypass := some (k.val, e - x.rpos)
                                                               bytes := r.1 ++ List.replicate ((4 - r.1.length % 4) % 4) 0
                                                               cls := (r.2.2.posCell x x.rpos).cls }] }))) ∧
    (x.credited = true → s.quotaBound x = false →
      exec (.creditEngineVisit k) s = .next (s.setStream k { x with crTotal := x.crTotal + s.grantable x }))

/-- O34. After a visit by the credit engine, if credit was granted, the credit outstanding is at most CRED_LIMIT, the cells held and promised are at most the ring and the Carafe together, and, when the visit raised the outstanding credit above 0, the cells used and reserved for the owner before it plus the newly reserved ones are at most its quota. -/
def Obligations.CreditNeverExceedsItsLimits : Prop :=
  ∀ (s t : State) (k : StreamIx),
    let x := s.stream k
    let y := t.stream k
    exec (.creditEngineVisit k) s = .next t → x.crTotal < y.crTotal →
    y.out ≤ (x.credLimit : Int) ∧ ((x.wpos : Int) - x.mpos) + y.out ≤ (x.ring + x.carafe : Nat) ∧
    (0 < y.out → (s.usedCells x.owner + s.resvCells x.owner : Int) + (y.out - max 0 x.out) ≤ s.quotaOf x.owner)

/-- O35. The oldest staged position of an open stream is written as four line requests and its write is in flight, when no write of that place in the Carafe still is. A write that completes with OK, not the last of its position, leaves one fewer to come; the last frees the staging cell. The next position is read into a free cell as four line requests, with DRAIN set, while room, quota and the limit of 16 reads allow; the cell shows no bytes until all have come. A clean line read back, not the last of its position, is stored in the cell, and one fewer is to come; the last clean one gives the cell its length, counts the refill, and SPOS passes every position that is back. -/
def Obligations.CarafeSpillsAndRefills : Prop :=
  ∀ (s : State) (k : StreamIx),
    let x := s.stream k
    (∀ i, (x.far.findIdx? fun f => f.stage == 0) = some i → x.state ≠ 0 → x.state ≠ 3 → s.spilling k (x.spos + i) = false →
      ∃ t, exec (.carafeSpillWrite k) s = .next t ∧
      ((t.stream k).far.getD i {}).stage = 1 ∧ ((t.stream k).far.getD i {}).left = 4 ∧
      (t.stream k).wpos = x.wpos ∧ (t.stream k).spos = x.spos) ∧
    (∀ p n s1, s.carafeAnswer (spillOf k) = some (p, some n, s1) → (s1.stream k).spos ≤ n →
      let f := (s1.stream k).far.getD (n - (s1.stream k).spos) {}
      f.stage = 1 → p.status = stOk → (s1.stream k).state ≠ 3 →
      (1 < f.left → exec (.carafeSpillDone k) s =
        .next (s1.updFar k (n - (s1.stream k).spos) fun f => { f with left := f.left - 1 })) ∧
      (f.left ≤ 1 → exec (.carafeSpillDone k) s =
        .next (((s1.streamCount k 5).freeCells f.cell.toList).updFar k (n - (s1.stream k).spos) fun f =>
          { f with left := 0, stage := 2, cell := none }))) ∧
    (∀ f, let i := (x.far.takeWhile fun f => 3 ≤ f.stage).length
      x.far[i]? = some f → x.state = 1 ∨ x.state = 2 → f.stage = 2 → (x.far.filter fun f => f.stage == 3).length < 16 →
      x.spos + i - x.mpos < x.ring → s.quotaLeft x.owner = true → ∃ t, exec (.carafeRefillRead k) s = .next t ∧
        (t.stream k).drain = true ∧ ((t.stream k).far.getD i {}).stage = 3 ∧ ((t.stream k).far.getD i {}).left = 4 ∧
        ∃ n, ((t.stream k).far.getD i {}).cell = some n ∧ (tget {} t.cells n).len = 0) ∧
    (∀ p n j s1, s.carafeAnswer (refillOf k) = some (p, some (n, j), s1) → (s1.stream k).spos ≤ n →
      let i := n - (s1.stream k).spos
      let f := (s1.stream k).far.getD i {}
      let s2 := (s1.writeWords (cellBase (f.cell.getD 0) + 64 * j)
        (wordsOf (p.data ++ List.replicate (64 - p.data.length) 0) 16) false).updFar k i fun f => { f with left := f.left - 1 }
      f.stage = 3 → p.status = stOk → p.poison = 0 →
      (1 < f.left → exec (.carafeRefillDone k) s = .next s2) ∧
      (f.left = 1 → i < (s1.stream k).far.length → (s1.stream k).state ≠ 3 → f.info.poison = false →
        exec (.carafeRefillDone k) s = .next ((((s2.setCell (f.cell.getD 0) f.info).streamCount k 6).updFar k i fun f =>
          { f with stage := 4 }).advanceSpill k)))

/-- O36. The next waiting request of a partition takes a tag under the partition's epoch and leaves the waiting list; one for a hole is answered WRONG_PARTITION at its source, a read with zeros and every flit POISON, and takes no tag. In the global slot of its owner an output sends the flit of the first input, in turn order with responses before requests, that can go; a head for a sector in Steep is held instead and its sector wakes. A returned credit frees one place. A held packet goes on once its proxy passes it. APPLY starts a drain; a drained router takes over its new enables and slots, notes how long the drain took, marks one of more than 2,000 cycles late and a table with a reserved owner as bad. A lost system request is issued again. -/
def Obligations.MeshMovesPacketsAndCredits : Prop :=
  ∀ s : State,
    (∀ (q : Recip) k d, s.nextWaiting q = some k → s.targetOf k = some d →
      ∃ t tag, exec (.tagGrant q) s = .next t ∧ t.mesh.waiting = s.mesh.waiting.erase k ∧ t.mem = s.mem ∧
        t.mesh.txns = s.mesh.txns ++ [{ part := q.val, tag := tag, epoch := s.epochOf q, purpose := k.purpose }]) ∧
    (∀ (q : Recip) k, s.nextWaiting q = some k → s.targetOf k = none →
      let a := k.holeAnswer (s.epochOf q)
      let u := State.holeAccess { s with mesh := { s.mesh with waiting := s.mesh.waiting.erase k } } k.addr
      exec (.tagGrant q) s = .next { u with mesh := { u.mesh with answered := u.mesh.answered ++ [a] } } ∧
        a.status = stWrongPartition ∧ a.purpose = k.purpose ∧
        (k.opc = 1 → k.len ≤ 256 → a.data = List.replicate k.len 0 ∧ ∀ i, i < k.len → a.poison.testBit (flitOf i) = true)) ∧
    (∀ (r : Fin 64) (o : Fin 8) err q a x f fs,
      let inputs (c : Nat) : List (Nat × Nat) := (List.range 8).map fun i =>
        let a := (tget 7 (s.router r).turn (32 * o.val + q) + 1 + i) % 8; (a, vcKey r a (2 * q + c))
      slotOwner ((s.router r).slotAt s.mesh.slotCount.toNat) = some q →
      ((inputs 1 ++ inputs 0).find? fun z => s.canForward r o z.2) = some (a, x) → (s.vcBuf x).flits = f :: fs →
      (f.idx ≠ 0 ∨ (nextRouter r o).isSome ∨ s.proxy r o f.pkt ≠ 1 →
        exec (.meshFlitForward r o err) s = .next (s.moveFlit r o a x err).pump) ∧
      (f.idx = 0 → nextRouter r o = none → s.proxy r o f.pkt = 1 → exec (.meshFlitForward r o err) s =
        .next ((s.updVc x fun b => { b with held := true }).updSector ((proxySector r o).getD 0) fun n =>
          { n with wakeDue := true }))) ∧
    (∀ (r : Fin 64) (a : Fin 8) (v : Fin 34), let x := vcKey r a v
      (0 < (s.vcBuf x).credBack → exec (.meshCreditReturn r a v) s =
        .next ((s.updVc x fun b => { b with credBack := b.credBack - 1, spent := b.spent - 1 }).pump)) ∧
      (∀ f fs, (s.vcBuf x).flits = f :: fs → (s.vcBuf x).held = true → s.proxy r (routeOf r f.pkt.dst) f.pkt ≠ 1 →
        exec (.proxyPassHeld r a v) s = .next (s.updVc x fun b => { b with held := false }))) ∧
    (∀ r : Fin 64,
      ((s.router r).draining = false → exec (.rtCtrlApply r) s =
        .next (s.updRouter r fun x => { x with draining := true, drainCycles := 0 })) ∧
      ((s.router r).draining = true → s.drainBusy r = false → let x := s.router r
        let last := BitVec.ofNat 32 x.drainCycles
        let bad := x.slotNext.any fun e => slotReserved e.2
        let u := s.updRouter r fun x => { x with
          draining := false, vcEn := x.vcEnNext, slot := x.slotNext, drainLast := last
          drainMax := if x.drainMax < last then last else x.drainMax
          sticky := x.sticky ||| (if 2000 < x.drainCycles then 8#32 else 0) ||| (if bad then 4#32 else 0) }
        exec (.routerReopen r) s = .next (if 2000 < x.drainCycles then u.sysOpen r else u).pump)) ∧
    (∀ k r, s.mesh.lost = k :: r → exec .systemRequestReissue s =
      .next ({ s with mesh := { (s.mesh.freeTag k) with lost := r } }.issue k))

/-- O37. A request that a device issued from outside, that no fence proxy stops and whose memory or register grants it, is served at its target: on-chip memory and registers act and answer, a DRAM controller takes it, and one that fails a check is turned away; RD, WR, writes through the bit-set and bit-clear aliases, and each ATOM with its own AOP. Words of an exchange bank that port A writes in the cycle of a mesh write keep port A's data. A read or a write of a unit's own tap memory that has waited 16 cycles takes an issue slot: of a unit that would issue it is counted in STEAL_COUNT and stalls the unit, of another it is only served. -/
def Obligations.TargetsServeRequests : Prop :=
  ∀ (s : State) (r : MeshReq) (opc d sub : Nat),
    let k := requestPacket r opc d
    let a := r.addr.toNat % 2 ^ 44
    let u := s.memServe k
    ((areaOf a ≠ .csr → areaOf a ≠ .dram → s.serveRequest k = some (u.2.2.2.answer k u.1 u.2.1 u.2.2.1).pump) ∧
      (areaOf a = .dram → s.memCheck k = (none, s) → s.localRoom k = true → s.serveRequest k = some (s.dramAccept k)) ∧
      (∀ st w, areaOf a = .dram → s.memCheck k = (some st, w) → let z := turnedAway k st
        s.serveRequest k = some (w.answer k z.1 z.2.1 z.2.2).pump) ∧
      (∀ v, areaOf a = .csr → s.csrServe k = some v → s.serveRequest k = some (v.2.2.2.answer k v.1 v.2.1 v.2.2.1).pump)) ∧
    (s.mesh.arrived = [] → s.destOf r.addr.toNat = some (d, sub) → s.proxy (portRouter d) (portNumber d) k = 0 →
    ∀ t, s.serveRequest k = some t →
    (∀ (p : TileIx) (v : Fin 4), opc = (if r.data.isEmpty then 1 else 2) → areaOf r.addr.toNat = .tap p.val →
      r.addr.toNat % 0x4000 / 0x1000 = v.val → s.awake p = true → (s.memCheck k).1 = none → s.granted k true = true →
      (t.macIssues p v = true → exec (.tapSteal p v r) s = .next (t.updTile p fun x =>
        { x with steals := x.steals + 1, mac := x.mac.set v { x.mac[v] with stalled := true } })) ∧
      (t.macIssues p v = false → exec (.tapSteal p v r) s = .next t)) ∧
    ((s.memCheck k).1 ≠ none ∨ s.granted k r.waited = true →
    (opc = 1 → exec (.meshRd r) s = .next t) ∧
    (opc = 2 → (∀ ws, exec (.meshWr r ws) s = .next (keepPortA ws k s t)) ∧ exec (.meshWr r []) s = .next t ∧
      (r.addr.toNat / 2 ^ 44 = 1 → exec (.aliasBitSet r) s = .next t) ∧
      (r.addr.toNat / 2 ^ 44 = 2 → exec (.aliasBitClear r) s = .next t)) ∧
    (opc = 3 →
      ((r.data.getD 0 0).toNat = 1 → exec (.atomSwap r) s = .next t) ∧
      ((r.data.getD 0 0).toNat = 2 → exec (.atomCas r) s = .next t) ∧
      ((r.data.getD 0 0).toNat = 3 → exec (.atomFadd r) s = .next t) ∧
      ((r.data.getD 0 0).toNat = 4 → exec (.atomFor r) s = .next t) ∧
      ((r.data.getD 0 0).toNat = 5 → exec (.atomFand r) s = .next t) ∧
      ((r.data.getD 0 0).toNat = 6 → exec (.atomFxor r) s = .next t) ∧
      ((r.data.getD 0 0).toNat = 7 → exec (.atomUmin r) s = .next t) ∧
      ((r.data.getD 0 0).toNat = 8 → exec (.atomUmax r) s = .next t))))

/-- O38. At data, tap or system SRAM whose words in the range hold correct codes: a WR without poison changes exactly the bytes it carries, to the written value, or, through the aliases, by OR and by AND NOT; a RD gives the stored bytes with OK; an ATOM of 4 or 8 aligned bytes gives the old bytes and stores the value of its operation, and a CAS that does not match stores nothing. Every other byte is as it was. -/
def Obligations.MemoryAccessesAreExact : Prop :=
  ∀ (s : State) (k : Packet),
    let a := k.addr % 2 ^ 44
    let ali := k.addr / 2 ^ 44
    let u := s.sramAct k
    let t := u.2.2.2
    (∀ n, areaOf a ≠ .line n ∧ areaOf a ≠ .ctx n) →
    (∀ w, a / 4 * 4 ≤ w → w < a + max k.len (max k.data.length 8) → w % 4 = 0 → (s.mem.read w).2 = .clean) →
    (k.opc = 2 → k.poison = 0 → ali < 3 → u.1 = stOk ∧ ∀ x, t.mem.byte x =
      if a ≤ x ∧ x < a + k.data.length then aliasByte ali (s.mem.byte x) (k.data.getD (x - a) 0) else s.mem.byte x) ∧
    (k.opc = 1 → u.1 = stOk ∧ u.2.1 = (List.range k.len).map (fun i => s.mem.byte (a + i)) ∧ u.2.2.1 = 0 ∧ t = s) ∧
    (k.opc = 3 → ∀ aop w x y, atomFields k.data = (aop, w, x, y) → w = 4 ∨ w = 8 → a % w = 0 →
      u.1 = stOk ∧ u.2.1 = (List.range w).map (fun i => s.mem.byte (a + i)) ∧
      ∀ z, t.mem.byte z = match atomNew aop w (leNat ((List.range w).map fun i => s.mem.byte (a + i))) x y with
        | some v => if a ≤ z ∧ z < a + w then (leBytes w v).getD (z - a) 0 else s.mem.byte z
        | none => s.mem.byte z)

/-- O39. A request from outside, in the data or tap memory of a tile that another partition owns, changes no memory, and what it answers does not depend on what the SRAMs hold: two states that differ only in SRAM bytes and check codes give the same answer to RD. -/
def Obligations.NoAccessToAnotherOwnersTile : Prop :=
  ∀ (s : State) (r : MeshReq) (p : Nat), s.mesh.arrived = [] → s.mesh.inject = [] → r.addr.toNat < 2 ^ 44 →
    areaOf r.addr.toNat = .data p ∨ areaOf r.addr.toNat = .tap p → s.ownerOf p ≠ r.part.val →
    (∀ ws t, exec (.meshWr r ws) s = .next t → t.mem = s.mem) ∧ (∀ t, exec (.meshRd r) s = .next t → t.mem = s.mem) ∧
    (∀ c y t t', exec (.meshRd r) s = .next t →
      exec (.meshRd r) { s with mem := { s.mem with cells := c, syn := y } } = .next t' → t'.readOut = t.readOut)

/-- O40. A slot of a READY controller moves the slot position on and, unless it would write while a region of its owner initialises, serves the owner: a metadata slot makes the movement of metadata picked, and where none is, as any other slot, the picked request is served; the bank used is then busy for TRC. A read's line waits to return, a write's and an ATOM's are stored, one whose metadata failed comes to poison, and the last line of a request answers it. A line that has been read returns. After slot 63 the refresh starts the next frame. DC_APPLY and BANK_OWNER writes wait; at a frame boundary a slot table with more than two direction changes is refused and another applies, an entry with a reserved owner setting the error bit; a new owner applies once the region's earlier requests are served. A started sealed initialisation writes its region and ends. Calibration ends READY or FAILED. -/
def Obligations.DramControllersServe : Prop :=
  ∀ (s : State) (c : Fin 12),
    let k := s.mem.ctlOf c
    (k.ready = true → k.slotPos < 64 → let s1 := s.slotNext c
      (s1.mem.ctlOf c).slotPos = k.slotPos + 1 ∧
      (slotOwner (k.slotAt k.slotPos &&& 0x1F#8) = none → exec (.dramSlot c) s = .next s1) ∧
      ∀ q, slotOwner (k.slotAt k.slotPos &&& 0x1F#8) = some q → let read := !(k.slotAt k.slotPos).getLsbD 7
      let starts (b : Nat) : Prop := b < 16 ∧ (s1.mem.ctlOf c).initBusy b = true ∧
        s1.placeOwner { bank := b, chan := c, line := 0 } = if q < 16 then q else 31
      ((∃ b, starts b) → read = false → exec (.dramSlot c) s = .next s1) ∧
      ((∀ b, ¬starts b) ∨ read = true →
        (∀ o r, k.metaSlot k.slotPos = true → s1.metaPick c q read k.cyc = some (o, r) →
          exec (.dramSlot c) s = .next ((s1.slotMeta c q o r).useBank (s1.mem.metaPlace c o.key) k.cyc)) ∧
        (k.metaSlot k.slotPos = false ∨ s1.metaPick c q read k.cyc = none →
          (s1.slotPick c q read k.cyc = none → exec (.dramSlot c) s = .next s1) ∧
          ∀ r, s1.slotPick c q read k.cyc = some r →
            let s2 := s1.updCtl c fun k => { k with queue := tset [] k.queue q ((tget [] k.queue q).erase r) }
            exec (.dramSlot c) s = .next ((s2.partServe c r).useBank (s1.mem.place r.line) k.cyc)))) ∧
    (∀ r : DramReq, let a := r.pkt.addr % 2 ^ 44
      let bytes := ((s.lineData r.line).drop (a % 64)).take (atomFields r.pkt.data).2.1
      (r.pkt.opc = 1 → let u := if r.bad then (s.lineData r.line, true, s) else s.lineRead r.line
        s.partServe c r = u.2.2.updCtl c fun k => { k with
          reading := k.reading ++ [{ num := r.num, line := r.line, data := u.1, bad := u.2.1 }] }) ∧
      (r.pkt.opc = 2 → let u := s.linePut a (r.pkt.addr / 2 ^ 44) r.pkt.data (fun i => r.pkt.poison.testBit (flitOf i)) r.line
        s.partServe c r = if r.bad then s.partDone { num := r.num, line := r.line, bad := true }
          else u.2.partDone { num := r.num, line := r.line, bad := !u.1 }) ∧
      (r.pkt.opc = 3 → let u := s.dramAtom a r.pkt.data
        s.partServe c r = if r.bad then s.partDone { num := r.num, line := r.line, bad := true, data := bytes }
          else u.2.2.2.partDone { num := r.num, line := r.line, data := u.2.1, bad := u.2.2.1 })) ∧
    (∀ p r, k.reading = p :: r → exec (.dramReadData c) s =
      .next ((s.updCtl c fun x => { x with reading := r }).partDone p)) ∧
    (∀ (x : DramPart) j, s.mem.joins.find? (fun j => j.num == x.num) = some j → j.left.filter (· != x.line) = [] → j.pkt.opc = 2 →
      x.data = [] → s.partDone x = ((s.setMem { s.mem with joins := s.mem.joins.filter fun y => y.num != j.num }).answer
        j.pkt (if j.bad || x.bad then stPoison else stOk) [] 0).pump) ∧
    (∀ (x : DramPart) j, s.mem.joins.find? (fun j => j.num == x.num) = some j → j.pkt.opc = 1 → j.pkt.lines = [x.line] → j.left = [x.line] →
      j.got = [] → j.bad = false → x.bad = false →
      s.partDone x = ((s.setMem { s.mem with joins := s.mem.joins.filter fun y => y.num != j.num }).answer
        j.pkt stOk ((x.data.drop (j.pkt.addr % 64)).take j.pkt.len) 0).pump) ∧
    (k.ready = true → k.slotPos = 64 → exec (.dramRefresh c) s =
      .next (s.updCtl c fun k => { k with
        slotPos := 0, frameCount := k.frameCount + 1, cyc := k.cyc + s.mem.trc + 1
        readyAt := (List.range s.mem.ranks).foldl (fun t r =>
          tset 0 t (16 * r + (s.mem.ctlOf c).frameCount.toNat % 16) (k.cyc + s.mem.trc)) k.readyAt })) ∧
    exec (.dcApplyWrite c) s = .next (s.updCtl c fun k => { k with apply := true }) ∧
    (k.apply = true → k.slotPos = 0 → let t := s.updCtl c fun k => { k with slot := k.slotNext, apply := false }
      (2 < k.turns → exec (.slotTableApply c) s = .next (s.dcStick c 0x10)) ∧
      (k.turns ≤ 2 → exec (.slotTableApply c) s =
        .next (if k.slotNext.any fun e => slotReserved (e.2 &&& 0x1F#8) then t.dcStick c 0x10 else t))) ∧
    (∀ (b : Fin 16) (w : Word),
      exec (.bankOwnerWrite c b w) s = .next (s.updCtl c fun k => { k with
        ownerNext := tset none k.ownerNext b (some (w &&& 0x8000001F#32)) }) ∧
      (∀ v, tget none k.ownerNext b = some v → s.regionBusy c b = false → ∃ t, exec (.bankOwnerApply c b) s = .next t ∧
        (t.mem.ctlOf c).ownerReg b = v ∧ tget none (t.mem.ctlOf c).ownerNext b = none ∧ t.mem.cells = s.mem.cells ∧
        (sealedField (k.ownerReg b) = false ∨ sealedField v = true → t.mem.lines = s.mem.lines)) ∧
      (tget 0 k.init b = 1 → exec (.sealedInit c b) s = .next (s.initRegion c b)) ∧
      (tget 0 k.init b = 2 → exec (.sealedInitDone c b) s = .next (s.updCtl c fun k => { k with init := tset 0 k.init b 0 }))) ∧
    (∀ ok, k.state = 1 → ∃ t, exec (.dramCalibrationDone c ok) s = .next t ∧
      (t.mem.ctlOf c).state = if ok then 2 else 3)

/-- O41. In a region without SEALED, storing 64 bytes at a line-aligned address and reading it back gives the bytes, poisoned exactly when it was stored poisoned; every other stored line is as it was, and under another key what is delivered is what that key and the address decipher from the stored cipher, 16 bytes at a time. -/
def Obligations.DramLinesReadBack : Prop :=
  ∀ (s : State) (a : Nat) (d : List Byte) (bad : Bool), a % 64 = 0 → d.length = 64 → s.placeSealed (s.mem.place a) = false →
    let t := (s.lineStore a d bad).2
    (t.lineRead a).1 = d ∧ (t.lineRead a).2.1 = bad ∧
    (∀ x, x ≠ a / 64 → tget none t.mem.lines x = tget none s.mem.lines x) ∧
    (∀ key' ln, tget none t.mem.lines (a / 64) = some ln → key' ≠ ln.key →
      linePlain (some ln) key' (lineOf a) [] = (List.range 4).flatMap fun j =>
        xtsOpen key' (lineOf a) j (aesBlock (lineBody (some ln) (lineOf a) []) j))

/-- O42. At a host port that is there: a doorbell value in range is taken by an ACTIVE queue, one out of range faults it with FCODE 3 or 4 and sets DOORBELL_ERR, one that was sent before EN = 0 took effect and comes after is ignored; EN = 1 with sizes in range opens a bound queue with its indexes at 0, one with a size out of range faults it with FCODE 1 and an unbound one with FCODE 2, and EN = 0 or a write to an ACTIVE queue stores EN and IEN; a disabled queue with nothing fetched, and nothing waiting or a fault, loses ACTIVE. A fetch of an ACTIVE queue without fault asks the host for its next entries, stamped with the queue's binding. The data of a fetch moves SQ_HEAD on; an error faults the queue with FCODE 5. A reply at the port takes its number as it is written at CQ_TAIL with its phase, CQ_TAIL moves on, the 16th failure in a row faults the queue with FCODE 6, and with IEN its interrupt is sent; a write that fails faults the queue with FCODE 5. -/
def Obligations.QueuesOpenFetchAndComplete : Prop :=
  ∀ (s : State) (n : Fin 4) (m : Fin 64) (w : Word), s.portWidth n ≠ 0 →
    let x := qidOf 0 n m
    let q := s.queue x
    let v := field w.toNat 0 13
    (q.active = true → v < 2 * q.sqSize → (v + 2 * q.sqSize - q.sqHead) % (2 * q.sqSize) ≤ q.sqSize →
      exec (.sqTailWrite n m ⟨w, false⟩) s = .next (s.setQueue x { q with sqTail := v })) ∧
    (q.active = true → ¬(v < 2 * q.sqSize ∧ (v + 2 * q.sqSize - q.sqHead) % (2 * q.sqSize) ≤ q.sqSize) →
      exec (.sqTailWrite n m ⟨w, false⟩) s =
        .next ((s.setQueue x { q with fault := true, fcode := 3 }).hpStick (qidHost x) hpDoorbell)) ∧
    (q.active = true → v < 2 * q.cqSize →
      (q.cqTail + 2 * q.cqSize - v) % (2 * q.cqSize) ≤ (q.cqTail + 2 * q.cqSize - q.cqHead) % (2 * q.cqSize) →
      exec (.cqHeadWrite n m ⟨w, false⟩) s = .next (s.setQueue x { q with cqHead := v })) ∧
    (q.active = true → ¬(v < 2 * q.cqSize ∧
        (q.cqTail + 2 * q.cqSize - v) % (2 * q.cqSize) ≤ (q.cqTail + 2 * q.cqSize - q.cqHead) % (2 * q.cqSize)) →
      exec (.cqHeadWrite n m ⟨w, false⟩) s =
        .next ((s.setQueue x { q with fault := true, fcode := 4 }).hpStick (qidHost x) hpDoorbell)) ∧
    exec (.sqTailWrite n m ⟨w, true⟩) s = .next s ∧ exec (.cqHeadWrite n m ⟨w, true⟩) s = .next s ∧
    (w.getLsbD 0 = true → q.active = false → q.owner ≠ 31 → 1 ≤ q.sqSize → q.sqSize ≤ 4096 → 1 ≤ q.cqSize → q.cqSize ≤ 4096 →
      exec (.qCtrlWrite n m w) s = .next (s.setQueue x { q with
        en := true, ien := w.getLsbD 1, active := true, sqHead := 0, cqTail := 0, sqTail := 0, cqHead := 0
        fault := false, fcode := 0 })) ∧
    (let z := { q with en := w.getLsbD 0, ien := w.getLsbD 1 }
     let legal (size : Nat) : Prop := 1 ≤ size ∧ size ≤ 4096
     (w.getLsbD 0 = false ∨ q.active = true → exec (.qCtrlWrite n m w) s = .next (s.setQueue x z)) ∧
     (w.getLsbD 0 = true → q.active = false → ¬(legal q.sqSize ∧ legal q.cqSize) →
       exec (.qCtrlWrite n m w) s = .next (s.setQueue x { z with fault := true, fcode := 1 })) ∧
     (w.getLsbD 0 = true → q.active = false → legal q.sqSize → legal q.cqSize → q.owner = 31 →
       exec (.qCtrlWrite n m w) s = .next (s.setQueue x { z with fault := true, fcode := 2 }))) ∧
    (q.active = true → q.en = false → q.inFlight = 0 → q.reading = 0 → q.fault = true ∨ q.replies = [] ∧ q.sent = [] →
      exec (.queueDisableDone n m) s = .next ((s.dropReplies x).updQueue x fun q => { q with active := false })) ∧
    (let size := max 1 q.sqSize
     let k := min (min 8 ((q.sqTail + 2 * size - q.sqHead) % (2 * size))) (min (size - q.sqHead % size) (s.fetchRoom q.owner))
     (s.port n).training = true → q.active = true → q.en = true → q.fault = false → q.reading = 0 → k ≠ 0 → q.owner < 17 →
      exec (.commandFetch n m) s = .next { ((s.setFlights q.owner (s.inFlight q.owner + k)).setQueue x
        { q with reading := k, inFlight := q.inFlight + k }) with hostReads := s.hostReads ++
          [{ port := n, addr := q.sqBase.toNat + 64 * (q.sqHead % size), len := 64 * k, fetch := some (x, q.owner) }] }) ∧
    (∀ h r (i : Fin 256) data err, (s.hostReads.filter fun h => h.port == n.val)[i.val]? = some h → h.fetch = some (x, r) →
      exec (.hostReadCompletion n i data err) s =
        .next (({ s with hostReads := s.hostReads.erase h } : State).fetchDone h x r data err)) ∧
    (∀ r rest, q.sent = r :: rest → q.active = true → q.fault = false → q.ringUsed < q.cqSize →
      let u := s.number x r
      let t : State := ({ u.2 with hostWrites := u.2.hostWrites ++
          [{ port := n, addr := q.cqBase.toNat + 32 * (q.cqTail % q.cqSize)
             bytes := u.1.packet x (bit (decide (q.cqTail < q.cqSize))) q.sqHead }] } : State).updQueue x fun q =>
        { q with sent := rest, cqTail := (q.cqTail + 1) % (2 * q.cqSize) }
      let v := if r.faults then t.queueFault x 6 else t
      exec (.completionWrite n m false) s = .next (if q.ien then v.sendMsix n m else v) ∧
      exec (.completionWrite n m true) s = .next ((s.queueFault x 5).hpStick n hpPcieErr))

/-- O43. The oldest CMD packet that has reached Barista joins its recipient's buffer when its partition is neither absent nor being destroyed and there is room: of a host port's queue, when the queue is ACTIVE and the buffer is not full, which is answered QUEUE_FULL; of another, when queue, buffer and partition have room, and a command without room is replied to with QUEUE_FULL. One of a partition that is gone is replied to with DISCARDED_RESET. An event of a block with a code and a status of Table 11-11 enters its recipient's event buffer. An RPL packet hands the queue's oldest reply to its port. A response frees its tag, and a current QUEUE_FULL issues its packet again. The oldest deliverable event goes to its subscribed queue and is marked delivered. A COMMAND frame of an in-band host sends its commands on with the queue's stamp. Replies of an in-band queue leave in one frame, behind the control records that are due. -/
def Obligations.CommandPacketsReachBarista : Prop :=
  ∀ s : State,
    (∀ k, s.mesh.arrived.find? (fun k => k.opc == 4) = some k →
      let w : State := { s with mesh := { s.mesh with arrived := s.mesh.arrived.erase k } }
      let x := k.addr
      let c : CmdRec := { qid := x, stamp := k.part, bytes := k.data }
      let gone : Prop := k.part < 16 ∧ ((s.part k.part).state = 0 ∨ (s.part k.part).state = 4)
      let joins (w : State) : State := w.setBuffer k.part (s.buffer k.part ++ [c])
      (qidKind x = 0 →
        ((s.queue x).active = false → exec .meshCmd s = .next (w.answer k stOk []).pump) ∧
        (gone → (s.queue x).active = true → exec .meshCmd s = .next ((w.reply c stDiscardedReset []).answer k stOk []).pump) ∧
        (¬gone → (s.queue x).active = true → 256 ≤ (s.buffer k.part).length →
          exec .meshCmd s = .next (w.answer k stQueueFull []).pump) ∧
        (¬gone → (s.queue x).active = true → (s.buffer k.part).length < 256 →
          exec .meshCmd s = .next ((joins w).answer k stOk []).pump)) ∧
      (qidKind x ≠ 0 →
        let u := (w.setFlights k.part (s.inFlight k.part + 1)).setQueue x { s.queue x with inFlight := (s.queue x).inFlight + 1 }
        let room : Prop := (s.queue x).inFlight < (s.queue x).depth ∧ (s.buffer k.part).length < 256 ∧
          s.inFlight k.part < flightLimit k.part
        (gone → exec .meshCmd s = .next ((u.reply c stDiscardedReset []).answer k stOk []).pump) ∧
        (¬gone → ¬room → exec .meshCmd s = .next ((u.reply c stQueueFull []).answer k stOk []).pump) ∧
        (¬gone → room → exec .meshCmd s = .next ((joins u).answer k stOk []).pump))) ∧
    (∀ (r : MeshReq) k, s.mesh.arrived.find? (requestNames r 5) = some k → k.data.length = 32 →
      let n (a c : Nat) : Nat := leNat ((k.data.drop a).take c)
      eventKnown k.part (n 4 2) (n 0 2) = true → exec (.meshEvt r) s =
        .next ((({ s with mesh := { s.mesh with arrived := s.mesh.arrived.erase k } } : State).raiseEvent k.part
          { code := n 4 2, status := n 0 2, object := n 8 2, data := (k.data.drop 14).take 12 }).answer k stOk []).pump) ∧
    (∀ k, s.mesh.arrived.find? (fun k => k.opc == 6) = some k → exec .meshRpl s =
      .next ((({ s with mesh := { s.mesh with arrived := s.mesh.arrived.erase k } } : State).updQueue k.addr fun q =>
        { q with sent := q.sent ++ q.replies.take 1, replies := q.replies.drop 1 }).answer k stOk []).pump) ∧
    (∀ k, s.mesh.answered.find? (fun k => k.purpose.plain || k.epoch != s.epochOf k.part) = some k →
      let m : Mesh := { (s.mesh.freeTag k) with answered := s.mesh.answered.erase k }
      let mine (u : Packet) : Bool := u.part == k.part && u.tag == k.tag && u.purpose == k.purpose
      (m.unanswered.find? mine = none → exec .meshResponse s = .next { s with mesh := m }) ∧
      (∀ u, m.unanswered.find? mine = some u → let t : State := { s with mesh := { m with unanswered := m.unanswered.erase u } }
        (k.status ≠ stQueueFull ∨ k.epoch ≠ s.epochOf k.part → exec .meshResponse s = .next t) ∧
        (k.status = stQueueFull → k.epoch = s.epochOf k.part → exec .meshResponse s =
          .next (match (List.range 4).find? fun n => hostPort n == u.src with
            | some n => (t.issue u).hpStick n hpRetry
            | none => t.issue u)))) ∧
    (∀ (r : Recip) e x rest old, (s.evb r).entries = old ++ e :: rest → e.delivered = false →
      tget none (s.evb r).subs e.ev.code = some x → (s.queue x).owner = r.val → s.eventRoom x = true →
      (∀ y ∈ old, y.delivered = true) → exec (.eventDeliver r) s = .next ((s.setEvb r { s.evb r with
        entries := (s.evb r).entries.map fun y => if y.eseq = e.eseq then { y with delivered := true } else y }).sendReply x
        { status := e.ev.status, ident := e.eseq, opcode := e.ev.code, isEvent := true, object := e.ev.object
          result := padTo 12 e.ev.data, stamp := r, key := (s.role r).session.map (·.krpl) })) ∧
    (∀ (l : LaneIx) f, let k := s.lane l
      let body := (etherParse f.bytes).2.1
      let h := mlfHeader body
      let payload := (body.drop 16).take h.len
      let e := tget 0 s.partners ((s.partnerOf l).getD 0)
      let b := (payload.getD 0 0).toNat
      let n := (payload.getD 1 0).toNat
      let x := qidOf 1 (partnerIbh e) b
      let s1 := s.setLane l (k.secAccept f)
      let s2 := if h.crv then s1.creditRecord l h.crStream h.crTotal else s1
      k.up = true → (etherParse f.bytes).1 = 0x88B5 → s.laneMlf l = true → k.judge f = 100 → h.version = 1 →
      16 ≤ body.length → h.type = 4 → h.rsp = false → h.lenOk k.maxFrame = true → h.len ≤ (body.drop 16).length →
      partnerIb e = true → payload.length = 4 + 64 * n → b < 16 → (s.queue x).owner < 16 → exec (.mlfCommandRx l f) s =
        .next ((List.range n).foldl (fun z i => State.issue z
          { part := (s.queue x).owner, opc := 4, addr := x, src := lanePort l, dst := baristaPort, len := 64
            data := (payload.drop (4 + 64 * i)).take 64, purpose := .command x })
          ((s2.rxCount l 0).updQueue x fun q => { q with lane := l }))) ∧
    (∀ (q : Fin 192) l, let x := qidOf 1 (q / 16) (q % 16)
      s.inbandLane x = some l → (s.queue x).sent ≠ [] → s.mayStart l = true → s.laneMlf l = true →
      ((s.lane l).ctlDue ≠ [] → exec (.inbandReplyTx q) s = .next (s.sendControl l)) ∧
      ((s.lane l).ctlDue = [] → ∃ t : State, exec (.inbandReplyTx q) s = .next t ∧
        (t.queue x).sent = (s.queue x).sent.drop 16 ∧ (t.lane l).tx.any (·.kind == 2) = true ∧ t.mem = s.mem))

/-- O44. PERST_N of a port and a link that goes down take ACTIVE from its queues and leave no reply of them waiting; its release starts training when the width is known. A core's slice ends and the next of its 64 begins. At its address after reset the management port takes a 64-byte command with a good PEC into the platform owner's buffer, or replies QUEUE_FULL when there is no room; it returns the oldest reply, numbered as it is read, with its count, or a count of 0, the reply to the 16th failure in a row faulting the queue with FCODE 6; and it returns its status; while a reply waits the Alert Response Address reads as its own address; a clock timeout leaves everything. -/
def Obligations.PortsSlicesAndManagement : Prop :=
  ∀ s : State,
    (∀ n : Fin 4,
      (∃ t : State, exec (.perstAssert n) s = .next t ∧ (t.port n).perst = true ∧ (t.port n).training = false ∧
        (t.port n).ctrl = 0 ∧ ∀ e ∈ s.queues, qidKind e.1 = 0 → qidHost e.1 = n.val →
          (t.queue e.1).active = false ∧ (t.queue e.1).sent = [] ∧ (t.queue e.1).replies = [] ∧
          (t.queue e.1).owner = (s.queue e.1).owner) ∧
      (∃ t : State, exec (.hostLinkDown n) s = .next t ∧ (t.port n).ctrl = 0 ∧ (t.port n).perst = (s.port n).perst ∧
        ∀ e ∈ s.queues, qidKind e.1 = 0 → qidHost e.1 = n.val →
          (t.queue e.1).active = false ∧ (t.queue e.1).sent = [] ∧ (t.queue e.1).replies = []) ∧
      exec (.perstDeassert n) s = .next (s.updPort n fun p => { p with perst := false, training := s.portWidth n != 0 })) ∧
    (∀ c : Fin 4, exec (.baristaSliceEnd c) s = .next { s with sliceNow := s.sliceNow.set c ((s.sliceNow.get c + 1) % 64) }) ∧
    exec .smbusClockTimeout s = .next s ∧
    (∀ a : BitVec 7, a.toNat = 0x58 + s.smbAddr → s.boot.held = false →
      (s.boot.ready = true → ∀ b, b.length = 64 → let q := s.queue mgmtQid
        let c : CmdRec := { qid := mgmtQid, stamp := 16, bytes := b }
        let u := (s.setFlights 16 (s.inFlight 16 + 1)).setQueue mgmtQid { q with inFlight := q.inFlight + 1 }
        let room : Prop := q.inFlight < q.depth ∧ (s.buffer 16).length < 256 ∧ s.inFlight 16 < 256
        (room → exec (.smbusCommandWrite a b true) s = .next (u.setBuffer 16 (s.buffer 16 ++ [c]))) ∧
        (¬room → exec (.smbusCommandWrite a b true) s = .next (u.reply c stQueueFull []))) ∧
      (∀ r rest, s.boot.ready = true → (s.queue mgmtQid).sent = r :: rest →
        let u := (s.setQueue mgmtQid { s.queue mgmtQid with sent := rest }).number mgmtQid r
        let v := if r.faults then u.2.queueFault mgmtQid 6 else u.2
        exec (.smbusReplyRead a) s = .next { v with readOut := leBytes 1 32 ++ u.1.packet mgmtQid 0 0 }) ∧
      (s.boot.ready = true → (s.queue mgmtQid).sent = [] →
        exec (.smbusReplyRead a) s = .next { s with readOut := leBytes 1 0 }) ∧
      exec (.smbusStatusRead a) s = .next { s with readOut := leBytes 1 4 ++ leBytes 4 (s.boot.status % 65536
        + 2 ^ 16 * bit s.boot.ready + 2 ^ 17 * bit (!(s.queue mgmtQid).sent.isEmpty) + 2 ^ 18 * min 31 (s.inFlight 16)) }) ∧
    (s.boot.ready = true → (s.queue mgmtQid).sent ≠ [] →
      exec .smbusAlertResponse s = .next { s with readOut := leBytes 1 (0x58 + s.smbAddr) })

/-- O45. An accepted NOP is answered OK with RESULT 0. An accepted IDENTIFY is answered OK with FAMILY 0x00A1 in bytes 14 and 15, PART 0x7440 in 16 and 17, STEPPING in 18, the version of the running firmware in 20 to 23, ACTIVE_SLOT in 24, and 0 elsewhere. Both change nothing else, and both are accepted without a MAC, with or without a session. The RESULT of a reply stands in bytes 14 to 25 of its entry. -/
def Obligations.NopAndIdentifyAnswer : Prop :=
  ∀ (s : State) (r : Recip) (c : CmdRec) (rest : List CmdRec) (auth : Bool),
    let b := s.begun r c rest auth
    (c.flags.testBit 1 = false → (c.opcode = 0x0001 ∨ c.opcode = 0x0002) → s.authenticate c = some false) ∧
    (s.Accepts r c rest 0x0001 auth → c.stray [] = false →
      exec (.nop r) s = .next (s.answered r c rest auth stOk [] b)) ∧
    (s.Accepts r c rest 0x0002 auth → c.stray [] = false →
      exec (.identify r) s = .next (s.answered r c rest auth stOk ([0xA1, 0x00, 0x40, 0x74, BitVec.ofNat 8 stepping, 0]
        ++ leBytes 4 s.boot.fwVersion ++ [BitVec.ofNat 8 s.boot.active, 0]) b)) ∧
    (∀ (y : Reply) x p h, slice (y.packet x p h) 14 12 = padTo 12 y.result) ∧ padTo 12 [] = List.replicate 12 (0 : Byte)

/-- O46. An accepted command whose parameters are in range is answered OK: GET_STATUS with the boot status, flags, partition state, commands in flight and waiting events; READ_TELEMETRY with reading, minimum and maximum, which start again; ENV_SET writes the limits; TIME_SET queues its operation, which takes effect in a TIME cycle when the counter runs; AGING_SET writes URG_q in all eight dispatchers and returns the old value; LATENCY_TOLERANCE_SET writes both limits and returns the old ones; POWER_QUERY reads; POWER_CAP_SET writes the cap and returns the old one. -/
def Obligations.DeviceCommandsAnswer : Prop :=
  ∀ (s : State) (r : Recip) (c : CmdRec) (rest : List CmdRec) (auth : Bool),
    let b := s.begun r c rest auth
    (s.Accepts r c rest 0x0003 auth → c.stray [] = false →
      exec (.getStatus r) s = .next (s.answered r c rest auth stOk (resultOf [(14, 2, b.boot.status),
        (16, 1, bit b.boot.ready + 2 * bit (b.perc.status == 1) + 4 * bit (c.po && b.logUnread)),
        (18, 1, if c.po then 0 else (b.part c.stamp).state), (20, 2, b.inFlight c.stamp), (22, 2, (b.evb c.stamp).entries.length)]) b)) ∧
    (let n := c.num 16 1; s.Accepts r c rest 0x0005 auth → c.stray [(16, 1)] = false → (n ≤ 10 ∨ 16 ≤ n ∧ n ≤ 24) →
      exec (.readTelemetry r) s = .next (s.answered r c rest auth stOk (resultOf
        [(14, 4, reading (tget 0 b.power.now n)), (18, 4, reading ((tget none b.power.low n).getD (tget 0 b.power.now n))),
         (22, 4, reading ((tget none b.power.high n).getD (tget 0 b.power.now n)))])
        { b with power := { b.power with low := tset none b.power.low n none, high := tset none b.power.high n none } } )) ∧
    (s.Accepts r c rest 0x0205 auth → c.stray [(16, 3)] = false → 60 ≤ c.num 16 1 ∧ c.num 16 1 ≤ 105 → (c.num 17 1 = 0 ∨ 50 ≤ c.num 17 1 ∧ c.num 17 1 + 5 ≤ c.num 16 1) → c.num 18 1 ≤ 7 →
      exec (.envSet r) s = .next (s.answered r c rest auth stOk [] 
        { b with power := { b.power with tjMax := c.num 16 1, tjWarn := c.num 17 1, airflow := c.num 18 1 } })) ∧
    (s.Accepts r c rest 0x0206 auth →
      (c.num 16 1 = 1 ∧ c.stray [(16, 1), (20, 10)] = false ∧ c.num 20 4 < 2 ^ 30 ∨
        (c.num 16 1 = 2 ∨ c.num 16 1 = 3) ∧ c.stray [(16, 1), (20, 4)] = false ∧ c.num 20 4 ≠ 0) →
      let op : TimeOp := if c.num 16 1 = 1 then .load (c.num 24 6) (field (c.num 20 4) 0 30)
        else if c.num 16 1 = 2 then .adjust (BitVec.ofNat 32 (c.num 20 4)).toInt else .incr (BitVec.ofNat 32 (c.num 20 4))
      let u : TimeUnit := { b.time with ops := b.time.ops ++ [op] }
      let v : TimeUnit := if b.time.locked then u.cycle else u
      exec (.timeSet r) s = .next (s.answered r c rest auth stOk
        (resultOf [(14, 4, v.ns), (18, 4, v.sec % 2 ^ 32), (22, 1, bit (!v.locked))]) { b with time := v })) ∧
    (s.Accepts r c rest 0x0605 auth → c.stray [(16, 1)] = false →
      ∃ t, exec (.agingSet r) s = .next (s.answered r c rest auth stOk (resultOf [(14, 1, (b.sector 0).urgOf c.stamp)]) t) ∧
        (∀ n, n < 8 → (t.sector n).urgOf c.stamp = c.num 16 1 % 256 ∧ t.sector n = { b.sector n with urg := (t.sector n).urg } ∧
          ∀ q, q ≠ c.stamp → (t.sector n).urgOf q = (b.sector n).urgOf q) ∧ t = { b with sectors := t.sectors }) ∧
    (s.Accepts r c rest 0x0701 auth → c.stray [(16, 8)] = false → c.num 20 4 ≤ 65535 → (∀ v ∈ (b.part c.stamp).loaded, v.2.holdoff ≤ c.num 20 4) →
      exec (.latencyToleranceSet r) s = .next (s.answered r c rest auth stOk (resultOf [(14, 4, (b.part c.stamp).tol), (18, 4, b.holdoffOf c.stamp)]) 
        { (b.setPart c.stamp { b.part c.stamp with tol := c.num 16 4 }) with
            holdoff := tset 4096 b.holdoff c.stamp (c.num 20 4) })) ∧
    (∀ n, s.Accepts r c rest 0x0702 auth → n = c.num 16 1 →
      (c.stamp = 16 → n < 8 → c.stray [(16, 1)] = false → exec (.powerQuery r) s = .next (s.answered r c rest auth stOk
        (resultOf [(14, 1, (b.sector n).pstate.code), (16, 2, (b.sector n).clk), (18, 2, (b.sector n).ldo),
          (20, 2, (BitVec.ofInt 16 (b.sector n).temp).toNat), (22, 4, reading (tget 0 b.power.now (17 + n)))]) b)) ∧
      (c.stamp = 16 → n = 8 → c.stray [(16, 1)] = false → ∃ temp, exec (.powerQuery r) s = .next (s.answered r c rest auth stOk
        (resultOf [(20, 2, temp % 2 ^ 16), (22, 4, reading (tget 0 b.power.now 16))]) { b with drawn := b.drawn + 1 })) ∧
      (c.stamp ≠ 16 → c.stray [] = false → exec (.powerQuery r) s = .next (s.answered r c rest auth stOk
        (resultOf [(14, 4, (b.part c.stamp).tol), (18, 4, b.holdoffOf c.stamp)]) b))) ∧
    (s.Accepts r c rest 0x0703 auth → c.stray [(16, 4)] = false → 40000 ≤ c.num 16 4 ∧ c.num 16 4 ≤ 185000 →
      exec (.powerCapSet r) s = .next (s.answered r c rest auth stOk (resultOf [(14, 4, b.power.cap)]) 
        { b with power := { b.power with cap := c.num 16 4 } }))

/-- O47. An accepted LANE_CONFIG whose bytes are in range writes its page: page 0 the lane's presets, address and LANE_CTRL, page 1 the PFC thresholds, page 2 the MACsec settings, page 3 the receive SCIs. LANE_STATE returns status, sticky flags and last symbol, writes the 20 counters to its descriptor, if it has one, with POISONED_DATA if that fails, and clears the sticky flags when asked; of a lane in the platform owner's hands a partition reads the state only. PARTNER_DEFINE writes entry P and binds the lanes of its mask to it, or, with VALID 0, clears the entry and every lane bound to it. DRAM_DESCRIBE takes its description; a valid one, while no region has an owner, starts calibration, and another is answered with the status of its check or BUSY; it is answered when no channel calibrates, with the capacity if all are ready and 0 if not. -/
def Obligations.LaneCommandsAnswer : Prop :=
  ∀ (s : State) (r : Recip) (c : CmdRec) (rest : List CmdRec) (auth : Bool),
    let b := s.begun r c rest auth
    (∀ l page f, s.Accepts r c rest 0x0201 auth → l = c.num 16 1 → page = c.num 17 1 → f = c.num 20 1 → l < 64 → page < 4 →
      c.stray (lanePageUsed page) = false → c.lanePageReserved page = false →
      (page = 0 → fecPermitted (c.num 18 1) (c.num 19 1) = true ∧ c.num 19 1 ≤ 3 ∧ field f 4 2 ≠ 3 ∧ cursorsOk (c.word 24) = true ∧
        (f.testBit 6 = true → 16 ≤ (b.lane l).owner) ∧ (f.testBit 6 = false → (b.lane l).owner = 16 → b.laneInUse l = false)) →
      (2 ≤ page → (b.lane l).owner = c.stamp) →
      exec (.laneConfig r) s = .next (s.answered r c rest auth stOk [] (if page = 0 then b.lanePage0 c l else b.lanePage c l page))) ∧
    (∀ l d, s.Accepts r c rest 0x0202 auth → l = c.num 16 1 → d = c.desc 24 → l < 64 → c.stray [(16, 2), (24, 16)] = false →
      c.num 17 1 ≤ 1 → d.rsv = 0 →
      let t := if c.num 17 1 = 1 then b.updLane l fun x => { x with sticky := 0 } else b
      let x := b.lane l
      (d.len = 0 → c.stamp = 16 ∨ x.owner = c.stamp → exec (.laneState r) s = .next (s.answered r c rest auth stOk
        (resultOf [(14, 4, x.statusReg.toNat), (18, 4, x.sticky.toNat), (22, 4, x.nowRx.toNat)]) t)) ∧
      (d.len = 0 → c.stamp ≠ 16 → x.owner = 16 → exec (.laneState r) s = .next (s.answered r c rest auth stOk
        (resultOf [(14, 4, (x.statusReg &&& 0xFF000000#32).toNat)]) t)) ∧
      (80 ≤ d.len → b.descReady c d 80 true → c.stamp = 16 ∨ x.owner = c.stamp → exec (.laneState r) s = .next (s.outputAnswered r c rest auth
        (resultOf [(14, 4, x.statusReg.toNat), (18, 4, x.sticky.toNat), (22, 4, x.nowRx.toNat)])
        (t.written c d ((List.range 20).flatMap fun j => leBytes 4 (tget 0 x.cnt j).toNat))))) ∧
    (∀ p f mask, s.Accepts r c rest 0x0203 auth → p = c.num 16 2 → f = c.num 18 1 → mask = c.num 32 8 →
      c.stray [(16, 5), (24, 6), (32, 8)] = false → p < 512 → f < 8 → c.num 19 1 < 16 → c.num 20 1 < 16 →
      (∀ x ∈ b.streams, x.2.state = 0 ∨ x.2.partner ≠ p ∧ mask.testBit x.2.lane = false) →
      let e := c.num 24 6 * 2 ^ 32 + 2 ^ 31 + bit (f.testBit 1) * 2 ^ 30 + c.num 19 1 * 2 ^ 26 + bit (f.testBit 2) * 2 ^ 25
        + c.num 20 1 * 2 ^ 21
      (f.testBit 0 = true → (partnerIb e = true → ∀ x ∈ b.partners, x.1 = p ∨ x.2.testBit 31 = false ∨ partnerIb x.2 = false ∨
          partnerIbh x.2 ≠ partnerIbh e) →
        ∃ t, exec (.partnerDefine r) s = .next (s.answered r c rest auth stOk [] t) ∧ tget 0 t.partners p = e ∧
          t = { b with partners := t.partners, lanes := t.lanes } ∧ ∀ l, l < 64 →
            t.lane l = if mask.testBit l then { b.lane l with partner := BitVec.ofNat 32 (2 ^ 31 + p) } else b.lane l) ∧
      (f.testBit 0 = false →
        ∃ t, exec (.partnerDefine r) s = .next (s.answered r c rest auth stOk [] t) ∧ tget 0 t.partners p = 0 ∧
          t = { b with partners := t.partners, lanes := t.lanes } ∧ ∀ l, l < 64 →
            t.lane l = if (b.lane l).partner.getLsbD 31 ∧ (b.lane l).partner.toNat % 512 = p then { b.lane l with partner := 0 }
              else b.lane l)) ∧
    (s.Accepts r c rest 0x0204 auth → c.stray [(16, 16)] = false → (c.desc 16).rsv = 0 → 32 ≤ (c.desc 16).len →
      s.takesInput (.dramDescribe r) r c rest auth (c.desc 16) 32 fun data w =>
        if descStatus data ≠ stOk then .reply (descStatus data) [] w
        else if (List.range 16).any fun x => w.mem.bankOwner x != 31 then .reply stBusy [] w
        else .wait (.again [1]) (w.startCalibration (data.take 32))) ∧
    (∀ x p, s.Resumes r x 0x0204 (1 :: p) → (∀ y, y < 12 → (s.mem.ctlOf y).state ≠ 1) →
      exec (.dramDescribe r) s = .next (s.ended x stOk (resultOf [(14, 8,
        if (List.range 12).all fun y => (s.mem.ctlOf y).ready then s.mem.capacity else 0), (22, 2, descFrame s.mem.desc)])
        ((s.without x).setMem { s.mem with before := none })))

/-- O48. An accepted PERCOLATOR_CONTROL RELOAD loads the copies from ROM and starts the pass again, STATUS changes nothing; both return state and counts. CUPPING_CONTROL SET writes EN and the period; both actions return EN, period and completed steps. FAULT_LOG_READ writes the caller's next entries in rising INDEX to its descriptor, with POISONED_DATA if that fails, and marks them read for the platform owner. FAULT_INJECT flips the named stored bits or poisons, raises an injected partition fault, or flips a bit of Percolator copy 0. EVENT_SUBSCRIBE sets or clears the queue of a code, or of every code of the role. EVENT_ACK frees the delivered events up to 255 before ESEQ and returns how many. -/
def Obligations.IntegrityCommandsAnswer : Prop :=
  ∀ (s : State) (r : Recip) (c : CmdRec) (rest : List CmdRec) (auth : Bool),
    let b := s.begun r c rest auth
    (let w : Percolator := if c.num 16 1 = 1 then { b.perc with copies := Vector.replicate 3 0, status := 0, romPar := false, voteFail := false, tile := 0, frame := 0, later := [] } else b.perc;
      s.Accepts r c rest 0x0802 auth → c.stray [(16, 1)] = false → (c.num 16 1 = 1 ∨ c.num 16 1 = 2) →
      exec (.percolatorControl r) s = .next (s.answered r c rest auth stOk (resultOf [(14, 1, w.status), (16, 4, w.silent.toNat), (20, 4, w.essential.toNat)]) { b with perc := w })) ∧
    (s.Accepts r c rest 0x0803 auth → c.num 16 1 = 1 → c.stray [(16, 2), (20, 4)] = false → c.num 17 1 ≤ 1 → 100 ≤ c.num 20 4 ∧ c.num 20 4 ≤ 3600000 →
      exec (.cuppingControl r) s = .next (s.answered r c rest auth stOk (resultOf [(14, 1, c.num 17 1), (16, 4, c.num 20 4), (20, 4, b.cupTotal)]) { b with cupEn := c.num 17 1 == 1, cupPeriod := c.num 20 4 })) ∧
    (s.Accepts r c rest 0x0803 auth → c.num 16 1 = 2 → c.stray [(16, 2)] = false → c.num 17 1 ≤ 1 →
      exec (.cuppingControl r) s = .next (s.answered r c rest auth stOk (resultOf [(14, 1, bit b.cupEn), (16, 4, b.cupPeriod), (20, 4, b.cupTotal)]) b)) ∧
    (∀ d n dist, s.Accepts r c rest 0x0804 auth → d = c.desc 24 → n = c.num 20 2 → dist = (c.num 16 4 + 2 ^ 32 - b.logOldest) % 2 ^ 32 →
      c.stray [(16, 6), (24, 16)] = false → d.rsv = 0 → 1 ≤ n → n ≤ 256 → 32 * n ≤ d.len → b.descReady c d (32 * n) true →
      let es := (pickLog c.stamp (b.log.reverse.drop (if dist < 2 ^ 31 then dist else 0)) n).1
      let seen := (pickLog c.stamp (b.log.reverse.drop (if dist < 2 ^ 31 then dist else 0)) n).2
      let t : State := if c.stamp = 16 then { b with logRead := es.foldl (fun t e => tset false t e.index true) b.logRead } else b
      exec (.faultLogRead r) s = .next (s.outputAnswered r c rest auth
        (resultOf [(14, 4, es.length), (18, 4, if dist < 2 ^ 31 then (c.num 16 4 + seen) % 2 ^ 32 else (b.logOldest + seen) % 2 ^ 32),
          (22, 4, (b.logNext + 2 ^ 32 - 1) % 2 ^ 32)])
        (t.written c d (es.flatMap (t.logView c.stamp))))) ∧
    (∀ n a, s.Accepts r c rest 0x0805 auth → n = c.num 16 1 → (n = 1 ∨ n = 2 ∨ n = 3) → b.locate c.stamp (c.num 24 8) 1 true = .ok a →
      c.stray ([(16, 1), (24, 8)] ++ if n = 3 then [] else [(35, 1)]) = false →
      (n ≠ 3 → c.num 35 1 + (n - 1) ≤ if (areaOf (a % 2 ^ 44)).sram then 38 else 71) →
      b.ownMemory c.stamp (a % 2 ^ 44) = true → b.addressOff (a % 2 ^ 44) = false →
      exec (.faultInject r) s = .next (s.answered r c rest auth stOk [] (b.injectAt n (a % 2 ^ 44) (c.num 35 1)))) ∧
    (∀ p, s.Accepts r c rest 0x0805 auth → c.num 16 1 = 4 → c.stray [(16, 1), (32, 6)] = false → c.num 34 1 ≤ 63 → c.num 35 1 ≤ 31 →
      c.num 36 2 ≤ 255 → b.tileOfLogical (c.num 32 2) = some p → b.ownerOf p = c.stamp → b.tileOff p = false →
      exec (.faultInject r) s = .next (s.answered r c rest auth stOk []
        (b.setMem (b.mem.flip (ctxBase p (c.num 34 1) + 4 * c.num 36 2) (c.num 35 1))))) ∧
    (s.Accepts r c rest 0x0805 auth → c.num 16 1 = 5 → c.stray [(16, 1)] = false →
      exec (.faultInject r) s = .next (s.answered r c rest auth stOk [] (b.raiseFault { cls := 2, part := c.stamp, source := 6, injected := true }))) ∧
    (s.Accepts r c rest 0x0805 auth → c.num 16 1 = 6 → c.stray [(16, 1), (35, 1)] = false →
      exec (.faultInject r) s = .next (s.answered r c rest auth stOk [] 
        { b with perc := { b.perc with copies := b.perc.copies.set 0 (b.perc.copies[0] ^^^ BitVec.ofNat 256 (2 ^ c.num 35 1)) } })) ∧
    (∀ code, s.Accepts r c rest 0x0A01 auth → code = c.num 16 2 → c.stray [(16, 3), (20, 4)] = false → eventCodes.contains code ∨ code = 0xFFFF →
      (c.stamp ≠ 16 → code ≠ 0x50) → c.num 18 1 ≤ 1 → (b.queue (c.num 20 4)).owner = c.stamp →
      ∃ t, exec (.eventSubscribe r) s = .next (s.answered r c rest auth stOk [] t) ∧ t = b.setEvb c.stamp (t.evb c.stamp) ∧
        t.evb c.stamp = { b.evb c.stamp with subs := (t.evb c.stamp).subs } ∧ ∀ e, tget none (t.evb c.stamp).subs e =
          if e = code ∧ code ≠ 0xFFFF ∨ code = 0xFFFF ∧ e ∈ eventCodes ∧ (c.stamp = 16 ∨ e ≠ 0x50) then
            (if c.num 18 1 = 0 then some (c.num 20 4) else none)
          else tget none (b.evb c.stamp).subs e) ∧
    (s.Accepts r c rest 0x0A02 auth → c.stray [(16, 2)] = false →
      let freed (y : EventEntry) : Bool := y.delivered && !b.eventQueued c.stamp y.eseq &&
        decide ((c.num 16 2 + 65536 - y.eseq) % 65536 ≤ 255)
      let kept := (b.evb c.stamp).entries.filter fun y => !freed y
      exec (.eventAck r) s = .next (s.answered r c rest auth stOk
        (resultOf [(14, 2, (b.evb c.stamp).entries.length - kept.length)])
        ((b.setEvb c.stamp { b.evb c.stamp with entries := kept }).tellOverflow c.stamp)))

/-- O49. An accepted MEM_WRITE, MEM_READ, MEM_FILL or MEM_ATOMIC whose range translates and can be served makes its requests in ascending order and is answered with their status and the bytes done. MEM_WRITE takes its bytes from the entry, from host memory (it waits for them) or from the caller's memory; MEM_READ gives up to 8 bytes in the reply or writes its descriptor, with POISONED_DATA if that fails; MEM_ATOMIC gives the old value, and a request that fails its status only. SCRUB_RANGE writes its 64-byte report to its descriptor. A payload that arrives lets its command go on in its owner's slice of its core, and one that met an error ends it with POISONED_DATA or the status of its own checks; a MEM_FILL that waited at translation is made when it can be. -/
def Obligations.MemoryCommandsAnswer : Prop :=
  ∀ (s : State) (r : Recip) (c : CmdRec) (rest : List CmdRec) (auth : Bool),
    let b := s.begun r c rest auth
    let a := c.num 16 8
    let n := c.num 24 4
    let d := c.desc 32
    let clear (wr : Bool) := 0 < n ∧ n ≤ memMax ∧ b.rangeAt c.stamp a n wr = 0 ∧ b.noTags c.stamp = false
    (s.Accepts r c rest 0x0301 auth → clear true →
      let m (data : List Byte) := b.writeRange c.stamp a (data.take n)
      (c.num 28 1 = 0 → n ≤ 32 → c.stray [(16, 13), (32, 32)] = false → exec (.memWrite r) s =
        .next (s.answered r c rest auth (m (c.sub 32 n)).status (resultOf [(14, 4, (m (c.sub 32 n)).done)]) (m (c.sub 32 n)).s)) ∧
      (c.num 28 1 = 1 → c.stray [(16, 13), (32, 16)] = false → d.rsv = 0 → n ≤ d.len →
        s.takesInput (.memWrite r) r c rest auth d n fun data w => let o := w.writeRange c.stamp a (data.take n)
          .reply o.status (resultOf [(14, 4, o.done)]) o.s)) ∧
    (s.Accepts r c rest 0x0302 auth → clear false → ∀ m, m = b.readRange c.stamp a n →
      let st := if m.status ≠ stOk then m.status else if m.poison.isSome then stPoison else stOk
      let done := m.done + 2 ^ 31 * bit m.poison.isSome
      (c.num 28 1 = 0 → n ≤ 8 → c.stray [(16, 13)] = false → exec (.memRead r) s =
        .next (s.answered r c rest auth st (resultOf [(14, 4, done), (18, 8, leNat m.data)]) m.s)) ∧
      (c.num 28 1 = 1 → c.stray [(16, 13), (32, 16)] = false → d.rsv = 0 → n ≤ d.len → b.descReady c d n true →
        let o := m.s.written c d m.data
        exec (.memRead r) s = .next (s.answered r c rest auth (if o.1 then st else stPoison)
          (resultOf [(14, 4, done), (18, 4, m.poison.getD 0xFFFFFFFF)]) o.2))) ∧
    (s.Accepts r c rest 0x0303 auth → clear true → c.num 28 1 = 4 ∨ c.num 28 1 = 8 → c.stray [(16, 13), (32, 8)] = false →
      a % c.num 28 1 = 0 → n % c.num 28 1 = 0 →
      ∀ m, m = b.writeRange c.stamp a ((List.range n).map fun i => (c.sub 32 (c.num 28 1)).getD (i % c.num 28 1) 0) →
      exec (.memFill r) s = .next (s.answered r c rest auth m.status (resultOf [(14, 4, m.done)]) m.s)) ∧
    (∀ w e u, s.Accepts r c rest 0x0304 auth → w = c.num 25 1 → c.stray [(16, 10), (32, 16)] = false → 1 ≤ c.num 24 1 → c.num 24 1 ≤ 8 →
      w = 4 ∨ w = 8 → a % w = 0 → a < 2 ^ 44 → ¬(0x04000000 ≤ a ∧ a < 0x04400000) → b.rangeAt c.stamp a w true = 0 →
      b.noTags c.stamp = false → b.deviceOf c.stamp a w true = some e →
      u = b.serve c.stamp 3 e 24 (c.sub 24 2 ++ leBytes 6 0 ++ c.sub 32 16) → exec (.memAtomic r) s =
        .next (s.answered r c rest auth u.1 (if u.1 = stOk ∨ u.1 = stPoison then resultOf [(14, 8, leNat u.2.1)] else []) u.2.2.2)) ∧
    (∀ len x v, s.Accepts r c rest 0x0801 auth → len = c.num 24 8 → c.stray [(16, 32)] = false → d.rsv = 0 → 0 < len → scrubKind a len ≠ 0 →
      a % (if scrubKind a len = 2 then 64 else 4) = 0 → len % (if scrubKind a len = 2 then 64 else 4) = 0 → 64 ≤ d.len →
      b.rangeAt c.stamp a len false = 0 → b.scrubOwned c.stamp a len = true → b.scrubOff c.stamp a len = false →
      b.noTags c.stamp = false → b.descReady c d 64 true →
      x = b.scrub c.stamp a len → v = Config.free x.s.draw.1 → exec (.scrubRange r) s = .next (s.outputAnswered r c rest auth
        (resultOf [(14, 4, x.corrected), (18, 4, x.fresh)]) (x.s.draw.2.written c d
          (leBytes 8 x.scanned ++ leBytes 4 x.corrected ++ leBytes 4 x.fresh ++ leBytes 4 x.fresh ++ leBytes 4 x.old
            ++ leBytes 8 x.first ++ leBytes 8 x.last ++ leBytes 8 (a + len) ++ leBytes 8 v ++ leBytes 8 0)))) ∧
    (∀ (p : Fin 4) (i : Fin 256) h y data, (s.hostReads.filter fun h => h.port == p.val)[i.val]? = some h → h.fetch = none →
      h.payload = some c → (s.running.find? fun y => y.cmd == c && y.wait == .payload) = some y → s.onCore c = true →
      let w : State := { s with hostReads := s.hostReads.erase h, running := s.running.erase y }
      exec (.hostReadCompletion p i data false) s =
        .next (w.finish c (bodyOf c.opcode c { payload := some (some (padTo h.len data)) } w)) ∧
      exec (.hostReadCompletion p i data true) s = let w : State := { State.hpStick { s with hostReads := s.hostReads.erase h } p hpPcieErr with
          running := s.running.erase y }
        .next (w.finish c (bodyOf c.opcode c { payload := some none } w))) ∧
    (∀ y more m, (s.running.filter fun y => y.cmd.stamp == r.val && y.wait == .translate && s.onCore y.cmd) = y :: more →
      y.cmd.opcode = 0x0303 → let a := y.cmd.num 16 8; let n := y.cmd.num 24 4; let w := y.cmd.num 28 1; let z := s.without y
      0 < n → n ≤ memMax → w = 4 ∨ w = 8 → a % w = 0 → n % w = 0 → y.cmd.stray [(16, 13), (32, 8)] = false →
      z.rangeAt y.cmd.stamp a n true = 0 → z.noTags y.cmd.stamp = false →
      m = z.writeRange y.cmd.stamp a ((List.range n).map fun i => (y.cmd.sub 32 w).getD (i % w) 0) →
      exec (.requestTranslateRetry r) s = .next (s.ended y m.status (resultOf [(14, 4, m.done)]) m.s))

/-- O50. A PERS_LOAD takes its image, waits with it for a slot of its role's bank, and has it checked there. One whose image passes, with its tiles fenced and awake, writes store, caches and tables and is answered with tasks, contexts and version; one that fails a check is answered with its status, and one whose tiles are not ready waits. A PERS_UNLOAD fences its tiles, has their frames cleared, and then drops the tables and the handle. CTX_PIN notes the pin and is answered when the slot is valid; an unpin at once. GRAPH_START releases the fences, arms the tasks and enables the timers. GRAPH_STOP cancels the tasks, fences the tiles, drops their words and clears STARTED. -/
def Obligations.PersonalityCommandsAnswer : Prop :=
  ∀ (s : State) (r : Recip) (c : CmdRec) (rest : List CmdRec) (auth : Bool),
    let b := s.begun r c rest auth
    engineRow .persLoad 0x0401 CmdRec.stamp (·.desc 24) (fun k => (k.desc 24).len)
      (fun k z => k.stray [(16, 1), (24, 16)] = false ∧ (k.desc 24).rsv = 0 ∧ 0 < (k.desc 24).len ∧ k.num 16 1 ≤ 7 ∧
        (z.part k.stamp).persAt (k.num 16 1) = none)
      (fun k data z => loadImage k [] true data z) ∧
    (∀ x n mine image, s.Resumes r x 0x0401 (n :: (mine ++ image)) → mine.length = n →
      let o := loadImage x.cmd mine false (image.map (BitVec.ofNat 8)) (s.without x)
      o.moved (.again (n :: (mine ++ image))) (s.without x) = true → exec (.persLoad r) s = .next ((s.without x).finish x.cmd o)) ∧
    (∀ (z : State) (mine : List Nat) (image : List Byte), (z.part c.stamp).persAt (c.num 16 1) = none →
      loadImage c mine false image z = match z.verifyPers c.stamp image with
        | .error st => .reply st [] (z.unfenceLogicals mine)
        | .ok m => match z.loadCheck c.stamp m with
          | some st => .reply st [] (z.unfenceLogicals mine)
          | none =>
            let ps := ((m.record []).logicals.filterMap (z.ownTile c.stamp)).filter fun p =>
              !z.tileOff p && !z.otherStarted c.stamp (c.num 16 1) p
            let w := (sectorsOf ps).foldl State.raiseWake z
            if (∀ p ∈ ps, (w.tile p).fenced = true ∧ w.awake p = true ∧ (w.tm p).migrating = false) ∧ w.storeServed c.stamp = true
            then w.loadPers c.stamp (c.num 16 1) m mine
            else .wait (.again (mine.length :: mine ++ image.map (·.toNat))) w) ∧
    (∀ (w : State) q h m mine v st, v = m.record ((w.part q).freeFrames m.ids.length) → w.writeStore q m v = (true, st) →
      w.loadPers q h m mine = .reply stOk (resultOf [(14, 2, v.tasks.length), (16, 2, v.ctxs.length), (18, 4, v.version)])
        ((((st.writeCache q m).writeTables q m v).setPers q h (some v)).unfenceLogicals mine)) ∧
    (∀ q h v tiles mine, s.Accepts r c rest 0x0402 auth → q = c.stamp → h = c.num 16 1 → c.handleBad = false → (b.part q).persAt h = some v →
      v.started = false → b.signalled v = false → tiles = ((b.persFrames q v).map (·.1) ++ b.persTiles q v).eraseDups →
      (∀ n ∈ sectorsOf tiles, (b.sector n).pstate = .brew) → mine = (tiles.filter fun p => !b.fenceWanted p) →
      exec (.persUnload r) s = .next (s.waits r c rest auth (.again (1 :: b.logicalsOf mine)) (b.fenceAll mine))) ∧
    (∀ x mine q h v w tiles, w = s.without x → q = x.cmd.stamp → h = x.cmd.num 16 1 → (w.part q).persAt h = some v →
      tiles = ((w.persFrames q v).map (·.1) ++ w.persTiles q v).eraseDups →
      (s.Resumes r x 0x0402 (1 :: mine) → (∀ n ∈ sectorsOf tiles, (w.sector n).pstate = .brew) →
        (∀ p ∈ tiles, (w.tile p).fenced = true ∧ (w.tm p).migrating = false) → exec (.persUnload r) s =
          .next (s.stays x (.again (2 :: mine.length :: mine ++
              (w.persFrames q v).flatMap fun y => [y.1, y.2, (tget none (w.tile y.1).frameId y.2).getD 0]))
            ((w.persFrames q v).foldl (fun s y => State.requestClear s y.1 y.2) w))) ∧
      (∀ held, s.Resumes r x 0x0402 (2 :: mine.length :: mine ++ held) → (∀ p, p < 256 → w.ownerOf p = q → (w.tile p).clearing = false) →
        exec (.persUnload r) s = .next (s.ended x stOk [] ((((w.dropTables q v).setPers q h none).unfenceLogicals mine).unforce
          (sectorsOf (w.persTiles q v ++ (framesIn held).map (·.1))))))) ∧
    (∀ id h p, s.Accepts r c rest 0x0403 auth → id = c.num 20 2 → h = c.num 18 1 → c.stray [(16, 6)] = false → h ≤ 15 →
      b.ownTile c.stamp (c.num 16 2) = some p →
      (c.num 19 1 = 1 → id = 0 → tget none (b.tile p).pin h ≠ none → exec (.ctxPin r) s =
        .next (s.answered r c rest auth stOk (resultOf [(14, 2, 0)]) (b.updTile p fun t => { t with pin := tset none t.pin h none }))) ∧
      (c.num 19 1 = 0 → (∃ e ∈ (b.part c.stamp).loaded, e.2.ids.contains id = true) → b.tileOff p = false → h ≠ (b.tile p).hotSlot →
        (tget none (b.tile p).pin h = some id ∨ tget none (b.tile p).pin h = none ∧ (b.tile p).pin.length < 8) →
        let t := b.updTile p fun t => { t with pin := tset none t.pin h (some id) }
        exec (.ctxPin r) s = .next (if (b.tile p).validWith id h = true then s.answered r c rest auth stOk (resultOf [(14, 2, id)]) t
          else s.waits r c rest auth (.again [1]) (t.requestFill p (t.pinFill p h id))))) ∧
    (∀ x p l, s.Resumes r x 0x0403 (1 :: l) → (s.without x).ownTile x.cmd.stamp (x.cmd.num 16 2) = some p →
      (s.tile p).validWith (x.cmd.num 20 2) (x.cmd.num 18 1) = true →
      exec (.ctxPin r) s = .next (s.ended x stOk (resultOf [(14, 2, x.cmd.num 20 2)]) (s.without x))) ∧
    (∀ q h v tiles, s.Accepts r c rest 0x0404 auth → q = c.stamp → h = c.num 16 1 → c.handleBad = false → (b.part q).persAt h = some v →
      v.started = false → tiles = b.persTiles q v → (∀ n ∈ sectorsOf tiles, (b.sector n).pstate = .brew) →
      exec (.graphStart r) s = .next (s.answered r c rest auth stOk (resultOf [(14, 2, v.tasks.length)])
        ((((v.tasks.foldl State.armTask (b.unfenceAll tiles)).enableTimers v true).setPers q h
          (some { v with started := true })).unforce (sectorsOf tiles)))) ∧
    (∀ q h v, s.Accepts r c rest 0x0405 auth → q = c.stamp → h = c.num 16 1 → c.handleBad = false → (b.part q).persAt h = some v →
      v.started = true → (∀ n ∈ sectorsOf (b.persTiles q v), (b.sector n).pstate = .brew) →
      exec (.graphStop r) s = .next (s.waits r c rest auth (.again [1, (b.stopGraph q v).1]) (b.stopGraph q v).2)) ∧
    (∀ x n q h v w tiles, w = s.without x → q = x.cmd.stamp → h = x.cmd.num 16 1 → (w.part q).persAt h = some v →
      tiles = ((w.persTiles q v).filter fun p => !w.otherStarted q h p) →
      (s.Resumes r x 0x0405 [1, n] → (∀ t ∈ v.tasks, (w.task t).state = .cancelled) → exec (.graphStop r) s =
        .next (s.stays x (.again [2, n]) (w.fenceAll tiles))) ∧
      (s.Resumes r x 0x0405 [2, n] → (∀ p ∈ tiles, (w.tile p).fenced = true ∧ (w.tm p).migrating = false) → exec (.graphStop r) s =
        .next (s.ended x stOk (resultOf [(14, 2, v.tasks.length), (16, 2, n)])
          (((tiles.foldl State.dropWords w).setPers q h (some { v with started := false })).unforce (sectorsOf (w.persTiles q v))))))

/-- O51. An accepted command on the caller's own stream is answered OK: STREAM_OPEN writes the table entry of its parameters; STREAM_CLOSE ends when the stream is CLOSED, with the cells discarded; STREAM_CREDIT_SET writes CRED_LIMIT and returns the old one and OUT; MARK_SET and MARK_ADVANCE move MPOS, and MARK_SET makes it valid; STREAM_REPLAY resumes a stopped stream at the mark or the next packet boundary; STREAM_STATS gives control and sticky flags, with counters and positions in its descriptor. STREAM_CLASSIFY writes or invalidates a rule of the caller and returns its hits. -/
def Obligations.StreamCommandsAnswer : Prop :=
  ∀ (s : State) (r : Recip) (c : CmdRec) (rest : List CmdRec) (auth : Bool),
    let b := s.begun r c rest auth
    let i := c.num 16 2
    let x := b.stream i
    (∀ carafe, s.Accepts r c rest 0x0501 auth → c.openReserved = false → (b.part c.stamp).hasStream i = true → x.state = 0 →
      let e := tget 0 b.partners (c.num 22 2)
      let mlf := e.testBit 31 && partnerMlf e
      (c.openEgress = false → c.num 24 2 ≠ 0 ∧ (mlf = true → c.num 26 2 ≠ 0)) → (c.openEp = true → c.openMask ≠ 0) →
      c.num 21 1 < 64 → b.partnerOf (c.num 21 1) = some (c.num 22 2) →
      ((b.lane (c.num 21 1)).owner = c.stamp ∨ (b.lane (c.num 21 1)).owner = 16 ∧ b.laneMlf (c.num 21 1) = true) →
      (c.num 28 2 ≠ 0 → (b.part c.stamp).hasTask (c.num 32 2) = true) →
      (c.openEp = true → (∃ t, b.tileAtHome (edgeHome c.openSide c.openRow) = some t ∧ b.ownerOf t = c.stamp) ∧ b.portsShared c = true) →
      (∀ t, c.openTarget = some t → (b.part c.stamp).hasStream t = true) →
      (c.num 36 3 = 0 ∧ carafe = 0 ∨
        c.num 36 3 ≠ 0 ∧ c.num 40 8 % 4096 = 0 ∧ b.carafeAt c.stamp (c.num 40 8) (256 * c.num 36 3) = some carafe) →
      (c.openBypass = true → c.openEp = false ∧ (c.openEgress = false → ∃ t, c.openTarget = some t ∧
        (b.stream t).egress = true ∧ (b.stream t).bypassed = true)) →
      exec (.streamOpen r) s = .next (s.answered r c rest auth stOk [] (b.setStream i (c.openStream mlf carafe)))) ∧
    (s.Accepts r c rest 0x0502 auth → c.stray [(16, 2)] = false → c.streamBits = false → b.streamOf c = true → x.state = 1 ∨ x.state = 2 →
      let n := if x.egress then 0 else x.wpos - x.mpos
      exec (.streamClose r) s = .next (if ((b.closeStream i).stream i).state = 0
        then s.answered r c rest auth stOk (resultOf [(14, 4, n)]) (b.closeStream i)
        else s.waits r c rest auth (.again [n, x.state]) (b.closeStream i))) ∧
    (∀ x n p, s.Resumes r x 0x0502 (n :: p) → (s.stream (x.cmd.num 16 2)).state = 0 →
      exec (.streamClose r) s = .next (s.ended x stOk (resultOf [(14, 4, n)]) (s.without x))) ∧
    (s.Accepts r c rest 0x0504 auth → c.stray [(16, 4)] = false → c.streamBits = false → c.num 18 2 ≠ 0 → b.streamOf c = true → x.mlf = true → x.liveIn = true →
      exec (.streamCreditSet r) s = .next (s.answered r c rest auth stOk (resultOf [(14, 2, x.credLimit), (16, 4, (BitVec.ofInt 32 x.out).toNat)]) 
        (b.setStream i { x with size := BitVec.ofNat 32 (x.ring * 2 ^ 16 + c.num 18 2) }))) ∧
    (s.Accepts r c rest 0x0505 auth → c.stray [(16, 3)] = false → c.streamBits = false → c.num 18 1 ≤ 1 → b.streamOf c = true → x.liveIn = true →
      let t := if c.num 18 1 = 0 then b.release i (b.markTarget x x.rpos) else b
      let u := t.updStream i fun x => x.setMark true
      exec (.markSet r) s = .next (s.answered r c rest auth stOk (resultOf [(14, 4, pos32 (u.stream i).mpos)]) u)) ∧
    (s.Accepts r c rest 0x0506 auth → c.stray [(16, 3), (20, 4)] = false → c.streamBits = false → b.streamOf c = true → x.liveIn = true →
      let go (newPos : Nat) := s.answered r c rest auth stOk
        (resultOf [(14, 4, pos32 ((b.release i (b.markTarget x newPos)).stream i).mpos)]) (b.release i (b.markTarget x newPos))
      (c.num 18 1 = 1 → c.num 20 4 = 0 → exec (.markAdvance r) s = .next (go x.rpos)) ∧
      (c.num 18 1 = 0 → c.num 20 4 ≠ 0 → exec (.markAdvance r) s = .next (go (x.mpos + c.num 20 4)))) ∧
    (s.Accepts r c rest 0x0507 auth → c.stray [(16, 3)] = false → c.streamBits = false → c.num 18 1 ≤ 1 → b.streamOf c = true → x.state = 2 →
      (c.num 18 1 = 0 → x.markValid = true) →
      let u := b.replay i (if c.num 18 1 = 0 then x.mpos else b.resumeAt i)
      exec (.streamReplay r) s = .next (s.answered r c rest auth stOk (resultOf [(14, 4, pos32 (u.stream i).rpos)]) u)) ∧
    (∀ d, s.Accepts r c rest 0x0508 auth → d = c.desc 24 → c.stray [(16, 3), (24, 16)] = false → c.streamBits = false → c.num 18 1 ≤ 1 →
      d.rsv = 0 → b.streamOf c = true → x.state ≠ 0 →
      let t := if c.num 18 1 = 1 then b.updStream i fun x => { x with sticky := 0 } else b
      let result := resultOf [(14, 4, x.ctrl.toNat), (18, 4, x.sticky.toNat)]
      (d.len = 0 → exec (.streamStats r) s = .next (s.answered r c rest auth stOk result t)) ∧
      (64 ≤ d.len → b.descReady c d 64 true → exec (.streamStats r) s = .next (s.outputAnswered r c rest auth result
        (t.written c d ((List.range 8).flatMap (fun j => leBytes 4 (tget 0 x.cnt j).toNat) ++
          ([x.wpos, x.rpos, x.mpos, x.spos, x.crTotal, x.seqNext, x.sticky.toNat, x.statusReg.toNat] : List Nat).flatMap (leBytes 4)))))) ∧
    (s.Accepts r c rest 0x0503 auth → c.stray [(16, 3), (20, 28)] = false → i ≤ 1023 → (b.part c.stamp).hasRule i = true →
      let w (j : Nat) : Word := c.word (20 + 4 * j)
      let y := b.stream ((w 0).toNat % 8192)
      (c.num 18 1 = 0 → (∀ j, j < 7 → w j &&& ~~~(ruleMasks.getD j 0) = 0) → (b.lane (field (w 0).toNat 16 6)).owner = c.stamp →
        ((w 0).getLsbD 29 = true ∨ y.owner = c.stamp ∧ y.egress = false ∧ y.state ≠ 0) →
        ∃ t, exec (.streamClassify r) s = .next (s.answered r c rest auth stOk (resultOf [(14, 4, (b.rule i 7).toNat)]) t) ∧
          t = { b with rules := t.rules } ∧ t.rule i 7 = 0 ∧
          (∀ j, j < 7 → t.rule i j = w j ||| if j = 0 then BitVec.ofNat 32 (c.stamp * 2 ^ 24) else 0) ∧
          ∀ j m, j ≠ i → m < 8 → t.rule j m = b.rule j m) ∧
      (c.num 18 1 = 1 → exec (.streamClassify r) s = .next (s.answered r c rest auth stOk (resultOf [(14, 4, (b.rule i 7).toNat)])
        (b.setRule i 0 (b.rule i 0 &&& 0x7FFFFFFF#32)))))

/-- O52. An accepted task command on an entry of the caller is answered OK: TASK_ARM arms an idle or cancelled task; TASK_CANCEL ends when the task is CANCELLED, at once unless it runs; TASK_SIGNAL sets flags at once in a sector in Brew, and otherwise puts them in its inbox, wakes it and waits; TASK_QUERY gives status, flags and grants. A command that names an object of one started before it, which has still to take effect, waits its turn, and goes on from its start when none is left. A command with an opcode that Table 12-1 does not list, and that authenticates, is answered UNKNOWN_OPCODE. A started command that reaches its limit is ended with TIMEOUT. -/
def Obligations.TaskCommandsAnswer : Prop :=
  ∀ (s : State) (r : Recip) (c : CmdRec) (rest : List CmdRec) (auth : Bool),
    let b := s.begun r c rest auth
    let i := c.num 16 2
    (s.Accepts r c rest 0x0601 auth → c.stray [(16, 2)] = false → c.taskBits = false → (b.part c.stamp).hasTask i = true → (b.task i).st.owner = c.stamp →
      exec (.taskArm r) s = .next (s.answered r c rest auth stOk (resultOf [(14, 4, ((b.armTask i).task i).status.toNat)]) (b.armTask i))) ∧
    (s.Accepts r c rest 0x0602 auth → c.stray [(16, 2)] = false → c.taskBits = false → (b.part c.stamp).hasTask i = true → (b.task i).st.owner = c.stamp →
      ((b.task i).state ≠ .running → ((b.cancelTask i).task i).state = .cancelled ∧ exec (.taskCancel r) s =
        .next (s.answered r c rest auth stOk (resultOf [(14, 4, ((b.cancelTask i).task i).status.toNat)]) (b.cancelTask i))) ∧
      ((b.task i).state = .running → exec (.taskCancel r) s = .next (s.waits r c rest auth (.again [1]) (b.cancelTask i)))) ∧
    (s.Starts r c rest 0x0601 auth → b.heldBack (b.taken c auth) = true →
      exec (.taskArm r) s = .next (s.waits r c rest auth .turn b)) ∧
    (∀ x more, (s.running.filter fun y => y.cmd.stamp == r.val && y.cmd.opcode == 0x0601 && y.wait != .payload && s.onCore y.cmd) = x :: more →
      x.wait = .turn → (s.without x).heldBack x.cmd = false → let w := s.without x
      let i := x.cmd.num 16 2
      x.cmd.stray [(16, 2)] = false → x.cmd.taskBits = false → (w.part x.cmd.stamp).hasTask i = true → (w.task i).st.owner = x.cmd.stamp →
      exec (.taskArm r) s = .next (s.ended x stOk (resultOf [(14, 4, ((w.armTask i).task i).status.toNat)]) (w.armTask i))) ∧
    (∀ x n p, s.Resumes r x 0x0602 (n :: p) → (s.task (x.cmd.num 16 2)).state = .cancelled →
      exec (.taskCancel r) s = .next (s.ended x stOk (resultOf [(14, 4, (s.task (x.cmd.num 16 2)).status.toNat)]) (s.without x))) ∧
    (∀ m n, s.Accepts r c rest 0x0603 auth → m = c.word 20 → n = i / 2048 → c.stray [(16, 2), (20, 4)] = false → m ≠ 0 → c.taskBits = false → (b.part c.stamp).hasTask i = true → (b.task i).st.owner = c.stamp →
      ((b.sector n).pstate = .brew → exec (.taskSignal r) s = .next (s.answered r c rest auth stOk
        (resultOf [(14, 4, ((b.setFlags i m).task i).flags.toNat)]) (b.setFlags i m))) ∧
      ((b.sector n).pstate ≠ .brew → exec (.taskSignal r) s = .next (s.waits r c rest auth (.again [1])
        (b.updSector n fun x => { x with
          inbox := x.inbox ++ ((List.range 32).filter m.getLsbD).map fun f => (i, f, c.stamp, 0)
          wakeDue := true })))) ∧
    (∀ x n p, s.Resumes r x 0x0603 (n :: p) → (s.sector (x.cmd.num 16 2 / 2048)).pstate = .brew →
      exec (.taskSignal r) s = .next (s.ended x stOk (resultOf [(14, 4, (s.task (x.cmd.num 16 2)).flags.toNat)]) (s.without x))) ∧
    (s.Accepts r c rest 0x0604 auth → c.stray [(16, 2)] = false → c.taskBits = false → (b.part c.stamp).hasTask i = true → (b.task i).st.owner = c.stamp →
      exec (.taskQuery r) s = .next (s.answered r c rest auth stOk 
        (resultOf [(14, 4, (b.task i).status.toNat), (18, 4, (b.task i).flags.toNat), (22, 4, (b.task i).grants.toNat)]) b)) ∧
    (s.buffer r = c :: rest → opcodeKnown c.opcode = false → s.inSlice r = true → s.hasSlice r = true →
      (∀ x ∈ s.running, x.cmd.stamp = r.val → opcodeKnown x.cmd.opcode = true ∨ x.wait = .payload) → s.boot.ready = true →
      s.boot.activate = false → ¬(r.val < 16 ∧ (s.part r).state = 3) → s.orderOk c = true →
      (s.setBuffer r rest).authenticate c = some auth →
      exec (.unknownOpcode r) s = .next (b.reply (b.taken c auth) stUnknownOpcode [])) ∧
    (∀ (n : Fin 4096) x, (s.running.filter fun x => x.cmd.stamp == r.val)[n.val]? = some x →
      exec (.commandTimeout r n) s = .next (s.cut x stTimeout) ∧
        (x.cmd.opcode ∉ [0x0102, 0x0103, 0x0104, 0x0204, 0x0401, 0x0402, 0x0404, 0x0405, 0x0502, 0x0603, 0x0906] →
          s.cut x stTimeout = ({ s.without x with hostReads := s.hostReads.filter fun h => h.payload != some x.cmd }).reply x.cmd stTimeout
            (s.earlyResult x.cmd x.wait)))

/-- O53. An accepted PART_CREATE, in a slot of q's bank of the security engine, for which it waits, makes partition q CREATED with a fresh key and instance and no event of the one before. PART_GRANT and PART_REVOKE, once their checks pass, write lanes, quotas, slices, queue bindings and blocks at once; tiles are zeroized (and fenced first for a revoke), then change owner; regions, DRAM slots and mesh slots are written and the reply waits until they have taken effect. PART_DESTROY makes q DESTROYING, waits for its streams, zeroizes its tiles, releases its resources and, in a slot of q's bank, discards the commands left and makes it ABSENT. PART_QUERY writes the holding of a kind to its descriptor, with POISONED_DATA if that fails. -/
def Obligations.PartitionCommandsAnswer : Prop :=
  ∀ (s : State) (r : Recip) (c : CmdRec) (rest : List CmdRec) (auth : Bool),
    let b := s.begun r c rest auth
    let q := c.num 16 1
    let k := c.num 17 1
    let v := c.num 24 4
    (let made (q k : Nat) (z t : State) : Prop := t.part q = { state := 1, isSealed := k == 1 } ∧
        tget 0 t.mem.key q = z.drawKey.1 ∧
        (∃ inst, t.role q = { inst := inst } ∧ inst.length = 32) ∧ t.evb q = {} ∧ t.buffers = z.buffers ∧ t.holdoffOf q = 4096 ∧
        (∀ n, n < 8 → (t.sector n).urgOf q = 0) ∧ (∀ p, p ≠ q → t.part p = z.part p ∧ t.role p = z.role p) ∧
        t.mem.cells = z.mem.cells ∧ t.mem.lines = z.mem.lines ∧ t.queues = z.queues ∧ t.lanes = z.lanes ∧ t.tiles = z.tiles
     let ok (c : CmdRec) (z : State) : Prop := c.stray [(16, 2)] = false ∧ c.num 16 1 ≤ 15 ∧ c.num 17 1 ≤ 1 ∧ (z.part (c.num 16 1)).state = 0
     (s.Accepts r c rest 0x0101 auth → ok c b →
       (b.secSlot = q → ∃ t, exec (.partCreate r) s = .next (s.answered r c rest auth stOk [] t) ∧ made q k b t) ∧
       (b.secSlot ≠ q → exec (.partCreate r) s = .next (s.waits r c rest auth (.engine []) b))) ∧
     (∀ x w, w = s.without x → s.WaitsFor r x 0x0101 (.engine []) → ok x.cmd w → w.secSlot = x.cmd.num 16 1 →
       ∃ t, exec (.partCreate r) s = .next (s.ended x stOk [] t) ∧ made (x.cmd.num 16 1) (x.cmd.num 17 1) w t)) ∧
    (∀ revoke : Bool, s.Accepts r c rest (if revoke then 0x0103 else 0x0102) auth → firstFail (b.grantChecks c revoke) = none →
      let go := if revoke then exec (.partRevoke r) s else exec (.partGrant r) s
      let done (t : State) := Host.Outcome.next (s.answered r c rest auth stOk [] t)
      (k = 2 → go = done (((List.range 64).filter (c.num 24 8).testBit).foldl (fun s l =>
        if revoke then (if (State.lane s l).owner = q then s.unbindLane q l else s)
        else if (State.lane s l).owner = q then s else s.bindLane l q) b)) ∧
      (k = 3 → go = done { b with alloc := { b.alloc with quota := tset 0 b.alloc.quota q v } }) ∧
      (k = 4 → go = done { b with mesh := { b.mesh with tagQuota := tset 0 b.mesh.tagQuota q v } }) ∧
      (k = 8 → go = done (b.grantSlices c revoke)) ∧
      (k = 9 → v ≠ mgmtQid → (revoke = false → q ≠ 16 ∨ b.poQueue v = true) → (revoke = true → (b.queue v).owner = q) →
        go = done (b.setQueue v { b.queue v with
          owner := if revoke then 31 else q
          depth := if qidKind v = 1 ∧ revoke = false then c.num 28 2 else (b.queue v).depth })) ∧
      (10 ≤ k → k ≤ 12 → ∃ t, go = done t ∧ t = b.setPart q (t.part q) ∧ ∀ i,
        (((t.part q).blocks k).1.testBit i = if c.blockMasks.1.testBit i then !revoke else ((b.part q).blocks k).1.testBit i) ∧
        (k ≠ 12 → ((t.part q).blocks k).2.testBit i = if c.blockMasks.2.testBit i then !revoke else ((b.part q).blocks k).2.testBit i))) ∧
    (∀ free ns, s.Accepts r c rest 0x0102 auth → k = 1 → firstFail (b.grantChecks c false) = none →
      free = (c.tileMask.filterMap b.tileOfLogical).filter (fun p => b.ownerOf p == 31) →
      ns = sectorsOf (c.tileMask.filterMap b.tileOfLogical) → (∀ n ∈ ns, (b.sector n).pstate = .brew) →
      (∀ p ∈ free, (b.tm p).migrating = false) →
      exec (.partGrant r) s = .next (s.waits r c rest auth (.again [1]) (free.foldl State.startZero b))) ∧
    (∀ mine ns, s.Accepts r c rest 0x0103 auth → k = 1 → firstFail (b.grantChecks c true) = none →
      mine = (c.tileMask.filterMap b.tileOfLogical).filter (fun p => b.ownerOf p == q) →
      ns = sectorsOf (c.tileMask.filterMap b.tileOfLogical) → (∀ n ∈ ns, (b.sector n).pstate = .brew) →
      exec (.partRevoke r) s = .next (s.waits r c rest auth (.again [1]) (b.fenceAll mine))) ∧
    (∀ x w named, w = s.without x → x.cmd.num 17 1 = 1 → named = x.cmd.tileMask.filterMap w.tileOfLogical →
      let free := named.filter fun p => w.ownerOf p == 31
      let mine := named.filter fun p => w.ownerOf p == x.cmd.num 16 1
      (s.Resumes r x 0x0102 [1] → (∀ p ∈ free, (w.tile p).zres = 2 ∧ (w.tile p).zeroizing = false) →
        exec (.partGrant r) s = .next (s.ended x stOk [] ((w.setTileOwner free (x.cmd.num 16 1)).unforce (sectorsOf named)))) ∧
      (s.Resumes r x 0x0103 [1] → (∀ p ∈ mine, (w.tile p).fenced = true ∧ (w.tile p).seq = .off ∧ (w.tm p).migrating = false) →
        (∀ n ∈ sectorsOf named, (w.sector n).pstate = .brew) →
        exec (.partRevoke r) s = .next (s.stays x (.again [2]) (mine.foldl State.startZero w))) ∧
      (s.Resumes r x 0x0103 [2] → (∀ p ∈ mine, (w.tile p).zres = 2 ∧ (w.tile p).zeroizing = false) →
        exec (.partRevoke r) s = .next (s.ended x stOk [] ((w.setTileOwner mine 31).unforce (sectorsOf named))))) ∧
    (∀ revoke : Bool, s.Accepts r c rest (if revoke then 0x0103 else 0x0102) auth → firstFail (b.grantChecks c revoke) = none →
      let go := if revoke then exec (.partRevoke r) s else exec (.partGrant r) s
      let named := (List.range 16).filter (c.num 24 2).testBit
      let old := b.mem.regionsOf q
      (k = 5 → go = .next (s.waits r c rest auth
        (.again (1 :: (List.range 16).map fun x => ((b.mem.ctlOf 0).ownerCheck x).toNat)) (if revoke
        then (named.filter old.contains).foldl (fun s b => State.writeBank s b 0x1F#32) (b.writeRegions q (old.filter fun b => !named.contains b))
        else b.writeRegions q ((List.range 16).filter fun b => old.contains b || named.contains b)))) ∧
      (k = 6 → go = .next (s.waits r c rest auth
        (.again (1 :: (List.range 64).map fun j => ((b.mem.ctlOf 0).nextAt j).toNat)) ((List.range 12).foldl (fun s x => State.updCtl s x fun m =>
        { m with slotNext := c.dramTable revoke m, apply := true }) b))) ∧
      (k = 7 → (∀ x, x < 64 → (b.router x).draining = false) → go = .next (s.waits r c rest auth
        (.again (1 :: (b.router 0).vcEnNext.toNat :: (List.range 64).map fun j => ((b.router 0).nextAt j).toNat))
        ((List.range 64).foldl (fun s x => State.updRouter s x (c.meshTable revoke)) b)))) ∧
    (∀ (revoke : Bool) x z, s.Resumes r x (if revoke then 0x0103 else 0x0102) (1 :: z) →
      (x.cmd.num 17 1 = 5 ∧ s.regionsSettled (List.range 16) = true ∨ x.cmd.num 17 1 = 6 ∧ (∀ n, n < 12 → (s.mem.ctlOf n).apply = false) ∨
        x.cmd.num 17 1 = 7 ∧ ∀ n, n < 64 → (s.router n).draining = false) →
      (if revoke then exec (.partRevoke r) s else exec (.partGrant r) s) = .next (s.ended x stOk [] (s.without x))) ∧
    (s.Accepts r c rest 0x0104 auth → c.stray [(16, 1)] = false → q ≤ 15 → (b.part q).state ≠ 0 → exec (.partDestroy r) s =
      .next (s.waits r c rest auth (.again [1]) ((b.setPart q { b.part q with state := 4 }).destroyStart q))) ∧
    (∀ x p w ps, w = s.without x → p = x.cmd.num 16 1 → ps = (List.range 256).filter (fun i => w.ownerOf i == p) →
      (s.Resumes r x 0x0104 [1] → (∀ z ∈ w.streams, z.2.owner = p → z.2.state ≠ 3) → (∀ n ∈ sectorsOf ps, (w.sector n).pstate = .brew) →
        exec (.partDestroy r) s = .next (s.stays x (.again [2]) (ps.foldl State.startZero w))) ∧
      (s.Resumes r x 0x0104 [2] → (∀ i ∈ ps, (w.tile i).zres = 2 ∧ (w.tile i).zeroizing = false) →
        (∀ n, n < 64 → (w.router n).draining = false) → exec (.partDestroy r) s =
          .next (s.stays x (.again [3]) (((w.setTileOwner ps 31).unforce (sectorsOf ps)).destroyEnd p))) ∧
      (s.Resumes r x 0x0104 [3] → w.destroySettled = true → w.secSlot = p → exec (.partDestroy r) s =
        .next (s.ended x stOk [] ((w.discardCommands p stDiscardedReset).setPart p {})))) ∧
    (∀ d, s.Accepts r c rest 0x0105 auth → d = c.desc 24 → c.stray [(16, 2), (24, 16)] = false → d.rsv = 0 → q ≤ 15 → 1 ≤ k → k ≤ 12 →
      b.descReady c d 40 true → 40 ≤ d.len → c.stamp = 16 ∨ c.stamp = q → (b.part q).state ≠ 0 →
      exec (.partQuery r) s = .next (s.outputAnswered r c rest auth
        (resultOf [(14, 1, bit (b.part q).isSealed), (15, 1, (b.queues.filter fun e => e.2.owner == q).length)])
        (b.written c d (b.holding q k))))

/-- O54. Each operation of the security engine takes its data, runs in a slot of its bank, and waits with its data for one. An OWNER_ENROLL or SESSION_REKEY whose request passes its checks writes the response and installs the session, and one whose request fails them, as a KEY_LOAD, DEBUG_UNLOCK or FW_UPDATE_STAGE whose data do, is answered with the status of that check; ATTEST writes the signed report, with the certificates where they fit; a response or report that cannot be written is answered POISONED_DATA. KEY_LOAD installs the unwrapped key, KEY_DESTROY erases one. DEBUG_UNLOCK with a good token destroys every partition, then erases the keys and opens debug access in the scope granted. FW_UPDATE_STAGE erases the slot, writes the image and last its header, and is answered with what it reads back. FW_ACTIVATE writes the boot control copy, discards what is in flight and readies the reset; when the copy does not read back it is answered POISONED_DATA and nothing is readied. -/
def Obligations.SecurityCommandsAnswer : Prop :=
  ∀ (s : State) (r : Recip) (c : CmdRec) (rest : List CmdRec) (auth : Bool),
    let b := s.begun r c rest auth
    engineRow .ownerEnroll 0x0106 CmdRec.stamp (·.desc 16) (fun _ => 6791)
      (fun k z => let e := k.desc 32
        k.stray [(16, 32)] = false ∧ (k.desc 16).rsv = 0 ∧ e.rsv = 0 ∧ 6791 ≤ (k.desc 16).len ∧ 4678 ≤ e.len ∧ z.descReady k e 4678 true ∧
        (z.role k.stamp).session = none ∧ z.partBusy k.stamp = false ∧ z.enrolling k.stamp = false)
      (fun k data z => let st := z.enrolStatus k.stamp data
        let y := z.keyExchange 1 k.stamp data (slice data 153 97) (slice data 250 1184) []
        let o := y.2.written k (k.desc 32) y.1.1
        let pq := (num data 1 1).testBit 0
        let w := o.2.installSession k.stamp { o.2.role k.stamp with
          session := some y.1.2
          ownerHash := Config.sha384 (slice data 56 97 ++ if pq then slice data 1434 1952 else [])
          pqsig := pq
          ecPub := slice data 56 97
          pqPub := if pq then slice data 1434 1952 else [] }
        if st ≠ stOk then .reply st [] z
        else if o.1 = false then .reply stPoison [] o.2
        else .reply stOk [] (if k.stamp < 16 then w.setPart k.stamp { w.part k.stamp with state := 2 } else w)) ∧
    engineRow .sessionRekey 0x0904 CmdRec.stamp (·.desc 16) (fun _ => 4726)
      (fun k z => let e := k.desc 32
        k.stray [(16, 32)] = false ∧ (k.desc 16).rsv = 0 ∧ e.rsv = 0 ∧ 4726 ≤ (k.desc 16).len ∧ 4678 ≤ e.len ∧ z.descReady k e 4678 true ∧
        z.partBusy k.stamp = false)
      (fun k data z => match (z.role k.stamp).session with
        | none => .reply stAuth [] z
        | some x =>
          let st := rekeyStatus (z.role k.stamp) x data
          let y := z.keyExchange 2 k.stamp data (slice data 40 97) (slice data 137 1184) x.prk
          let o := y.2.written k (k.desc 32) y.1.1
          if st ≠ stOk then .reply st [] z
          else if o.1 = false then .reply stPoison [] o.2
          else .reply stOk [] (o.2.installSession k.stamp { z.role k.stamp with session := some y.1.2 })) ∧
    (let len (k : CmdRec) (z : State) : Nat := if (k.desc 48).len < 4460 + z.certificates.length then 4460 else 4460 + z.certificates.length
     let sent (k : CmdRec) (body : List Byte) (z : State) : CmdOut :=
       let o := ({ z with drawn := z.drawn + 2 } : State).written k (k.desc 48)
         ((body ++ padTo 96 (Config.ecdsaSign dakEc body z.drawn) ++ padTo 3309 (Config.pqSign dakPqSeed body (z.drawn + 1))
           ++ leBytes 3 0 ++ leBytes 4 z.certificates.length ++ z.certificates).take (len k z))
       .reply (if o.1 then stOk else stPoison) (if o.1 then resultOf [(14, 4, 4460 + z.certificates.length)] else []) o.2
     let ready (k : CmdRec) (z : State) : Prop := (k.desc 48).rsv = 0 ∧ 4460 ≤ (k.desc 48).len ∧ z.descReady k (k.desc 48) (len k z) true
     let body := b.reportBody c.stamp (c.sub 16 32)
     (s.Accepts r c rest 0x0901 auth → ready c b →
       (b.secSlot = c.stamp → exec (.attest r) s = .next (b.finish (b.taken c auth) (sent (b.taken c auth) body b))) ∧
       (b.secSlot ≠ c.stamp → exec (.attest r) s = .next (s.waits r c rest auth (.again (body.map (·.toNat))) b))) ∧
     (∀ x p, p ≠ [] → s.Resumes r x 0x0901 p → ready x.cmd (s.without x) → (s.without x).secSlot = x.cmd.stamp →
       exec (.attest r) s = .next ((s.without x).finish x.cmd (sent x.cmd (p.map (BitVec.ofNat 8)) (s.without x))))) ∧
    engineRow .keyLoad 0x0902 CmdRec.stamp (·.desc 48) (fun _ => 80)
      (fun k z => let held := ((List.range 4).map fun a => 4 * k.num 17 1 + a).filter fun j => (tget none (z.lane (k.num 16 1)).sa j).isSome
        k.stray [(16, 3), (20, 16), (48, 16)] = false ∧ (k.desc 48).rsv = 0 ∧ 80 ≤ (k.desc 48).len ∧ k.saBad = false ∧
        (z.lane (k.num 16 1)).owner = k.stamp ∧ (held.length < 2 ∨ held.contains k.saIndex = true))
      (fun k data z => match (z.role k.stamp).session with
        | none => .reply stAuth [] z
        | some x => match unwrapSak k x.kwrp data with
          | none => .reply stSignature [] z
          | some sak => .reply stOk [] (z.updLane (k.num 16 1) fun y =>
            { y with sa := tset none y.sa k.saIndex (some { key := padTo 32 sak, salt := k.sub 24 12, ssci := k.num 20 4 }) })) ∧
    (s.Accepts r c rest 0x0903 auth → c.stray [(16, 3)] = false → c.saBad = false → (b.lane (c.num 16 1)).owner = c.stamp →
      tget none (b.lane (c.num 16 1)).sa c.saIndex ≠ none →
      (b.secSlot = c.stamp → exec (.keyDestroy r) s = .next (s.answered r c rest auth stOk []
        (b.updLane (c.num 16 1) fun y => { y with sa := tset none y.sa c.saIndex none }))) ∧
      (b.secSlot ≠ c.stamp → exec (.keyDestroy r) s = .next (s.waits r c rest auth (.engine []) b))) ∧
    (∀ x w, w = s.without x → s.WaitsFor r x 0x0903 (.engine []) → x.cmd.stray [(16, 3)] = false → x.cmd.saBad = false →
      (w.lane (x.cmd.num 16 1)).owner = x.cmd.stamp → tget none (w.lane (x.cmd.num 16 1)).sa x.cmd.saIndex ≠ none →
      w.secSlot = x.cmd.stamp → exec (.keyDestroy r) s = .next (s.ended x stOk []
        (w.updLane (x.cmd.num 16 1) fun y => { y with sa := tset none y.sa x.cmd.saIndex none }))) ∧
    engineRow .debugUnlock 0x0905 (fun _ => 16) (·.desc 16) (fun _ => 6910)
      (fun k _ => k.stray [(16, 16)] = false ∧ (k.desc 16).rsv = 0 ∧ 6910 ≤ (k.desc 16).len)
      (fun _ data z => if z.tokenStatus data = stOk then .wait (.again [1, num data 1 1]) z.unlockStart
        else .reply (z.tokenStatus data) [] z) ∧
    (∀ x scope w ps, w = s.without x → ps = (List.range 256).filter (fun p => w.existing.contains (w.ownerOf p)) →
      (s.Resumes r x 0x0905 [1, scope] → (∀ z ∈ w.streams, z.2.state ≠ 3) → (∀ n ∈ sectorsOf ps, (w.sector n).pstate = .brew) →
        exec (.debugUnlock r) s = .next (s.stays x (.again [2, scope]) (ps.foldl State.startZero w))) ∧
      (s.Resumes r x 0x0905 [2, scope] → (∀ p ∈ ps, (w.tile p).zres = 2 ∧ (w.tile p).zeroizing = false) →
        (∀ n, n < 64 → (w.router n).draining = false) → exec (.debugUnlock r) s = .next (s.stays x (.again [3, scope])
          (w.existing.foldl State.destroyEnd ((w.setTileOwner ps 31).unforce (sectorsOf ps))))) ∧
      (s.Resumes r x 0x0905 [3, scope] → w.destroySettled = true → w.secSlot = 16 → exec (.debugUnlock r) s =
        .next (s.ended x stOk [] (w.unlockEnd scope)) ∧
        (w.unlockEnd scope).dbgAccess = { unlocked := true, tapOpen := scope.testBit 0, fwOpen := scope.testBit 1 } ∧
        ∀ p, p < 17 → (w.unlockEnd scope).role p = {})) ∧
    engineRow .fwUpdateStage 0x0906 (fun _ => 16) (·.desc 24) (fun k => (k.desc 24).len)
      (fun k z => k.stray [(16, 1), (24, 16)] = false ∧ (k.desc 24).rsv = 0 ∧ 0 < (k.desc 24).len ∧ (k.desc 24).len ≤ 67108864 ∧
        k.num 16 1 ≤ 1 ∧ k.num 16 1 ≠ z.boot.active ∧ z.boot.staging = false)
      (fun k data z => let st := reasonStatus (z.imageReason data)
        if st ≠ stOk then .reply st [] z
        else .wait (.again (1 :: (data.take (num data 32 4)).map (·.toNat))) ((z.updBoot fun x =>
          { x with staged := x.staged.setIfInBounds (k.num 16 1) false, staging := true }).flashErase (slotBase (k.num 16 1)) 67108864)) ∧
    (∀ x image w i, w = s.without x → i = x.cmd.num 16 1 →
      (s.Resumes r x 0x0906 (1 :: image) → exec (.fwUpdateStage r) s = .next (s.stays x (.again (2 :: image))
        (w.flashWrite (slotBase i + 64) ((image.drop 64).map (BitVec.ofNat 8))))) ∧
      (s.Resumes r x 0x0906 (2 :: image) → ∀ u, u = w.flashWrite (slotBase i) ((image.take 64).map (BitVec.ofNat 8)) →
        let st := reasonStatus (u.imageReason (u.slotImage i))
        exec (.fwUpdateStage r) s = .next (s.ended x st (if st = stOk then
            resultOf [(14, 4, num (manifest (u.slotImage i)) 20 4), (18, 2, num (manifest (u.slotImage i)) 4 4),
              (20, 2, num (manifest (u.slotImage i)) 12 4)]
            else [])
          (u.updBoot fun x => { x with staged := x.staged.setIfInBounds i (st == stOk), staging := false })))) ∧
    (∀ x gen text, s.Accepts r c rest 0x0907 auth → c.stray [(16, 1)] = false → c.num 16 1 ≤ 1 →
      (c.num 16 1 = b.boot.active ∨ b.boot.staged.toList.getD (c.num 16 1) false = true) → b.controlPlace = (x, gen) →
      text = leBytes 4 0x43425944 ++ leBytes 4 (gen % 2 ^ 32) ++ leBytes 1 (c.num 16 1) ++ leBytes 3 0 →
      let e := (b.flashErase (0x08012000 + 0x1000 * x) 4096).draw
      (Config.flashReadFails e.1 = false → exec (.fwActivate r) s = .next (s.answered r c rest auth stOk []
        (((List.range 17).foldl (fun s i => State.discardCommands s i stDiscardedReset)
          (e.2.flashWrite (0x08012000 + 0x1000 * x) (text ++ leBytes 4 (crc105 text)))).updBoot
            fun y => { y with activate := true }))) ∧
      (Config.flashReadFails e.1 = true → exec (.fwActivate r) s = .next (s.answered r c rest auth stPoison []
        (e.2.flashWrite (0x08012000 + 0x1000 * x) (leBytes 16 (Config.free e.1))))))

/-- O55. The oldest unhandled PARTITION fault is logged with the next INDEX; a CREATED or ENROLLED partition begins to recover from it, and a RECOVERING one records it and runs phase 3 again. A hard-failed tile that no partition owns is logged as a system fault only, and one of a partition that is absent or being destroyed is logged and retired; of another, one whose takeover is due already is a fault of its partition, one without a free spare is logged with detail 3 and retired, and with one the spare is taken and the takeover noted. Recovery discards the held words, makes its takeovers, waits for sectors and old tags, notes damaged frames and restores the task entries, refills, and at its end returns the partition to the state it had, with its tasks armed, cancelled or idle and its recovery's entry and event. -/
def Obligations.RecoveryRunsItsPhases : Prop :=
  ∀ (s : State) (q : PartIx) (f : FaultRec),
    ((s.faults.find? fun f => f.cls == 2 && f.part == q.val) = some f →
      exec (.partitionFault q) s = .next (State.takeFault { s with faults := s.faults.erase f } f f.detail) ∧
      let w := State.logFault { s with faults := s.faults.erase f } f.cls f.part
        (2 * bit f.injected + 4 * bit (s.rec_ q).isSome) f.source f.object f.detail f.addr
      (∀ x, w.rec_ q = some x → State.takeFault { s with faults := s.faults.erase f } f f.detail = w.setRec q (some (x.join f))) ∧
      (w.rec_ q = none → ((w.part q).state = 1 ∨ (w.part q).state = 2) →
        State.takeFault { s with faults := s.faults.erase f } f f.detail = w.startRecovery q f s.logNext)) ∧
    (∀ p w, (s.faults.find? fun f => f.cls == 3) = some f → p = f.tile.getD 0 → w = ({ s with faults := s.faults.erase f } : State) →
      (15 < s.ownerOf p → exec .tileFault s = .next (w.logFault 5 (s.ownerOf p) 0 f.source (s.tm p).logical f.detail f.addr)) ∧
      (s.ownerOf p = q.val → (s.part q).state = 0 ∨ (s.part q).state = 4 →
        exec .tileFault s = .next ((w.logFault 3 q 0 f.source f.object f.detail f.addr).retire p)) ∧
      (s.ownerOf p = q.val → (s.part q).state ≠ 0 → (s.part q).state ≠ 4 → (∃ x y, s.rec_ q = some x ∧ y ∈ x.takeover ∧ y.1 = p) →
        exec .tileFault s = .next (w.takeFault { f with part := q.val } f.detail))) ∧
    (∀ p n w sp, (s.faults.find? fun f => f.cls == 3) = some f → p = f.tile.getD 0 → n = sectorOf p → s.ownerOf p = q.val →
      (s.part q).state ≠ 0 → (s.part q).state ≠ 4 → (∀ x, s.rec_ q = some x → ∀ y ∈ x.takeover, y.1 ≠ p) →
      w = (State.abortMove { s with faults := s.faults.erase f } n) →
      (w.freeSpare n = none → exec .tileFault s = .next ((w.takeFault { f with part := q.val } 3).retire p)) ∧
      (w.freeSpare n = some sp → ∃ t, exec .tileFault s = .next (t.setRec q ((t.rec_ q).map fun x =>
          { x with takeover := x.takeover ++ [(p, sp)] })) ∧
        t = ((w.takeFault { f with part := q.val } f.detail).keepFill p (w.tile p).fill).updSector n fun x => { x with noSpare := true, cupPhase := 3 })) ∧
    (∀ x, s.rec_ q = some x →
      (x.phase = 2 → exec (.recoveryCheck q) s = .next (((s.tilesOf q).foldl State.dropHeld s).setRec q (some { x with phase := 3 }))) ∧
      (x.phase = 3 → x.takeover ≠ [] → exec (.recoveryCheck q) s = .next (x.takeover.foldl (fun s y => State.takeOverStep s q y) s)) ∧
      (x.phase = 3 → x.takeover = [] → s.oldTags q = false →
        (∀ n ∈ sectorsOf (s.tilesOf q), ((s.sector n).pstate = .steep → (s.sector n).committed = true) ∧
          ((s.sector n).pstate = .cold → (s.sector n).waking = false)) →
        exec (.recoveryCheck q) s = .next ((s.restoreTasks q).setRec q (some
          { x with phase := 4, frames := (x.frames ++ s.damaged q).eraseDups }))) ∧
      (x.phase = 4 → x.frames ≠ [] → ∀ fs, fs = x.frames.filter (fun f => s.ownerOf f.1 == q.val && s.awake f.1) →
        exec (.recoveryRefill q) s = .next ((fs.foldl (fun s f => State.refill s f.1 f.2.1 f.2.2 (x.requester f.1)) s).setRec q
          (some { x with frames := [], refilled := x.refilled + fs.length }))) ∧
      (x.phase = 4 → x.frames = [] → (∀ p ∈ s.tilesOf q, (s.tile p).recovering = false) →
        exec (.recoveryRefill q) s = .next (s.setRec q (some { x with phase := 5 }))) ∧
      (x.phase = 5 → ∃ t, exec (.recoveryResume q) s = .next t ∧ t.rec_ q = none ∧ (t.part q).state = x.back ∧
        (∀ i ∈ s.tasksOf q, canonical {} s.tasks = true →
          (t.task i).state = (match (x.tasks.find? fun y => y.1 == i).map (·.2) with
            | none => TaskState.idle
            | some true => .cancelled
            | some false => .armed) ∧ (t.task i).urgent = false ∧ (t.task i).resid = 0) ∧
        (∀ i, (s.task i).st.owner ≠ q.val → t.task i = s.task i) ∧ (∀ p, p ≠ q.val → t.part p = s.part p) ∧
        t.logNext = (s.logNext + 1) % 2 ^ 32 ∧ t.mem.lines = s.mem.lines))

/-- O56. While it runs, Percolator visits the next frame; the frames of a tile that migrates come later, in order, once it has. An upset cache frame with a golden copy has its repair requested of the tile's fill unit, and one whose golden copy has come rewrites the upset words from it and counts. A vote in which ROM parity or a word fails halts it; a vote of three equal copies changes nothing. A Cupping step starts with the spare's test; a failed spare is retired and logged; a passed one is zeroized and the next live tile that may move is fenced, one that may not is skipped, and without one the step ends; once it stands, both tiles migrate; at the end the tile's logical number and owner are the spare's and the old tile is the new spare. An upset flips one stored bit; a bit that no memory holds is a fault. -/
def Obligations.IntegrityEnginesWork : Prop :=
  ∀ s : State,
    (s.perc.status = 0 → (s.perc.later.find? fun e => !(s.tm e.1).migrating) = none → (s.tm s.perc.tile).migrating = false →
      exec .percolatorFrameCheck s = .next (State.visit { s with perc := s.perc.advance false } s.perc.tile s.perc.frame)) ∧
    (s.perc.status = 0 → (s.perc.later.find? fun e => !(s.tm e.1).migrating) = none → (s.tm s.perc.tile).migrating = true →
      exec .percolatorFrameCheck s = .next { s with perc :=
        { s.perc with later := s.perc.later ++ [(s.perc.tile, s.perc.frame)] }.advance true }) ∧
    (∀ p f, s.perc.status = 0 → (s.perc.later.find? fun e => !(s.tm e.1).migrating) = some (p, f) → let l := s.perc.later.erase (p, f)
      exec .percolatorFrameCheck s = .next (State.visit { s with perc := { s.perc with
        later := if f < 63 then (p, f + 1) :: l else l } } p f)) ∧
    (∀ p f, s.visits p f = false ∨ s.mem.frameCrcOk p f = true → s.visit p f = s) ∧
    (∀ p f id, s.visits p f = true → s.mem.frameCrcOk p f = false → 16 ≤ f → tget none (s.tile p).frameId f = some id →
      s.goldenOf (s.ownerOf p) id ≠ 0 → s.visit p f =
        s.requestFill p { s.refillOf p f id .percolator with words := s.mem.upsetWords p f }) ∧
    (∀ p f rest, s.perc.repairs = p :: rest → (s.tile p).fill = some f → f.who = .percolator → f.rowsLeft = [] → f.waits = false →
      let x := f.hot.getD (f.cache.getD 0)
      let w : State := State.updTile { s with perc := { s.perc with repairs := rest } } p fun t => { t with fill := none }
      w.visits p x = true → tget none (s.tile p).frameId x = some f.ctxId → ∀ z, z = f.words.foldl (fun s y =>
        State.writeWord s (ctxBase p x + 4 * y) (f.golden256.getD y 0) false) w →
      exec .percolatorRepair s = .next { z with perc := { z.perc with silent := z.perc.silent + 1 } }) ∧
    (s.perc.status = 0 →
      exec (.percolatorLatchVote true) s = .next (State.sysFault { s with perc := { s.perc with status := 1, romPar := true } } 0x21 0 2) ∧
      ((∃ i, i < 16 ∧ voteWord s.perc.copies i = 4) →
        exec (.percolatorLatchVote false) s = .next (State.sysFault { s with perc := { s.perc with status := 1, voteFail := true } } 0x21 0 1)) ∧
      (s.perc.copies[0] = s.perc.copies[1] → s.perc.copies[1] = s.perc.copies[2] →
        exec (.percolatorLatchVote false) s = .next s)) ∧
    (∀ n : SecIx, let x := s.sector n; let sp := posOf n x.cupSpare
      (s.cupEn = true → s.boot.ready = true → x.pstate = .brew → x.noSpare = false → x.cupPhase = 0 → x.cupMove = none →
        (s.tile sp).zeroizing = false → exec (.cuppingStep n) s = .next (s.updSector n fun y => { y with cupPhase := 1 })) ∧
      (x.cupPhase = 1 → x.pstate = .brew →
        exec (.spareTestDone n false) s = .next ((((s.retire sp).updSector n fun y =>
          { y with cupPhase := 0, cupSteps := y.cupSteps + 1 }).sysFault 0x30 n (indexOf sp))) ∧
        (∀ w, w = ((s.zeroizeTile sp).updTile sp fun t => { t with zres := 2 }) → w.candidate n = none →
          exec (.spareTestDone n true) s = .next (w.updSector n fun y => { y with cupPhase := 0, cupSteps := y.cupSteps + 1 })) ∧
        ∀ i w, w = ((s.zeroizeTile sp).updTile sp fun t => { t with zres := 2 }) → w.candidate n = some i →
          (w.mayMove (posOf n i) = true → exec (.spareTestDone n true) s =
            .next ((w.updSector n fun y => { y with cupPhase := 0, cupNext := (i + 1) % 32 }).askMove n (posOf n i) sp)) ∧
          (w.mayMove (posOf n i) = false → exec (.spareTestDone n true) s = .next ((w.updSector n fun y => { y with cupPhase := 0, cupNext := (i + 1) % 32 }).updSector n fun y =>
            { y with cupSkips := y.cupSkips + 1, cupSteps := y.cupSteps + 1 }))) ∧
      (∀ p z, x.cupMove = some (p, z) → x.cupPhase = 0 → x.pstate = .brew → (s.tile p).fenced = true → (s.tile p).seq = .off →
        (s.tile p).zeroizing = false → (∀ g ∈ s.grants, g.1 ≠ p) → p ≠ z → ∃ t, exec (.cuppingMigration n) s = .next t ∧
          (t.tm p) = { s.tm p with migrating := true } ∧ (t.tm z) = { s.tm z with migrating := true } ∧
          t.sector n = { x with cupPhase := 2 } ∧ (∀ y, y ≠ p → y ≠ z → t.tm y = s.tm y) ∧ t.mem = s.mem) ∧
      (∀ p z, x.cupMove = some (p, z) → x.cupPhase = 2 → x.pstate = .brew → (s.tile p).fill = none → (s.tile p).heldWrites = [] → p ≠ z →
        ∃ t, exec (.migrationDone n) s = .next t ∧ t.tm z = { s.tm p with migrating := false } ∧
          t.tm p = { logical := 255, owner := 16 } ∧ (t.sector n).cupMove = none ∧ (t.sector n).cupPhase = 0 ∧
          (t.sector n).cupSpare = indexOf p ∧ (t.sector n).cupSteps = ((s.copyTile p z).sector n).cupSteps + 1 ∧
          (t.sector n).cupLastNs.toNat ≤ 5000)) ∧
    (∀ (a : BitVec 44) b, ((areaOf a.toNat).sram = true ∧ b < 39 →
        exec (.upset (.sram a b)) s = .next (s.setMem (s.mem.flip (a.toNat / 4 * 4) b))) ∧
      (areaOf a.toNat = .dram ∧ a.toNat - dramBase < s.mem.capacity ∧ b < 576 →
        exec (.upset (.dram a b)) s = .next (s.flipLine a.toNat b)) ∧
      (39 ≤ b ∨ (areaOf a.toNat).sram = false → exec (.upset (.sram a b)) s = .fault .noSuchBit) ∧
      (areaOf a.toNat ≠ .dram ∨ s.mem.capacity ≤ a.toNat - dramBase ∨ 576 ≤ b → exec (.upset (.dram a b)) s = .fault .noSuchBit)) ∧
    (∀ k b, 3 ≤ k ∨ 256 ≤ b → exec (.upset (.latch k b)) s = .fault .noSuchBit) ∧
    (∀ k b, k < 3 → b < 256 → exec (.upset (.latch k b)) s = .next { s with perc := { s.perc with
        copies := s.perc.copies.setIfInBounds k ((s.perc.copies.toList.getD k 0) ^^^ BitVec.ofNat 256 (2 ^ b)) } })

/-- O57. A choice below Brew puts the sector in Steep, fenced; one deeper than Steep is entered once no tag, held request, wake or waking stands against it, and reached with the LDO at 500 mV in Cool and 0 in Cold, which notes the frames to bring back, clears the tile memories and withdraws the tiles' requests for work. A raised wake, a word in the inbox or at the fence starts a wake; a forced sector wakes. At its end the sector is in Brew, unfenced, with one more wake; a late wake from Cold is recorded; a running timer wakes a sector below Brew. -/
def Obligations.SectorsSleepAndWake : Prop :=
  ∀ (s : State) (n : SecIx),
    let x := s.sector n
    (∀ v, v = s.choose n →
      (v.code < x.pstate.code → exec (.sectorPowerChoose n) s = .next ((s.setSector n { x with target := v }).updSector n fun y =>
        { y with wakeDue := true, entering := y.entering && y.committed })) ∧
      (x.pstate = .brew → v ≠ .brew → exec (.sectorPowerChoose n) s = .next ((s.setSector n { x with target := v }).updSector n fun y =>
        { y with pstate := .steep, fenced := true, entering := v != .steep, wakeDue := false, waking := false })) ∧
      (x.pstate = .steep → x.committed = false → v = .cool ∨ v = .cold → x.waking = false → exec (.sectorPowerChoose n) s = .next ((s.setSector n { x with target := v }).updSector n fun y =>
        { y with entering := true }))) ∧
    (x.pstate = .steep → x.entering = true → x.committed = false → x.waking = false → x.wakeDue = false → s.sectorTags n = false →
      s.proxyHolds n = false → exec (.pointOfNoReturn n) s = .next (s.setSector n { x with committed := true, clk := 0, goal := x.target })) ∧
    (x.committed = true →
      (x.goal ≠ .cold → exec (.sleepStateReached n) s = .next (s.setSector n
        { x with pstate := .cool, committed := false, entering := false, ldo := 500 })) ∧
      (x.goal = .cold → ∃ t, exec (.sleepStateReached n) s = .next t ∧ t = (sectorTiles n).foldl (fun s p =>
          ((State.withdrawAsk s p).setMem (s.mem.clearTile p)).updTile p Tile.afterCold) (s.setSector n { x with
            pstate := .cold, committed := false, entering := false, ldo := 0, coldFrames := (sectorTiles n).flatMap s.coldFramesOf }) ∧
        (t.sector n) = { x with
          ask := (t.sector n).ask, pstate := .cold, committed := false, entering := false, ldo := 0, coldFrames := (sectorTiles n).flatMap s.coldFramesOf } ∧
        (∀ p ∈ sectorTiles n, t.tile p = (s.tile p).afterCold) ∧ (∀ p, p ∉ sectorTiles n → t.tile p = s.tile p) ∧
        (∀ p ∈ sectorTiles n, p ∉ t.getWorks) ∧ t.mem.lines = s.mem.lines)) ∧
    ((x.wakeDue = true ∨ x.inbox ≠ [] ∨ x.pstate ≠ .brew ∧ s.wordWaits n = true) → exec (.wakeRequest n) s = .next (s.startWake n)) ∧
    (x.pstate = .steep → x.committed = false → x.waking = false → s.startWake n = s.setSector n
      { x with waking := true, wakeDue := false, entering := false }) ∧
    (x.pstate = .cool → x.committed = false → x.waking = false → s.startWake n = s.setSector n
      { x with waking := true, wakeDue := false, entering := false, clk := s.ceiling n, ldo := supplyAt (s.ceiling n) }) ∧
    (x.waking = true → x.pstate = .steep → exec (.steepWakeDone n) s = .next (s.reachBrew n)) ∧
    (x.inbox = [] → s.reachBrew n = (s.setSector n
      { x with pstate := .brew, fenced := false, waking := false, wakeDue := false, inbox := [], wakes := x.wakes + 1 }).recountBorder n) ∧
    (∀ late, x.waking = true → x.pstate = .cool →
      exec (.deepWakeDone n late) s = .next ((sectorTiles n).foldl State.wakeFence (s.reachBrew n))) ∧
    (x.waking = true → x.pstate = .cold →
      (∀ p ∈ sectorTiles n, (s.tile p).fill = none ∧ (s.tile p).fillQ = [] ∧ (s.tile p).fillWait = [] ∧
        (s.tile p).zeroizing = false) → let t := (sectorTiles n).foldl State.wakeFence (s.reachBrew n)
      exec (.deepWakeDone n false) s = .next t ∧ exec (.deepWakeDone n true) s = .next (pmStick t 0x40)) ∧
    (x.pstate ≠ .brew → (s.timerDue n).isSome = true →
      exec (.timerWake n) s = .next ((s.setSector n { x with wakeDue := true }).startWake n)) ∧
    (∀ w : Word, (w.getLsbD 0 = false ∨ x.pstate = .brew → exec (.secForceWrite n w) s = .next (s.setSector n { x with force := w.getLsbD 0 })) ∧
      (w.getLsbD 0 = true → x.pstate ≠ .brew → exec (.secForceWrite n w) s = .next (s.setSector n { x with force := true, wakeDue := true })))

/-- O58. A clock in Brew or Steep steps 25 MHz toward the smallest of its three ceilings, and its supply follows. After boot a power over the cap lowers the cap loop's ceiling by 25 MHz, not below 400, with no ceiling at a cap of 185 W; a hundredth pass in a row 2 W under the cap raises it. A sector at TJ_MAX, or 30 °C over a live neighbour, loses 25 MHz of its thermal ceiling. A sensor 5 °C over TJ_MAX sets every thermal ceiling to 400 MHz and stops the loop until all sensors are 3 °C under it. -/
def Obligations.ClocksFollowTheirCeilings : Prop :=
  ∀ s : State,
    (∀ n : SecIx, let x := s.sector n; let f := s.ceiling n
      f = min x.clkMax (min s.power.p x.limit) ∧ (x.pstate = .brew ∨ x.pstate = .steep → x.committed = false →
        (x.clk + 25 ≤ f → exec (.clockStep n) s = .next (s.setSector n { x with clk := x.clk + 25, ldo := supplyAt (x.clk + 25) })) ∧
        (f < x.clk → exec (.clockStep n) s = .next (s.setSector n { x with clk := x.clk - 25, ldo := supplyAt (x.clk - 25) })) ∧
        (x.clk ≤ f → f < x.clk + 25 → exec (.clockStep n) s = .next s))) ∧
    (∀ (w : BitVec 32) l, s.boot.ready = true → ∃ t, exec (.powerCapUpdate w l) s = .next t ∧ t.power.watts = w.toNat ∧
      t = { s with power := t.power } ∧ t.power.cap = s.power.cap ∧ tget 0 t.power.now 16 = w.toNat ∧
      t.power.capUnmet = (decide (s.power.cap < w.toNat) && t.power.p == 400) ∧
      (s.power.cap = 185000 → t.power.p = 1600) ∧
      (s.power.cap ≠ 185000 → s.power.cap < w.toNat → t.power.p = (if 400 < s.power.p then s.power.p - 25 else s.power.p) ∧ t.power.under = 0) ∧
      (s.power.cap ≠ 185000 → w.toNat + 2000 < s.power.cap → s.power.under < 99 → t.power.p = s.power.p ∧ t.power.under = s.power.under + 1) ∧
      (s.power.cap ≠ 185000 → w.toNat + 2000 < s.power.cap → 99 ≤ s.power.under → s.power.p < 1600 →
        t.power.p = s.power.p + 25 ∧ t.power.under = 0) ∧
      (s.power.cap ≠ 185000 → w.toNat ≤ s.power.cap → s.power.cap ≤ w.toNat + 2000 → t.power.p = s.power.p ∧ t.power.under = 0)) ∧
    (∀ temps : List (BitVec 16), let u := (List.range (min 11 temps.length)).foldl (fun s k =>
        if k < 8 then (State.sense s k (temps.getD k 0).toInt).updSector k (fun x => { x with temp := (temps.getD k 0).toInt })
        else State.sense s k (temps.getD k 0).toInt) s
      let warn := (List.range 11).any fun k => decide (16 * (u.power.tjWarn : Int) ≤ tget 0 u.power.now k)
      let v := if u.power.tjWarn ≠ 0 ∧ warn = true then pmStick u 0x10 else u
      (∀ k, k < 11 → k < temps.length → tget 0 u.power.now k = (temps.getD k 0).toInt) ∧
      ((s.boot.ready = false ∨ s.power.crit = true) → exec (.thermalUpdate temps) s = .next v) ∧
      (s.boot.ready = true → s.power.crit = false → ∃ t, exec (.thermalUpdate temps) s = .next t ∧
        t = { v with sectors := t.sectors, power := { v.power with sticky := t.power.sticky } } ∧
        ∀ n, n < 8 → (v.sector n).live = true → (16 * (v.power.tjMax : Int) ≤ (v.sector n).temp ∨ 480 < v.tdiff n) →
          (t.sector n).limit = (if 400 < (v.sector n).limit then (v.sector n).limit - 25 else (v.sector n).limit) ∧
          (t.sector n).limitBy = bit (decide (16 * (v.power.tjMax : Int) ≤ (v.sector n).temp)) + 2 * bit (decide (480 < v.tdiff n)))) ∧
    ((∃ k, k < 11 ∧ 16 * ((s.power.tjMax : Int) + 5) ≤ tget 0 s.power.now k) → ∃ t, exec .criticalAlarm s = .next t ∧
      t.power = { s.power with crit := true, sticky := s.power.sticky ||| 0x20 } ∧ t = { s with power := t.power, sectors := t.sectors } ∧
      ∀ n, n < 8 → t.sector n = { s.sector n with limit := 400, limitBy := 1, okCount := 0 }) ∧
    ((∀ k, k < 11 → tget 0 s.power.now k ≤ 16 * ((s.power.tjMax : Int) - 3)) →
      exec .criticalClear s = .next { s with power := { s.power with crit := false } })

/-- O59. A device reset, or a supply monitor trip, returns everything to its reset value but the fuses, the flash, the test port, the inputs' levels and the waiting commands. With rails good, RST_N high and TEST_EN low, release takes what the board wrote to the flash, samples the straps and starts stage 0. Each stage ends in the next one, or halts boot with the code of its failure and no port; a slot that fails its checks is followed once by the other. A completed boot is READY with a fresh nonce and key and its ceilings raised. The security engine's slot moves through its 17 banks. -/
def Obligations.ResetAndBootStages : Prop :=
  ∀ s : State,
    (∃ t, exec .deviceReset s = .next t ∧ exec .supplyMonitorTrip s = .next t ∧ t.fuses = s.fuses ∧ t.flash = s.flash ∧ t.tap = s.tap ∧
      t.pending = s.pending ∧ t.boot = State.reset.boot ∧ t.mem = State.reset.mem ∧ t.parts = [] ∧ t.running = [] ∧ t.roles = [] ∧
      t.shadow = s.fuses ∧ t = { State.reset with pending := t.pending, drawn := t.drawn, fuses := t.fuses, shadow := t.shadow,
                                                  flash := t.flash, tap := t.tap, ports := t.ports }) ∧
    (∀ b : BoardIn, s.boot.held = true → b.rails = true → b.rstN = true → b.testEn = false → let t := b.flash.foldl (fun s e => State.flashWrite s e.1.toNat e.2) s
      exec (.resetRelease b) s = .next { t with smbAddr := b.smb, boot := { t.boot with held := false, status := 0 } }) ∧
    (∀ e : BootIn, s.boot.held = false → s.boot.ready = false →
      let go := exec (.bootStage e) s
      let atStage (t : State) (n : Nat) : State := t.setBoot { t.boot with status := n }
      (s.boot.status = 0 → (e.fuses = false → go = .next (s.bootHalt 0x8005)) ∧
        (e.fuses = true → s.tap.instr = .idcode ∨ s.tap.instr = .bypass → go = .next (atStage s 1))) ∧
      (s.boot.status = 1 → e.calW = true → e.calE = true → go = .next (atStage s 2)) ∧
      (s.boot.status = 2 → (e.selfTest.val ≠ 0 → go = .next (s.bootHalt (0x8000 + e.selfTest.val))) ∧
        (e.selfTest.val = 0 → ∀ t, t = e.badTiles.foldl (fun s p => State.failTile s p.val) s → go = .next (atStage t 3))) ∧
      (s.boot.status = 3 → ((e.flash = false ∨ s.tap.drives = true) → go = .next (s.bootHalt 0x8201)) ∧
        (e.flash = true → s.tap.drives = false → e.profile = false → go = .next (s.bootHalt 0x8202)) ∧
        (e.flash = true → s.tap.drives = false → e.profile = true → go = .next (s.setBoot
          { s.boot with pref := s.preferred.1, ctrlValid := s.preferred.2, status := 4 + s.preferred.1 }))) ∧
      (∀ x, x < 2 → s.boot.status = 4 + x →
        let why := if e.slot = false ∨ s.tap.drives = true then 1 else verifyReason s.fuses (s.slotImage x)
        go = .next (if why = 0 then s.setBoot { s.boot with active := x, status := 6 } else s.slotFails x why)) ∧
      (∀ i, s.boot.status = 6 → i = s.slotImage s.boot.active → e.slot = true → s.tap.drives = false →
        let t := s.loadSections i (loadReason i).2
        go = .next (if (loadReason i).1 = 0 then t.setBoot { t.boot with status := 7, reason := t.boot.reason.setIfInBounds t.boot.active 0 }
          else s.slotFails s.boot.active (loadReason i).1)) ∧
      (s.boot.status = 7 → go = .next (s.programFuses e)) ∧
      (s.boot.status = 8 → (e.firmware = false → go = .next (s.bootHalt 0x8401)) ∧ (e.firmware = true → ∃ t, go = .next t ∧
        t.boot.ready = true ∧ t.boot.nonce.length = 32 ∧ t.power.p = 1600 ∧ (∀ n, n < 8 → (t.sector n).limit = 1600) ∧
        t.fuses = s.fuses ∧ t.flash = s.flash))) ∧
    (∀ code, (s.bootHalt code).boot.status = code ∧ (s.bootHalt code).boot.shell.width = 0 ∧ (s.bootHalt code).boot.ready = s.boot.ready) ∧
    exec .secureSlotEnd s = .next { s with secSlot := (s.secSlot + 1) % 17 }

/-- O60. A reset of the test port selects IDCODE; IDCODE gives the stepping, part and manufacturer; BYPASS, and a private instruction while debug access is closed, delay their bits by one; the boundary instructions give the pins and load the register, and from then drive the balls except SAMPLE; with debug access open a private instruction has no effect the spec gives. A register write at an aligned address changes the named register: through a BAR of a port that exists its host registers, else a CSR; one of a sector that is not in Brew is sent over the mesh as the system partition's; an address with no register is a hole and is logged. -/
def Obligations.TestPortAndRegisterWrites : Prop :=
  ∀ s : State,
    exec .tapReset s = .next { s with tap := { s.tap with instr := .idcode } } ∧
    exec .jtagIdcode s = .next { s with tap := { s.tap with instr := .idcode }, readOut := leBytes 4 (stepping * 2 ^ 28 + 0x7440 * 2 ^ 12 + 0x4F1 * 2 + 1) } ∧
    (∀ bits, let t : State := { s with
        tap := { s.tap with instr := .bypass, bypass := bits.getLastD false }
        readOut := ((false :: bits).take bits.length).map fun x => if x then 1 else 0 }
      exec (.jtagBypass bits) s = .next t ∧
      (s.dbgAccess.tapOpen = false → exec (.jtagPrivate bits) s = .next t) ∧
      (s.dbgAccess.tapOpen = true → exec (.jtagPrivate bits) s = .refused .privateTestInstruction)) ∧
    (∀ pins load, let t (i : TapInstr) : State := { s with
        tap := { s.tap with instr := i, boundary := load }, readOut := pins.map fun x => if x then 1 else 0 }
      exec (.jtagSamplePreload pins load) s = .next (t .sample) ∧ exec (.jtagExtest pins load) s = .next (t .extest) ∧
      exec (.jtagExtestPulse pins load) s = .next (t .pulse) ∧ exec (.jtagExtestTrain pins load) s = .next (t .train) ∧
      (t .sample).tap.drives = false ∧ (t .extest).tap.drives = true ∧ (t .pulse).tap.drives = true ∧ (t .train).tap.drives = true) ∧
    (∀ (a : BitVec 48) (w : Word), a.toNat % 4 = 0 →
      (s.destOf a.toNat = none → exec (.registerWrite none a w) s = .next (s.holeAccess a.toNat)) ∧
      ((s.destOf a.toNat).isSome = true → areaOf a.toNat = .csr → s.csrAwake a.toNat = false →
        exec (.registerWrite none a w) s = .next (s.issue { part := 16, opc := 2, addr := a.toNat, src := baristaPort, len := 4
                                                            data := leBytes 4 w.toNat, purpose := .register })) ∧
      ((s.destOf a.toNat).isSome = true → areaOf a.toNat = .csr → s.csrAwake a.toNat = true → (s.csrPeek a.toNat).isSome = true →
        exec (.registerWrite none a w) s = .next (s.csrWrite a.toNat w 0xFFFFFFFF#32)) ∧
      ((s.destOf a.toNat).isSome = true → areaOf a.toNat = .csr → s.csrAwake a.toNat = true → s.csrPeek a.toNat = none →
        exec (.registerWrite none a w) s = .next (s.holeAccess a.toNat)) ∧
      (∀ n : Fin 4, s.portWidth n ≠ 0 → a.toNat < 0x80000 →
        exec (.registerWrite (some n) a w) s = .next (s.csrWrite (0x35000000 + 0x100000 * n.val + a.toNat) w 0xFFFFFFFF#32)))
end

