-- ==== Sys2Proof/Laws/Tables.lean ====
section
/-!
SUPPORT. Laws/Tables.lean: reading a sparse table after writing it, and the canonical form that writing keeps.
-/
namespace Sys2Proof.Machine

variable {α : Type}

/-! ## Reading after writing -/

@[simp] theorem tget_nil (d : α) (k : Nat) : tget d [] k = d := rfl

@[simp] theorem tget_tput_same (d : α) (t : Tab α) (k : Nat) (v : α) : tget d (tput t k v) k = v := by
  induction t with
  | nil => simp [tput, tget]
  | cons e r ih =>
    obtain ⟨j, w⟩ := e
    unfold tput
    split
    · simp [tget]
    · split
      · simp [tget]
      · have : j ≠ k := by omega
        simp [tget, this, ih]

theorem tget_tput_ne (d : α) (t : Tab α) {k i : Nat} (h : i ≠ k) (v : α) : tget d (tput t k v) i = tget d t i := by
  have hk : k ≠ i := fun e => h e.symm
  induction t with
  | nil => simp [tput, tget, hk]
  | cons e r ih =>
    obtain ⟨j, w⟩ := e
    unfold tput
    split
    · simp [tget, hk]
    · split
      · subst_vars; simp [tget, hk]
      · simp [tget, ih]

theorem tget_filter_same (d : α) (t : Tab α) (k : Nat) : tget d (t.filter fun e => e.1 != k) k = d := by
  induction t with
  | nil => rfl
  | cons e r ih =>
    obtain ⟨j, w⟩ := e
    by_cases hj : j = k <;> simp [hj, tget, ih]

theorem tget_filter_ne (d : α) (t : Tab α) {k i : Nat} (h : i ≠ k) :
    tget d (t.filter fun e => e.1 != k) i = tget d t i := by
  induction t with
  | nil => rfl
  | cons e r ih =>
    obtain ⟨j, w⟩ := e
    by_cases hj : j = k
    · have : k ≠ i := fun e => h e.symm
      simp [hj, tget, ih, this]
    · simp [hj, tget, ih]

variable [DecidableEq α]

@[simp] theorem tget_tset_same (d : α) (t : Tab α) (k : Nat) (v : α) : tget d (tset d t k v) k = v := by
  unfold tset
  split
  · next h => rw [tget_filter_same, h]
  · exact tget_tput_same d t k v

theorem tget_tset_ne (d : α) (t : Tab α) {k i : Nat} (h : i ≠ k) (v : α) : tget d (tset d t k v) i = tget d t i := by
  unfold tset
  split
  · exact tget_filter_ne d t h
  · exact tget_tput_ne d t h v

/-- Reading a table after one write. -/
theorem tget_tset (d : α) (t : Tab α) (k i : Nat) (v : α) :
    tget d (tset d t k v) i = if i = k then v else tget d t i := by
  by_cases h : i = k
  · subst h; simp
  · simp [h, tget_tset_ne d t h v]

/-! ## The canonical form -/

omit [DecidableEq α] in
theorem keysAbove_mono {lo lo' : Nat} (h : lo' ≤ lo) : ∀ {t : Tab α}, keysAbove lo t = true → keysAbove lo' t = true
  | [], _ => rfl
  | (k, _) :: r, ht => by
    simp only [keysAbove, Bool.and_eq_true, decide_eq_true_eq] at ht ⊢
    exact ⟨by omega, ht.2⟩

omit [DecidableEq α] in
theorem keysAbove_filter (p : Nat × α → Bool) : ∀ {lo : Nat} {t : Tab α}, keysAbove lo t = true → keysAbove lo (t.filter p) = true
  | _, [], _ => rfl
  | lo, (k, v) :: r, ht => by
    simp only [keysAbove, Bool.and_eq_true, decide_eq_true_eq] at ht
    have hr := keysAbove_filter p ht.2
    by_cases hp : p (k, v)
    · simp [hp, keysAbove, ht.1, hr]
    · simpa [hp] using keysAbove_mono (Nat.le_of_lt ht.1) hr

omit [DecidableEq α] in
theorem keysAbove_tput : ∀ {lo k : Nat} {t : Tab α} (v : α), lo < k → keysAbove lo t = true → keysAbove lo (tput t k v) = true
  | lo, k, [], v, h, _ => by simp [tput, keysAbove, h]
  | lo, k, (j, w) :: r, v, h, ht => by
    simp only [keysAbove, Bool.and_eq_true, decide_eq_true_eq] at ht
    unfold tput
    split
    · next hk => simp [keysAbove, h, hk, ht.2]
    · split
      · next hk => subst hk; simp [keysAbove, h, ht.2]
      · next h1 h2 => simp [keysAbove, ht.1, keysAbove_tput v (show j < k by omega) ht.2]

theorem canonical_nil (d : α) : canonical d [] = true := rfl

theorem canonical_cons (d : α) (k : Nat) (v : α) (r : Tab α) :
    canonical d ((k, v) :: r) = true ↔ keysAbove k r = true ∧ v ≠ d ∧ ∀ e ∈ r, e.2 ≠ d := by
  simp [canonical]

omit [DecidableEq α] in
theorem tput_ne (d : α) {v : α} (hv : v ≠ d) (k : Nat) : ∀ {t : Tab α}, (∀ e ∈ t, e.2 ≠ d) → ∀ e ∈ tput t k v, e.2 ≠ d
  | [], _ => by simp [tput, hv]
  | (j, w) :: r, h => by
    have hr : ∀ e ∈ r, e.2 ≠ d := fun e he => h e (by simp [he])
    have ih := tput_ne d hv k hr
    unfold tput
    split
    · simpa [hv] using h
    · split
      · simpa [hv] using hr
      · simpa [h (j, w) (by simp)] using ih

theorem canonical_tput (d : α) {v : α} (hv : v ≠ d) (k : Nat) : ∀ {t : Tab α}, canonical d t = true → canonical d (tput t k v) = true
  | [], _ => by simp [tput, canonical, keysAbove, hv]
  | (j, w) :: r, h => by
    rw [canonical_cons] at h
    obtain ⟨hk, hw, hr⟩ := h
    unfold tput
    split
    · next hlt => rw [canonical_cons]; exact ⟨by simp [keysAbove, hlt, hk], hv, by simpa [hw] using hr⟩
    · split
      · next he => subst he; rw [canonical_cons]; exact ⟨hk, hv, hr⟩
      · next h1 h2 => rw [canonical_cons]; exact ⟨keysAbove_tput v (by omega) hk, hw, tput_ne d hv k hr⟩

theorem canonical_filter (d : α) (p : Nat × α → Bool) : ∀ {t : Tab α}, canonical d t = true → canonical d (t.filter p) = true
  | [], _ => rfl
  | (k, v) :: r, h => by
    rw [canonical_cons] at h
    obtain ⟨hk, hv, hr⟩ := h
    by_cases hp : p (k, v)
    · rw [List.filter_cons_of_pos hp, canonical_cons]
      exact ⟨keysAbove_filter p hk, hv, fun e he => hr e ((List.mem_filter.mp he).1)⟩
    · rw [List.filter_cons_of_neg hp]
      refine canonical_filter d p (t := r) ?_
      cases r with
      | nil => rfl
      | cons e r =>
        obtain ⟨j, w⟩ := e
        simp only [keysAbove, Bool.and_eq_true, decide_eq_true_eq] at hk
        rw [canonical_cons]
        exact ⟨hk.2, hr (j, w) (by simp), fun e he => hr e (by simp [he])⟩

/-- Writing keeps the canonical form. -/
theorem canonical_tset (d : α) {t : Tab α} (k : Nat) (v : α) (h : canonical d t = true) : canonical d (tset d t k v) = true := by
  unfold tset
  split
  · exact canonical_filter d _ h
  · next hv => exact canonical_tput d hv k h

omit [DecidableEq α] in
theorem tget_below (d : α) : ∀ {lo : Nat} {t : Tab α}, keysAbove lo t = true → ∀ {i}, i ≤ lo → tget d t i = d
  | _, [], _, _, _ => rfl
  | lo, (k, v) :: r, h, i, hi => by
    simp only [keysAbove, Bool.and_eq_true, decide_eq_true_eq] at h
    have : k ≠ i := by omega
    simpa [tget, this] using tget_below d h.2 (show i ≤ k by omega)

/-- Two canonical tables that read alike are the same data. -/
theorem canonical_ext (d : α) : ∀ {t u : Tab α}, canonical d t = true → canonical d u = true →
    (∀ k, tget d t k = tget d u k) → t = u
  | [], [], _, _, _ => rfl
  | [], (j, w) :: r, _, hu, h => by
    rw [canonical_cons] at hu
    exact absurd (h j).symm (by simp [tget, hu.2.1])
  | (k, v) :: r, [], ht, _, h => by
    rw [canonical_cons] at ht
    exact absurd (h k) (by simp [tget, ht.2.1])
  | (k, v) :: r, (j, w) :: u, ht, hu, h => by
    rw [canonical_cons] at ht hu
    obtain ⟨hk, hv, hr⟩ := ht
    obtain ⟨hj, hw, hs⟩ := hu
    have hkj : k = j := by
      rcases Nat.lt_trichotomy k j with hlt | he | hgt
      · have := h k
        have hne : j ≠ k := by omega
        simp [tget, hne, tget_below d hj (Nat.le_of_lt hlt)] at this
        exact absurd this hv
      · exact he
      · have := h j
        have hne : k ≠ j := by omega
        simp [tget, hne, tget_below d hk (Nat.le_of_lt hgt)] at this
        exact absurd this.symm hw
    subst hkj
    have hvw : v = w := by simpa [tget] using h k
    subst hvw
    have tails : ∀ i, tget d r i = tget d u i := by
      intro i
      by_cases hi : k = i
      · subst hi; rw [tget_below d hk (Nat.le_refl _), tget_below d hj (Nat.le_refl _)]
      · simpa [tget, hi] using h i
    have cr : canonical d r = true := by
      cases r with
      | nil => rfl
      | cons e r =>
        simp only [keysAbove, Bool.and_eq_true] at hk
        rw [canonical_cons]
        exact ⟨hk.2, hr _ (by simp), fun e he => hr e (by simp [he])⟩
    have cu : canonical d u = true := by
      cases u with
      | nil => rfl
      | cons e u =>
        simp only [keysAbove, Bool.and_eq_true] at hj
        rw [canonical_cons]
        exact ⟨hj.2, hs _ (by simp), fun e he => hs e (by simp [he])⟩
    rw [canonical_ext d cr cu tails]

/-- In a canonical table the last write to a key is the one that counts. -/
theorem tset_tset (d : α) {t : Tab α} (k : Nat) (v w : α) (h : canonical d t = true) : tset d (tset d t k v) k w = tset d t k w := by
  refine canonical_ext d (canonical_tset d k w (canonical_tset d k v h)) (canonical_tset d k w h) fun i => ?_
  by_cases hi : i = k
  · subst hi; simp
  · simp [tget_tset_ne _ _ hi]

/-- A canonical table does not change when a key is written with what it holds. -/
theorem tset_tget (d : α) {t : Tab α} (k : Nat) (h : canonical d t = true) : tset d t k (tget d t k) = t := by
  refine canonical_ext d (canonical_tset d k _ h) h fun i => ?_
  by_cases hi : i = k
  · subst hi; simp
  · simp [tget_tset_ne _ _ hi]

end Sys2Proof.Machine
end

