-- ==== Sys2Proof/Laws/Commands.lean ====
section
/-!
SUPPORT. Laws/Commands.lean: what Barista does with an accepted command, with a started one that goes on, and with
one that authentication or an early check turns away.
-/
namespace Sys2Proof.Machine

/-- Nothing holds back a command that no idle one conflicts with. -/
theorem heldBack_of_free {s : State} {c : CmdRec} (h : (s.running.any fun x => x.wait.idle && x.cmd.conflicts c) = false) :
    s.heldBack c = false := by
  simp only [State.heldBack, List.any_eq_false, Bool.and_eq_true, not_and] at *
  exact fun x hx hi => h x hx hi.2

theorem begun_free {s : State} {r : Recip} {c : CmdRec} {rest : List CmdRec} {auth : Bool}
    (h : (s.running.any fun x => x.wait.idle && x.cmd.conflicts c) = false) :
    (s.begun r c rest auth).heldBack ((s.begun r c rest auth).taken c auth) = false :=
  heldBack_of_free h

/-- An accepted command ends with what its own work answers in the state in which it begins. -/
theorem runCommand_accepts {s : State} {r : Recip} {c : CmdRec} {rest : List CmdRec} {op : Nat} {auth : Bool}
    (h : s.Accepts r c rest op auth) (body : CmdRec → CmdIn → State → CmdOut) :
    s.runCommand r (· == op) body =
      (s.begun r c rest auth).finish ((s.begun r c rest auth).taken c auth)
        (body ((s.begun r c rest auth).taken c auth) {} (s.begun r c rest auth)) := by
  obtain ⟨⟨hb, ho, hk, hs, hv, hq, hr, hl, hn, hd, ha, hp, hh⟩, hfree⟩ := h
  have hq' : (s.running.filter fun x => x.cmd.stamp == r.val && (x.cmd.opcode == op) && x.wait != .payload && s.onCore x.cmd)
      = [] := hq
  have hf : ¬(4 ≤ c.flags ∨ c.num 3 1 ≠ 0) := by
    rintro (h1 | h1)
    · exact absurd hh.1 (by omega)
    · exact h1 hh.2
  unfold State.runCommand
  simp only [hq', hs, if_true, State.firstMoved, hb, ho, hv, hr, hl, hd, beq_self_eq_true, Bool.not_true]
  rw [if_neg (by simp only [Bool.false_eq_true, false_or, or_false]; exact hn)]
  unfold State.takeUp
  rw [ha]
  have ko : opcodeKnown c.opcode = true := by rw [ho]; exact hk
  refine (if_neg (show ¬((!opcodeKnown c.opcode) = true) by simp [ko])).trans ?_
  refine (if_neg (show ¬((!c.roleOk) = true) by simp [hp])).trans ?_
  refine (if_neg (show ¬(4 ≤ c.flags ∨ c.num 3 1 ≠ 0) from hf)).trans ?_
  refine (if_neg (by simp)).trans ?_
  exact congrArg _ (if_neg (ne_true_of_eq_false (begun_free (r := r) (rest := rest) (auth := auth) hfree)))

theorem firstMoved_cons {s : State} {x : Running} {more : List Running} (body : CmdRec → CmdIn → State → CmdOut)
    (hw : x.wait ≠ .turn) (hm : (body x.cmd { wait := some x.wait } (s.without x)).moved x.wait (s.without x) = true) :
    s.firstMoved body (x :: more) = some (x, body x.cmd { wait := some x.wait } (s.without x)) := by
  have hg : (s.without x).goOn body x = body x.cmd { wait := some x.wait } (s.without x) := if_neg hw
  exact (if_pos (by rw [← hg] at hm; exact hm)).trans (congrArg (fun o => some (x, o)) hg)

/-- A started command whose work moves it on is taken that far. -/
theorem runCommand_waited {s : State} {r : Recip} {x : Running} {op : Nat} {w : Wait} (h : s.WaitsFor r x op w) (hw : w ≠ .turn)
    (body : CmdRec → CmdIn → State → CmdOut)
    (hm : (body x.cmd { wait := some w } (s.without x)).moved w (s.without x) = true) :
    s.runCommand r (· == op) body = (s.without x).finish x.cmd (body x.cmd { wait := some w } (s.without x)) := by
  obtain ⟨⟨more, hq⟩, rfl⟩ := h
  unfold State.runCommand
  simp only [hq, firstMoved_cons (more := more) body hw hm]
  rfl

/-- It goes on from its progress. -/
theorem runCommand_resumes {s : State} {r : Recip} {x : Running} {op : Nat} {p : List Nat} (h : s.Resumes r x op p)
    (body : CmdRec → CmdIn → State → CmdOut)
    (hm : (body x.cmd { wait := some (.again p) } (s.without x)).moved (.again p) (s.without x) = true) :
    s.runCommand r (· == op) body = (s.without x).finish x.cmd (body x.cmd { wait := some (.again p) } (s.without x)) :=
  runCommand_waited h nofun body hm

/-- A check list none of whose checks fails lets the work go on. -/
theorem checked_none {cs : List (Bool × Nat)} (h : firstFail cs = none) (s : State) (k : State → CmdOut) : checked cs s k = k s := by
  simp [checked, h]

@[simp] theorem firstFail_nil : firstFail [] = none := rfl
@[simp] theorem firstFail_cons_false (st : Nat) (r : List (Bool × Nat)) : firstFail ((false, st) :: r) = firstFail r := rfl
@[simp] theorem firstFail_cons_true (st : Nat) (r : List (Bool × Nat)) : firstFail ((true, st) :: r) = some st := rfl

/-- The first of a list of checks decides. -/
theorem firstFail_none_iff (cs : List (Bool × Nat)) : firstFail cs = none ↔ ∀ x ∈ cs, x.1 = false := by
  induction cs with
  | nil => simp
  | cons x r ih =>
    obtain ⟨b, st⟩ := x
    cases b <;> simp [ih]

/-! ## The command as it is worked on -/

@[simp] theorem taken_bytes (s : State) (c : CmdRec) (a : Bool) : (s.taken c a).bytes = c.bytes := rfl
@[simp] theorem taken_stamp (s : State) (c : CmdRec) (a : Bool) : (s.taken c a).stamp = c.stamp := rfl
@[simp] theorem taken_qid (s : State) (c : CmdRec) (a : Bool) : (s.taken c a).qid = c.qid := rfl
@[simp] theorem taken_silent (s : State) (c : CmdRec) (a : Bool) : (s.taken c a).silent = c.silent := rfl
@[simp] theorem taken_num (s : State) (c : CmdRec) (a : Bool) (i n : Nat) : (s.taken c a).num i n = c.num i n := rfl
@[simp] theorem taken_sub (s : State) (c : CmdRec) (a : Bool) (i n : Nat) : (s.taken c a).sub i n = c.sub i n := rfl
@[simp] theorem taken_word (s : State) (c : CmdRec) (a : Bool) (i : Nat) : (s.taken c a).word i = c.word i := rfl
@[simp] theorem taken_desc (s : State) (c : CmdRec) (a : Bool) (i : Nat) : (s.taken c a).desc i = c.desc i := rfl
@[simp] theorem taken_stray (s : State) (c : CmdRec) (a : Bool) (u : List (Nat × Nat)) : (s.taken c a).stray u = c.stray u := rfl
@[simp] theorem taken_opcode (s : State) (c : CmdRec) (a : Bool) : (s.taken c a).opcode = c.opcode := rfl
@[simp] theorem taken_po (s : State) (c : CmdRec) (a : Bool) : (s.taken c a).po = c.po := rfl

/-! ## Input and output -/

@[simp] theorem tail_waits_nil {s : State} {r : Recip} {c : CmdRec} {rest : List CmdRec} {auth : Bool} {t : State} (w : Wait) :
    (s.begun r c rest auth).finish ((s.begun r c rest auth).taken c auth) (.wait w t) = s.waits r c rest auth w t := rfl

/-- Reading poison-free input from device memory. -/
theorem withInput_device {c : CmdRec} {i : CmdIn} {d : Desc} {n : Nat} {s : State} (k : List Byte → State → CmdOut)
    (hw : i.held = none) (hi : i.payload = none) (hd : d.space = 1) {m : Moved} (hm : m = s.readRange c.stamp d.addr n)
    (hs : m.status = stOk) (hp : m.poison = none) : withInput c i d n s k = k m.data m.s := by
  subst hm
  simp [withInput, hw, hi, hd, hs, hp]

/-- A read of device memory that fails ends the command with its status. -/
theorem withInput_failed {c : CmdRec} {i : CmdIn} {d : Desc} {n : Nat} {s : State} (k : List Byte → State → CmdOut)
    (hw : i.held = none) (hi : i.payload = none) (hd : d.space = 1) {m : Moved} (hm : m = s.readRange c.stamp d.addr n)
    (hs : m.status ≠ stOk) : withInput c i d n s k = .reply m.status [] m.s := by
  subst hm
  simp [withInput, hw, hi, hd, hs]

/-- One that meets poison ends it with POISONED_DATA. -/
theorem withInput_poison {c : CmdRec} {i : CmdIn} {d : Desc} {n : Nat} {s : State} (k : List Byte → State → CmdOut)
    (hw : i.held = none) (hi : i.payload = none) (hd : d.space = 1) {m : Moved} (hm : m = s.readRange c.stamp d.addr n)
    (hs : m.status = stOk) (hp : m.poison ≠ none) : withInput c i d n s k = .reply stPoison [] m.s := by
  subst hm
  have hp' := Option.isSome_iff_ne_none.mpr hp
  simp [withInput, hw, hi, hd, hs, hp']

/-- Input from host memory is waited for. -/
theorem withInput_host {c : CmdRec} {i : CmdIn} {d : Desc} {n : Nat} {s : State} (k : List Byte → State → CmdOut)
    (hw : i.held = none) (hi : i.payload = none) (hd : d.space = 0) : withInput c i d n s k = .host d.addr n s := by
  simp [withInput, hw, hi, hd]

/-- A command that waited for the security engine goes on with the payload it had read. -/
theorem withInput_held {c : CmdRec} {i : CmdIn} {d : Desc} {n : Nat} {s : State} {b : List Byte} (k : List Byte → State → CmdOut)
    (hw : i.held = some b) : withInput c i d n s k = k b s := by
  simp [withInput, hw]

/-- In a slot of its bank an operation of the security engine runs. -/
theorem whenSlot_now {bank : Nat} {b : List Byte} {s : State} (k : State → CmdOut) (h : s.secSlot = bank) :
    whenSlot bank b s k = k s := by
  simp [whenSlot, h]

/-- In another bank's slot it waits. -/
theorem whenSlot_later {bank : Nat} {b : List Byte} {s : State} (k : State → CmdOut) (h : s.secSlot ≠ bank) :
    whenSlot bank b s k = .wait (.engine b) s := by
  simp [whenSlot, h]

theorem whenRange_now {c : CmdRec} {a n : Nat} {w : Bool} {s : State} (k : State → CmdOut) (h : s.rangeAt c.stamp a n w ≠ 2) :
    whenRange c a n w s k = k s := by
  simp [whenRange, h]

theorem whenDesc_host {c : CmdRec} {d : Desc} {n : Nat} {w : Bool} {s : State} (k : State → CmdOut) (h : d.space ≠ 1) :
    whenDesc c d n w s k = k s := by
  simp [whenDesc, h]

theorem whenDesc_device {c : CmdRec} {d : Desc} {n : Nat} {w : Bool} {s : State} (k : State → CmdOut)
    (h : s.rangeAt c.stamp d.addr n w ≠ 2) : whenDesc c d n w s k = k s := by
  unfold whenDesc
  split
  · exact whenRange_now k h
  · rfl

/-- Output to host memory goes to the queue's port. -/
theorem output_host {s : State} {c : CmdRec} {d : Desc} {data : List Byte} (hl : d.len ≠ 0) (hd : data ≠ []) (hs : d.space = 0)
    (hc : c.silent = false) : s.output c d data = s.hostWritten c d data := by
  simp only [State.output, State.hostWritten, hl, hd, hs, hc, if_true, if_false, or_self, Bool.false_eq_true]

/-- Output goes where its descriptor says. -/
theorem output_written {s : State} {c : CmdRec} {d : Desc} {data : List Byte} (hl : d.len ≠ 0) : s.output c d data = s.written c d data := by
  by_cases hd : data = []
  · simp [State.output, State.written, hd]
  · simp only [State.output, State.written, State.hostWritten, hl, hd, if_false, or_self]

/-- No output is written for an empty descriptor. -/
theorem output_none {s : State} {c : CmdRec} {d : Desc} {data : List Byte} (hl : d.len = 0) : s.output c d data = (true, s) := by
  simp [State.output, hl]

end Sys2Proof.Machine
end

