-- ==== Sys2Proof/Laws/Memory.lean ====
section
/-!
SUPPORT. Laws/Memory.lean: every operation over the memories keeps their canonical form, and what the words and bytes
read as after a write.
-/
namespace Sys2Proof.Machine

theorem Memory.wf_iff (m : Memory) :
    m.wf = true ↔ canonical 0 m.cells = true ∧ canonical 0 m.syn = true ∧ canonical none m.lines = true := by
  simp [Memory.wf, Bool.and_eq_true, and_assoc]

theorem wf_reset : State.reset.mem.wf = true := by decide

/-! ## Bytes -/

@[simp] theorem Memory.setByte_syn (m : Memory) (a : Nat) (b : Byte) : (m.setByte a b).syn = m.syn := rfl
@[simp] theorem Memory.setByte_lines (m : Memory) (a : Nat) (b : Byte) : (m.setByte a b).lines = m.lines := rfl

theorem Memory.byte_setByte (m : Memory) (a x : Nat) (b : Byte) : (m.setByte a b).byte x = if x = a then b else m.byte x := by
  simp [Memory.setByte, Memory.byte, tget_tset]

theorem Memory.wf_setByte {m : Memory} (h : m.wf = true) (a : Nat) (b : Byte) : (m.setByte a b).wf = true := by
  rw [Memory.wf_iff] at h ⊢
  exact ⟨canonical_tset _ _ _ h.1, h.2⟩

theorem Memory.wf_setBytes : ∀ {m : Memory} (_ : m.wf = true) (a : Nat) (bs : List Byte), (m.setBytes a bs).wf = true
  | _, h, _, [] => h
  | _, h, a, b :: r => Memory.wf_setBytes (Memory.wf_setByte h a b) (a + 1) r

@[simp] theorem Memory.setBytes_syn : ∀ (bs : List Byte) (m : Memory) (a : Nat), (m.setBytes a bs).syn = m.syn
  | [], _, _ => rfl
  | b :: r, m, a => by simp [Memory.setBytes, Memory.setBytes_syn r]

@[simp] theorem Memory.setBytes_lines : ∀ (bs : List Byte) (m : Memory) (a : Nat), (m.setBytes a bs).lines = m.lines
  | [], _, _ => rfl
  | b :: r, m, a => by simp [Memory.setBytes, Memory.setBytes_lines r]

/-- Outside the bytes written, every byte is as it was. -/
theorem Memory.byte_setBytes_out : ∀ (bs : List Byte) (m : Memory) (a x : Nat), (x < a ∨ a + bs.length ≤ x) →
    (m.setBytes a bs).byte x = m.byte x
  | [], _, _, _, _ => rfl
  | b :: r, m, a, x, h => by
    simp only [List.length_cons] at h
    rw [Memory.setBytes, Memory.byte_setBytes_out r _ _ _ (by omega), Memory.byte_setByte, if_neg (by omega)]

/-- The bytes written read back. -/
theorem Memory.byte_setBytes_in : ∀ (bs : List Byte) (m : Memory) (a i : Nat) (h : i < bs.length),
    (m.setBytes a bs).byte (a + i) = bs[i]
  | b :: r, m, a, 0, _ => by
    rw [Memory.setBytes, Memory.byte_setBytes_out r _ _ _ (by omega), Memory.byte_setByte]; simp
  | b :: r, m, a, i + 1, h => by
    have : a + (i + 1) = (a + 1) + i := by omega
    rw [Memory.setBytes, this, Memory.byte_setBytes_in r _ (a + 1) i (by simpa using h)]; simp

/-! ## Words -/

theorem Memory.wf_write {m : Memory} (h : m.wf = true) (a : Nat) (d : Word) (p : Bool) : (m.write a d p).wf = true := by
  have h' := Memory.wf_setBytes h a (leBytes 4 d.toNat)
  rw [Memory.wf_iff] at h' ⊢
  exact ⟨h'.1, canonical_tset _ _ _ h'.2.1, h'.2.2⟩

@[simp] theorem Memory.write_lines (m : Memory) (a : Nat) (d : Word) (p : Bool) : (m.write a d p).lines = m.lines := by
  simp [Memory.write]

theorem Memory.byte_write_out (m : Memory) (a x : Nat) (d : Word) (p : Bool) (h : x < a ∨ a + 4 ≤ x) :
    (m.write a d p).byte x = m.byte x :=
  Memory.byte_setBytes_out _ _ _ _ (by simpa [leBytes] using h)

theorem Memory.synOf_write (m : Memory) (a x : Nat) (d : Word) (p : Bool) :
    (m.write a d p).synOf x = if x / 4 = a / 4 then (if p then poisonSyn else 0) else m.synOf x := by
  simp [Memory.write, Memory.synOf, tget_tset]

theorem Memory.wf_syn {m : Memory} (h : m.wf = true) (k : Nat) (v : BitVec 7) : ({ m with syn := tset 0 m.syn k v } : Memory).wf = true := by
  rw [Memory.wf_iff] at h ⊢
  exact ⟨h.1, canonical_tset _ _ _ h.2.1, h.2.2⟩

theorem Memory.wf_line {m : Memory} (h : m.wf = true) (k : Nat) (v : Option DramLine) :
    ({ m with lines := tset none m.lines k v } : Memory).wf = true := by
  rw [Memory.wf_iff] at h ⊢
  exact ⟨h.1, h.2.1, canonical_tset _ _ _ h.2.2⟩

theorem wf_foldl {β : Type} (f : Memory → β → Memory) (hf : ∀ m b, m.wf = true → (f m b).wf = true) :
    ∀ (l : List β) {m : Memory}, m.wf = true → (l.foldl f m).wf = true
  | [], _, h => h
  | b :: r, _, h => wf_foldl f hf r (hf _ b h)

theorem Memory.wf_flip {m : Memory} (h : m.wf = true) (w b : Nat) : (m.flip w b).wf = true := by
  unfold Memory.flip
  split
  · exact Memory.wf_syn (Memory.wf_setByte h _ _) _ _
  · exact Memory.wf_syn h _ _

theorem Memory.wf_spareRow {m : Memory} (h : m.wf = true) (a : Nat) : (m.spareRow a).wf = true := by
  refine wf_foldl _ (fun m i hm => ?_) _ h
  dsimp only
  split <;> first | exact hm | exact Memory.wf_write hm _ _ _

theorem Memory.wf_clearTile {m : Memory} (h : m.wf = true) (p : Nat) : (m.clearTile p).wf = true := by
  rw [Memory.wf_iff] at h ⊢
  exact ⟨canonical_filter _ _ (canonical_filter _ _ (canonical_filter _ _ h.1)),
    canonical_filter _ _ (canonical_filter _ _ (canonical_filter _ _ h.2.1)), h.2.2⟩

/-- A line set by a controller keeps the form of memory. -/
theorem State.wf_setLine {s : State} (h : s.mem.wf = true) (a : Nat) (ln : DramLine) : (s.setLine a ln).mem.wf = true :=
  Memory.wf_line h _ _

/-- A metadata line written whole keeps the form of memory. -/
theorem State.wf_metaStore {s : State} (h : s.mem.wf = true) (c x : Nat) (d : List Byte) : (s.metaStore c x d).mem.wf = true :=
  State.wf_setLine h _ _

theorem canonical_foldl_tset (g : Nat → Nat) : ∀ (l : List Nat) {t : Tab (BitVec 7)}, canonical 0 t = true →
    canonical 0 (l.foldl (fun t i => tset 0 t (g i) 0) t) = true
  | [], _, h => h
  | i :: r, _, h => canonical_foldl_tset g r (canonical_tset 0 (g i) 0 h)

theorem Memory.wf_syns {m : Memory} (h : m.wf = true) (g : Nat → Nat) (l : List Nat) :
    ({ m with syn := l.foldl (fun t i => tset 0 t (g i) 0) m.syn } : Memory).wf = true := by
  rw [Memory.wf_iff] at h ⊢
  exact ⟨h.1, canonical_foldl_tset g l h.2.1, h.2.2⟩

theorem Memory.wf_putLog {m : Memory} (h : m.wf = true) (e : LogEntry) : (m.putLog e).wf = true :=
  Memory.wf_syns (Memory.wf_setBytes h (0x20078000 + 32 * (e.index % 1024)) e.bytes)
    (fun i => (0x20078000 + 32 * (e.index % 1024)) / 4 + i) (List.range 8)

end Sys2Proof.Machine
end

