-- ==== Sys2Proof/Laws/State.lean ====
section
/-!
SUPPORT. Laws/State.lean: what each update of the state leaves and sets, field by field and reader by reader, so that no
proof unfolds a record update.
-/
namespace Sys2Proof.Machine

/-- Reading another key, whatever value an absent key of the write stands for. -/
theorem tget_tset_ne' {α : Type} [DecidableEq α] (d d' : α) (t : Tab α) {k i : Nat} (h : i ≠ k) (v : α) :
    tget d' (tset d t k v) i = tget d' t i := by
  unfold tset
  split
  · exact tget_filter_ne d' t h
  · exact tget_tput_ne d' t h v

/-! ## setTm -/

@[simp] theorem State.setTm_pending (s : State) (p : Nat) (x : TileMapEntry) : (s.setTm p x).pending = s.pending := rfl
@[simp] theorem State.setTm_win (s : State) (p : Nat) (x : TileMapEntry) : (s.setTm p x).win = s.win := rfl
@[simp] theorem State.setTm_links (s : State) (p : Nat) (x : TileMapEntry) : (s.setTm p x).links = s.links := rfl
@[simp] theorem State.setTm_tiles (s : State) (p : Nat) (x : TileMapEntry) : (s.setTm p x).tiles = s.tiles := rfl
@[simp] theorem State.setTm_tasks (s : State) (p : Nat) (x : TileMapEntry) : (s.setTm p x).tasks = s.tasks := rfl
@[simp] theorem State.setTm_sectors (s : State) (p : Nat) (x : TileMapEntry) : (s.setTm p x).sectors = s.sectors := rfl
@[simp] theorem State.setTm_grants (s : State) (p : Nat) (x : TileMapEntry) : (s.setTm p x).grants = s.grants := rfl
@[simp] theorem State.setTm_dones (s : State) (p : Nat) (x : TileMapEntry) : (s.setTm p x).dones = s.dones := rfl
@[simp] theorem State.setTm_getWorks (s : State) (p : Nat) (x : TileMapEntry) : (s.setTm p x).getWorks = s.getWorks := rfl
@[simp] theorem State.setTm_notifies (s : State) (p : Nat) (x : TileMapEntry) : (s.setTm p x).notifies = s.notifies := rfl
@[simp] theorem State.setTm_mem (s : State) (p : Nat) (x : TileMapEntry) : (s.setTm p x).mem = s.mem := rfl
@[simp] theorem State.setTm_mesh (s : State) (p : Nat) (x : TileMapEntry) : (s.setTm p x).mesh = s.mesh := rfl
@[simp] theorem State.setTm_events (s : State) (p : Nat) (x : TileMapEntry) : (s.setTm p x).events = s.events := rfl
@[simp] theorem State.setTm_queues (s : State) (p : Nat) (x : TileMapEntry) : (s.setTm p x).queues = s.queues := rfl
@[simp] theorem State.setTm_ports (s : State) (p : Nat) (x : TileMapEntry) : (s.setTm p x).ports = s.ports := rfl
@[simp] theorem State.setTm_hostWrites (s : State) (p : Nat) (x : TileMapEntry) : (s.setTm p x).hostWrites = s.hostWrites := rfl
@[simp] theorem State.setTm_starts (s : State) (p : Nat) (x : TileMapEntry) : (s.setTm p x).starts = s.starts := rfl
@[simp] theorem State.setTm_buffers (s : State) (p : Nat) (x : TileMapEntry) : (s.setTm p x).buffers = s.buffers := rfl
@[simp] theorem State.setTm_running (s : State) (p : Nat) (x : TileMapEntry) : (s.setTm p x).running = s.running := rfl
@[simp] theorem State.setTm_flights (s : State) (p : Nat) (x : TileMapEntry) : (s.setTm p x).flights = s.flights := rfl
@[simp] theorem State.setTm_faults (s : State) (p : Nat) (x : TileMapEntry) : (s.setTm p x).faults = s.faults := rfl
@[simp] theorem State.setTm_recovery (s : State) (p : Nat) (x : TileMapEntry) : (s.setTm p x).recovery = s.recovery := rfl
@[simp] theorem State.setTm_log (s : State) (p : Nat) (x : TileMapEntry) : (s.setTm p x).log = s.log := rfl
@[simp] theorem State.setTm_logNext (s : State) (p : Nat) (x : TileMapEntry) : (s.setTm p x).logNext = s.logNext := rfl
@[simp] theorem State.setTm_usPhase (s : State) (p : Nat) (x : TileMapEntry) : (s.setTm p x).usPhase = s.usPhase := rfl
@[simp] theorem State.setTm_time (s : State) (p : Nat) (x : TileMapEntry) : (s.setTm p x).time = s.time := rfl
@[simp] theorem State.setTm_cells (s : State) (p : Nat) (x : TileMapEntry) : (s.setTm p x).cells = s.cells := rfl
@[simp] theorem State.setTm_lanes (s : State) (p : Nat) (x : TileMapEntry) : (s.setTm p x).lanes = s.lanes := rfl
@[simp] theorem State.setTm_partners (s : State) (p : Nat) (x : TileMapEntry) : (s.setTm p x).partners = s.partners := rfl
@[simp] theorem State.setTm_rules (s : State) (p : Nat) (x : TileMapEntry) : (s.setTm p x).rules = s.rules := rfl
@[simp] theorem State.setTm_streams (s : State) (p : Nat) (x : TileMapEntry) : (s.setTm p x).streams = s.streams := rfl
@[simp] theorem State.setTm_asm (s : State) (p : Nat) (x : TileMapEntry) : (s.setTm p x).asm = s.asm := rfl
@[simp] theorem State.setTm_alloc (s : State) (p : Nat) (x : TileMapEntry) : (s.setTm p x).alloc = s.alloc := rfl
@[simp] theorem State.setTm_holdoff (s : State) (p : Nat) (x : TileMapEntry) : (s.setTm p x).holdoff = s.holdoff := rfl
@[simp] theorem State.setTm_parts (s : State) (p : Nat) (x : TileMapEntry) : (s.setTm p x).parts = s.parts := rfl
@[simp] theorem State.setTm_roles (s : State) (p : Nat) (x : TileMapEntry) : (s.setTm p x).roles = s.roles := rfl
@[simp] theorem State.setTm_slices (s : State) (p : Nat) (x : TileMapEntry) : (s.setTm p x).slices = s.slices := rfl
@[simp] theorem State.setTm_sliceNow (s : State) (p : Nat) (x : TileMapEntry) : (s.setTm p x).sliceNow = s.sliceNow := rfl
@[simp] theorem State.setTm_secSlot (s : State) (p : Nat) (x : TileMapEntry) : (s.setTm p x).secSlot = s.secSlot := rfl
@[simp] theorem State.setTm_hostReads (s : State) (p : Nat) (x : TileMapEntry) : (s.setTm p x).hostReads = s.hostReads := rfl
@[simp] theorem State.setTm_logRead (s : State) (p : Nat) (x : TileMapEntry) : (s.setTm p x).logRead = s.logRead := rfl
@[simp] theorem State.setTm_perc (s : State) (p : Nat) (x : TileMapEntry) : (s.setTm p x).perc = s.perc := rfl
@[simp] theorem State.setTm_cupEn (s : State) (p : Nat) (x : TileMapEntry) : (s.setTm p x).cupEn = s.cupEn := rfl
@[simp] theorem State.setTm_cupPeriod (s : State) (p : Nat) (x : TileMapEntry) : (s.setTm p x).cupPeriod = s.cupPeriod := rfl
@[simp] theorem State.setTm_power (s : State) (p : Nat) (x : TileMapEntry) : (s.setTm p x).power = s.power := rfl
@[simp] theorem State.setTm_boot (s : State) (p : Nat) (x : TileMapEntry) : (s.setTm p x).boot = s.boot := rfl
@[simp] theorem State.setTm_fuses (s : State) (p : Nat) (x : TileMapEntry) : (s.setTm p x).fuses = s.fuses := rfl
@[simp] theorem State.setTm_shadow (s : State) (p : Nat) (x : TileMapEntry) : (s.setTm p x).shadow = s.shadow := rfl
@[simp] theorem State.setTm_flash (s : State) (p : Nat) (x : TileMapEntry) : (s.setTm p x).flash = s.flash := rfl
@[simp] theorem State.setTm_smbAddr (s : State) (p : Nat) (x : TileMapEntry) : (s.setTm p x).smbAddr = s.smbAddr := rfl
@[simp] theorem State.setTm_tap (s : State) (p : Nat) (x : TileMapEntry) : (s.setTm p x).tap = s.tap := rfl
@[simp] theorem State.setTm_dbgAccess (s : State) (p : Nat) (x : TileMapEntry) : (s.setTm p x).dbgAccess = s.dbgAccess := rfl
@[simp] theorem State.setTm_readOut (s : State) (p : Nat) (x : TileMapEntry) : (s.setTm p x).readOut = s.readOut := rfl
@[simp] theorem State.setTm_drawn (s : State) (p : Nat) (x : TileMapEntry) : (s.setTm p x).drawn = s.drawn := rfl
@[simp] theorem State.setTm_tile (s : State) (p : Nat) (x : TileMapEntry) (i : Nat) : (s.setTm p x).tile i = s.tile i := rfl
@[simp] theorem State.setTm_link (s : State) (p : Nat) (x : TileMapEntry) (i : Nat) : (s.setTm p x).link i = s.link i := rfl
@[simp] theorem State.setTm_task (s : State) (p : Nat) (x : TileMapEntry) (i : Nat) : (s.setTm p x).task i = s.task i := rfl
@[simp] theorem State.setTm_sector (s : State) (p : Nat) (x : TileMapEntry) (i : Nat) : (s.setTm p x).sector i = s.sector i := rfl
@[simp] theorem State.setTm_evb (s : State) (p : Nat) (x : TileMapEntry) (i : Nat) : (s.setTm p x).evb i = s.evb i := rfl
@[simp] theorem State.setTm_queue (s : State) (p : Nat) (x : TileMapEntry) (i : Nat) : (s.setTm p x).queue i = s.queue i := rfl
@[simp] theorem State.setTm_role (s : State) (p : Nat) (x : TileMapEntry) (i : Nat) : (s.setTm p x).role i = s.role i := rfl
@[simp] theorem State.setTm_part (s : State) (p : Nat) (x : TileMapEntry) (i : Nat) : (s.setTm p x).part i = s.part i := rfl
@[simp] theorem State.setTm_port (s : State) (p : Nat) (x : TileMapEntry) (i : Nat) : (s.setTm p x).port i = s.port i := rfl
@[simp] theorem State.setTm_inFlight (s : State) (p : Nat) (x : TileMapEntry) (i : Nat) : (s.setTm p x).inFlight i = s.inFlight i := rfl
@[simp] theorem State.setTm_buffer (s : State) (p : Nat) (x : TileMapEntry) (i : Nat) : (s.setTm p x).buffer i = s.buffer i := rfl
@[simp] theorem State.setTm_lane (s : State) (p : Nat) (x : TileMapEntry) (i : Nat) : (s.setTm p x).lane i = s.lane i := rfl
@[simp] theorem State.setTm_stream (s : State) (p : Nat) (x : TileMapEntry) (i : Nat) : (s.setTm p x).stream i = s.stream i := rfl
@[simp] theorem State.setTm_tm_same (s : State) (p : Nat) (x : TileMapEntry) : (s.setTm p x).tm p = x :=
  tget_tset_same (α := TileMapEntry) _ _ _ _
theorem State.setTm_tm (s : State) (p : Nat) (x : TileMapEntry) (i : Nat) : (s.setTm p x).tm i = if i = p then x else s.tm i := by
  by_cases h : i = p
  · rw [h, if_pos rfl]; exact State.setTm_tm_same s p x
  · rw [if_neg h]; exact tget_tset_ne' _ _ _ h _

/-! ## setTile -/

@[simp] theorem State.setTile_pending (s : State) (p : Nat) (x : Tile) : (s.setTile p x).pending = s.pending := rfl
@[simp] theorem State.setTile_tileMap (s : State) (p : Nat) (x : Tile) : (s.setTile p x).tileMap = s.tileMap := rfl
@[simp] theorem State.setTile_win (s : State) (p : Nat) (x : Tile) : (s.setTile p x).win = s.win := rfl
@[simp] theorem State.setTile_links (s : State) (p : Nat) (x : Tile) : (s.setTile p x).links = s.links := rfl
@[simp] theorem State.setTile_tasks (s : State) (p : Nat) (x : Tile) : (s.setTile p x).tasks = s.tasks := rfl
@[simp] theorem State.setTile_sectors (s : State) (p : Nat) (x : Tile) : (s.setTile p x).sectors = s.sectors := rfl
@[simp] theorem State.setTile_grants (s : State) (p : Nat) (x : Tile) : (s.setTile p x).grants = s.grants := rfl
@[simp] theorem State.setTile_dones (s : State) (p : Nat) (x : Tile) : (s.setTile p x).dones = s.dones := rfl
@[simp] theorem State.setTile_getWorks (s : State) (p : Nat) (x : Tile) : (s.setTile p x).getWorks = s.getWorks := rfl
@[simp] theorem State.setTile_notifies (s : State) (p : Nat) (x : Tile) : (s.setTile p x).notifies = s.notifies := rfl
@[simp] theorem State.setTile_mem (s : State) (p : Nat) (x : Tile) : (s.setTile p x).mem = s.mem := rfl
@[simp] theorem State.setTile_mesh (s : State) (p : Nat) (x : Tile) : (s.setTile p x).mesh = s.mesh := rfl
@[simp] theorem State.setTile_events (s : State) (p : Nat) (x : Tile) : (s.setTile p x).events = s.events := rfl
@[simp] theorem State.setTile_queues (s : State) (p : Nat) (x : Tile) : (s.setTile p x).queues = s.queues := rfl
@[simp] theorem State.setTile_ports (s : State) (p : Nat) (x : Tile) : (s.setTile p x).ports = s.ports := rfl
@[simp] theorem State.setTile_hostWrites (s : State) (p : Nat) (x : Tile) : (s.setTile p x).hostWrites = s.hostWrites := rfl
@[simp] theorem State.setTile_starts (s : State) (p : Nat) (x : Tile) : (s.setTile p x).starts = s.starts := rfl
@[simp] theorem State.setTile_buffers (s : State) (p : Nat) (x : Tile) : (s.setTile p x).buffers = s.buffers := rfl
@[simp] theorem State.setTile_running (s : State) (p : Nat) (x : Tile) : (s.setTile p x).running = s.running := rfl
@[simp] theorem State.setTile_flights (s : State) (p : Nat) (x : Tile) : (s.setTile p x).flights = s.flights := rfl
@[simp] theorem State.setTile_faults (s : State) (p : Nat) (x : Tile) : (s.setTile p x).faults = s.faults := rfl
@[simp] theorem State.setTile_recovery (s : State) (p : Nat) (x : Tile) : (s.setTile p x).recovery = s.recovery := rfl
@[simp] theorem State.setTile_log (s : State) (p : Nat) (x : Tile) : (s.setTile p x).log = s.log := rfl
@[simp] theorem State.setTile_logNext (s : State) (p : Nat) (x : Tile) : (s.setTile p x).logNext = s.logNext := rfl
@[simp] theorem State.setTile_usPhase (s : State) (p : Nat) (x : Tile) : (s.setTile p x).usPhase = s.usPhase := rfl
@[simp] theorem State.setTile_time (s : State) (p : Nat) (x : Tile) : (s.setTile p x).time = s.time := rfl
@[simp] theorem State.setTile_cells (s : State) (p : Nat) (x : Tile) : (s.setTile p x).cells = s.cells := rfl
@[simp] theorem State.setTile_lanes (s : State) (p : Nat) (x : Tile) : (s.setTile p x).lanes = s.lanes := rfl
@[simp] theorem State.setTile_partners (s : State) (p : Nat) (x : Tile) : (s.setTile p x).partners = s.partners := rfl
@[simp] theorem State.setTile_rules (s : State) (p : Nat) (x : Tile) : (s.setTile p x).rules = s.rules := rfl
@[simp] theorem State.setTile_streams (s : State) (p : Nat) (x : Tile) : (s.setTile p x).streams = s.streams := rfl
@[simp] theorem State.setTile_asm (s : State) (p : Nat) (x : Tile) : (s.setTile p x).asm = s.asm := rfl
@[simp] theorem State.setTile_alloc (s : State) (p : Nat) (x : Tile) : (s.setTile p x).alloc = s.alloc := rfl
@[simp] theorem State.setTile_holdoff (s : State) (p : Nat) (x : Tile) : (s.setTile p x).holdoff = s.holdoff := rfl
@[simp] theorem State.setTile_parts (s : State) (p : Nat) (x : Tile) : (s.setTile p x).parts = s.parts := rfl
@[simp] theorem State.setTile_roles (s : State) (p : Nat) (x : Tile) : (s.setTile p x).roles = s.roles := rfl
@[simp] theorem State.setTile_slices (s : State) (p : Nat) (x : Tile) : (s.setTile p x).slices = s.slices := rfl
@[simp] theorem State.setTile_sliceNow (s : State) (p : Nat) (x : Tile) : (s.setTile p x).sliceNow = s.sliceNow := rfl
@[simp] theorem State.setTile_secSlot (s : State) (p : Nat) (x : Tile) : (s.setTile p x).secSlot = s.secSlot := rfl
@[simp] theorem State.setTile_hostReads (s : State) (p : Nat) (x : Tile) : (s.setTile p x).hostReads = s.hostReads := rfl
@[simp] theorem State.setTile_logRead (s : State) (p : Nat) (x : Tile) : (s.setTile p x).logRead = s.logRead := rfl
@[simp] theorem State.setTile_perc (s : State) (p : Nat) (x : Tile) : (s.setTile p x).perc = s.perc := rfl
@[simp] theorem State.setTile_cupEn (s : State) (p : Nat) (x : Tile) : (s.setTile p x).cupEn = s.cupEn := rfl
@[simp] theorem State.setTile_cupPeriod (s : State) (p : Nat) (x : Tile) : (s.setTile p x).cupPeriod = s.cupPeriod := rfl
@[simp] theorem State.setTile_power (s : State) (p : Nat) (x : Tile) : (s.setTile p x).power = s.power := rfl
@[simp] theorem State.setTile_boot (s : State) (p : Nat) (x : Tile) : (s.setTile p x).boot = s.boot := rfl
@[simp] theorem State.setTile_fuses (s : State) (p : Nat) (x : Tile) : (s.setTile p x).fuses = s.fuses := rfl
@[simp] theorem State.setTile_shadow (s : State) (p : Nat) (x : Tile) : (s.setTile p x).shadow = s.shadow := rfl
@[simp] theorem State.setTile_flash (s : State) (p : Nat) (x : Tile) : (s.setTile p x).flash = s.flash := rfl
@[simp] theorem State.setTile_smbAddr (s : State) (p : Nat) (x : Tile) : (s.setTile p x).smbAddr = s.smbAddr := rfl
@[simp] theorem State.setTile_tap (s : State) (p : Nat) (x : Tile) : (s.setTile p x).tap = s.tap := rfl
@[simp] theorem State.setTile_dbgAccess (s : State) (p : Nat) (x : Tile) : (s.setTile p x).dbgAccess = s.dbgAccess := rfl
@[simp] theorem State.setTile_readOut (s : State) (p : Nat) (x : Tile) : (s.setTile p x).readOut = s.readOut := rfl
@[simp] theorem State.setTile_drawn (s : State) (p : Nat) (x : Tile) : (s.setTile p x).drawn = s.drawn := rfl
@[simp] theorem State.setTile_tm (s : State) (p : Nat) (x : Tile) (i : Nat) : (s.setTile p x).tm i = s.tm i := rfl
@[simp] theorem State.setTile_link (s : State) (p : Nat) (x : Tile) (i : Nat) : (s.setTile p x).link i = s.link i := rfl
@[simp] theorem State.setTile_task (s : State) (p : Nat) (x : Tile) (i : Nat) : (s.setTile p x).task i = s.task i := rfl
@[simp] theorem State.setTile_sector (s : State) (p : Nat) (x : Tile) (i : Nat) : (s.setTile p x).sector i = s.sector i := rfl
@[simp] theorem State.setTile_evb (s : State) (p : Nat) (x : Tile) (i : Nat) : (s.setTile p x).evb i = s.evb i := rfl
@[simp] theorem State.setTile_queue (s : State) (p : Nat) (x : Tile) (i : Nat) : (s.setTile p x).queue i = s.queue i := rfl
@[simp] theorem State.setTile_role (s : State) (p : Nat) (x : Tile) (i : Nat) : (s.setTile p x).role i = s.role i := rfl
@[simp] theorem State.setTile_part (s : State) (p : Nat) (x : Tile) (i : Nat) : (s.setTile p x).part i = s.part i := rfl
@[simp] theorem State.setTile_port (s : State) (p : Nat) (x : Tile) (i : Nat) : (s.setTile p x).port i = s.port i := rfl
@[simp] theorem State.setTile_inFlight (s : State) (p : Nat) (x : Tile) (i : Nat) : (s.setTile p x).inFlight i = s.inFlight i := rfl
@[simp] theorem State.setTile_buffer (s : State) (p : Nat) (x : Tile) (i : Nat) : (s.setTile p x).buffer i = s.buffer i := rfl
@[simp] theorem State.setTile_lane (s : State) (p : Nat) (x : Tile) (i : Nat) : (s.setTile p x).lane i = s.lane i := rfl
@[simp] theorem State.setTile_stream (s : State) (p : Nat) (x : Tile) (i : Nat) : (s.setTile p x).stream i = s.stream i := rfl
@[simp] theorem State.setTile_tile_same (s : State) (p : Nat) (x : Tile) : (s.setTile p x).tile p = x := by
  unfold State.tile State.setTile; exact tget_tset_same _ _ _ _
theorem State.setTile_tile (s : State) (p : Nat) (x : Tile) (i : Nat) : (s.setTile p x).tile i = if i = p then x else s.tile i := by
  unfold State.tile State.setTile; exact tget_tset _ _ _ _ _

/-! ## updTile -/

@[simp] theorem State.updTile_pending (s : State) (p : Nat) (f : Tile → Tile) : (s.updTile p f).pending = s.pending := rfl
@[simp] theorem State.updTile_tileMap (s : State) (p : Nat) (f : Tile → Tile) : (s.updTile p f).tileMap = s.tileMap := rfl
@[simp] theorem State.updTile_win (s : State) (p : Nat) (f : Tile → Tile) : (s.updTile p f).win = s.win := rfl
@[simp] theorem State.updTile_links (s : State) (p : Nat) (f : Tile → Tile) : (s.updTile p f).links = s.links := rfl
@[simp] theorem State.updTile_tasks (s : State) (p : Nat) (f : Tile → Tile) : (s.updTile p f).tasks = s.tasks := rfl
@[simp] theorem State.updTile_sectors (s : State) (p : Nat) (f : Tile → Tile) : (s.updTile p f).sectors = s.sectors := rfl
@[simp] theorem State.updTile_grants (s : State) (p : Nat) (f : Tile → Tile) : (s.updTile p f).grants = s.grants := rfl
@[simp] theorem State.updTile_dones (s : State) (p : Nat) (f : Tile → Tile) : (s.updTile p f).dones = s.dones := rfl
@[simp] theorem State.updTile_getWorks (s : State) (p : Nat) (f : Tile → Tile) : (s.updTile p f).getWorks = s.getWorks := rfl
@[simp] theorem State.updTile_notifies (s : State) (p : Nat) (f : Tile → Tile) : (s.updTile p f).notifies = s.notifies := rfl
@[simp] theorem State.updTile_mem (s : State) (p : Nat) (f : Tile → Tile) : (s.updTile p f).mem = s.mem := rfl
@[simp] theorem State.updTile_mesh (s : State) (p : Nat) (f : Tile → Tile) : (s.updTile p f).mesh = s.mesh := rfl
@[simp] theorem State.updTile_events (s : State) (p : Nat) (f : Tile → Tile) : (s.updTile p f).events = s.events := rfl
@[simp] theorem State.updTile_queues (s : State) (p : Nat) (f : Tile → Tile) : (s.updTile p f).queues = s.queues := rfl
@[simp] theorem State.updTile_ports (s : State) (p : Nat) (f : Tile → Tile) : (s.updTile p f).ports = s.ports := rfl
@[simp] theorem State.updTile_hostWrites (s : State) (p : Nat) (f : Tile → Tile) : (s.updTile p f).hostWrites = s.hostWrites := rfl
@[simp] theorem State.updTile_starts (s : State) (p : Nat) (f : Tile → Tile) : (s.updTile p f).starts = s.starts := rfl
@[simp] theorem State.updTile_buffers (s : State) (p : Nat) (f : Tile → Tile) : (s.updTile p f).buffers = s.buffers := rfl
@[simp] theorem State.updTile_running (s : State) (p : Nat) (f : Tile → Tile) : (s.updTile p f).running = s.running := rfl
@[simp] theorem State.updTile_flights (s : State) (p : Nat) (f : Tile → Tile) : (s.updTile p f).flights = s.flights := rfl
@[simp] theorem State.updTile_faults (s : State) (p : Nat) (f : Tile → Tile) : (s.updTile p f).faults = s.faults := rfl
@[simp] theorem State.updTile_recovery (s : State) (p : Nat) (f : Tile → Tile) : (s.updTile p f).recovery = s.recovery := rfl
@[simp] theorem State.updTile_log (s : State) (p : Nat) (f : Tile → Tile) : (s.updTile p f).log = s.log := rfl
@[simp] theorem State.updTile_logNext (s : State) (p : Nat) (f : Tile → Tile) : (s.updTile p f).logNext = s.logNext := rfl
@[simp] theorem State.updTile_usPhase (s : State) (p : Nat) (f : Tile → Tile) : (s.updTile p f).usPhase = s.usPhase := rfl
@[simp] theorem State.updTile_time (s : State) (p : Nat) (f : Tile → Tile) : (s.updTile p f).time = s.time := rfl
@[simp] theorem State.updTile_cells (s : State) (p : Nat) (f : Tile → Tile) : (s.updTile p f).cells = s.cells := rfl
@[simp] theorem State.updTile_lanes (s : State) (p : Nat) (f : Tile → Tile) : (s.updTile p f).lanes = s.lanes := rfl
@[simp] theorem State.updTile_partners (s : State) (p : Nat) (f : Tile → Tile) : (s.updTile p f).partners = s.partners := rfl
@[simp] theorem State.updTile_rules (s : State) (p : Nat) (f : Tile → Tile) : (s.updTile p f).rules = s.rules := rfl
@[simp] theorem State.updTile_streams (s : State) (p : Nat) (f : Tile → Tile) : (s.updTile p f).streams = s.streams := rfl
@[simp] theorem State.updTile_asm (s : State) (p : Nat) (f : Tile → Tile) : (s.updTile p f).asm = s.asm := rfl
@[simp] theorem State.updTile_alloc (s : State) (p : Nat) (f : Tile → Tile) : (s.updTile p f).alloc = s.alloc := rfl
@[simp] theorem State.updTile_holdoff (s : State) (p : Nat) (f : Tile → Tile) : (s.updTile p f).holdoff = s.holdoff := rfl
@[simp] theorem State.updTile_parts (s : State) (p : Nat) (f : Tile → Tile) : (s.updTile p f).parts = s.parts := rfl
@[simp] theorem State.updTile_roles (s : State) (p : Nat) (f : Tile → Tile) : (s.updTile p f).roles = s.roles := rfl
@[simp] theorem State.updTile_slices (s : State) (p : Nat) (f : Tile → Tile) : (s.updTile p f).slices = s.slices := rfl
@[simp] theorem State.updTile_sliceNow (s : State) (p : Nat) (f : Tile → Tile) : (s.updTile p f).sliceNow = s.sliceNow := rfl
@[simp] theorem State.updTile_secSlot (s : State) (p : Nat) (f : Tile → Tile) : (s.updTile p f).secSlot = s.secSlot := rfl
@[simp] theorem State.updTile_hostReads (s : State) (p : Nat) (f : Tile → Tile) : (s.updTile p f).hostReads = s.hostReads := rfl
@[simp] theorem State.updTile_logRead (s : State) (p : Nat) (f : Tile → Tile) : (s.updTile p f).logRead = s.logRead := rfl
@[simp] theorem State.updTile_perc (s : State) (p : Nat) (f : Tile → Tile) : (s.updTile p f).perc = s.perc := rfl
@[simp] theorem State.updTile_cupEn (s : State) (p : Nat) (f : Tile → Tile) : (s.updTile p f).cupEn = s.cupEn := rfl
@[simp] theorem State.updTile_cupPeriod (s : State) (p : Nat) (f : Tile → Tile) : (s.updTile p f).cupPeriod = s.cupPeriod := rfl
@[simp] theorem State.updTile_power (s : State) (p : Nat) (f : Tile → Tile) : (s.updTile p f).power = s.power := rfl
@[simp] theorem State.updTile_boot (s : State) (p : Nat) (f : Tile → Tile) : (s.updTile p f).boot = s.boot := rfl
@[simp] theorem State.updTile_fuses (s : State) (p : Nat) (f : Tile → Tile) : (s.updTile p f).fuses = s.fuses := rfl
@[simp] theorem State.updTile_shadow (s : State) (p : Nat) (f : Tile → Tile) : (s.updTile p f).shadow = s.shadow := rfl
@[simp] theorem State.updTile_flash (s : State) (p : Nat) (f : Tile → Tile) : (s.updTile p f).flash = s.flash := rfl
@[simp] theorem State.updTile_smbAddr (s : State) (p : Nat) (f : Tile → Tile) : (s.updTile p f).smbAddr = s.smbAddr := rfl
@[simp] theorem State.updTile_tap (s : State) (p : Nat) (f : Tile → Tile) : (s.updTile p f).tap = s.tap := rfl
@[simp] theorem State.updTile_dbgAccess (s : State) (p : Nat) (f : Tile → Tile) : (s.updTile p f).dbgAccess = s.dbgAccess := rfl
@[simp] theorem State.updTile_readOut (s : State) (p : Nat) (f : Tile → Tile) : (s.updTile p f).readOut = s.readOut := rfl
@[simp] theorem State.updTile_drawn (s : State) (p : Nat) (f : Tile → Tile) : (s.updTile p f).drawn = s.drawn := rfl
@[simp] theorem State.updTile_tm (s : State) (p : Nat) (f : Tile → Tile) (i : Nat) : (s.updTile p f).tm i = s.tm i := rfl
@[simp] theorem State.updTile_link (s : State) (p : Nat) (f : Tile → Tile) (i : Nat) : (s.updTile p f).link i = s.link i := rfl
@[simp] theorem State.updTile_task (s : State) (p : Nat) (f : Tile → Tile) (i : Nat) : (s.updTile p f).task i = s.task i := rfl
@[simp] theorem State.updTile_sector (s : State) (p : Nat) (f : Tile → Tile) (i : Nat) : (s.updTile p f).sector i = s.sector i := rfl
@[simp] theorem State.updTile_evb (s : State) (p : Nat) (f : Tile → Tile) (i : Nat) : (s.updTile p f).evb i = s.evb i := rfl
@[simp] theorem State.updTile_queue (s : State) (p : Nat) (f : Tile → Tile) (i : Nat) : (s.updTile p f).queue i = s.queue i := rfl
@[simp] theorem State.updTile_role (s : State) (p : Nat) (f : Tile → Tile) (i : Nat) : (s.updTile p f).role i = s.role i := rfl
@[simp] theorem State.updTile_part (s : State) (p : Nat) (f : Tile → Tile) (i : Nat) : (s.updTile p f).part i = s.part i := rfl
@[simp] theorem State.updTile_port (s : State) (p : Nat) (f : Tile → Tile) (i : Nat) : (s.updTile p f).port i = s.port i := rfl
@[simp] theorem State.updTile_inFlight (s : State) (p : Nat) (f : Tile → Tile) (i : Nat) : (s.updTile p f).inFlight i = s.inFlight i := rfl
@[simp] theorem State.updTile_buffer (s : State) (p : Nat) (f : Tile → Tile) (i : Nat) : (s.updTile p f).buffer i = s.buffer i := rfl
@[simp] theorem State.updTile_lane (s : State) (p : Nat) (f : Tile → Tile) (i : Nat) : (s.updTile p f).lane i = s.lane i := rfl
@[simp] theorem State.updTile_stream (s : State) (p : Nat) (f : Tile → Tile) (i : Nat) : (s.updTile p f).stream i = s.stream i := rfl
@[simp] theorem State.updTile_tile_same (s : State) (p : Nat) (f : Tile → Tile) : (s.updTile p f).tile p = f (s.tile p) := by
  unfold State.tile State.updTile; exact tget_tset_same _ _ _ _
theorem State.updTile_tile (s : State) (p : Nat) (f : Tile → Tile) (i : Nat) : (s.updTile p f).tile i = if i = p then f (s.tile p) else s.tile i := by
  unfold State.tile State.updTile; exact tget_tset _ _ _ _ _

/-! ## setLink -/

@[simp] theorem State.setLink_pending (s : State) (l : Nat) (x : Link) : (s.setLink l x).pending = s.pending := rfl
@[simp] theorem State.setLink_tileMap (s : State) (l : Nat) (x : Link) : (s.setLink l x).tileMap = s.tileMap := rfl
@[simp] theorem State.setLink_win (s : State) (l : Nat) (x : Link) : (s.setLink l x).win = s.win := rfl
@[simp] theorem State.setLink_tiles (s : State) (l : Nat) (x : Link) : (s.setLink l x).tiles = s.tiles := rfl
@[simp] theorem State.setLink_tasks (s : State) (l : Nat) (x : Link) : (s.setLink l x).tasks = s.tasks := rfl
@[simp] theorem State.setLink_sectors (s : State) (l : Nat) (x : Link) : (s.setLink l x).sectors = s.sectors := rfl
@[simp] theorem State.setLink_grants (s : State) (l : Nat) (x : Link) : (s.setLink l x).grants = s.grants := rfl
@[simp] theorem State.setLink_dones (s : State) (l : Nat) (x : Link) : (s.setLink l x).dones = s.dones := rfl
@[simp] theorem State.setLink_getWorks (s : State) (l : Nat) (x : Link) : (s.setLink l x).getWorks = s.getWorks := rfl
@[simp] theorem State.setLink_notifies (s : State) (l : Nat) (x : Link) : (s.setLink l x).notifies = s.notifies := rfl
@[simp] theorem State.setLink_mem (s : State) (l : Nat) (x : Link) : (s.setLink l x).mem = s.mem := rfl
@[simp] theorem State.setLink_mesh (s : State) (l : Nat) (x : Link) : (s.setLink l x).mesh = s.mesh := rfl
@[simp] theorem State.setLink_events (s : State) (l : Nat) (x : Link) : (s.setLink l x).events = s.events := rfl
@[simp] theorem State.setLink_queues (s : State) (l : Nat) (x : Link) : (s.setLink l x).queues = s.queues := rfl
@[simp] theorem State.setLink_ports (s : State) (l : Nat) (x : Link) : (s.setLink l x).ports = s.ports := rfl
@[simp] theorem State.setLink_hostWrites (s : State) (l : Nat) (x : Link) : (s.setLink l x).hostWrites = s.hostWrites := rfl
@[simp] theorem State.setLink_starts (s : State) (l : Nat) (x : Link) : (s.setLink l x).starts = s.starts := rfl
@[simp] theorem State.setLink_buffers (s : State) (l : Nat) (x : Link) : (s.setLink l x).buffers = s.buffers := rfl
@[simp] theorem State.setLink_running (s : State) (l : Nat) (x : Link) : (s.setLink l x).running = s.running := rfl
@[simp] theorem State.setLink_flights (s : State) (l : Nat) (x : Link) : (s.setLink l x).flights = s.flights := rfl
@[simp] theorem State.setLink_faults (s : State) (l : Nat) (x : Link) : (s.setLink l x).faults = s.faults := rfl
@[simp] theorem State.setLink_recovery (s : State) (l : Nat) (x : Link) : (s.setLink l x).recovery = s.recovery := rfl
@[simp] theorem State.setLink_log (s : State) (l : Nat) (x : Link) : (s.setLink l x).log = s.log := rfl
@[simp] theorem State.setLink_logNext (s : State) (l : Nat) (x : Link) : (s.setLink l x).logNext = s.logNext := rfl
@[simp] theorem State.setLink_usPhase (s : State) (l : Nat) (x : Link) : (s.setLink l x).usPhase = s.usPhase := rfl
@[simp] theorem State.setLink_time (s : State) (l : Nat) (x : Link) : (s.setLink l x).time = s.time := rfl
@[simp] theorem State.setLink_cells (s : State) (l : Nat) (x : Link) : (s.setLink l x).cells = s.cells := rfl
@[simp] theorem State.setLink_lanes (s : State) (l : Nat) (x : Link) : (s.setLink l x).lanes = s.lanes := rfl
@[simp] theorem State.setLink_partners (s : State) (l : Nat) (x : Link) : (s.setLink l x).partners = s.partners := rfl
@[simp] theorem State.setLink_rules (s : State) (l : Nat) (x : Link) : (s.setLink l x).rules = s.rules := rfl
@[simp] theorem State.setLink_streams (s : State) (l : Nat) (x : Link) : (s.setLink l x).streams = s.streams := rfl
@[simp] theorem State.setLink_asm (s : State) (l : Nat) (x : Link) : (s.setLink l x).asm = s.asm := rfl
@[simp] theorem State.setLink_alloc (s : State) (l : Nat) (x : Link) : (s.setLink l x).alloc = s.alloc := rfl
@[simp] theorem State.setLink_holdoff (s : State) (l : Nat) (x : Link) : (s.setLink l x).holdoff = s.holdoff := rfl
@[simp] theorem State.setLink_parts (s : State) (l : Nat) (x : Link) : (s.setLink l x).parts = s.parts := rfl
@[simp] theorem State.setLink_roles (s : State) (l : Nat) (x : Link) : (s.setLink l x).roles = s.roles := rfl
@[simp] theorem State.setLink_slices (s : State) (l : Nat) (x : Link) : (s.setLink l x).slices = s.slices := rfl
@[simp] theorem State.setLink_sliceNow (s : State) (l : Nat) (x : Link) : (s.setLink l x).sliceNow = s.sliceNow := rfl
@[simp] theorem State.setLink_secSlot (s : State) (l : Nat) (x : Link) : (s.setLink l x).secSlot = s.secSlot := rfl
@[simp] theorem State.setLink_hostReads (s : State) (l : Nat) (x : Link) : (s.setLink l x).hostReads = s.hostReads := rfl
@[simp] theorem State.setLink_logRead (s : State) (l : Nat) (x : Link) : (s.setLink l x).logRead = s.logRead := rfl
@[simp] theorem State.setLink_perc (s : State) (l : Nat) (x : Link) : (s.setLink l x).perc = s.perc := rfl
@[simp] theorem State.setLink_cupEn (s : State) (l : Nat) (x : Link) : (s.setLink l x).cupEn = s.cupEn := rfl
@[simp] theorem State.setLink_cupPeriod (s : State) (l : Nat) (x : Link) : (s.setLink l x).cupPeriod = s.cupPeriod := rfl
@[simp] theorem State.setLink_power (s : State) (l : Nat) (x : Link) : (s.setLink l x).power = s.power := rfl
@[simp] theorem State.setLink_boot (s : State) (l : Nat) (x : Link) : (s.setLink l x).boot = s.boot := rfl
@[simp] theorem State.setLink_fuses (s : State) (l : Nat) (x : Link) : (s.setLink l x).fuses = s.fuses := rfl
@[simp] theorem State.setLink_shadow (s : State) (l : Nat) (x : Link) : (s.setLink l x).shadow = s.shadow := rfl
@[simp] theorem State.setLink_flash (s : State) (l : Nat) (x : Link) : (s.setLink l x).flash = s.flash := rfl
@[simp] theorem State.setLink_smbAddr (s : State) (l : Nat) (x : Link) : (s.setLink l x).smbAddr = s.smbAddr := rfl
@[simp] theorem State.setLink_tap (s : State) (l : Nat) (x : Link) : (s.setLink l x).tap = s.tap := rfl
@[simp] theorem State.setLink_dbgAccess (s : State) (l : Nat) (x : Link) : (s.setLink l x).dbgAccess = s.dbgAccess := rfl
@[simp] theorem State.setLink_readOut (s : State) (l : Nat) (x : Link) : (s.setLink l x).readOut = s.readOut := rfl
@[simp] theorem State.setLink_drawn (s : State) (l : Nat) (x : Link) : (s.setLink l x).drawn = s.drawn := rfl
@[simp] theorem State.setLink_tm (s : State) (l : Nat) (x : Link) (i : Nat) : (s.setLink l x).tm i = s.tm i := rfl
@[simp] theorem State.setLink_tile (s : State) (l : Nat) (x : Link) (i : Nat) : (s.setLink l x).tile i = s.tile i := rfl
@[simp] theorem State.setLink_task (s : State) (l : Nat) (x : Link) (i : Nat) : (s.setLink l x).task i = s.task i := rfl
@[simp] theorem State.setLink_sector (s : State) (l : Nat) (x : Link) (i : Nat) : (s.setLink l x).sector i = s.sector i := rfl
@[simp] theorem State.setLink_evb (s : State) (l : Nat) (x : Link) (i : Nat) : (s.setLink l x).evb i = s.evb i := rfl
@[simp] theorem State.setLink_queue (s : State) (l : Nat) (x : Link) (i : Nat) : (s.setLink l x).queue i = s.queue i := rfl
@[simp] theorem State.setLink_role (s : State) (l : Nat) (x : Link) (i : Nat) : (s.setLink l x).role i = s.role i := rfl
@[simp] theorem State.setLink_part (s : State) (l : Nat) (x : Link) (i : Nat) : (s.setLink l x).part i = s.part i := rfl
@[simp] theorem State.setLink_port (s : State) (l : Nat) (x : Link) (i : Nat) : (s.setLink l x).port i = s.port i := rfl
@[simp] theorem State.setLink_inFlight (s : State) (l : Nat) (x : Link) (i : Nat) : (s.setLink l x).inFlight i = s.inFlight i := rfl
@[simp] theorem State.setLink_buffer (s : State) (l : Nat) (x : Link) (i : Nat) : (s.setLink l x).buffer i = s.buffer i := rfl
@[simp] theorem State.setLink_lane (s : State) (l : Nat) (x : Link) (i : Nat) : (s.setLink l x).lane i = s.lane i := rfl
@[simp] theorem State.setLink_stream (s : State) (l : Nat) (x : Link) (i : Nat) : (s.setLink l x).stream i = s.stream i := rfl
@[simp] theorem State.setLink_link_same (s : State) (l : Nat) (x : Link) : (s.setLink l x).link l = x := by
  unfold State.link State.setLink; exact tget_tset_same _ _ _ _
theorem State.setLink_link (s : State) (l : Nat) (x : Link) (i : Nat) : (s.setLink l x).link i = if i = l then x else s.link i := by
  unfold State.link State.setLink; exact tget_tset _ _ _ _ _

/-! ## updLink -/

@[simp] theorem State.updLink_pending (s : State) (l : Nat) (f : Link → Link) : (s.updLink l f).pending = s.pending := rfl
@[simp] theorem State.updLink_tileMap (s : State) (l : Nat) (f : Link → Link) : (s.updLink l f).tileMap = s.tileMap := rfl
@[simp] theorem State.updLink_win (s : State) (l : Nat) (f : Link → Link) : (s.updLink l f).win = s.win := rfl
@[simp] theorem State.updLink_tiles (s : State) (l : Nat) (f : Link → Link) : (s.updLink l f).tiles = s.tiles := rfl
@[simp] theorem State.updLink_tasks (s : State) (l : Nat) (f : Link → Link) : (s.updLink l f).tasks = s.tasks := rfl
@[simp] theorem State.updLink_sectors (s : State) (l : Nat) (f : Link → Link) : (s.updLink l f).sectors = s.sectors := rfl
@[simp] theorem State.updLink_grants (s : State) (l : Nat) (f : Link → Link) : (s.updLink l f).grants = s.grants := rfl
@[simp] theorem State.updLink_dones (s : State) (l : Nat) (f : Link → Link) : (s.updLink l f).dones = s.dones := rfl
@[simp] theorem State.updLink_getWorks (s : State) (l : Nat) (f : Link → Link) : (s.updLink l f).getWorks = s.getWorks := rfl
@[simp] theorem State.updLink_notifies (s : State) (l : Nat) (f : Link → Link) : (s.updLink l f).notifies = s.notifies := rfl
@[simp] theorem State.updLink_mem (s : State) (l : Nat) (f : Link → Link) : (s.updLink l f).mem = s.mem := rfl
@[simp] theorem State.updLink_mesh (s : State) (l : Nat) (f : Link → Link) : (s.updLink l f).mesh = s.mesh := rfl
@[simp] theorem State.updLink_events (s : State) (l : Nat) (f : Link → Link) : (s.updLink l f).events = s.events := rfl
@[simp] theorem State.updLink_queues (s : State) (l : Nat) (f : Link → Link) : (s.updLink l f).queues = s.queues := rfl
@[simp] theorem State.updLink_ports (s : State) (l : Nat) (f : Link → Link) : (s.updLink l f).ports = s.ports := rfl
@[simp] theorem State.updLink_hostWrites (s : State) (l : Nat) (f : Link → Link) : (s.updLink l f).hostWrites = s.hostWrites := rfl
@[simp] theorem State.updLink_starts (s : State) (l : Nat) (f : Link → Link) : (s.updLink l f).starts = s.starts := rfl
@[simp] theorem State.updLink_buffers (s : State) (l : Nat) (f : Link → Link) : (s.updLink l f).buffers = s.buffers := rfl
@[simp] theorem State.updLink_running (s : State) (l : Nat) (f : Link → Link) : (s.updLink l f).running = s.running := rfl
@[simp] theorem State.updLink_flights (s : State) (l : Nat) (f : Link → Link) : (s.updLink l f).flights = s.flights := rfl
@[simp] theorem State.updLink_faults (s : State) (l : Nat) (f : Link → Link) : (s.updLink l f).faults = s.faults := rfl
@[simp] theorem State.updLink_recovery (s : State) (l : Nat) (f : Link → Link) : (s.updLink l f).recovery = s.recovery := rfl
@[simp] theorem State.updLink_log (s : State) (l : Nat) (f : Link → Link) : (s.updLink l f).log = s.log := rfl
@[simp] theorem State.updLink_logNext (s : State) (l : Nat) (f : Link → Link) : (s.updLink l f).logNext = s.logNext := rfl
@[simp] theorem State.updLink_usPhase (s : State) (l : Nat) (f : Link → Link) : (s.updLink l f).usPhase = s.usPhase := rfl
@[simp] theorem State.updLink_time (s : State) (l : Nat) (f : Link → Link) : (s.updLink l f).time = s.time := rfl
@[simp] theorem State.updLink_cells (s : State) (l : Nat) (f : Link → Link) : (s.updLink l f).cells = s.cells := rfl
@[simp] theorem State.updLink_lanes (s : State) (l : Nat) (f : Link → Link) : (s.updLink l f).lanes = s.lanes := rfl
@[simp] theorem State.updLink_partners (s : State) (l : Nat) (f : Link → Link) : (s.updLink l f).partners = s.partners := rfl
@[simp] theorem State.updLink_rules (s : State) (l : Nat) (f : Link → Link) : (s.updLink l f).rules = s.rules := rfl
@[simp] theorem State.updLink_streams (s : State) (l : Nat) (f : Link → Link) : (s.updLink l f).streams = s.streams := rfl
@[simp] theorem State.updLink_asm (s : State) (l : Nat) (f : Link → Link) : (s.updLink l f).asm = s.asm := rfl
@[simp] theorem State.updLink_alloc (s : State) (l : Nat) (f : Link → Link) : (s.updLink l f).alloc = s.alloc := rfl
@[simp] theorem State.updLink_holdoff (s : State) (l : Nat) (f : Link → Link) : (s.updLink l f).holdoff = s.holdoff := rfl
@[simp] theorem State.updLink_parts (s : State) (l : Nat) (f : Link → Link) : (s.updLink l f).parts = s.parts := rfl
@[simp] theorem State.updLink_roles (s : State) (l : Nat) (f : Link → Link) : (s.updLink l f).roles = s.roles := rfl
@[simp] theorem State.updLink_slices (s : State) (l : Nat) (f : Link → Link) : (s.updLink l f).slices = s.slices := rfl
@[simp] theorem State.updLink_sliceNow (s : State) (l : Nat) (f : Link → Link) : (s.updLink l f).sliceNow = s.sliceNow := rfl
@[simp] theorem State.updLink_secSlot (s : State) (l : Nat) (f : Link → Link) : (s.updLink l f).secSlot = s.secSlot := rfl
@[simp] theorem State.updLink_hostReads (s : State) (l : Nat) (f : Link → Link) : (s.updLink l f).hostReads = s.hostReads := rfl
@[simp] theorem State.updLink_logRead (s : State) (l : Nat) (f : Link → Link) : (s.updLink l f).logRead = s.logRead := rfl
@[simp] theorem State.updLink_perc (s : State) (l : Nat) (f : Link → Link) : (s.updLink l f).perc = s.perc := rfl
@[simp] theorem State.updLink_cupEn (s : State) (l : Nat) (f : Link → Link) : (s.updLink l f).cupEn = s.cupEn := rfl
@[simp] theorem State.updLink_cupPeriod (s : State) (l : Nat) (f : Link → Link) : (s.updLink l f).cupPeriod = s.cupPeriod := rfl
@[simp] theorem State.updLink_power (s : State) (l : Nat) (f : Link → Link) : (s.updLink l f).power = s.power := rfl
@[simp] theorem State.updLink_boot (s : State) (l : Nat) (f : Link → Link) : (s.updLink l f).boot = s.boot := rfl
@[simp] theorem State.updLink_fuses (s : State) (l : Nat) (f : Link → Link) : (s.updLink l f).fuses = s.fuses := rfl
@[simp] theorem State.updLink_shadow (s : State) (l : Nat) (f : Link → Link) : (s.updLink l f).shadow = s.shadow := rfl
@[simp] theorem State.updLink_flash (s : State) (l : Nat) (f : Link → Link) : (s.updLink l f).flash = s.flash := rfl
@[simp] theorem State.updLink_smbAddr (s : State) (l : Nat) (f : Link → Link) : (s.updLink l f).smbAddr = s.smbAddr := rfl
@[simp] theorem State.updLink_tap (s : State) (l : Nat) (f : Link → Link) : (s.updLink l f).tap = s.tap := rfl
@[simp] theorem State.updLink_dbgAccess (s : State) (l : Nat) (f : Link → Link) : (s.updLink l f).dbgAccess = s.dbgAccess := rfl
@[simp] theorem State.updLink_readOut (s : State) (l : Nat) (f : Link → Link) : (s.updLink l f).readOut = s.readOut := rfl
@[simp] theorem State.updLink_drawn (s : State) (l : Nat) (f : Link → Link) : (s.updLink l f).drawn = s.drawn := rfl
@[simp] theorem State.updLink_tm (s : State) (l : Nat) (f : Link → Link) (i : Nat) : (s.updLink l f).tm i = s.tm i := rfl
@[simp] theorem State.updLink_tile (s : State) (l : Nat) (f : Link → Link) (i : Nat) : (s.updLink l f).tile i = s.tile i := rfl
@[simp] theorem State.updLink_task (s : State) (l : Nat) (f : Link → Link) (i : Nat) : (s.updLink l f).task i = s.task i := rfl
@[simp] theorem State.updLink_sector (s : State) (l : Nat) (f : Link → Link) (i : Nat) : (s.updLink l f).sector i = s.sector i := rfl
@[simp] theorem State.updLink_evb (s : State) (l : Nat) (f : Link → Link) (i : Nat) : (s.updLink l f).evb i = s.evb i := rfl
@[simp] theorem State.updLink_queue (s : State) (l : Nat) (f : Link → Link) (i : Nat) : (s.updLink l f).queue i = s.queue i := rfl
@[simp] theorem State.updLink_role (s : State) (l : Nat) (f : Link → Link) (i : Nat) : (s.updLink l f).role i = s.role i := rfl
@[simp] theorem State.updLink_part (s : State) (l : Nat) (f : Link → Link) (i : Nat) : (s.updLink l f).part i = s.part i := rfl
@[simp] theorem State.updLink_port (s : State) (l : Nat) (f : Link → Link) (i : Nat) : (s.updLink l f).port i = s.port i := rfl
@[simp] theorem State.updLink_inFlight (s : State) (l : Nat) (f : Link → Link) (i : Nat) : (s.updLink l f).inFlight i = s.inFlight i := rfl
@[simp] theorem State.updLink_buffer (s : State) (l : Nat) (f : Link → Link) (i : Nat) : (s.updLink l f).buffer i = s.buffer i := rfl
@[simp] theorem State.updLink_lane (s : State) (l : Nat) (f : Link → Link) (i : Nat) : (s.updLink l f).lane i = s.lane i := rfl
@[simp] theorem State.updLink_stream (s : State) (l : Nat) (f : Link → Link) (i : Nat) : (s.updLink l f).stream i = s.stream i := rfl
@[simp] theorem State.updLink_link_same (s : State) (l : Nat) (f : Link → Link) : (s.updLink l f).link l = f (s.link l) := by
  unfold State.link State.updLink; exact tget_tset_same _ _ _ _
theorem State.updLink_link (s : State) (l : Nat) (f : Link → Link) (i : Nat) : (s.updLink l f).link i = if i = l then f (s.link l) else s.link i := by
  unfold State.link State.updLink; exact tget_tset _ _ _ _ _

/-! ## setTask -/

@[simp] theorem State.setTask_pending (s : State) (t : Nat) (x : Task) : (s.setTask t x).pending = s.pending := rfl
@[simp] theorem State.setTask_tileMap (s : State) (t : Nat) (x : Task) : (s.setTask t x).tileMap = s.tileMap := rfl
@[simp] theorem State.setTask_win (s : State) (t : Nat) (x : Task) : (s.setTask t x).win = s.win := rfl
@[simp] theorem State.setTask_links (s : State) (t : Nat) (x : Task) : (s.setTask t x).links = s.links := rfl
@[simp] theorem State.setTask_tiles (s : State) (t : Nat) (x : Task) : (s.setTask t x).tiles = s.tiles := rfl
@[simp] theorem State.setTask_sectors (s : State) (t : Nat) (x : Task) : (s.setTask t x).sectors = s.sectors := rfl
@[simp] theorem State.setTask_grants (s : State) (t : Nat) (x : Task) : (s.setTask t x).grants = s.grants := rfl
@[simp] theorem State.setTask_dones (s : State) (t : Nat) (x : Task) : (s.setTask t x).dones = s.dones := rfl
@[simp] theorem State.setTask_getWorks (s : State) (t : Nat) (x : Task) : (s.setTask t x).getWorks = s.getWorks := rfl
@[simp] theorem State.setTask_notifies (s : State) (t : Nat) (x : Task) : (s.setTask t x).notifies = s.notifies := rfl
@[simp] theorem State.setTask_mem (s : State) (t : Nat) (x : Task) : (s.setTask t x).mem = s.mem := rfl
@[simp] theorem State.setTask_mesh (s : State) (t : Nat) (x : Task) : (s.setTask t x).mesh = s.mesh := rfl
@[simp] theorem State.setTask_events (s : State) (t : Nat) (x : Task) : (s.setTask t x).events = s.events := rfl
@[simp] theorem State.setTask_queues (s : State) (t : Nat) (x : Task) : (s.setTask t x).queues = s.queues := rfl
@[simp] theorem State.setTask_ports (s : State) (t : Nat) (x : Task) : (s.setTask t x).ports = s.ports := rfl
@[simp] theorem State.setTask_hostWrites (s : State) (t : Nat) (x : Task) : (s.setTask t x).hostWrites = s.hostWrites := rfl
@[simp] theorem State.setTask_starts (s : State) (t : Nat) (x : Task) : (s.setTask t x).starts = s.starts := rfl
@[simp] theorem State.setTask_buffers (s : State) (t : Nat) (x : Task) : (s.setTask t x).buffers = s.buffers := rfl
@[simp] theorem State.setTask_running (s : State) (t : Nat) (x : Task) : (s.setTask t x).running = s.running := rfl
@[simp] theorem State.setTask_flights (s : State) (t : Nat) (x : Task) : (s.setTask t x).flights = s.flights := rfl
@[simp] theorem State.setTask_faults (s : State) (t : Nat) (x : Task) : (s.setTask t x).faults = s.faults := rfl
@[simp] theorem State.setTask_recovery (s : State) (t : Nat) (x : Task) : (s.setTask t x).recovery = s.recovery := rfl
@[simp] theorem State.setTask_log (s : State) (t : Nat) (x : Task) : (s.setTask t x).log = s.log := rfl
@[simp] theorem State.setTask_logNext (s : State) (t : Nat) (x : Task) : (s.setTask t x).logNext = s.logNext := rfl
@[simp] theorem State.setTask_usPhase (s : State) (t : Nat) (x : Task) : (s.setTask t x).usPhase = s.usPhase := rfl
@[simp] theorem State.setTask_time (s : State) (t : Nat) (x : Task) : (s.setTask t x).time = s.time := rfl
@[simp] theorem State.setTask_cells (s : State) (t : Nat) (x : Task) : (s.setTask t x).cells = s.cells := rfl
@[simp] theorem State.setTask_lanes (s : State) (t : Nat) (x : Task) : (s.setTask t x).lanes = s.lanes := rfl
@[simp] theorem State.setTask_partners (s : State) (t : Nat) (x : Task) : (s.setTask t x).partners = s.partners := rfl
@[simp] theorem State.setTask_rules (s : State) (t : Nat) (x : Task) : (s.setTask t x).rules = s.rules := rfl
@[simp] theorem State.setTask_streams (s : State) (t : Nat) (x : Task) : (s.setTask t x).streams = s.streams := rfl
@[simp] theorem State.setTask_asm (s : State) (t : Nat) (x : Task) : (s.setTask t x).asm = s.asm := rfl
@[simp] theorem State.setTask_alloc (s : State) (t : Nat) (x : Task) : (s.setTask t x).alloc = s.alloc := rfl
@[simp] theorem State.setTask_holdoff (s : State) (t : Nat) (x : Task) : (s.setTask t x).holdoff = s.holdoff := rfl
@[simp] theorem State.setTask_parts (s : State) (t : Nat) (x : Task) : (s.setTask t x).parts = s.parts := rfl
@[simp] theorem State.setTask_roles (s : State) (t : Nat) (x : Task) : (s.setTask t x).roles = s.roles := rfl
@[simp] theorem State.setTask_slices (s : State) (t : Nat) (x : Task) : (s.setTask t x).slices = s.slices := rfl
@[simp] theorem State.setTask_sliceNow (s : State) (t : Nat) (x : Task) : (s.setTask t x).sliceNow = s.sliceNow := rfl
@[simp] theorem State.setTask_secSlot (s : State) (t : Nat) (x : Task) : (s.setTask t x).secSlot = s.secSlot := rfl
@[simp] theorem State.setTask_hostReads (s : State) (t : Nat) (x : Task) : (s.setTask t x).hostReads = s.hostReads := rfl
@[simp] theorem State.setTask_logRead (s : State) (t : Nat) (x : Task) : (s.setTask t x).logRead = s.logRead := rfl
@[simp] theorem State.setTask_perc (s : State) (t : Nat) (x : Task) : (s.setTask t x).perc = s.perc := rfl
@[simp] theorem State.setTask_cupEn (s : State) (t : Nat) (x : Task) : (s.setTask t x).cupEn = s.cupEn := rfl
@[simp] theorem State.setTask_cupPeriod (s : State) (t : Nat) (x : Task) : (s.setTask t x).cupPeriod = s.cupPeriod := rfl
@[simp] theorem State.setTask_power (s : State) (t : Nat) (x : Task) : (s.setTask t x).power = s.power := rfl
@[simp] theorem State.setTask_boot (s : State) (t : Nat) (x : Task) : (s.setTask t x).boot = s.boot := rfl
@[simp] theorem State.setTask_fuses (s : State) (t : Nat) (x : Task) : (s.setTask t x).fuses = s.fuses := rfl
@[simp] theorem State.setTask_shadow (s : State) (t : Nat) (x : Task) : (s.setTask t x).shadow = s.shadow := rfl
@[simp] theorem State.setTask_flash (s : State) (t : Nat) (x : Task) : (s.setTask t x).flash = s.flash := rfl
@[simp] theorem State.setTask_smbAddr (s : State) (t : Nat) (x : Task) : (s.setTask t x).smbAddr = s.smbAddr := rfl
@[simp] theorem State.setTask_tap (s : State) (t : Nat) (x : Task) : (s.setTask t x).tap = s.tap := rfl
@[simp] theorem State.setTask_dbgAccess (s : State) (t : Nat) (x : Task) : (s.setTask t x).dbgAccess = s.dbgAccess := rfl
@[simp] theorem State.setTask_readOut (s : State) (t : Nat) (x : Task) : (s.setTask t x).readOut = s.readOut := rfl
@[simp] theorem State.setTask_drawn (s : State) (t : Nat) (x : Task) : (s.setTask t x).drawn = s.drawn := rfl
@[simp] theorem State.setTask_tm (s : State) (t : Nat) (x : Task) (i : Nat) : (s.setTask t x).tm i = s.tm i := rfl
@[simp] theorem State.setTask_tile (s : State) (t : Nat) (x : Task) (i : Nat) : (s.setTask t x).tile i = s.tile i := rfl
@[simp] theorem State.setTask_link (s : State) (t : Nat) (x : Task) (i : Nat) : (s.setTask t x).link i = s.link i := rfl
@[simp] theorem State.setTask_sector (s : State) (t : Nat) (x : Task) (i : Nat) : (s.setTask t x).sector i = s.sector i := rfl
@[simp] theorem State.setTask_evb (s : State) (t : Nat) (x : Task) (i : Nat) : (s.setTask t x).evb i = s.evb i := rfl
@[simp] theorem State.setTask_queue (s : State) (t : Nat) (x : Task) (i : Nat) : (s.setTask t x).queue i = s.queue i := rfl
@[simp] theorem State.setTask_role (s : State) (t : Nat) (x : Task) (i : Nat) : (s.setTask t x).role i = s.role i := rfl
@[simp] theorem State.setTask_part (s : State) (t : Nat) (x : Task) (i : Nat) : (s.setTask t x).part i = s.part i := rfl
@[simp] theorem State.setTask_port (s : State) (t : Nat) (x : Task) (i : Nat) : (s.setTask t x).port i = s.port i := rfl
@[simp] theorem State.setTask_inFlight (s : State) (t : Nat) (x : Task) (i : Nat) : (s.setTask t x).inFlight i = s.inFlight i := rfl
@[simp] theorem State.setTask_buffer (s : State) (t : Nat) (x : Task) (i : Nat) : (s.setTask t x).buffer i = s.buffer i := rfl
@[simp] theorem State.setTask_lane (s : State) (t : Nat) (x : Task) (i : Nat) : (s.setTask t x).lane i = s.lane i := rfl
@[simp] theorem State.setTask_stream (s : State) (t : Nat) (x : Task) (i : Nat) : (s.setTask t x).stream i = s.stream i := rfl
@[simp] theorem State.setTask_task_same (s : State) (t : Nat) (x : Task) : (s.setTask t x).task t = x := by
  unfold State.task State.setTask; exact tget_tset_same _ _ _ _
theorem State.setTask_task (s : State) (t : Nat) (x : Task) (i : Nat) : (s.setTask t x).task i = if i = t then x else s.task i := by
  unfold State.task State.setTask; exact tget_tset _ _ _ _ _

/-! ## updTask -/

@[simp] theorem State.updTask_pending (s : State) (t : Nat) (f : Task → Task) : (s.updTask t f).pending = s.pending := rfl
@[simp] theorem State.updTask_tileMap (s : State) (t : Nat) (f : Task → Task) : (s.updTask t f).tileMap = s.tileMap := rfl
@[simp] theorem State.updTask_win (s : State) (t : Nat) (f : Task → Task) : (s.updTask t f).win = s.win := rfl
@[simp] theorem State.updTask_links (s : State) (t : Nat) (f : Task → Task) : (s.updTask t f).links = s.links := rfl
@[simp] theorem State.updTask_tiles (s : State) (t : Nat) (f : Task → Task) : (s.updTask t f).tiles = s.tiles := rfl
@[simp] theorem State.updTask_sectors (s : State) (t : Nat) (f : Task → Task) : (s.updTask t f).sectors = s.sectors := rfl
@[simp] theorem State.updTask_grants (s : State) (t : Nat) (f : Task → Task) : (s.updTask t f).grants = s.grants := rfl
@[simp] theorem State.updTask_dones (s : State) (t : Nat) (f : Task → Task) : (s.updTask t f).dones = s.dones := rfl
@[simp] theorem State.updTask_getWorks (s : State) (t : Nat) (f : Task → Task) : (s.updTask t f).getWorks = s.getWorks := rfl
@[simp] theorem State.updTask_notifies (s : State) (t : Nat) (f : Task → Task) : (s.updTask t f).notifies = s.notifies := rfl
@[simp] theorem State.updTask_mem (s : State) (t : Nat) (f : Task → Task) : (s.updTask t f).mem = s.mem := rfl
@[simp] theorem State.updTask_mesh (s : State) (t : Nat) (f : Task → Task) : (s.updTask t f).mesh = s.mesh := rfl
@[simp] theorem State.updTask_events (s : State) (t : Nat) (f : Task → Task) : (s.updTask t f).events = s.events := rfl
@[simp] theorem State.updTask_queues (s : State) (t : Nat) (f : Task → Task) : (s.updTask t f).queues = s.queues := rfl
@[simp] theorem State.updTask_ports (s : State) (t : Nat) (f : Task → Task) : (s.updTask t f).ports = s.ports := rfl
@[simp] theorem State.updTask_hostWrites (s : State) (t : Nat) (f : Task → Task) : (s.updTask t f).hostWrites = s.hostWrites := rfl
@[simp] theorem State.updTask_starts (s : State) (t : Nat) (f : Task → Task) : (s.updTask t f).starts = s.starts := rfl
@[simp] theorem State.updTask_buffers (s : State) (t : Nat) (f : Task → Task) : (s.updTask t f).buffers = s.buffers := rfl
@[simp] theorem State.updTask_running (s : State) (t : Nat) (f : Task → Task) : (s.updTask t f).running = s.running := rfl
@[simp] theorem State.updTask_flights (s : State) (t : Nat) (f : Task → Task) : (s.updTask t f).flights = s.flights := rfl
@[simp] theorem State.updTask_faults (s : State) (t : Nat) (f : Task → Task) : (s.updTask t f).faults = s.faults := rfl
@[simp] theorem State.updTask_recovery (s : State) (t : Nat) (f : Task → Task) : (s.updTask t f).recovery = s.recovery := rfl
@[simp] theorem State.updTask_log (s : State) (t : Nat) (f : Task → Task) : (s.updTask t f).log = s.log := rfl
@[simp] theorem State.updTask_logNext (s : State) (t : Nat) (f : Task → Task) : (s.updTask t f).logNext = s.logNext := rfl
@[simp] theorem State.updTask_usPhase (s : State) (t : Nat) (f : Task → Task) : (s.updTask t f).usPhase = s.usPhase := rfl
@[simp] theorem State.updTask_time (s : State) (t : Nat) (f : Task → Task) : (s.updTask t f).time = s.time := rfl
@[simp] theorem State.updTask_cells (s : State) (t : Nat) (f : Task → Task) : (s.updTask t f).cells = s.cells := rfl
@[simp] theorem State.updTask_lanes (s : State) (t : Nat) (f : Task → Task) : (s.updTask t f).lanes = s.lanes := rfl
@[simp] theorem State.updTask_partners (s : State) (t : Nat) (f : Task → Task) : (s.updTask t f).partners = s.partners := rfl
@[simp] theorem State.updTask_rules (s : State) (t : Nat) (f : Task → Task) : (s.updTask t f).rules = s.rules := rfl
@[simp] theorem State.updTask_streams (s : State) (t : Nat) (f : Task → Task) : (s.updTask t f).streams = s.streams := rfl
@[simp] theorem State.updTask_asm (s : State) (t : Nat) (f : Task → Task) : (s.updTask t f).asm = s.asm := rfl
@[simp] theorem State.updTask_alloc (s : State) (t : Nat) (f : Task → Task) : (s.updTask t f).alloc = s.alloc := rfl
@[simp] theorem State.updTask_holdoff (s : State) (t : Nat) (f : Task → Task) : (s.updTask t f).holdoff = s.holdoff := rfl
@[simp] theorem State.updTask_parts (s : State) (t : Nat) (f : Task → Task) : (s.updTask t f).parts = s.parts := rfl
@[simp] theorem State.updTask_roles (s : State) (t : Nat) (f : Task → Task) : (s.updTask t f).roles = s.roles := rfl
@[simp] theorem State.updTask_slices (s : State) (t : Nat) (f : Task → Task) : (s.updTask t f).slices = s.slices := rfl
@[simp] theorem State.updTask_sliceNow (s : State) (t : Nat) (f : Task → Task) : (s.updTask t f).sliceNow = s.sliceNow := rfl
@[simp] theorem State.updTask_secSlot (s : State) (t : Nat) (f : Task → Task) : (s.updTask t f).secSlot = s.secSlot := rfl
@[simp] theorem State.updTask_hostReads (s : State) (t : Nat) (f : Task → Task) : (s.updTask t f).hostReads = s.hostReads := rfl
@[simp] theorem State.updTask_logRead (s : State) (t : Nat) (f : Task → Task) : (s.updTask t f).logRead = s.logRead := rfl
@[simp] theorem State.updTask_perc (s : State) (t : Nat) (f : Task → Task) : (s.updTask t f).perc = s.perc := rfl
@[simp] theorem State.updTask_cupEn (s : State) (t : Nat) (f : Task → Task) : (s.updTask t f).cupEn = s.cupEn := rfl
@[simp] theorem State.updTask_cupPeriod (s : State) (t : Nat) (f : Task → Task) : (s.updTask t f).cupPeriod = s.cupPeriod := rfl
@[simp] theorem State.updTask_power (s : State) (t : Nat) (f : Task → Task) : (s.updTask t f).power = s.power := rfl
@[simp] theorem State.updTask_boot (s : State) (t : Nat) (f : Task → Task) : (s.updTask t f).boot = s.boot := rfl
@[simp] theorem State.updTask_fuses (s : State) (t : Nat) (f : Task → Task) : (s.updTask t f).fuses = s.fuses := rfl
@[simp] theorem State.updTask_shadow (s : State) (t : Nat) (f : Task → Task) : (s.updTask t f).shadow = s.shadow := rfl
@[simp] theorem State.updTask_flash (s : State) (t : Nat) (f : Task → Task) : (s.updTask t f).flash = s.flash := rfl
@[simp] theorem State.updTask_smbAddr (s : State) (t : Nat) (f : Task → Task) : (s.updTask t f).smbAddr = s.smbAddr := rfl
@[simp] theorem State.updTask_tap (s : State) (t : Nat) (f : Task → Task) : (s.updTask t f).tap = s.tap := rfl
@[simp] theorem State.updTask_dbgAccess (s : State) (t : Nat) (f : Task → Task) : (s.updTask t f).dbgAccess = s.dbgAccess := rfl
@[simp] theorem State.updTask_readOut (s : State) (t : Nat) (f : Task → Task) : (s.updTask t f).readOut = s.readOut := rfl
@[simp] theorem State.updTask_drawn (s : State) (t : Nat) (f : Task → Task) : (s.updTask t f).drawn = s.drawn := rfl
@[simp] theorem State.updTask_tm (s : State) (t : Nat) (f : Task → Task) (i : Nat) : (s.updTask t f).tm i = s.tm i := rfl
@[simp] theorem State.updTask_tile (s : State) (t : Nat) (f : Task → Task) (i : Nat) : (s.updTask t f).tile i = s.tile i := rfl
@[simp] theorem State.updTask_link (s : State) (t : Nat) (f : Task → Task) (i : Nat) : (s.updTask t f).link i = s.link i := rfl
@[simp] theorem State.updTask_sector (s : State) (t : Nat) (f : Task → Task) (i : Nat) : (s.updTask t f).sector i = s.sector i := rfl
@[simp] theorem State.updTask_evb (s : State) (t : Nat) (f : Task → Task) (i : Nat) : (s.updTask t f).evb i = s.evb i := rfl
@[simp] theorem State.updTask_queue (s : State) (t : Nat) (f : Task → Task) (i : Nat) : (s.updTask t f).queue i = s.queue i := rfl
@[simp] theorem State.updTask_role (s : State) (t : Nat) (f : Task → Task) (i : Nat) : (s.updTask t f).role i = s.role i := rfl
@[simp] theorem State.updTask_part (s : State) (t : Nat) (f : Task → Task) (i : Nat) : (s.updTask t f).part i = s.part i := rfl
@[simp] theorem State.updTask_port (s : State) (t : Nat) (f : Task → Task) (i : Nat) : (s.updTask t f).port i = s.port i := rfl
@[simp] theorem State.updTask_inFlight (s : State) (t : Nat) (f : Task → Task) (i : Nat) : (s.updTask t f).inFlight i = s.inFlight i := rfl
@[simp] theorem State.updTask_buffer (s : State) (t : Nat) (f : Task → Task) (i : Nat) : (s.updTask t f).buffer i = s.buffer i := rfl
@[simp] theorem State.updTask_lane (s : State) (t : Nat) (f : Task → Task) (i : Nat) : (s.updTask t f).lane i = s.lane i := rfl
@[simp] theorem State.updTask_stream (s : State) (t : Nat) (f : Task → Task) (i : Nat) : (s.updTask t f).stream i = s.stream i := rfl
@[simp] theorem State.updTask_task_same (s : State) (t : Nat) (f : Task → Task) : (s.updTask t f).task t = f (s.task t) := by
  unfold State.task State.updTask; exact tget_tset_same _ _ _ _
theorem State.updTask_task (s : State) (t : Nat) (f : Task → Task) (i : Nat) : (s.updTask t f).task i = if i = t then f (s.task t) else s.task i := by
  unfold State.task State.updTask; exact tget_tset _ _ _ _ _

/-! ## setSector -/

@[simp] theorem State.setSector_pending (s : State) (n : Nat) (x : Sector) : (s.setSector n x).pending = s.pending := rfl
@[simp] theorem State.setSector_tileMap (s : State) (n : Nat) (x : Sector) : (s.setSector n x).tileMap = s.tileMap := rfl
@[simp] theorem State.setSector_win (s : State) (n : Nat) (x : Sector) : (s.setSector n x).win = s.win := rfl
@[simp] theorem State.setSector_links (s : State) (n : Nat) (x : Sector) : (s.setSector n x).links = s.links := rfl
@[simp] theorem State.setSector_tiles (s : State) (n : Nat) (x : Sector) : (s.setSector n x).tiles = s.tiles := rfl
@[simp] theorem State.setSector_tasks (s : State) (n : Nat) (x : Sector) : (s.setSector n x).tasks = s.tasks := rfl
@[simp] theorem State.setSector_grants (s : State) (n : Nat) (x : Sector) : (s.setSector n x).grants = s.grants := rfl
@[simp] theorem State.setSector_dones (s : State) (n : Nat) (x : Sector) : (s.setSector n x).dones = s.dones := rfl
@[simp] theorem State.setSector_getWorks (s : State) (n : Nat) (x : Sector) : (s.setSector n x).getWorks = s.getWorks := rfl
@[simp] theorem State.setSector_notifies (s : State) (n : Nat) (x : Sector) : (s.setSector n x).notifies = s.notifies := rfl
@[simp] theorem State.setSector_mem (s : State) (n : Nat) (x : Sector) : (s.setSector n x).mem = s.mem := rfl
@[simp] theorem State.setSector_mesh (s : State) (n : Nat) (x : Sector) : (s.setSector n x).mesh = s.mesh := rfl
@[simp] theorem State.setSector_events (s : State) (n : Nat) (x : Sector) : (s.setSector n x).events = s.events := rfl
@[simp] theorem State.setSector_queues (s : State) (n : Nat) (x : Sector) : (s.setSector n x).queues = s.queues := rfl
@[simp] theorem State.setSector_ports (s : State) (n : Nat) (x : Sector) : (s.setSector n x).ports = s.ports := rfl
@[simp] theorem State.setSector_hostWrites (s : State) (n : Nat) (x : Sector) : (s.setSector n x).hostWrites = s.hostWrites := rfl
@[simp] theorem State.setSector_starts (s : State) (n : Nat) (x : Sector) : (s.setSector n x).starts = s.starts := rfl
@[simp] theorem State.setSector_buffers (s : State) (n : Nat) (x : Sector) : (s.setSector n x).buffers = s.buffers := rfl
@[simp] theorem State.setSector_running (s : State) (n : Nat) (x : Sector) : (s.setSector n x).running = s.running := rfl
@[simp] theorem State.setSector_flights (s : State) (n : Nat) (x : Sector) : (s.setSector n x).flights = s.flights := rfl
@[simp] theorem State.setSector_faults (s : State) (n : Nat) (x : Sector) : (s.setSector n x).faults = s.faults := rfl
@[simp] theorem State.setSector_recovery (s : State) (n : Nat) (x : Sector) : (s.setSector n x).recovery = s.recovery := rfl
@[simp] theorem State.setSector_log (s : State) (n : Nat) (x : Sector) : (s.setSector n x).log = s.log := rfl
@[simp] theorem State.setSector_logNext (s : State) (n : Nat) (x : Sector) : (s.setSector n x).logNext = s.logNext := rfl
@[simp] theorem State.setSector_usPhase (s : State) (n : Nat) (x : Sector) : (s.setSector n x).usPhase = s.usPhase := rfl
@[simp] theorem State.setSector_time (s : State) (n : Nat) (x : Sector) : (s.setSector n x).time = s.time := rfl
@[simp] theorem State.setSector_cells (s : State) (n : Nat) (x : Sector) : (s.setSector n x).cells = s.cells := rfl
@[simp] theorem State.setSector_lanes (s : State) (n : Nat) (x : Sector) : (s.setSector n x).lanes = s.lanes := rfl
@[simp] theorem State.setSector_partners (s : State) (n : Nat) (x : Sector) : (s.setSector n x).partners = s.partners := rfl
@[simp] theorem State.setSector_rules (s : State) (n : Nat) (x : Sector) : (s.setSector n x).rules = s.rules := rfl
@[simp] theorem State.setSector_streams (s : State) (n : Nat) (x : Sector) : (s.setSector n x).streams = s.streams := rfl
@[simp] theorem State.setSector_asm (s : State) (n : Nat) (x : Sector) : (s.setSector n x).asm = s.asm := rfl
@[simp] theorem State.setSector_alloc (s : State) (n : Nat) (x : Sector) : (s.setSector n x).alloc = s.alloc := rfl
@[simp] theorem State.setSector_holdoff (s : State) (n : Nat) (x : Sector) : (s.setSector n x).holdoff = s.holdoff := rfl
@[simp] theorem State.setSector_parts (s : State) (n : Nat) (x : Sector) : (s.setSector n x).parts = s.parts := rfl
@[simp] theorem State.setSector_roles (s : State) (n : Nat) (x : Sector) : (s.setSector n x).roles = s.roles := rfl
@[simp] theorem State.setSector_slices (s : State) (n : Nat) (x : Sector) : (s.setSector n x).slices = s.slices := rfl
@[simp] theorem State.setSector_sliceNow (s : State) (n : Nat) (x : Sector) : (s.setSector n x).sliceNow = s.sliceNow := rfl
@[simp] theorem State.setSector_secSlot (s : State) (n : Nat) (x : Sector) : (s.setSector n x).secSlot = s.secSlot := rfl
@[simp] theorem State.setSector_hostReads (s : State) (n : Nat) (x : Sector) : (s.setSector n x).hostReads = s.hostReads := rfl
@[simp] theorem State.setSector_logRead (s : State) (n : Nat) (x : Sector) : (s.setSector n x).logRead = s.logRead := rfl
@[simp] theorem State.setSector_perc (s : State) (n : Nat) (x : Sector) : (s.setSector n x).perc = s.perc := rfl
@[simp] theorem State.setSector_cupEn (s : State) (n : Nat) (x : Sector) : (s.setSector n x).cupEn = s.cupEn := rfl
@[simp] theorem State.setSector_cupPeriod (s : State) (n : Nat) (x : Sector) : (s.setSector n x).cupPeriod = s.cupPeriod := rfl
@[simp] theorem State.setSector_power (s : State) (n : Nat) (x : Sector) : (s.setSector n x).power = s.power := rfl
@[simp] theorem State.setSector_boot (s : State) (n : Nat) (x : Sector) : (s.setSector n x).boot = s.boot := rfl
@[simp] theorem State.setSector_fuses (s : State) (n : Nat) (x : Sector) : (s.setSector n x).fuses = s.fuses := rfl
@[simp] theorem State.setSector_shadow (s : State) (n : Nat) (x : Sector) : (s.setSector n x).shadow = s.shadow := rfl
@[simp] theorem State.setSector_flash (s : State) (n : Nat) (x : Sector) : (s.setSector n x).flash = s.flash := rfl
@[simp] theorem State.setSector_smbAddr (s : State) (n : Nat) (x : Sector) : (s.setSector n x).smbAddr = s.smbAddr := rfl
@[simp] theorem State.setSector_tap (s : State) (n : Nat) (x : Sector) : (s.setSector n x).tap = s.tap := rfl
@[simp] theorem State.setSector_dbgAccess (s : State) (n : Nat) (x : Sector) : (s.setSector n x).dbgAccess = s.dbgAccess := rfl
@[simp] theorem State.setSector_readOut (s : State) (n : Nat) (x : Sector) : (s.setSector n x).readOut = s.readOut := rfl
@[simp] theorem State.setSector_drawn (s : State) (n : Nat) (x : Sector) : (s.setSector n x).drawn = s.drawn := rfl
@[simp] theorem State.setSector_tm (s : State) (n : Nat) (x : Sector) (i : Nat) : (s.setSector n x).tm i = s.tm i := rfl
@[simp] theorem State.setSector_tile (s : State) (n : Nat) (x : Sector) (i : Nat) : (s.setSector n x).tile i = s.tile i := rfl
@[simp] theorem State.setSector_link (s : State) (n : Nat) (x : Sector) (i : Nat) : (s.setSector n x).link i = s.link i := rfl
@[simp] theorem State.setSector_task (s : State) (n : Nat) (x : Sector) (i : Nat) : (s.setSector n x).task i = s.task i := rfl
@[simp] theorem State.setSector_evb (s : State) (n : Nat) (x : Sector) (i : Nat) : (s.setSector n x).evb i = s.evb i := rfl
@[simp] theorem State.setSector_queue (s : State) (n : Nat) (x : Sector) (i : Nat) : (s.setSector n x).queue i = s.queue i := rfl
@[simp] theorem State.setSector_role (s : State) (n : Nat) (x : Sector) (i : Nat) : (s.setSector n x).role i = s.role i := rfl
@[simp] theorem State.setSector_part (s : State) (n : Nat) (x : Sector) (i : Nat) : (s.setSector n x).part i = s.part i := rfl
@[simp] theorem State.setSector_port (s : State) (n : Nat) (x : Sector) (i : Nat) : (s.setSector n x).port i = s.port i := rfl
@[simp] theorem State.setSector_inFlight (s : State) (n : Nat) (x : Sector) (i : Nat) : (s.setSector n x).inFlight i = s.inFlight i := rfl
@[simp] theorem State.setSector_buffer (s : State) (n : Nat) (x : Sector) (i : Nat) : (s.setSector n x).buffer i = s.buffer i := rfl
@[simp] theorem State.setSector_lane (s : State) (n : Nat) (x : Sector) (i : Nat) : (s.setSector n x).lane i = s.lane i := rfl
@[simp] theorem State.setSector_stream (s : State) (n : Nat) (x : Sector) (i : Nat) : (s.setSector n x).stream i = s.stream i := rfl
@[simp] theorem State.setSector_sector_same (s : State) (n : Nat) (x : Sector) : (s.setSector n x).sector n = x := by
  unfold State.sector State.setSector; exact tget_tset_same _ _ _ _
theorem State.setSector_sector (s : State) (n : Nat) (x : Sector) (i : Nat) : (s.setSector n x).sector i = if i = n then x else s.sector i := by
  unfold State.sector State.setSector; exact tget_tset _ _ _ _ _

/-! ## updSector -/

@[simp] theorem State.updSector_pending (s : State) (n : Nat) (f : Sector → Sector) : (s.updSector n f).pending = s.pending := rfl
@[simp] theorem State.updSector_tileMap (s : State) (n : Nat) (f : Sector → Sector) : (s.updSector n f).tileMap = s.tileMap := rfl
@[simp] theorem State.updSector_win (s : State) (n : Nat) (f : Sector → Sector) : (s.updSector n f).win = s.win := rfl
@[simp] theorem State.updSector_links (s : State) (n : Nat) (f : Sector → Sector) : (s.updSector n f).links = s.links := rfl
@[simp] theorem State.updSector_tiles (s : State) (n : Nat) (f : Sector → Sector) : (s.updSector n f).tiles = s.tiles := rfl
@[simp] theorem State.updSector_tasks (s : State) (n : Nat) (f : Sector → Sector) : (s.updSector n f).tasks = s.tasks := rfl
@[simp] theorem State.updSector_grants (s : State) (n : Nat) (f : Sector → Sector) : (s.updSector n f).grants = s.grants := rfl
@[simp] theorem State.updSector_dones (s : State) (n : Nat) (f : Sector → Sector) : (s.updSector n f).dones = s.dones := rfl
@[simp] theorem State.updSector_getWorks (s : State) (n : Nat) (f : Sector → Sector) : (s.updSector n f).getWorks = s.getWorks := rfl
@[simp] theorem State.updSector_notifies (s : State) (n : Nat) (f : Sector → Sector) : (s.updSector n f).notifies = s.notifies := rfl
@[simp] theorem State.updSector_mem (s : State) (n : Nat) (f : Sector → Sector) : (s.updSector n f).mem = s.mem := rfl
@[simp] theorem State.updSector_mesh (s : State) (n : Nat) (f : Sector → Sector) : (s.updSector n f).mesh = s.mesh := rfl
@[simp] theorem State.updSector_events (s : State) (n : Nat) (f : Sector → Sector) : (s.updSector n f).events = s.events := rfl
@[simp] theorem State.updSector_queues (s : State) (n : Nat) (f : Sector → Sector) : (s.updSector n f).queues = s.queues := rfl
@[simp] theorem State.updSector_ports (s : State) (n : Nat) (f : Sector → Sector) : (s.updSector n f).ports = s.ports := rfl
@[simp] theorem State.updSector_hostWrites (s : State) (n : Nat) (f : Sector → Sector) : (s.updSector n f).hostWrites = s.hostWrites := rfl
@[simp] theorem State.updSector_starts (s : State) (n : Nat) (f : Sector → Sector) : (s.updSector n f).starts = s.starts := rfl
@[simp] theorem State.updSector_buffers (s : State) (n : Nat) (f : Sector → Sector) : (s.updSector n f).buffers = s.buffers := rfl
@[simp] theorem State.updSector_running (s : State) (n : Nat) (f : Sector → Sector) : (s.updSector n f).running = s.running := rfl
@[simp] theorem State.updSector_flights (s : State) (n : Nat) (f : Sector → Sector) : (s.updSector n f).flights = s.flights := rfl
@[simp] theorem State.updSector_faults (s : State) (n : Nat) (f : Sector → Sector) : (s.updSector n f).faults = s.faults := rfl
@[simp] theorem State.updSector_recovery (s : State) (n : Nat) (f : Sector → Sector) : (s.updSector n f).recovery = s.recovery := rfl
@[simp] theorem State.updSector_log (s : State) (n : Nat) (f : Sector → Sector) : (s.updSector n f).log = s.log := rfl
@[simp] theorem State.updSector_logNext (s : State) (n : Nat) (f : Sector → Sector) : (s.updSector n f).logNext = s.logNext := rfl
@[simp] theorem State.updSector_usPhase (s : State) (n : Nat) (f : Sector → Sector) : (s.updSector n f).usPhase = s.usPhase := rfl
@[simp] theorem State.updSector_time (s : State) (n : Nat) (f : Sector → Sector) : (s.updSector n f).time = s.time := rfl
@[simp] theorem State.updSector_cells (s : State) (n : Nat) (f : Sector → Sector) : (s.updSector n f).cells = s.cells := rfl
@[simp] theorem State.updSector_lanes (s : State) (n : Nat) (f : Sector → Sector) : (s.updSector n f).lanes = s.lanes := rfl
@[simp] theorem State.updSector_partners (s : State) (n : Nat) (f : Sector → Sector) : (s.updSector n f).partners = s.partners := rfl
@[simp] theorem State.updSector_rules (s : State) (n : Nat) (f : Sector → Sector) : (s.updSector n f).rules = s.rules := rfl
@[simp] theorem State.updSector_streams (s : State) (n : Nat) (f : Sector → Sector) : (s.updSector n f).streams = s.streams := rfl
@[simp] theorem State.updSector_asm (s : State) (n : Nat) (f : Sector → Sector) : (s.updSector n f).asm = s.asm := rfl
@[simp] theorem State.updSector_alloc (s : State) (n : Nat) (f : Sector → Sector) : (s.updSector n f).alloc = s.alloc := rfl
@[simp] theorem State.updSector_holdoff (s : State) (n : Nat) (f : Sector → Sector) : (s.updSector n f).holdoff = s.holdoff := rfl
@[simp] theorem State.updSector_parts (s : State) (n : Nat) (f : Sector → Sector) : (s.updSector n f).parts = s.parts := rfl
@[simp] theorem State.updSector_roles (s : State) (n : Nat) (f : Sector → Sector) : (s.updSector n f).roles = s.roles := rfl
@[simp] theorem State.updSector_slices (s : State) (n : Nat) (f : Sector → Sector) : (s.updSector n f).slices = s.slices := rfl
@[simp] theorem State.updSector_sliceNow (s : State) (n : Nat) (f : Sector → Sector) : (s.updSector n f).sliceNow = s.sliceNow := rfl
@[simp] theorem State.updSector_secSlot (s : State) (n : Nat) (f : Sector → Sector) : (s.updSector n f).secSlot = s.secSlot := rfl
@[simp] theorem State.updSector_hostReads (s : State) (n : Nat) (f : Sector → Sector) : (s.updSector n f).hostReads = s.hostReads := rfl
@[simp] theorem State.updSector_logRead (s : State) (n : Nat) (f : Sector → Sector) : (s.updSector n f).logRead = s.logRead := rfl
@[simp] theorem State.updSector_perc (s : State) (n : Nat) (f : Sector → Sector) : (s.updSector n f).perc = s.perc := rfl
@[simp] theorem State.updSector_cupEn (s : State) (n : Nat) (f : Sector → Sector) : (s.updSector n f).cupEn = s.cupEn := rfl
@[simp] theorem State.updSector_cupPeriod (s : State) (n : Nat) (f : Sector → Sector) : (s.updSector n f).cupPeriod = s.cupPeriod := rfl
@[simp] theorem State.updSector_power (s : State) (n : Nat) (f : Sector → Sector) : (s.updSector n f).power = s.power := rfl
@[simp] theorem State.updSector_boot (s : State) (n : Nat) (f : Sector → Sector) : (s.updSector n f).boot = s.boot := rfl
@[simp] theorem State.updSector_fuses (s : State) (n : Nat) (f : Sector → Sector) : (s.updSector n f).fuses = s.fuses := rfl
@[simp] theorem State.updSector_shadow (s : State) (n : Nat) (f : Sector → Sector) : (s.updSector n f).shadow = s.shadow := rfl
@[simp] theorem State.updSector_flash (s : State) (n : Nat) (f : Sector → Sector) : (s.updSector n f).flash = s.flash := rfl
@[simp] theorem State.updSector_smbAddr (s : State) (n : Nat) (f : Sector → Sector) : (s.updSector n f).smbAddr = s.smbAddr := rfl
@[simp] theorem State.updSector_tap (s : State) (n : Nat) (f : Sector → Sector) : (s.updSector n f).tap = s.tap := rfl
@[simp] theorem State.updSector_dbgAccess (s : State) (n : Nat) (f : Sector → Sector) : (s.updSector n f).dbgAccess = s.dbgAccess := rfl
@[simp] theorem State.updSector_readOut (s : State) (n : Nat) (f : Sector → Sector) : (s.updSector n f).readOut = s.readOut := rfl
@[simp] theorem State.updSector_drawn (s : State) (n : Nat) (f : Sector → Sector) : (s.updSector n f).drawn = s.drawn := rfl
@[simp] theorem State.updSector_tm (s : State) (n : Nat) (f : Sector → Sector) (i : Nat) : (s.updSector n f).tm i = s.tm i := rfl
@[simp] theorem State.updSector_tile (s : State) (n : Nat) (f : Sector → Sector) (i : Nat) : (s.updSector n f).tile i = s.tile i := rfl
@[simp] theorem State.updSector_link (s : State) (n : Nat) (f : Sector → Sector) (i : Nat) : (s.updSector n f).link i = s.link i := rfl
@[simp] theorem State.updSector_task (s : State) (n : Nat) (f : Sector → Sector) (i : Nat) : (s.updSector n f).task i = s.task i := rfl
@[simp] theorem State.updSector_evb (s : State) (n : Nat) (f : Sector → Sector) (i : Nat) : (s.updSector n f).evb i = s.evb i := rfl
@[simp] theorem State.updSector_queue (s : State) (n : Nat) (f : Sector → Sector) (i : Nat) : (s.updSector n f).queue i = s.queue i := rfl
@[simp] theorem State.updSector_role (s : State) (n : Nat) (f : Sector → Sector) (i : Nat) : (s.updSector n f).role i = s.role i := rfl
@[simp] theorem State.updSector_part (s : State) (n : Nat) (f : Sector → Sector) (i : Nat) : (s.updSector n f).part i = s.part i := rfl
@[simp] theorem State.updSector_port (s : State) (n : Nat) (f : Sector → Sector) (i : Nat) : (s.updSector n f).port i = s.port i := rfl
@[simp] theorem State.updSector_inFlight (s : State) (n : Nat) (f : Sector → Sector) (i : Nat) : (s.updSector n f).inFlight i = s.inFlight i := rfl
@[simp] theorem State.updSector_buffer (s : State) (n : Nat) (f : Sector → Sector) (i : Nat) : (s.updSector n f).buffer i = s.buffer i := rfl
@[simp] theorem State.updSector_lane (s : State) (n : Nat) (f : Sector → Sector) (i : Nat) : (s.updSector n f).lane i = s.lane i := rfl
@[simp] theorem State.updSector_stream (s : State) (n : Nat) (f : Sector → Sector) (i : Nat) : (s.updSector n f).stream i = s.stream i := rfl
@[simp] theorem State.updSector_sector_same (s : State) (n : Nat) (f : Sector → Sector) : (s.updSector n f).sector n = f (s.sector n) := by
  unfold State.sector State.updSector; exact tget_tset_same _ _ _ _
theorem State.updSector_sector (s : State) (n : Nat) (f : Sector → Sector) (i : Nat) : (s.updSector n f).sector i = if i = n then f (s.sector n) else s.sector i := by
  unfold State.sector State.updSector; exact tget_tset _ _ _ _ _

/-! ## setEvb -/

@[simp] theorem State.setEvb_pending (s : State) (r : Nat) (x : EventBuf) : (s.setEvb r x).pending = s.pending := rfl
@[simp] theorem State.setEvb_tileMap (s : State) (r : Nat) (x : EventBuf) : (s.setEvb r x).tileMap = s.tileMap := rfl
@[simp] theorem State.setEvb_win (s : State) (r : Nat) (x : EventBuf) : (s.setEvb r x).win = s.win := rfl
@[simp] theorem State.setEvb_links (s : State) (r : Nat) (x : EventBuf) : (s.setEvb r x).links = s.links := rfl
@[simp] theorem State.setEvb_tiles (s : State) (r : Nat) (x : EventBuf) : (s.setEvb r x).tiles = s.tiles := rfl
@[simp] theorem State.setEvb_tasks (s : State) (r : Nat) (x : EventBuf) : (s.setEvb r x).tasks = s.tasks := rfl
@[simp] theorem State.setEvb_sectors (s : State) (r : Nat) (x : EventBuf) : (s.setEvb r x).sectors = s.sectors := rfl
@[simp] theorem State.setEvb_grants (s : State) (r : Nat) (x : EventBuf) : (s.setEvb r x).grants = s.grants := rfl
@[simp] theorem State.setEvb_dones (s : State) (r : Nat) (x : EventBuf) : (s.setEvb r x).dones = s.dones := rfl
@[simp] theorem State.setEvb_getWorks (s : State) (r : Nat) (x : EventBuf) : (s.setEvb r x).getWorks = s.getWorks := rfl
@[simp] theorem State.setEvb_notifies (s : State) (r : Nat) (x : EventBuf) : (s.setEvb r x).notifies = s.notifies := rfl
@[simp] theorem State.setEvb_mem (s : State) (r : Nat) (x : EventBuf) : (s.setEvb r x).mem = s.mem := rfl
@[simp] theorem State.setEvb_mesh (s : State) (r : Nat) (x : EventBuf) : (s.setEvb r x).mesh = s.mesh := rfl
@[simp] theorem State.setEvb_queues (s : State) (r : Nat) (x : EventBuf) : (s.setEvb r x).queues = s.queues := rfl
@[simp] theorem State.setEvb_ports (s : State) (r : Nat) (x : EventBuf) : (s.setEvb r x).ports = s.ports := rfl
@[simp] theorem State.setEvb_hostWrites (s : State) (r : Nat) (x : EventBuf) : (s.setEvb r x).hostWrites = s.hostWrites := rfl
@[simp] theorem State.setEvb_starts (s : State) (r : Nat) (x : EventBuf) : (s.setEvb r x).starts = s.starts := rfl
@[simp] theorem State.setEvb_buffers (s : State) (r : Nat) (x : EventBuf) : (s.setEvb r x).buffers = s.buffers := rfl
@[simp] theorem State.setEvb_running (s : State) (r : Nat) (x : EventBuf) : (s.setEvb r x).running = s.running := rfl
@[simp] theorem State.setEvb_flights (s : State) (r : Nat) (x : EventBuf) : (s.setEvb r x).flights = s.flights := rfl
@[simp] theorem State.setEvb_faults (s : State) (r : Nat) (x : EventBuf) : (s.setEvb r x).faults = s.faults := rfl
@[simp] theorem State.setEvb_recovery (s : State) (r : Nat) (x : EventBuf) : (s.setEvb r x).recovery = s.recovery := rfl
@[simp] theorem State.setEvb_log (s : State) (r : Nat) (x : EventBuf) : (s.setEvb r x).log = s.log := rfl
@[simp] theorem State.setEvb_logNext (s : State) (r : Nat) (x : EventBuf) : (s.setEvb r x).logNext = s.logNext := rfl
@[simp] theorem State.setEvb_usPhase (s : State) (r : Nat) (x : EventBuf) : (s.setEvb r x).usPhase = s.usPhase := rfl
@[simp] theorem State.setEvb_time (s : State) (r : Nat) (x : EventBuf) : (s.setEvb r x).time = s.time := rfl
@[simp] theorem State.setEvb_cells (s : State) (r : Nat) (x : EventBuf) : (s.setEvb r x).cells = s.cells := rfl
@[simp] theorem State.setEvb_lanes (s : State) (r : Nat) (x : EventBuf) : (s.setEvb r x).lanes = s.lanes := rfl
@[simp] theorem State.setEvb_partners (s : State) (r : Nat) (x : EventBuf) : (s.setEvb r x).partners = s.partners := rfl
@[simp] theorem State.setEvb_rules (s : State) (r : Nat) (x : EventBuf) : (s.setEvb r x).rules = s.rules := rfl
@[simp] theorem State.setEvb_streams (s : State) (r : Nat) (x : EventBuf) : (s.setEvb r x).streams = s.streams := rfl
@[simp] theorem State.setEvb_asm (s : State) (r : Nat) (x : EventBuf) : (s.setEvb r x).asm = s.asm := rfl
@[simp] theorem State.setEvb_alloc (s : State) (r : Nat) (x : EventBuf) : (s.setEvb r x).alloc = s.alloc := rfl
@[simp] theorem State.setEvb_holdoff (s : State) (r : Nat) (x : EventBuf) : (s.setEvb r x).holdoff = s.holdoff := rfl
@[simp] theorem State.setEvb_parts (s : State) (r : Nat) (x : EventBuf) : (s.setEvb r x).parts = s.parts := rfl
@[simp] theorem State.setEvb_roles (s : State) (r : Nat) (x : EventBuf) : (s.setEvb r x).roles = s.roles := rfl
@[simp] theorem State.setEvb_slices (s : State) (r : Nat) (x : EventBuf) : (s.setEvb r x).slices = s.slices := rfl
@[simp] theorem State.setEvb_sliceNow (s : State) (r : Nat) (x : EventBuf) : (s.setEvb r x).sliceNow = s.sliceNow := rfl
@[simp] theorem State.setEvb_secSlot (s : State) (r : Nat) (x : EventBuf) : (s.setEvb r x).secSlot = s.secSlot := rfl
@[simp] theorem State.setEvb_hostReads (s : State) (r : Nat) (x : EventBuf) : (s.setEvb r x).hostReads = s.hostReads := rfl
@[simp] theorem State.setEvb_logRead (s : State) (r : Nat) (x : EventBuf) : (s.setEvb r x).logRead = s.logRead := rfl
@[simp] theorem State.setEvb_perc (s : State) (r : Nat) (x : EventBuf) : (s.setEvb r x).perc = s.perc := rfl
@[simp] theorem State.setEvb_cupEn (s : State) (r : Nat) (x : EventBuf) : (s.setEvb r x).cupEn = s.cupEn := rfl
@[simp] theorem State.setEvb_cupPeriod (s : State) (r : Nat) (x : EventBuf) : (s.setEvb r x).cupPeriod = s.cupPeriod := rfl
@[simp] theorem State.setEvb_power (s : State) (r : Nat) (x : EventBuf) : (s.setEvb r x).power = s.power := rfl
@[simp] theorem State.setEvb_boot (s : State) (r : Nat) (x : EventBuf) : (s.setEvb r x).boot = s.boot := rfl
@[simp] theorem State.setEvb_fuses (s : State) (r : Nat) (x : EventBuf) : (s.setEvb r x).fuses = s.fuses := rfl
@[simp] theorem State.setEvb_shadow (s : State) (r : Nat) (x : EventBuf) : (s.setEvb r x).shadow = s.shadow := rfl
@[simp] theorem State.setEvb_flash (s : State) (r : Nat) (x : EventBuf) : (s.setEvb r x).flash = s.flash := rfl
@[simp] theorem State.setEvb_smbAddr (s : State) (r : Nat) (x : EventBuf) : (s.setEvb r x).smbAddr = s.smbAddr := rfl
@[simp] theorem State.setEvb_tap (s : State) (r : Nat) (x : EventBuf) : (s.setEvb r x).tap = s.tap := rfl
@[simp] theorem State.setEvb_dbgAccess (s : State) (r : Nat) (x : EventBuf) : (s.setEvb r x).dbgAccess = s.dbgAccess := rfl
@[simp] theorem State.setEvb_readOut (s : State) (r : Nat) (x : EventBuf) : (s.setEvb r x).readOut = s.readOut := rfl
@[simp] theorem State.setEvb_drawn (s : State) (r : Nat) (x : EventBuf) : (s.setEvb r x).drawn = s.drawn := rfl
@[simp] theorem State.setEvb_tm (s : State) (r : Nat) (x : EventBuf) (i : Nat) : (s.setEvb r x).tm i = s.tm i := rfl
@[simp] theorem State.setEvb_tile (s : State) (r : Nat) (x : EventBuf) (i : Nat) : (s.setEvb r x).tile i = s.tile i := rfl
@[simp] theorem State.setEvb_link (s : State) (r : Nat) (x : EventBuf) (i : Nat) : (s.setEvb r x).link i = s.link i := rfl
@[simp] theorem State.setEvb_task (s : State) (r : Nat) (x : EventBuf) (i : Nat) : (s.setEvb r x).task i = s.task i := rfl
@[simp] theorem State.setEvb_sector (s : State) (r : Nat) (x : EventBuf) (i : Nat) : (s.setEvb r x).sector i = s.sector i := rfl
@[simp] theorem State.setEvb_queue (s : State) (r : Nat) (x : EventBuf) (i : Nat) : (s.setEvb r x).queue i = s.queue i := rfl
@[simp] theorem State.setEvb_role (s : State) (r : Nat) (x : EventBuf) (i : Nat) : (s.setEvb r x).role i = s.role i := rfl
@[simp] theorem State.setEvb_part (s : State) (r : Nat) (x : EventBuf) (i : Nat) : (s.setEvb r x).part i = s.part i := rfl
@[simp] theorem State.setEvb_port (s : State) (r : Nat) (x : EventBuf) (i : Nat) : (s.setEvb r x).port i = s.port i := rfl
@[simp] theorem State.setEvb_inFlight (s : State) (r : Nat) (x : EventBuf) (i : Nat) : (s.setEvb r x).inFlight i = s.inFlight i := rfl
@[simp] theorem State.setEvb_buffer (s : State) (r : Nat) (x : EventBuf) (i : Nat) : (s.setEvb r x).buffer i = s.buffer i := rfl
@[simp] theorem State.setEvb_lane (s : State) (r : Nat) (x : EventBuf) (i : Nat) : (s.setEvb r x).lane i = s.lane i := rfl
@[simp] theorem State.setEvb_stream (s : State) (r : Nat) (x : EventBuf) (i : Nat) : (s.setEvb r x).stream i = s.stream i := rfl
@[simp] theorem State.setEvb_evb_same (s : State) (r : Nat) (x : EventBuf) : (s.setEvb r x).evb r = x := by
  unfold State.evb State.setEvb; exact tget_tset_same _ _ _ _
theorem State.setEvb_evb (s : State) (r : Nat) (x : EventBuf) (i : Nat) : (s.setEvb r x).evb i = if i = r then x else s.evb i := by
  unfold State.evb State.setEvb; exact tget_tset _ _ _ _ _

/-! ## setMem -/

@[simp] theorem State.setMem_pending (s : State) (m : Memory) : (s.setMem m).pending = s.pending := rfl
@[simp] theorem State.setMem_tileMap (s : State) (m : Memory) : (s.setMem m).tileMap = s.tileMap := rfl
@[simp] theorem State.setMem_win (s : State) (m : Memory) : (s.setMem m).win = s.win := rfl
@[simp] theorem State.setMem_links (s : State) (m : Memory) : (s.setMem m).links = s.links := rfl
@[simp] theorem State.setMem_tiles (s : State) (m : Memory) : (s.setMem m).tiles = s.tiles := rfl
@[simp] theorem State.setMem_tasks (s : State) (m : Memory) : (s.setMem m).tasks = s.tasks := rfl
@[simp] theorem State.setMem_sectors (s : State) (m : Memory) : (s.setMem m).sectors = s.sectors := rfl
@[simp] theorem State.setMem_grants (s : State) (m : Memory) : (s.setMem m).grants = s.grants := rfl
@[simp] theorem State.setMem_dones (s : State) (m : Memory) : (s.setMem m).dones = s.dones := rfl
@[simp] theorem State.setMem_getWorks (s : State) (m : Memory) : (s.setMem m).getWorks = s.getWorks := rfl
@[simp] theorem State.setMem_notifies (s : State) (m : Memory) : (s.setMem m).notifies = s.notifies := rfl
@[simp] theorem State.setMem_mesh (s : State) (m : Memory) : (s.setMem m).mesh = s.mesh := rfl
@[simp] theorem State.setMem_events (s : State) (m : Memory) : (s.setMem m).events = s.events := rfl
@[simp] theorem State.setMem_queues (s : State) (m : Memory) : (s.setMem m).queues = s.queues := rfl
@[simp] theorem State.setMem_ports (s : State) (m : Memory) : (s.setMem m).ports = s.ports := rfl
@[simp] theorem State.setMem_hostWrites (s : State) (m : Memory) : (s.setMem m).hostWrites = s.hostWrites := rfl
@[simp] theorem State.setMem_starts (s : State) (m : Memory) : (s.setMem m).starts = s.starts := rfl
@[simp] theorem State.setMem_buffers (s : State) (m : Memory) : (s.setMem m).buffers = s.buffers := rfl
@[simp] theorem State.setMem_running (s : State) (m : Memory) : (s.setMem m).running = s.running := rfl
@[simp] theorem State.setMem_flights (s : State) (m : Memory) : (s.setMem m).flights = s.flights := rfl
@[simp] theorem State.setMem_faults (s : State) (m : Memory) : (s.setMem m).faults = s.faults := rfl
@[simp] theorem State.setMem_recovery (s : State) (m : Memory) : (s.setMem m).recovery = s.recovery := rfl
@[simp] theorem State.setMem_log (s : State) (m : Memory) : (s.setMem m).log = s.log := rfl
@[simp] theorem State.setMem_logNext (s : State) (m : Memory) : (s.setMem m).logNext = s.logNext := rfl
@[simp] theorem State.setMem_usPhase (s : State) (m : Memory) : (s.setMem m).usPhase = s.usPhase := rfl
@[simp] theorem State.setMem_time (s : State) (m : Memory) : (s.setMem m).time = s.time := rfl
@[simp] theorem State.setMem_cells (s : State) (m : Memory) : (s.setMem m).cells = s.cells := rfl
@[simp] theorem State.setMem_lanes (s : State) (m : Memory) : (s.setMem m).lanes = s.lanes := rfl
@[simp] theorem State.setMem_partners (s : State) (m : Memory) : (s.setMem m).partners = s.partners := rfl
@[simp] theorem State.setMem_rules (s : State) (m : Memory) : (s.setMem m).rules = s.rules := rfl
@[simp] theorem State.setMem_streams (s : State) (m : Memory) : (s.setMem m).streams = s.streams := rfl
@[simp] theorem State.setMem_asm (s : State) (m : Memory) : (s.setMem m).asm = s.asm := rfl
@[simp] theorem State.setMem_alloc (s : State) (m : Memory) : (s.setMem m).alloc = s.alloc := rfl
@[simp] theorem State.setMem_holdoff (s : State) (m : Memory) : (s.setMem m).holdoff = s.holdoff := rfl
@[simp] theorem State.setMem_parts (s : State) (m : Memory) : (s.setMem m).parts = s.parts := rfl
@[simp] theorem State.setMem_roles (s : State) (m : Memory) : (s.setMem m).roles = s.roles := rfl
@[simp] theorem State.setMem_slices (s : State) (m : Memory) : (s.setMem m).slices = s.slices := rfl
@[simp] theorem State.setMem_sliceNow (s : State) (m : Memory) : (s.setMem m).sliceNow = s.sliceNow := rfl
@[simp] theorem State.setMem_secSlot (s : State) (m : Memory) : (s.setMem m).secSlot = s.secSlot := rfl
@[simp] theorem State.setMem_hostReads (s : State) (m : Memory) : (s.setMem m).hostReads = s.hostReads := rfl
@[simp] theorem State.setMem_logRead (s : State) (m : Memory) : (s.setMem m).logRead = s.logRead := rfl
@[simp] theorem State.setMem_perc (s : State) (m : Memory) : (s.setMem m).perc = s.perc := rfl
@[simp] theorem State.setMem_cupEn (s : State) (m : Memory) : (s.setMem m).cupEn = s.cupEn := rfl
@[simp] theorem State.setMem_cupPeriod (s : State) (m : Memory) : (s.setMem m).cupPeriod = s.cupPeriod := rfl
@[simp] theorem State.setMem_power (s : State) (m : Memory) : (s.setMem m).power = s.power := rfl
@[simp] theorem State.setMem_boot (s : State) (m : Memory) : (s.setMem m).boot = s.boot := rfl
@[simp] theorem State.setMem_fuses (s : State) (m : Memory) : (s.setMem m).fuses = s.fuses := rfl
@[simp] theorem State.setMem_shadow (s : State) (m : Memory) : (s.setMem m).shadow = s.shadow := rfl
@[simp] theorem State.setMem_flash (s : State) (m : Memory) : (s.setMem m).flash = s.flash := rfl
@[simp] theorem State.setMem_smbAddr (s : State) (m : Memory) : (s.setMem m).smbAddr = s.smbAddr := rfl
@[simp] theorem State.setMem_tap (s : State) (m : Memory) : (s.setMem m).tap = s.tap := rfl
@[simp] theorem State.setMem_dbgAccess (s : State) (m : Memory) : (s.setMem m).dbgAccess = s.dbgAccess := rfl
@[simp] theorem State.setMem_readOut (s : State) (m : Memory) : (s.setMem m).readOut = s.readOut := rfl
@[simp] theorem State.setMem_drawn (s : State) (m : Memory) : (s.setMem m).drawn = s.drawn := rfl
@[simp] theorem State.setMem_tm (s : State) (m : Memory) (i : Nat) : (s.setMem m).tm i = s.tm i := rfl
@[simp] theorem State.setMem_tile (s : State) (m : Memory) (i : Nat) : (s.setMem m).tile i = s.tile i := rfl
@[simp] theorem State.setMem_link (s : State) (m : Memory) (i : Nat) : (s.setMem m).link i = s.link i := rfl
@[simp] theorem State.setMem_task (s : State) (m : Memory) (i : Nat) : (s.setMem m).task i = s.task i := rfl
@[simp] theorem State.setMem_sector (s : State) (m : Memory) (i : Nat) : (s.setMem m).sector i = s.sector i := rfl
@[simp] theorem State.setMem_evb (s : State) (m : Memory) (i : Nat) : (s.setMem m).evb i = s.evb i := rfl
@[simp] theorem State.setMem_queue (s : State) (m : Memory) (i : Nat) : (s.setMem m).queue i = s.queue i := rfl
@[simp] theorem State.setMem_role (s : State) (m : Memory) (i : Nat) : (s.setMem m).role i = s.role i := rfl
@[simp] theorem State.setMem_part (s : State) (m : Memory) (i : Nat) : (s.setMem m).part i = s.part i := rfl
@[simp] theorem State.setMem_port (s : State) (m : Memory) (i : Nat) : (s.setMem m).port i = s.port i := rfl
@[simp] theorem State.setMem_inFlight (s : State) (m : Memory) (i : Nat) : (s.setMem m).inFlight i = s.inFlight i := rfl
@[simp] theorem State.setMem_buffer (s : State) (m : Memory) (i : Nat) : (s.setMem m).buffer i = s.buffer i := rfl
@[simp] theorem State.setMem_lane (s : State) (m : Memory) (i : Nat) : (s.setMem m).lane i = s.lane i := rfl
@[simp] theorem State.setMem_stream (s : State) (m : Memory) (i : Nat) : (s.setMem m).stream i = s.stream i := rfl

/-! ## setQueue -/

@[simp] theorem State.setQueue_pending (s : State) (q : Nat) (x : Queue) : (s.setQueue q x).pending = s.pending := rfl
@[simp] theorem State.setQueue_tileMap (s : State) (q : Nat) (x : Queue) : (s.setQueue q x).tileMap = s.tileMap := rfl
@[simp] theorem State.setQueue_win (s : State) (q : Nat) (x : Queue) : (s.setQueue q x).win = s.win := rfl
@[simp] theorem State.setQueue_links (s : State) (q : Nat) (x : Queue) : (s.setQueue q x).links = s.links := rfl
@[simp] theorem State.setQueue_tiles (s : State) (q : Nat) (x : Queue) : (s.setQueue q x).tiles = s.tiles := rfl
@[simp] theorem State.setQueue_tasks (s : State) (q : Nat) (x : Queue) : (s.setQueue q x).tasks = s.tasks := rfl
@[simp] theorem State.setQueue_sectors (s : State) (q : Nat) (x : Queue) : (s.setQueue q x).sectors = s.sectors := rfl
@[simp] theorem State.setQueue_grants (s : State) (q : Nat) (x : Queue) : (s.setQueue q x).grants = s.grants := rfl
@[simp] theorem State.setQueue_dones (s : State) (q : Nat) (x : Queue) : (s.setQueue q x).dones = s.dones := rfl
@[simp] theorem State.setQueue_getWorks (s : State) (q : Nat) (x : Queue) : (s.setQueue q x).getWorks = s.getWorks := rfl
@[simp] theorem State.setQueue_notifies (s : State) (q : Nat) (x : Queue) : (s.setQueue q x).notifies = s.notifies := rfl
@[simp] theorem State.setQueue_mem (s : State) (q : Nat) (x : Queue) : (s.setQueue q x).mem = s.mem := rfl
@[simp] theorem State.setQueue_mesh (s : State) (q : Nat) (x : Queue) : (s.setQueue q x).mesh = s.mesh := rfl
@[simp] theorem State.setQueue_events (s : State) (q : Nat) (x : Queue) : (s.setQueue q x).events = s.events := rfl
@[simp] theorem State.setQueue_ports (s : State) (q : Nat) (x : Queue) : (s.setQueue q x).ports = s.ports := rfl
@[simp] theorem State.setQueue_hostWrites (s : State) (q : Nat) (x : Queue) : (s.setQueue q x).hostWrites = s.hostWrites := rfl
@[simp] theorem State.setQueue_starts (s : State) (q : Nat) (x : Queue) : (s.setQueue q x).starts = s.starts := rfl
@[simp] theorem State.setQueue_buffers (s : State) (q : Nat) (x : Queue) : (s.setQueue q x).buffers = s.buffers := rfl
@[simp] theorem State.setQueue_running (s : State) (q : Nat) (x : Queue) : (s.setQueue q x).running = s.running := rfl
@[simp] theorem State.setQueue_flights (s : State) (q : Nat) (x : Queue) : (s.setQueue q x).flights = s.flights := rfl
@[simp] theorem State.setQueue_faults (s : State) (q : Nat) (x : Queue) : (s.setQueue q x).faults = s.faults := rfl
@[simp] theorem State.setQueue_recovery (s : State) (q : Nat) (x : Queue) : (s.setQueue q x).recovery = s.recovery := rfl
@[simp] theorem State.setQueue_log (s : State) (q : Nat) (x : Queue) : (s.setQueue q x).log = s.log := rfl
@[simp] theorem State.setQueue_logNext (s : State) (q : Nat) (x : Queue) : (s.setQueue q x).logNext = s.logNext := rfl
@[simp] theorem State.setQueue_usPhase (s : State) (q : Nat) (x : Queue) : (s.setQueue q x).usPhase = s.usPhase := rfl
@[simp] theorem State.setQueue_time (s : State) (q : Nat) (x : Queue) : (s.setQueue q x).time = s.time := rfl
@[simp] theorem State.setQueue_cells (s : State) (q : Nat) (x : Queue) : (s.setQueue q x).cells = s.cells := rfl
@[simp] theorem State.setQueue_lanes (s : State) (q : Nat) (x : Queue) : (s.setQueue q x).lanes = s.lanes := rfl
@[simp] theorem State.setQueue_partners (s : State) (q : Nat) (x : Queue) : (s.setQueue q x).partners = s.partners := rfl
@[simp] theorem State.setQueue_rules (s : State) (q : Nat) (x : Queue) : (s.setQueue q x).rules = s.rules := rfl
@[simp] theorem State.setQueue_streams (s : State) (q : Nat) (x : Queue) : (s.setQueue q x).streams = s.streams := rfl
@[simp] theorem State.setQueue_asm (s : State) (q : Nat) (x : Queue) : (s.setQueue q x).asm = s.asm := rfl
@[simp] theorem State.setQueue_alloc (s : State) (q : Nat) (x : Queue) : (s.setQueue q x).alloc = s.alloc := rfl
@[simp] theorem State.setQueue_holdoff (s : State) (q : Nat) (x : Queue) : (s.setQueue q x).holdoff = s.holdoff := rfl
@[simp] theorem State.setQueue_parts (s : State) (q : Nat) (x : Queue) : (s.setQueue q x).parts = s.parts := rfl
@[simp] theorem State.setQueue_roles (s : State) (q : Nat) (x : Queue) : (s.setQueue q x).roles = s.roles := rfl
@[simp] theorem State.setQueue_slices (s : State) (q : Nat) (x : Queue) : (s.setQueue q x).slices = s.slices := rfl
@[simp] theorem State.setQueue_sliceNow (s : State) (q : Nat) (x : Queue) : (s.setQueue q x).sliceNow = s.sliceNow := rfl
@[simp] theorem State.setQueue_secSlot (s : State) (q : Nat) (x : Queue) : (s.setQueue q x).secSlot = s.secSlot := rfl
@[simp] theorem State.setQueue_hostReads (s : State) (q : Nat) (x : Queue) : (s.setQueue q x).hostReads = s.hostReads := rfl
@[simp] theorem State.setQueue_logRead (s : State) (q : Nat) (x : Queue) : (s.setQueue q x).logRead = s.logRead := rfl
@[simp] theorem State.setQueue_perc (s : State) (q : Nat) (x : Queue) : (s.setQueue q x).perc = s.perc := rfl
@[simp] theorem State.setQueue_cupEn (s : State) (q : Nat) (x : Queue) : (s.setQueue q x).cupEn = s.cupEn := rfl
@[simp] theorem State.setQueue_cupPeriod (s : State) (q : Nat) (x : Queue) : (s.setQueue q x).cupPeriod = s.cupPeriod := rfl
@[simp] theorem State.setQueue_power (s : State) (q : Nat) (x : Queue) : (s.setQueue q x).power = s.power := rfl
@[simp] theorem State.setQueue_boot (s : State) (q : Nat) (x : Queue) : (s.setQueue q x).boot = s.boot := rfl
@[simp] theorem State.setQueue_fuses (s : State) (q : Nat) (x : Queue) : (s.setQueue q x).fuses = s.fuses := rfl
@[simp] theorem State.setQueue_shadow (s : State) (q : Nat) (x : Queue) : (s.setQueue q x).shadow = s.shadow := rfl
@[simp] theorem State.setQueue_flash (s : State) (q : Nat) (x : Queue) : (s.setQueue q x).flash = s.flash := rfl
@[simp] theorem State.setQueue_smbAddr (s : State) (q : Nat) (x : Queue) : (s.setQueue q x).smbAddr = s.smbAddr := rfl
@[simp] theorem State.setQueue_tap (s : State) (q : Nat) (x : Queue) : (s.setQueue q x).tap = s.tap := rfl
@[simp] theorem State.setQueue_dbgAccess (s : State) (q : Nat) (x : Queue) : (s.setQueue q x).dbgAccess = s.dbgAccess := rfl
@[simp] theorem State.setQueue_readOut (s : State) (q : Nat) (x : Queue) : (s.setQueue q x).readOut = s.readOut := rfl
@[simp] theorem State.setQueue_drawn (s : State) (q : Nat) (x : Queue) : (s.setQueue q x).drawn = s.drawn := rfl
@[simp] theorem State.setQueue_tm (s : State) (q : Nat) (x : Queue) (i : Nat) : (s.setQueue q x).tm i = s.tm i := rfl
@[simp] theorem State.setQueue_tile (s : State) (q : Nat) (x : Queue) (i : Nat) : (s.setQueue q x).tile i = s.tile i := rfl
@[simp] theorem State.setQueue_link (s : State) (q : Nat) (x : Queue) (i : Nat) : (s.setQueue q x).link i = s.link i := rfl
@[simp] theorem State.setQueue_task (s : State) (q : Nat) (x : Queue) (i : Nat) : (s.setQueue q x).task i = s.task i := rfl
@[simp] theorem State.setQueue_sector (s : State) (q : Nat) (x : Queue) (i : Nat) : (s.setQueue q x).sector i = s.sector i := rfl
@[simp] theorem State.setQueue_evb (s : State) (q : Nat) (x : Queue) (i : Nat) : (s.setQueue q x).evb i = s.evb i := rfl
@[simp] theorem State.setQueue_role (s : State) (q : Nat) (x : Queue) (i : Nat) : (s.setQueue q x).role i = s.role i := rfl
@[simp] theorem State.setQueue_part (s : State) (q : Nat) (x : Queue) (i : Nat) : (s.setQueue q x).part i = s.part i := rfl
@[simp] theorem State.setQueue_port (s : State) (q : Nat) (x : Queue) (i : Nat) : (s.setQueue q x).port i = s.port i := rfl
@[simp] theorem State.setQueue_inFlight (s : State) (q : Nat) (x : Queue) (i : Nat) : (s.setQueue q x).inFlight i = s.inFlight i := rfl
@[simp] theorem State.setQueue_buffer (s : State) (q : Nat) (x : Queue) (i : Nat) : (s.setQueue q x).buffer i = s.buffer i := rfl
@[simp] theorem State.setQueue_lane (s : State) (q : Nat) (x : Queue) (i : Nat) : (s.setQueue q x).lane i = s.lane i := rfl
@[simp] theorem State.setQueue_stream (s : State) (q : Nat) (x : Queue) (i : Nat) : (s.setQueue q x).stream i = s.stream i := rfl
@[simp] theorem State.setQueue_queue_same (s : State) (q : Nat) (x : Queue) : (s.setQueue q x).queue q = x :=
  tget_tset_same (α := Queue) _ _ _ _
theorem State.setQueue_queue (s : State) (q : Nat) (x : Queue) (i : Nat) : (s.setQueue q x).queue i = if i = q then x else s.queue i := by
  by_cases h : i = q
  · rw [h, if_pos rfl]; exact State.setQueue_queue_same s q x
  · rw [if_neg h]; exact tget_tset_ne' _ _ _ h _

/-! ## updQueue -/

@[simp] theorem State.updQueue_pending (s : State) (q : Nat) (f : Queue → Queue) : (s.updQueue q f).pending = s.pending := rfl
@[simp] theorem State.updQueue_tileMap (s : State) (q : Nat) (f : Queue → Queue) : (s.updQueue q f).tileMap = s.tileMap := rfl
@[simp] theorem State.updQueue_win (s : State) (q : Nat) (f : Queue → Queue) : (s.updQueue q f).win = s.win := rfl
@[simp] theorem State.updQueue_links (s : State) (q : Nat) (f : Queue → Queue) : (s.updQueue q f).links = s.links := rfl
@[simp] theorem State.updQueue_tiles (s : State) (q : Nat) (f : Queue → Queue) : (s.updQueue q f).tiles = s.tiles := rfl
@[simp] theorem State.updQueue_tasks (s : State) (q : Nat) (f : Queue → Queue) : (s.updQueue q f).tasks = s.tasks := rfl
@[simp] theorem State.updQueue_sectors (s : State) (q : Nat) (f : Queue → Queue) : (s.updQueue q f).sectors = s.sectors := rfl
@[simp] theorem State.updQueue_grants (s : State) (q : Nat) (f : Queue → Queue) : (s.updQueue q f).grants = s.grants := rfl
@[simp] theorem State.updQueue_dones (s : State) (q : Nat) (f : Queue → Queue) : (s.updQueue q f).dones = s.dones := rfl
@[simp] theorem State.updQueue_getWorks (s : State) (q : Nat) (f : Queue → Queue) : (s.updQueue q f).getWorks = s.getWorks := rfl
@[simp] theorem State.updQueue_notifies (s : State) (q : Nat) (f : Queue → Queue) : (s.updQueue q f).notifies = s.notifies := rfl
@[simp] theorem State.updQueue_mem (s : State) (q : Nat) (f : Queue → Queue) : (s.updQueue q f).mem = s.mem := rfl
@[simp] theorem State.updQueue_mesh (s : State) (q : Nat) (f : Queue → Queue) : (s.updQueue q f).mesh = s.mesh := rfl
@[simp] theorem State.updQueue_events (s : State) (q : Nat) (f : Queue → Queue) : (s.updQueue q f).events = s.events := rfl
@[simp] theorem State.updQueue_ports (s : State) (q : Nat) (f : Queue → Queue) : (s.updQueue q f).ports = s.ports := rfl
@[simp] theorem State.updQueue_hostWrites (s : State) (q : Nat) (f : Queue → Queue) : (s.updQueue q f).hostWrites = s.hostWrites := rfl
@[simp] theorem State.updQueue_starts (s : State) (q : Nat) (f : Queue → Queue) : (s.updQueue q f).starts = s.starts := rfl
@[simp] theorem State.updQueue_buffers (s : State) (q : Nat) (f : Queue → Queue) : (s.updQueue q f).buffers = s.buffers := rfl
@[simp] theorem State.updQueue_running (s : State) (q : Nat) (f : Queue → Queue) : (s.updQueue q f).running = s.running := rfl
@[simp] theorem State.updQueue_flights (s : State) (q : Nat) (f : Queue → Queue) : (s.updQueue q f).flights = s.flights := rfl
@[simp] theorem State.updQueue_faults (s : State) (q : Nat) (f : Queue → Queue) : (s.updQueue q f).faults = s.faults := rfl
@[simp] theorem State.updQueue_recovery (s : State) (q : Nat) (f : Queue → Queue) : (s.updQueue q f).recovery = s.recovery := rfl
@[simp] theorem State.updQueue_log (s : State) (q : Nat) (f : Queue → Queue) : (s.updQueue q f).log = s.log := rfl
@[simp] theorem State.updQueue_logNext (s : State) (q : Nat) (f : Queue → Queue) : (s.updQueue q f).logNext = s.logNext := rfl
@[simp] theorem State.updQueue_usPhase (s : State) (q : Nat) (f : Queue → Queue) : (s.updQueue q f).usPhase = s.usPhase := rfl
@[simp] theorem State.updQueue_time (s : State) (q : Nat) (f : Queue → Queue) : (s.updQueue q f).time = s.time := rfl
@[simp] theorem State.updQueue_cells (s : State) (q : Nat) (f : Queue → Queue) : (s.updQueue q f).cells = s.cells := rfl
@[simp] theorem State.updQueue_lanes (s : State) (q : Nat) (f : Queue → Queue) : (s.updQueue q f).lanes = s.lanes := rfl
@[simp] theorem State.updQueue_partners (s : State) (q : Nat) (f : Queue → Queue) : (s.updQueue q f).partners = s.partners := rfl
@[simp] theorem State.updQueue_rules (s : State) (q : Nat) (f : Queue → Queue) : (s.updQueue q f).rules = s.rules := rfl
@[simp] theorem State.updQueue_streams (s : State) (q : Nat) (f : Queue → Queue) : (s.updQueue q f).streams = s.streams := rfl
@[simp] theorem State.updQueue_asm (s : State) (q : Nat) (f : Queue → Queue) : (s.updQueue q f).asm = s.asm := rfl
@[simp] theorem State.updQueue_alloc (s : State) (q : Nat) (f : Queue → Queue) : (s.updQueue q f).alloc = s.alloc := rfl
@[simp] theorem State.updQueue_holdoff (s : State) (q : Nat) (f : Queue → Queue) : (s.updQueue q f).holdoff = s.holdoff := rfl
@[simp] theorem State.updQueue_parts (s : State) (q : Nat) (f : Queue → Queue) : (s.updQueue q f).parts = s.parts := rfl
@[simp] theorem State.updQueue_roles (s : State) (q : Nat) (f : Queue → Queue) : (s.updQueue q f).roles = s.roles := rfl
@[simp] theorem State.updQueue_slices (s : State) (q : Nat) (f : Queue → Queue) : (s.updQueue q f).slices = s.slices := rfl
@[simp] theorem State.updQueue_sliceNow (s : State) (q : Nat) (f : Queue → Queue) : (s.updQueue q f).sliceNow = s.sliceNow := rfl
@[simp] theorem State.updQueue_secSlot (s : State) (q : Nat) (f : Queue → Queue) : (s.updQueue q f).secSlot = s.secSlot := rfl
@[simp] theorem State.updQueue_hostReads (s : State) (q : Nat) (f : Queue → Queue) : (s.updQueue q f).hostReads = s.hostReads := rfl
@[simp] theorem State.updQueue_logRead (s : State) (q : Nat) (f : Queue → Queue) : (s.updQueue q f).logRead = s.logRead := rfl
@[simp] theorem State.updQueue_perc (s : State) (q : Nat) (f : Queue → Queue) : (s.updQueue q f).perc = s.perc := rfl
@[simp] theorem State.updQueue_cupEn (s : State) (q : Nat) (f : Queue → Queue) : (s.updQueue q f).cupEn = s.cupEn := rfl
@[simp] theorem State.updQueue_cupPeriod (s : State) (q : Nat) (f : Queue → Queue) : (s.updQueue q f).cupPeriod = s.cupPeriod := rfl
@[simp] theorem State.updQueue_power (s : State) (q : Nat) (f : Queue → Queue) : (s.updQueue q f).power = s.power := rfl
@[simp] theorem State.updQueue_boot (s : State) (q : Nat) (f : Queue → Queue) : (s.updQueue q f).boot = s.boot := rfl
@[simp] theorem State.updQueue_fuses (s : State) (q : Nat) (f : Queue → Queue) : (s.updQueue q f).fuses = s.fuses := rfl
@[simp] theorem State.updQueue_shadow (s : State) (q : Nat) (f : Queue → Queue) : (s.updQueue q f).shadow = s.shadow := rfl
@[simp] theorem State.updQueue_flash (s : State) (q : Nat) (f : Queue → Queue) : (s.updQueue q f).flash = s.flash := rfl
@[simp] theorem State.updQueue_smbAddr (s : State) (q : Nat) (f : Queue → Queue) : (s.updQueue q f).smbAddr = s.smbAddr := rfl
@[simp] theorem State.updQueue_tap (s : State) (q : Nat) (f : Queue → Queue) : (s.updQueue q f).tap = s.tap := rfl
@[simp] theorem State.updQueue_dbgAccess (s : State) (q : Nat) (f : Queue → Queue) : (s.updQueue q f).dbgAccess = s.dbgAccess := rfl
@[simp] theorem State.updQueue_readOut (s : State) (q : Nat) (f : Queue → Queue) : (s.updQueue q f).readOut = s.readOut := rfl
@[simp] theorem State.updQueue_drawn (s : State) (q : Nat) (f : Queue → Queue) : (s.updQueue q f).drawn = s.drawn := rfl
@[simp] theorem State.updQueue_tm (s : State) (q : Nat) (f : Queue → Queue) (i : Nat) : (s.updQueue q f).tm i = s.tm i := rfl
@[simp] theorem State.updQueue_tile (s : State) (q : Nat) (f : Queue → Queue) (i : Nat) : (s.updQueue q f).tile i = s.tile i := rfl
@[simp] theorem State.updQueue_link (s : State) (q : Nat) (f : Queue → Queue) (i : Nat) : (s.updQueue q f).link i = s.link i := rfl
@[simp] theorem State.updQueue_task (s : State) (q : Nat) (f : Queue → Queue) (i : Nat) : (s.updQueue q f).task i = s.task i := rfl
@[simp] theorem State.updQueue_sector (s : State) (q : Nat) (f : Queue → Queue) (i : Nat) : (s.updQueue q f).sector i = s.sector i := rfl
@[simp] theorem State.updQueue_evb (s : State) (q : Nat) (f : Queue → Queue) (i : Nat) : (s.updQueue q f).evb i = s.evb i := rfl
@[simp] theorem State.updQueue_role (s : State) (q : Nat) (f : Queue → Queue) (i : Nat) : (s.updQueue q f).role i = s.role i := rfl
@[simp] theorem State.updQueue_part (s : State) (q : Nat) (f : Queue → Queue) (i : Nat) : (s.updQueue q f).part i = s.part i := rfl
@[simp] theorem State.updQueue_port (s : State) (q : Nat) (f : Queue → Queue) (i : Nat) : (s.updQueue q f).port i = s.port i := rfl
@[simp] theorem State.updQueue_inFlight (s : State) (q : Nat) (f : Queue → Queue) (i : Nat) : (s.updQueue q f).inFlight i = s.inFlight i := rfl
@[simp] theorem State.updQueue_buffer (s : State) (q : Nat) (f : Queue → Queue) (i : Nat) : (s.updQueue q f).buffer i = s.buffer i := rfl
@[simp] theorem State.updQueue_lane (s : State) (q : Nat) (f : Queue → Queue) (i : Nat) : (s.updQueue q f).lane i = s.lane i := rfl
@[simp] theorem State.updQueue_stream (s : State) (q : Nat) (f : Queue → Queue) (i : Nat) : (s.updQueue q f).stream i = s.stream i := rfl
@[simp] theorem State.updQueue_queue_same (s : State) (q : Nat) (f : Queue → Queue) : (s.updQueue q f).queue q = f (s.queue q) :=
  tget_tset_same (α := Queue) _ _ _ _
theorem State.updQueue_queue (s : State) (q : Nat) (f : Queue → Queue) (i : Nat) : (s.updQueue q f).queue i = if i = q then f (s.queue q) else s.queue i := by
  by_cases h : i = q
  · rw [h, if_pos rfl]; exact State.updQueue_queue_same s q f
  · rw [if_neg h]; exact tget_tset_ne' _ _ _ h _

/-! ## setRole -/

@[simp] theorem State.setRole_pending (s : State) (r : Nat) (x : Role) : (s.setRole r x).pending = s.pending := rfl
@[simp] theorem State.setRole_tileMap (s : State) (r : Nat) (x : Role) : (s.setRole r x).tileMap = s.tileMap := rfl
@[simp] theorem State.setRole_win (s : State) (r : Nat) (x : Role) : (s.setRole r x).win = s.win := rfl
@[simp] theorem State.setRole_links (s : State) (r : Nat) (x : Role) : (s.setRole r x).links = s.links := rfl
@[simp] theorem State.setRole_tiles (s : State) (r : Nat) (x : Role) : (s.setRole r x).tiles = s.tiles := rfl
@[simp] theorem State.setRole_tasks (s : State) (r : Nat) (x : Role) : (s.setRole r x).tasks = s.tasks := rfl
@[simp] theorem State.setRole_sectors (s : State) (r : Nat) (x : Role) : (s.setRole r x).sectors = s.sectors := rfl
@[simp] theorem State.setRole_grants (s : State) (r : Nat) (x : Role) : (s.setRole r x).grants = s.grants := rfl
@[simp] theorem State.setRole_dones (s : State) (r : Nat) (x : Role) : (s.setRole r x).dones = s.dones := rfl
@[simp] theorem State.setRole_getWorks (s : State) (r : Nat) (x : Role) : (s.setRole r x).getWorks = s.getWorks := rfl
@[simp] theorem State.setRole_notifies (s : State) (r : Nat) (x : Role) : (s.setRole r x).notifies = s.notifies := rfl
@[simp] theorem State.setRole_mem (s : State) (r : Nat) (x : Role) : (s.setRole r x).mem = s.mem := rfl
@[simp] theorem State.setRole_mesh (s : State) (r : Nat) (x : Role) : (s.setRole r x).mesh = s.mesh := rfl
@[simp] theorem State.setRole_events (s : State) (r : Nat) (x : Role) : (s.setRole r x).events = s.events := rfl
@[simp] theorem State.setRole_queues (s : State) (r : Nat) (x : Role) : (s.setRole r x).queues = s.queues := rfl
@[simp] theorem State.setRole_ports (s : State) (r : Nat) (x : Role) : (s.setRole r x).ports = s.ports := rfl
@[simp] theorem State.setRole_hostWrites (s : State) (r : Nat) (x : Role) : (s.setRole r x).hostWrites = s.hostWrites := rfl
@[simp] theorem State.setRole_starts (s : State) (r : Nat) (x : Role) : (s.setRole r x).starts = s.starts := rfl
@[simp] theorem State.setRole_buffers (s : State) (r : Nat) (x : Role) : (s.setRole r x).buffers = s.buffers := rfl
@[simp] theorem State.setRole_running (s : State) (r : Nat) (x : Role) : (s.setRole r x).running = s.running := rfl
@[simp] theorem State.setRole_flights (s : State) (r : Nat) (x : Role) : (s.setRole r x).flights = s.flights := rfl
@[simp] theorem State.setRole_faults (s : State) (r : Nat) (x : Role) : (s.setRole r x).faults = s.faults := rfl
@[simp] theorem State.setRole_recovery (s : State) (r : Nat) (x : Role) : (s.setRole r x).recovery = s.recovery := rfl
@[simp] theorem State.setRole_log (s : State) (r : Nat) (x : Role) : (s.setRole r x).log = s.log := rfl
@[simp] theorem State.setRole_logNext (s : State) (r : Nat) (x : Role) : (s.setRole r x).logNext = s.logNext := rfl
@[simp] theorem State.setRole_usPhase (s : State) (r : Nat) (x : Role) : (s.setRole r x).usPhase = s.usPhase := rfl
@[simp] theorem State.setRole_time (s : State) (r : Nat) (x : Role) : (s.setRole r x).time = s.time := rfl
@[simp] theorem State.setRole_cells (s : State) (r : Nat) (x : Role) : (s.setRole r x).cells = s.cells := rfl
@[simp] theorem State.setRole_lanes (s : State) (r : Nat) (x : Role) : (s.setRole r x).lanes = s.lanes := rfl
@[simp] theorem State.setRole_partners (s : State) (r : Nat) (x : Role) : (s.setRole r x).partners = s.partners := rfl
@[simp] theorem State.setRole_rules (s : State) (r : Nat) (x : Role) : (s.setRole r x).rules = s.rules := rfl
@[simp] theorem State.setRole_streams (s : State) (r : Nat) (x : Role) : (s.setRole r x).streams = s.streams := rfl
@[simp] theorem State.setRole_asm (s : State) (r : Nat) (x : Role) : (s.setRole r x).asm = s.asm := rfl
@[simp] theorem State.setRole_alloc (s : State) (r : Nat) (x : Role) : (s.setRole r x).alloc = s.alloc := rfl
@[simp] theorem State.setRole_holdoff (s : State) (r : Nat) (x : Role) : (s.setRole r x).holdoff = s.holdoff := rfl
@[simp] theorem State.setRole_parts (s : State) (r : Nat) (x : Role) : (s.setRole r x).parts = s.parts := rfl
@[simp] theorem State.setRole_slices (s : State) (r : Nat) (x : Role) : (s.setRole r x).slices = s.slices := rfl
@[simp] theorem State.setRole_sliceNow (s : State) (r : Nat) (x : Role) : (s.setRole r x).sliceNow = s.sliceNow := rfl
@[simp] theorem State.setRole_secSlot (s : State) (r : Nat) (x : Role) : (s.setRole r x).secSlot = s.secSlot := rfl
@[simp] theorem State.setRole_hostReads (s : State) (r : Nat) (x : Role) : (s.setRole r x).hostReads = s.hostReads := rfl
@[simp] theorem State.setRole_logRead (s : State) (r : Nat) (x : Role) : (s.setRole r x).logRead = s.logRead := rfl
@[simp] theorem State.setRole_perc (s : State) (r : Nat) (x : Role) : (s.setRole r x).perc = s.perc := rfl
@[simp] theorem State.setRole_cupEn (s : State) (r : Nat) (x : Role) : (s.setRole r x).cupEn = s.cupEn := rfl
@[simp] theorem State.setRole_cupPeriod (s : State) (r : Nat) (x : Role) : (s.setRole r x).cupPeriod = s.cupPeriod := rfl
@[simp] theorem State.setRole_power (s : State) (r : Nat) (x : Role) : (s.setRole r x).power = s.power := rfl
@[simp] theorem State.setRole_boot (s : State) (r : Nat) (x : Role) : (s.setRole r x).boot = s.boot := rfl
@[simp] theorem State.setRole_fuses (s : State) (r : Nat) (x : Role) : (s.setRole r x).fuses = s.fuses := rfl
@[simp] theorem State.setRole_shadow (s : State) (r : Nat) (x : Role) : (s.setRole r x).shadow = s.shadow := rfl
@[simp] theorem State.setRole_flash (s : State) (r : Nat) (x : Role) : (s.setRole r x).flash = s.flash := rfl
@[simp] theorem State.setRole_smbAddr (s : State) (r : Nat) (x : Role) : (s.setRole r x).smbAddr = s.smbAddr := rfl
@[simp] theorem State.setRole_tap (s : State) (r : Nat) (x : Role) : (s.setRole r x).tap = s.tap := rfl
@[simp] theorem State.setRole_dbgAccess (s : State) (r : Nat) (x : Role) : (s.setRole r x).dbgAccess = s.dbgAccess := rfl
@[simp] theorem State.setRole_readOut (s : State) (r : Nat) (x : Role) : (s.setRole r x).readOut = s.readOut := rfl
@[simp] theorem State.setRole_drawn (s : State) (r : Nat) (x : Role) : (s.setRole r x).drawn = s.drawn := rfl
@[simp] theorem State.setRole_tm (s : State) (r : Nat) (x : Role) (i : Nat) : (s.setRole r x).tm i = s.tm i := rfl
@[simp] theorem State.setRole_tile (s : State) (r : Nat) (x : Role) (i : Nat) : (s.setRole r x).tile i = s.tile i := rfl
@[simp] theorem State.setRole_link (s : State) (r : Nat) (x : Role) (i : Nat) : (s.setRole r x).link i = s.link i := rfl
@[simp] theorem State.setRole_task (s : State) (r : Nat) (x : Role) (i : Nat) : (s.setRole r x).task i = s.task i := rfl
@[simp] theorem State.setRole_sector (s : State) (r : Nat) (x : Role) (i : Nat) : (s.setRole r x).sector i = s.sector i := rfl
@[simp] theorem State.setRole_evb (s : State) (r : Nat) (x : Role) (i : Nat) : (s.setRole r x).evb i = s.evb i := rfl
@[simp] theorem State.setRole_queue (s : State) (r : Nat) (x : Role) (i : Nat) : (s.setRole r x).queue i = s.queue i := rfl
@[simp] theorem State.setRole_part (s : State) (r : Nat) (x : Role) (i : Nat) : (s.setRole r x).part i = s.part i := rfl
@[simp] theorem State.setRole_port (s : State) (r : Nat) (x : Role) (i : Nat) : (s.setRole r x).port i = s.port i := rfl
@[simp] theorem State.setRole_inFlight (s : State) (r : Nat) (x : Role) (i : Nat) : (s.setRole r x).inFlight i = s.inFlight i := rfl
@[simp] theorem State.setRole_buffer (s : State) (r : Nat) (x : Role) (i : Nat) : (s.setRole r x).buffer i = s.buffer i := rfl
@[simp] theorem State.setRole_lane (s : State) (r : Nat) (x : Role) (i : Nat) : (s.setRole r x).lane i = s.lane i := rfl
@[simp] theorem State.setRole_stream (s : State) (r : Nat) (x : Role) (i : Nat) : (s.setRole r x).stream i = s.stream i := rfl
@[simp] theorem State.setRole_role_same (s : State) (r : Nat) (x : Role) : (s.setRole r x).role r = x := by
  unfold State.role State.setRole; exact tget_tset_same _ _ _ _
theorem State.setRole_role (s : State) (r : Nat) (x : Role) (i : Nat) : (s.setRole r x).role i = if i = r then x else s.role i := by
  unfold State.role State.setRole; exact tget_tset _ _ _ _ _

/-! ## setPart -/

@[simp] theorem State.setPart_pending (s : State) (q : Nat) (x : Part) : (s.setPart q x).pending = s.pending := rfl
@[simp] theorem State.setPart_tileMap (s : State) (q : Nat) (x : Part) : (s.setPart q x).tileMap = s.tileMap := rfl
@[simp] theorem State.setPart_win (s : State) (q : Nat) (x : Part) : (s.setPart q x).win = s.win := rfl
@[simp] theorem State.setPart_links (s : State) (q : Nat) (x : Part) : (s.setPart q x).links = s.links := rfl
@[simp] theorem State.setPart_tiles (s : State) (q : Nat) (x : Part) : (s.setPart q x).tiles = s.tiles := rfl
@[simp] theorem State.setPart_tasks (s : State) (q : Nat) (x : Part) : (s.setPart q x).tasks = s.tasks := rfl
@[simp] theorem State.setPart_sectors (s : State) (q : Nat) (x : Part) : (s.setPart q x).sectors = s.sectors := rfl
@[simp] theorem State.setPart_grants (s : State) (q : Nat) (x : Part) : (s.setPart q x).grants = s.grants := rfl
@[simp] theorem State.setPart_dones (s : State) (q : Nat) (x : Part) : (s.setPart q x).dones = s.dones := rfl
@[simp] theorem State.setPart_getWorks (s : State) (q : Nat) (x : Part) : (s.setPart q x).getWorks = s.getWorks := rfl
@[simp] theorem State.setPart_notifies (s : State) (q : Nat) (x : Part) : (s.setPart q x).notifies = s.notifies := rfl
@[simp] theorem State.setPart_mem (s : State) (q : Nat) (x : Part) : (s.setPart q x).mem = s.mem := rfl
@[simp] theorem State.setPart_mesh (s : State) (q : Nat) (x : Part) : (s.setPart q x).mesh = s.mesh := rfl
@[simp] theorem State.setPart_events (s : State) (q : Nat) (x : Part) : (s.setPart q x).events = s.events := rfl
@[simp] theorem State.setPart_queues (s : State) (q : Nat) (x : Part) : (s.setPart q x).queues = s.queues := rfl
@[simp] theorem State.setPart_ports (s : State) (q : Nat) (x : Part) : (s.setPart q x).ports = s.ports := rfl
@[simp] theorem State.setPart_hostWrites (s : State) (q : Nat) (x : Part) : (s.setPart q x).hostWrites = s.hostWrites := rfl
@[simp] theorem State.setPart_starts (s : State) (q : Nat) (x : Part) : (s.setPart q x).starts = s.starts := rfl
@[simp] theorem State.setPart_buffers (s : State) (q : Nat) (x : Part) : (s.setPart q x).buffers = s.buffers := rfl
@[simp] theorem State.setPart_running (s : State) (q : Nat) (x : Part) : (s.setPart q x).running = s.running := rfl
@[simp] theorem State.setPart_flights (s : State) (q : Nat) (x : Part) : (s.setPart q x).flights = s.flights := rfl
@[simp] theorem State.setPart_faults (s : State) (q : Nat) (x : Part) : (s.setPart q x).faults = s.faults := rfl
@[simp] theorem State.setPart_recovery (s : State) (q : Nat) (x : Part) : (s.setPart q x).recovery = s.recovery := rfl
@[simp] theorem State.setPart_log (s : State) (q : Nat) (x : Part) : (s.setPart q x).log = s.log := rfl
@[simp] theorem State.setPart_logNext (s : State) (q : Nat) (x : Part) : (s.setPart q x).logNext = s.logNext := rfl
@[simp] theorem State.setPart_usPhase (s : State) (q : Nat) (x : Part) : (s.setPart q x).usPhase = s.usPhase := rfl
@[simp] theorem State.setPart_time (s : State) (q : Nat) (x : Part) : (s.setPart q x).time = s.time := rfl
@[simp] theorem State.setPart_cells (s : State) (q : Nat) (x : Part) : (s.setPart q x).cells = s.cells := rfl
@[simp] theorem State.setPart_lanes (s : State) (q : Nat) (x : Part) : (s.setPart q x).lanes = s.lanes := rfl
@[simp] theorem State.setPart_partners (s : State) (q : Nat) (x : Part) : (s.setPart q x).partners = s.partners := rfl
@[simp] theorem State.setPart_rules (s : State) (q : Nat) (x : Part) : (s.setPart q x).rules = s.rules := rfl
@[simp] theorem State.setPart_streams (s : State) (q : Nat) (x : Part) : (s.setPart q x).streams = s.streams := rfl
@[simp] theorem State.setPart_asm (s : State) (q : Nat) (x : Part) : (s.setPart q x).asm = s.asm := rfl
@[simp] theorem State.setPart_alloc (s : State) (q : Nat) (x : Part) : (s.setPart q x).alloc = s.alloc := rfl
@[simp] theorem State.setPart_holdoff (s : State) (q : Nat) (x : Part) : (s.setPart q x).holdoff = s.holdoff := rfl
@[simp] theorem State.setPart_roles (s : State) (q : Nat) (x : Part) : (s.setPart q x).roles = s.roles := rfl
@[simp] theorem State.setPart_slices (s : State) (q : Nat) (x : Part) : (s.setPart q x).slices = s.slices := rfl
@[simp] theorem State.setPart_sliceNow (s : State) (q : Nat) (x : Part) : (s.setPart q x).sliceNow = s.sliceNow := rfl
@[simp] theorem State.setPart_secSlot (s : State) (q : Nat) (x : Part) : (s.setPart q x).secSlot = s.secSlot := rfl
@[simp] theorem State.setPart_hostReads (s : State) (q : Nat) (x : Part) : (s.setPart q x).hostReads = s.hostReads := rfl
@[simp] theorem State.setPart_logRead (s : State) (q : Nat) (x : Part) : (s.setPart q x).logRead = s.logRead := rfl
@[simp] theorem State.setPart_perc (s : State) (q : Nat) (x : Part) : (s.setPart q x).perc = s.perc := rfl
@[simp] theorem State.setPart_cupEn (s : State) (q : Nat) (x : Part) : (s.setPart q x).cupEn = s.cupEn := rfl
@[simp] theorem State.setPart_cupPeriod (s : State) (q : Nat) (x : Part) : (s.setPart q x).cupPeriod = s.cupPeriod := rfl
@[simp] theorem State.setPart_power (s : State) (q : Nat) (x : Part) : (s.setPart q x).power = s.power := rfl
@[simp] theorem State.setPart_boot (s : State) (q : Nat) (x : Part) : (s.setPart q x).boot = s.boot := rfl
@[simp] theorem State.setPart_fuses (s : State) (q : Nat) (x : Part) : (s.setPart q x).fuses = s.fuses := rfl
@[simp] theorem State.setPart_shadow (s : State) (q : Nat) (x : Part) : (s.setPart q x).shadow = s.shadow := rfl
@[simp] theorem State.setPart_flash (s : State) (q : Nat) (x : Part) : (s.setPart q x).flash = s.flash := rfl
@[simp] theorem State.setPart_smbAddr (s : State) (q : Nat) (x : Part) : (s.setPart q x).smbAddr = s.smbAddr := rfl
@[simp] theorem State.setPart_tap (s : State) (q : Nat) (x : Part) : (s.setPart q x).tap = s.tap := rfl
@[simp] theorem State.setPart_dbgAccess (s : State) (q : Nat) (x : Part) : (s.setPart q x).dbgAccess = s.dbgAccess := rfl
@[simp] theorem State.setPart_readOut (s : State) (q : Nat) (x : Part) : (s.setPart q x).readOut = s.readOut := rfl
@[simp] theorem State.setPart_drawn (s : State) (q : Nat) (x : Part) : (s.setPart q x).drawn = s.drawn := rfl
@[simp] theorem State.setPart_tm (s : State) (q : Nat) (x : Part) (i : Nat) : (s.setPart q x).tm i = s.tm i := rfl
@[simp] theorem State.setPart_tile (s : State) (q : Nat) (x : Part) (i : Nat) : (s.setPart q x).tile i = s.tile i := rfl
@[simp] theorem State.setPart_link (s : State) (q : Nat) (x : Part) (i : Nat) : (s.setPart q x).link i = s.link i := rfl
@[simp] theorem State.setPart_task (s : State) (q : Nat) (x : Part) (i : Nat) : (s.setPart q x).task i = s.task i := rfl
@[simp] theorem State.setPart_sector (s : State) (q : Nat) (x : Part) (i : Nat) : (s.setPart q x).sector i = s.sector i := rfl
@[simp] theorem State.setPart_evb (s : State) (q : Nat) (x : Part) (i : Nat) : (s.setPart q x).evb i = s.evb i := rfl
@[simp] theorem State.setPart_queue (s : State) (q : Nat) (x : Part) (i : Nat) : (s.setPart q x).queue i = s.queue i := rfl
@[simp] theorem State.setPart_role (s : State) (q : Nat) (x : Part) (i : Nat) : (s.setPart q x).role i = s.role i := rfl
@[simp] theorem State.setPart_port (s : State) (q : Nat) (x : Part) (i : Nat) : (s.setPart q x).port i = s.port i := rfl
@[simp] theorem State.setPart_inFlight (s : State) (q : Nat) (x : Part) (i : Nat) : (s.setPart q x).inFlight i = s.inFlight i := rfl
@[simp] theorem State.setPart_buffer (s : State) (q : Nat) (x : Part) (i : Nat) : (s.setPart q x).buffer i = s.buffer i := rfl
@[simp] theorem State.setPart_lane (s : State) (q : Nat) (x : Part) (i : Nat) : (s.setPart q x).lane i = s.lane i := rfl
@[simp] theorem State.setPart_stream (s : State) (q : Nat) (x : Part) (i : Nat) : (s.setPart q x).stream i = s.stream i := rfl
@[simp] theorem State.setPart_part_same (s : State) (q : Nat) (x : Part) : (s.setPart q x).part q = x := by
  unfold State.part State.setPart; exact tget_tset_same _ _ _ _
theorem State.setPart_part (s : State) (q : Nat) (x : Part) (i : Nat) : (s.setPart q x).part i = if i = q then x else s.part i := by
  unfold State.part State.setPart; exact tget_tset _ _ _ _ _

/-! ## updPart -/

@[simp] theorem State.updPart_pending (s : State) (q : Nat) (f : Part → Part) : (s.updPart q f).pending = s.pending := rfl
@[simp] theorem State.updPart_tileMap (s : State) (q : Nat) (f : Part → Part) : (s.updPart q f).tileMap = s.tileMap := rfl
@[simp] theorem State.updPart_win (s : State) (q : Nat) (f : Part → Part) : (s.updPart q f).win = s.win := rfl
@[simp] theorem State.updPart_links (s : State) (q : Nat) (f : Part → Part) : (s.updPart q f).links = s.links := rfl
@[simp] theorem State.updPart_tiles (s : State) (q : Nat) (f : Part → Part) : (s.updPart q f).tiles = s.tiles := rfl
@[simp] theorem State.updPart_tasks (s : State) (q : Nat) (f : Part → Part) : (s.updPart q f).tasks = s.tasks := rfl
@[simp] theorem State.updPart_sectors (s : State) (q : Nat) (f : Part → Part) : (s.updPart q f).sectors = s.sectors := rfl
@[simp] theorem State.updPart_grants (s : State) (q : Nat) (f : Part → Part) : (s.updPart q f).grants = s.grants := rfl
@[simp] theorem State.updPart_dones (s : State) (q : Nat) (f : Part → Part) : (s.updPart q f).dones = s.dones := rfl
@[simp] theorem State.updPart_getWorks (s : State) (q : Nat) (f : Part → Part) : (s.updPart q f).getWorks = s.getWorks := rfl
@[simp] theorem State.updPart_notifies (s : State) (q : Nat) (f : Part → Part) : (s.updPart q f).notifies = s.notifies := rfl
@[simp] theorem State.updPart_mem (s : State) (q : Nat) (f : Part → Part) : (s.updPart q f).mem = s.mem := rfl
@[simp] theorem State.updPart_mesh (s : State) (q : Nat) (f : Part → Part) : (s.updPart q f).mesh = s.mesh := rfl
@[simp] theorem State.updPart_events (s : State) (q : Nat) (f : Part → Part) : (s.updPart q f).events = s.events := rfl
@[simp] theorem State.updPart_queues (s : State) (q : Nat) (f : Part → Part) : (s.updPart q f).queues = s.queues := rfl
@[simp] theorem State.updPart_ports (s : State) (q : Nat) (f : Part → Part) : (s.updPart q f).ports = s.ports := rfl
@[simp] theorem State.updPart_hostWrites (s : State) (q : Nat) (f : Part → Part) : (s.updPart q f).hostWrites = s.hostWrites := rfl
@[simp] theorem State.updPart_starts (s : State) (q : Nat) (f : Part → Part) : (s.updPart q f).starts = s.starts := rfl
@[simp] theorem State.updPart_buffers (s : State) (q : Nat) (f : Part → Part) : (s.updPart q f).buffers = s.buffers := rfl
@[simp] theorem State.updPart_running (s : State) (q : Nat) (f : Part → Part) : (s.updPart q f).running = s.running := rfl
@[simp] theorem State.updPart_flights (s : State) (q : Nat) (f : Part → Part) : (s.updPart q f).flights = s.flights := rfl
@[simp] theorem State.updPart_faults (s : State) (q : Nat) (f : Part → Part) : (s.updPart q f).faults = s.faults := rfl
@[simp] theorem State.updPart_recovery (s : State) (q : Nat) (f : Part → Part) : (s.updPart q f).recovery = s.recovery := rfl
@[simp] theorem State.updPart_log (s : State) (q : Nat) (f : Part → Part) : (s.updPart q f).log = s.log := rfl
@[simp] theorem State.updPart_logNext (s : State) (q : Nat) (f : Part → Part) : (s.updPart q f).logNext = s.logNext := rfl
@[simp] theorem State.updPart_usPhase (s : State) (q : Nat) (f : Part → Part) : (s.updPart q f).usPhase = s.usPhase := rfl
@[simp] theorem State.updPart_time (s : State) (q : Nat) (f : Part → Part) : (s.updPart q f).time = s.time := rfl
@[simp] theorem State.updPart_cells (s : State) (q : Nat) (f : Part → Part) : (s.updPart q f).cells = s.cells := rfl
@[simp] theorem State.updPart_lanes (s : State) (q : Nat) (f : Part → Part) : (s.updPart q f).lanes = s.lanes := rfl
@[simp] theorem State.updPart_partners (s : State) (q : Nat) (f : Part → Part) : (s.updPart q f).partners = s.partners := rfl
@[simp] theorem State.updPart_rules (s : State) (q : Nat) (f : Part → Part) : (s.updPart q f).rules = s.rules := rfl
@[simp] theorem State.updPart_streams (s : State) (q : Nat) (f : Part → Part) : (s.updPart q f).streams = s.streams := rfl
@[simp] theorem State.updPart_asm (s : State) (q : Nat) (f : Part → Part) : (s.updPart q f).asm = s.asm := rfl
@[simp] theorem State.updPart_alloc (s : State) (q : Nat) (f : Part → Part) : (s.updPart q f).alloc = s.alloc := rfl
@[simp] theorem State.updPart_holdoff (s : State) (q : Nat) (f : Part → Part) : (s.updPart q f).holdoff = s.holdoff := rfl
@[simp] theorem State.updPart_roles (s : State) (q : Nat) (f : Part → Part) : (s.updPart q f).roles = s.roles := rfl
@[simp] theorem State.updPart_slices (s : State) (q : Nat) (f : Part → Part) : (s.updPart q f).slices = s.slices := rfl
@[simp] theorem State.updPart_sliceNow (s : State) (q : Nat) (f : Part → Part) : (s.updPart q f).sliceNow = s.sliceNow := rfl
@[simp] theorem State.updPart_secSlot (s : State) (q : Nat) (f : Part → Part) : (s.updPart q f).secSlot = s.secSlot := rfl
@[simp] theorem State.updPart_hostReads (s : State) (q : Nat) (f : Part → Part) : (s.updPart q f).hostReads = s.hostReads := rfl
@[simp] theorem State.updPart_logRead (s : State) (q : Nat) (f : Part → Part) : (s.updPart q f).logRead = s.logRead := rfl
@[simp] theorem State.updPart_perc (s : State) (q : Nat) (f : Part → Part) : (s.updPart q f).perc = s.perc := rfl
@[simp] theorem State.updPart_cupEn (s : State) (q : Nat) (f : Part → Part) : (s.updPart q f).cupEn = s.cupEn := rfl
@[simp] theorem State.updPart_cupPeriod (s : State) (q : Nat) (f : Part → Part) : (s.updPart q f).cupPeriod = s.cupPeriod := rfl
@[simp] theorem State.updPart_power (s : State) (q : Nat) (f : Part → Part) : (s.updPart q f).power = s.power := rfl
@[simp] theorem State.updPart_boot (s : State) (q : Nat) (f : Part → Part) : (s.updPart q f).boot = s.boot := rfl
@[simp] theorem State.updPart_fuses (s : State) (q : Nat) (f : Part → Part) : (s.updPart q f).fuses = s.fuses := rfl
@[simp] theorem State.updPart_shadow (s : State) (q : Nat) (f : Part → Part) : (s.updPart q f).shadow = s.shadow := rfl
@[simp] theorem State.updPart_flash (s : State) (q : Nat) (f : Part → Part) : (s.updPart q f).flash = s.flash := rfl
@[simp] theorem State.updPart_smbAddr (s : State) (q : Nat) (f : Part → Part) : (s.updPart q f).smbAddr = s.smbAddr := rfl
@[simp] theorem State.updPart_tap (s : State) (q : Nat) (f : Part → Part) : (s.updPart q f).tap = s.tap := rfl
@[simp] theorem State.updPart_dbgAccess (s : State) (q : Nat) (f : Part → Part) : (s.updPart q f).dbgAccess = s.dbgAccess := rfl
@[simp] theorem State.updPart_readOut (s : State) (q : Nat) (f : Part → Part) : (s.updPart q f).readOut = s.readOut := rfl
@[simp] theorem State.updPart_drawn (s : State) (q : Nat) (f : Part → Part) : (s.updPart q f).drawn = s.drawn := rfl
@[simp] theorem State.updPart_tm (s : State) (q : Nat) (f : Part → Part) (i : Nat) : (s.updPart q f).tm i = s.tm i := rfl
@[simp] theorem State.updPart_tile (s : State) (q : Nat) (f : Part → Part) (i : Nat) : (s.updPart q f).tile i = s.tile i := rfl
@[simp] theorem State.updPart_link (s : State) (q : Nat) (f : Part → Part) (i : Nat) : (s.updPart q f).link i = s.link i := rfl
@[simp] theorem State.updPart_task (s : State) (q : Nat) (f : Part → Part) (i : Nat) : (s.updPart q f).task i = s.task i := rfl
@[simp] theorem State.updPart_sector (s : State) (q : Nat) (f : Part → Part) (i : Nat) : (s.updPart q f).sector i = s.sector i := rfl
@[simp] theorem State.updPart_evb (s : State) (q : Nat) (f : Part → Part) (i : Nat) : (s.updPart q f).evb i = s.evb i := rfl
@[simp] theorem State.updPart_queue (s : State) (q : Nat) (f : Part → Part) (i : Nat) : (s.updPart q f).queue i = s.queue i := rfl
@[simp] theorem State.updPart_role (s : State) (q : Nat) (f : Part → Part) (i : Nat) : (s.updPart q f).role i = s.role i := rfl
@[simp] theorem State.updPart_port (s : State) (q : Nat) (f : Part → Part) (i : Nat) : (s.updPart q f).port i = s.port i := rfl
@[simp] theorem State.updPart_inFlight (s : State) (q : Nat) (f : Part → Part) (i : Nat) : (s.updPart q f).inFlight i = s.inFlight i := rfl
@[simp] theorem State.updPart_buffer (s : State) (q : Nat) (f : Part → Part) (i : Nat) : (s.updPart q f).buffer i = s.buffer i := rfl
@[simp] theorem State.updPart_lane (s : State) (q : Nat) (f : Part → Part) (i : Nat) : (s.updPart q f).lane i = s.lane i := rfl
@[simp] theorem State.updPart_stream (s : State) (q : Nat) (f : Part → Part) (i : Nat) : (s.updPart q f).stream i = s.stream i := rfl
@[simp] theorem State.updPart_part_same (s : State) (q : Nat) (f : Part → Part) : (s.updPart q f).part q = f (s.part q) := by
  unfold State.part State.updPart; exact tget_tset_same _ _ _ _
theorem State.updPart_part (s : State) (q : Nat) (f : Part → Part) (i : Nat) : (s.updPart q f).part i = if i = q then f (s.part q) else s.part i := by
  unfold State.part State.updPart; exact tget_tset _ _ _ _ _

/-! ## updPort -/

@[simp] theorem State.updPort_pending (s : State) (n : Nat) (f : HostPort → HostPort) : (s.updPort n f).pending = s.pending := rfl
@[simp] theorem State.updPort_tileMap (s : State) (n : Nat) (f : HostPort → HostPort) : (s.updPort n f).tileMap = s.tileMap := rfl
@[simp] theorem State.updPort_win (s : State) (n : Nat) (f : HostPort → HostPort) : (s.updPort n f).win = s.win := rfl
@[simp] theorem State.updPort_links (s : State) (n : Nat) (f : HostPort → HostPort) : (s.updPort n f).links = s.links := rfl
@[simp] theorem State.updPort_tiles (s : State) (n : Nat) (f : HostPort → HostPort) : (s.updPort n f).tiles = s.tiles := rfl
@[simp] theorem State.updPort_tasks (s : State) (n : Nat) (f : HostPort → HostPort) : (s.updPort n f).tasks = s.tasks := rfl
@[simp] theorem State.updPort_sectors (s : State) (n : Nat) (f : HostPort → HostPort) : (s.updPort n f).sectors = s.sectors := rfl
@[simp] theorem State.updPort_grants (s : State) (n : Nat) (f : HostPort → HostPort) : (s.updPort n f).grants = s.grants := rfl
@[simp] theorem State.updPort_dones (s : State) (n : Nat) (f : HostPort → HostPort) : (s.updPort n f).dones = s.dones := rfl
@[simp] theorem State.updPort_getWorks (s : State) (n : Nat) (f : HostPort → HostPort) : (s.updPort n f).getWorks = s.getWorks := rfl
@[simp] theorem State.updPort_notifies (s : State) (n : Nat) (f : HostPort → HostPort) : (s.updPort n f).notifies = s.notifies := rfl
@[simp] theorem State.updPort_mem (s : State) (n : Nat) (f : HostPort → HostPort) : (s.updPort n f).mem = s.mem := rfl
@[simp] theorem State.updPort_mesh (s : State) (n : Nat) (f : HostPort → HostPort) : (s.updPort n f).mesh = s.mesh := rfl
@[simp] theorem State.updPort_events (s : State) (n : Nat) (f : HostPort → HostPort) : (s.updPort n f).events = s.events := rfl
@[simp] theorem State.updPort_queues (s : State) (n : Nat) (f : HostPort → HostPort) : (s.updPort n f).queues = s.queues := rfl
@[simp] theorem State.updPort_hostWrites (s : State) (n : Nat) (f : HostPort → HostPort) : (s.updPort n f).hostWrites = s.hostWrites := rfl
@[simp] theorem State.updPort_starts (s : State) (n : Nat) (f : HostPort → HostPort) : (s.updPort n f).starts = s.starts := rfl
@[simp] theorem State.updPort_buffers (s : State) (n : Nat) (f : HostPort → HostPort) : (s.updPort n f).buffers = s.buffers := rfl
@[simp] theorem State.updPort_running (s : State) (n : Nat) (f : HostPort → HostPort) : (s.updPort n f).running = s.running := rfl
@[simp] theorem State.updPort_flights (s : State) (n : Nat) (f : HostPort → HostPort) : (s.updPort n f).flights = s.flights := rfl
@[simp] theorem State.updPort_faults (s : State) (n : Nat) (f : HostPort → HostPort) : (s.updPort n f).faults = s.faults := rfl
@[simp] theorem State.updPort_recovery (s : State) (n : Nat) (f : HostPort → HostPort) : (s.updPort n f).recovery = s.recovery := rfl
@[simp] theorem State.updPort_log (s : State) (n : Nat) (f : HostPort → HostPort) : (s.updPort n f).log = s.log := rfl
@[simp] theorem State.updPort_logNext (s : State) (n : Nat) (f : HostPort → HostPort) : (s.updPort n f).logNext = s.logNext := rfl
@[simp] theorem State.updPort_usPhase (s : State) (n : Nat) (f : HostPort → HostPort) : (s.updPort n f).usPhase = s.usPhase := rfl
@[simp] theorem State.updPort_time (s : State) (n : Nat) (f : HostPort → HostPort) : (s.updPort n f).time = s.time := rfl
@[simp] theorem State.updPort_cells (s : State) (n : Nat) (f : HostPort → HostPort) : (s.updPort n f).cells = s.cells := rfl
@[simp] theorem State.updPort_lanes (s : State) (n : Nat) (f : HostPort → HostPort) : (s.updPort n f).lanes = s.lanes := rfl
@[simp] theorem State.updPort_partners (s : State) (n : Nat) (f : HostPort → HostPort) : (s.updPort n f).partners = s.partners := rfl
@[simp] theorem State.updPort_rules (s : State) (n : Nat) (f : HostPort → HostPort) : (s.updPort n f).rules = s.rules := rfl
@[simp] theorem State.updPort_streams (s : State) (n : Nat) (f : HostPort → HostPort) : (s.updPort n f).streams = s.streams := rfl
@[simp] theorem State.updPort_asm (s : State) (n : Nat) (f : HostPort → HostPort) : (s.updPort n f).asm = s.asm := rfl
@[simp] theorem State.updPort_alloc (s : State) (n : Nat) (f : HostPort → HostPort) : (s.updPort n f).alloc = s.alloc := rfl
@[simp] theorem State.updPort_holdoff (s : State) (n : Nat) (f : HostPort → HostPort) : (s.updPort n f).holdoff = s.holdoff := rfl
@[simp] theorem State.updPort_parts (s : State) (n : Nat) (f : HostPort → HostPort) : (s.updPort n f).parts = s.parts := rfl
@[simp] theorem State.updPort_roles (s : State) (n : Nat) (f : HostPort → HostPort) : (s.updPort n f).roles = s.roles := rfl
@[simp] theorem State.updPort_slices (s : State) (n : Nat) (f : HostPort → HostPort) : (s.updPort n f).slices = s.slices := rfl
@[simp] theorem State.updPort_sliceNow (s : State) (n : Nat) (f : HostPort → HostPort) : (s.updPort n f).sliceNow = s.sliceNow := rfl
@[simp] theorem State.updPort_secSlot (s : State) (n : Nat) (f : HostPort → HostPort) : (s.updPort n f).secSlot = s.secSlot := rfl
@[simp] theorem State.updPort_hostReads (s : State) (n : Nat) (f : HostPort → HostPort) : (s.updPort n f).hostReads = s.hostReads := rfl
@[simp] theorem State.updPort_logRead (s : State) (n : Nat) (f : HostPort → HostPort) : (s.updPort n f).logRead = s.logRead := rfl
@[simp] theorem State.updPort_perc (s : State) (n : Nat) (f : HostPort → HostPort) : (s.updPort n f).perc = s.perc := rfl
@[simp] theorem State.updPort_cupEn (s : State) (n : Nat) (f : HostPort → HostPort) : (s.updPort n f).cupEn = s.cupEn := rfl
@[simp] theorem State.updPort_cupPeriod (s : State) (n : Nat) (f : HostPort → HostPort) : (s.updPort n f).cupPeriod = s.cupPeriod := rfl
@[simp] theorem State.updPort_power (s : State) (n : Nat) (f : HostPort → HostPort) : (s.updPort n f).power = s.power := rfl
@[simp] theorem State.updPort_boot (s : State) (n : Nat) (f : HostPort → HostPort) : (s.updPort n f).boot = s.boot := rfl
@[simp] theorem State.updPort_fuses (s : State) (n : Nat) (f : HostPort → HostPort) : (s.updPort n f).fuses = s.fuses := rfl
@[simp] theorem State.updPort_shadow (s : State) (n : Nat) (f : HostPort → HostPort) : (s.updPort n f).shadow = s.shadow := rfl
@[simp] theorem State.updPort_flash (s : State) (n : Nat) (f : HostPort → HostPort) : (s.updPort n f).flash = s.flash := rfl
@[simp] theorem State.updPort_smbAddr (s : State) (n : Nat) (f : HostPort → HostPort) : (s.updPort n f).smbAddr = s.smbAddr := rfl
@[simp] theorem State.updPort_tap (s : State) (n : Nat) (f : HostPort → HostPort) : (s.updPort n f).tap = s.tap := rfl
@[simp] theorem State.updPort_dbgAccess (s : State) (n : Nat) (f : HostPort → HostPort) : (s.updPort n f).dbgAccess = s.dbgAccess := rfl
@[simp] theorem State.updPort_readOut (s : State) (n : Nat) (f : HostPort → HostPort) : (s.updPort n f).readOut = s.readOut := rfl
@[simp] theorem State.updPort_drawn (s : State) (n : Nat) (f : HostPort → HostPort) : (s.updPort n f).drawn = s.drawn := rfl
@[simp] theorem State.updPort_tm (s : State) (n : Nat) (f : HostPort → HostPort) (i : Nat) : (s.updPort n f).tm i = s.tm i := rfl
@[simp] theorem State.updPort_tile (s : State) (n : Nat) (f : HostPort → HostPort) (i : Nat) : (s.updPort n f).tile i = s.tile i := rfl
@[simp] theorem State.updPort_link (s : State) (n : Nat) (f : HostPort → HostPort) (i : Nat) : (s.updPort n f).link i = s.link i := rfl
@[simp] theorem State.updPort_task (s : State) (n : Nat) (f : HostPort → HostPort) (i : Nat) : (s.updPort n f).task i = s.task i := rfl
@[simp] theorem State.updPort_sector (s : State) (n : Nat) (f : HostPort → HostPort) (i : Nat) : (s.updPort n f).sector i = s.sector i := rfl
@[simp] theorem State.updPort_evb (s : State) (n : Nat) (f : HostPort → HostPort) (i : Nat) : (s.updPort n f).evb i = s.evb i := rfl
@[simp] theorem State.updPort_queue (s : State) (n : Nat) (f : HostPort → HostPort) (i : Nat) : (s.updPort n f).queue i = s.queue i := rfl
@[simp] theorem State.updPort_role (s : State) (n : Nat) (f : HostPort → HostPort) (i : Nat) : (s.updPort n f).role i = s.role i := rfl
@[simp] theorem State.updPort_part (s : State) (n : Nat) (f : HostPort → HostPort) (i : Nat) : (s.updPort n f).part i = s.part i := rfl
@[simp] theorem State.updPort_inFlight (s : State) (n : Nat) (f : HostPort → HostPort) (i : Nat) : (s.updPort n f).inFlight i = s.inFlight i := rfl
@[simp] theorem State.updPort_buffer (s : State) (n : Nat) (f : HostPort → HostPort) (i : Nat) : (s.updPort n f).buffer i = s.buffer i := rfl
@[simp] theorem State.updPort_lane (s : State) (n : Nat) (f : HostPort → HostPort) (i : Nat) : (s.updPort n f).lane i = s.lane i := rfl
@[simp] theorem State.updPort_stream (s : State) (n : Nat) (f : HostPort → HostPort) (i : Nat) : (s.updPort n f).stream i = s.stream i := rfl
@[simp] theorem State.updPort_port_same (s : State) (n : Nat) (f : HostPort → HostPort) : (s.updPort n f).port n = f (s.port n) := by
  unfold State.port State.updPort; exact tget_tset_same _ _ _ _
theorem State.updPort_port (s : State) (n : Nat) (f : HostPort → HostPort) (i : Nat) : (s.updPort n f).port i = if i = n then f (s.port n) else s.port i := by
  unfold State.port State.updPort; exact tget_tset _ _ _ _ _

/-! ## setFlights -/

@[simp] theorem State.setFlights_pending (s : State) (r n : Nat) : (s.setFlights r n).pending = s.pending := rfl
@[simp] theorem State.setFlights_tileMap (s : State) (r n : Nat) : (s.setFlights r n).tileMap = s.tileMap := rfl
@[simp] theorem State.setFlights_win (s : State) (r n : Nat) : (s.setFlights r n).win = s.win := rfl
@[simp] theorem State.setFlights_links (s : State) (r n : Nat) : (s.setFlights r n).links = s.links := rfl
@[simp] theorem State.setFlights_tiles (s : State) (r n : Nat) : (s.setFlights r n).tiles = s.tiles := rfl
@[simp] theorem State.setFlights_tasks (s : State) (r n : Nat) : (s.setFlights r n).tasks = s.tasks := rfl
@[simp] theorem State.setFlights_sectors (s : State) (r n : Nat) : (s.setFlights r n).sectors = s.sectors := rfl
@[simp] theorem State.setFlights_grants (s : State) (r n : Nat) : (s.setFlights r n).grants = s.grants := rfl
@[simp] theorem State.setFlights_dones (s : State) (r n : Nat) : (s.setFlights r n).dones = s.dones := rfl
@[simp] theorem State.setFlights_getWorks (s : State) (r n : Nat) : (s.setFlights r n).getWorks = s.getWorks := rfl
@[simp] theorem State.setFlights_notifies (s : State) (r n : Nat) : (s.setFlights r n).notifies = s.notifies := rfl
@[simp] theorem State.setFlights_mem (s : State) (r n : Nat) : (s.setFlights r n).mem = s.mem := rfl
@[simp] theorem State.setFlights_mesh (s : State) (r n : Nat) : (s.setFlights r n).mesh = s.mesh := rfl
@[simp] theorem State.setFlights_events (s : State) (r n : Nat) : (s.setFlights r n).events = s.events := rfl
@[simp] theorem State.setFlights_queues (s : State) (r n : Nat) : (s.setFlights r n).queues = s.queues := rfl
@[simp] theorem State.setFlights_ports (s : State) (r n : Nat) : (s.setFlights r n).ports = s.ports := rfl
@[simp] theorem State.setFlights_hostWrites (s : State) (r n : Nat) : (s.setFlights r n).hostWrites = s.hostWrites := rfl
@[simp] theorem State.setFlights_starts (s : State) (r n : Nat) : (s.setFlights r n).starts = s.starts := rfl
@[simp] theorem State.setFlights_buffers (s : State) (r n : Nat) : (s.setFlights r n).buffers = s.buffers := rfl
@[simp] theorem State.setFlights_running (s : State) (r n : Nat) : (s.setFlights r n).running = s.running := rfl
@[simp] theorem State.setFlights_faults (s : State) (r n : Nat) : (s.setFlights r n).faults = s.faults := rfl
@[simp] theorem State.setFlights_recovery (s : State) (r n : Nat) : (s.setFlights r n).recovery = s.recovery := rfl
@[simp] theorem State.setFlights_log (s : State) (r n : Nat) : (s.setFlights r n).log = s.log := rfl
@[simp] theorem State.setFlights_logNext (s : State) (r n : Nat) : (s.setFlights r n).logNext = s.logNext := rfl
@[simp] theorem State.setFlights_usPhase (s : State) (r n : Nat) : (s.setFlights r n).usPhase = s.usPhase := rfl
@[simp] theorem State.setFlights_time (s : State) (r n : Nat) : (s.setFlights r n).time = s.time := rfl
@[simp] theorem State.setFlights_cells (s : State) (r n : Nat) : (s.setFlights r n).cells = s.cells := rfl
@[simp] theorem State.setFlights_lanes (s : State) (r n : Nat) : (s.setFlights r n).lanes = s.lanes := rfl
@[simp] theorem State.setFlights_partners (s : State) (r n : Nat) : (s.setFlights r n).partners = s.partners := rfl
@[simp] theorem State.setFlights_rules (s : State) (r n : Nat) : (s.setFlights r n).rules = s.rules := rfl
@[simp] theorem State.setFlights_streams (s : State) (r n : Nat) : (s.setFlights r n).streams = s.streams := rfl
@[simp] theorem State.setFlights_asm (s : State) (r n : Nat) : (s.setFlights r n).asm = s.asm := rfl
@[simp] theorem State.setFlights_alloc (s : State) (r n : Nat) : (s.setFlights r n).alloc = s.alloc := rfl
@[simp] theorem State.setFlights_holdoff (s : State) (r n : Nat) : (s.setFlights r n).holdoff = s.holdoff := rfl
@[simp] theorem State.setFlights_parts (s : State) (r n : Nat) : (s.setFlights r n).parts = s.parts := rfl
@[simp] theorem State.setFlights_roles (s : State) (r n : Nat) : (s.setFlights r n).roles = s.roles := rfl
@[simp] theorem State.setFlights_slices (s : State) (r n : Nat) : (s.setFlights r n).slices = s.slices := rfl
@[simp] theorem State.setFlights_sliceNow (s : State) (r n : Nat) : (s.setFlights r n).sliceNow = s.sliceNow := rfl
@[simp] theorem State.setFlights_secSlot (s : State) (r n : Nat) : (s.setFlights r n).secSlot = s.secSlot := rfl
@[simp] theorem State.setFlights_hostReads (s : State) (r n : Nat) : (s.setFlights r n).hostReads = s.hostReads := rfl
@[simp] theorem State.setFlights_logRead (s : State) (r n : Nat) : (s.setFlights r n).logRead = s.logRead := rfl
@[simp] theorem State.setFlights_perc (s : State) (r n : Nat) : (s.setFlights r n).perc = s.perc := rfl
@[simp] theorem State.setFlights_cupEn (s : State) (r n : Nat) : (s.setFlights r n).cupEn = s.cupEn := rfl
@[simp] theorem State.setFlights_cupPeriod (s : State) (r n : Nat) : (s.setFlights r n).cupPeriod = s.cupPeriod := rfl
@[simp] theorem State.setFlights_power (s : State) (r n : Nat) : (s.setFlights r n).power = s.power := rfl
@[simp] theorem State.setFlights_boot (s : State) (r n : Nat) : (s.setFlights r n).boot = s.boot := rfl
@[simp] theorem State.setFlights_fuses (s : State) (r n : Nat) : (s.setFlights r n).fuses = s.fuses := rfl
@[simp] theorem State.setFlights_shadow (s : State) (r n : Nat) : (s.setFlights r n).shadow = s.shadow := rfl
@[simp] theorem State.setFlights_flash (s : State) (r n : Nat) : (s.setFlights r n).flash = s.flash := rfl
@[simp] theorem State.setFlights_smbAddr (s : State) (r n : Nat) : (s.setFlights r n).smbAddr = s.smbAddr := rfl
@[simp] theorem State.setFlights_tap (s : State) (r n : Nat) : (s.setFlights r n).tap = s.tap := rfl
@[simp] theorem State.setFlights_dbgAccess (s : State) (r n : Nat) : (s.setFlights r n).dbgAccess = s.dbgAccess := rfl
@[simp] theorem State.setFlights_readOut (s : State) (r n : Nat) : (s.setFlights r n).readOut = s.readOut := rfl
@[simp] theorem State.setFlights_drawn (s : State) (r n : Nat) : (s.setFlights r n).drawn = s.drawn := rfl
@[simp] theorem State.setFlights_tm (s : State) (r n : Nat) (i : Nat) : (s.setFlights r n).tm i = s.tm i := rfl
@[simp] theorem State.setFlights_tile (s : State) (r n : Nat) (i : Nat) : (s.setFlights r n).tile i = s.tile i := rfl
@[simp] theorem State.setFlights_link (s : State) (r n : Nat) (i : Nat) : (s.setFlights r n).link i = s.link i := rfl
@[simp] theorem State.setFlights_task (s : State) (r n : Nat) (i : Nat) : (s.setFlights r n).task i = s.task i := rfl
@[simp] theorem State.setFlights_sector (s : State) (r n : Nat) (i : Nat) : (s.setFlights r n).sector i = s.sector i := rfl
@[simp] theorem State.setFlights_evb (s : State) (r n : Nat) (i : Nat) : (s.setFlights r n).evb i = s.evb i := rfl
@[simp] theorem State.setFlights_queue (s : State) (r n : Nat) (i : Nat) : (s.setFlights r n).queue i = s.queue i := rfl
@[simp] theorem State.setFlights_role (s : State) (r n : Nat) (i : Nat) : (s.setFlights r n).role i = s.role i := rfl
@[simp] theorem State.setFlights_part (s : State) (r n : Nat) (i : Nat) : (s.setFlights r n).part i = s.part i := rfl
@[simp] theorem State.setFlights_port (s : State) (r n : Nat) (i : Nat) : (s.setFlights r n).port i = s.port i := rfl
@[simp] theorem State.setFlights_buffer (s : State) (r n : Nat) (i : Nat) : (s.setFlights r n).buffer i = s.buffer i := rfl
@[simp] theorem State.setFlights_lane (s : State) (r n : Nat) (i : Nat) : (s.setFlights r n).lane i = s.lane i := rfl
@[simp] theorem State.setFlights_stream (s : State) (r n : Nat) (i : Nat) : (s.setFlights r n).stream i = s.stream i := rfl
@[simp] theorem State.setFlights_inFlight_same (s : State) (r n : Nat) : (s.setFlights r n).inFlight r = n := by
  unfold State.inFlight State.setFlights; exact tget_tset_same _ _ _ _
theorem State.setFlights_inFlight (s : State) (r n : Nat) (i : Nat) : (s.setFlights r n).inFlight i = if i = r then n else s.inFlight i := by
  unfold State.inFlight State.setFlights; exact tget_tset _ _ _ _ _

/-! ## setBuffer -/

@[simp] theorem State.setBuffer_pending (s : State) (r : Nat) (x : List CmdRec) : (s.setBuffer r x).pending = s.pending := rfl
@[simp] theorem State.setBuffer_tileMap (s : State) (r : Nat) (x : List CmdRec) : (s.setBuffer r x).tileMap = s.tileMap := rfl
@[simp] theorem State.setBuffer_win (s : State) (r : Nat) (x : List CmdRec) : (s.setBuffer r x).win = s.win := rfl
@[simp] theorem State.setBuffer_links (s : State) (r : Nat) (x : List CmdRec) : (s.setBuffer r x).links = s.links := rfl
@[simp] theorem State.setBuffer_tiles (s : State) (r : Nat) (x : List CmdRec) : (s.setBuffer r x).tiles = s.tiles := rfl
@[simp] theorem State.setBuffer_tasks (s : State) (r : Nat) (x : List CmdRec) : (s.setBuffer r x).tasks = s.tasks := rfl
@[simp] theorem State.setBuffer_sectors (s : State) (r : Nat) (x : List CmdRec) : (s.setBuffer r x).sectors = s.sectors := rfl
@[simp] theorem State.setBuffer_grants (s : State) (r : Nat) (x : List CmdRec) : (s.setBuffer r x).grants = s.grants := rfl
@[simp] theorem State.setBuffer_dones (s : State) (r : Nat) (x : List CmdRec) : (s.setBuffer r x).dones = s.dones := rfl
@[simp] theorem State.setBuffer_getWorks (s : State) (r : Nat) (x : List CmdRec) : (s.setBuffer r x).getWorks = s.getWorks := rfl
@[simp] theorem State.setBuffer_notifies (s : State) (r : Nat) (x : List CmdRec) : (s.setBuffer r x).notifies = s.notifies := rfl
@[simp] theorem State.setBuffer_mem (s : State) (r : Nat) (x : List CmdRec) : (s.setBuffer r x).mem = s.mem := rfl
@[simp] theorem State.setBuffer_mesh (s : State) (r : Nat) (x : List CmdRec) : (s.setBuffer r x).mesh = s.mesh := rfl
@[simp] theorem State.setBuffer_events (s : State) (r : Nat) (x : List CmdRec) : (s.setBuffer r x).events = s.events := rfl
@[simp] theorem State.setBuffer_queues (s : State) (r : Nat) (x : List CmdRec) : (s.setBuffer r x).queues = s.queues := rfl
@[simp] theorem State.setBuffer_ports (s : State) (r : Nat) (x : List CmdRec) : (s.setBuffer r x).ports = s.ports := rfl
@[simp] theorem State.setBuffer_hostWrites (s : State) (r : Nat) (x : List CmdRec) : (s.setBuffer r x).hostWrites = s.hostWrites := rfl
@[simp] theorem State.setBuffer_starts (s : State) (r : Nat) (x : List CmdRec) : (s.setBuffer r x).starts = s.starts := rfl
@[simp] theorem State.setBuffer_running (s : State) (r : Nat) (x : List CmdRec) : (s.setBuffer r x).running = s.running := rfl
@[simp] theorem State.setBuffer_flights (s : State) (r : Nat) (x : List CmdRec) : (s.setBuffer r x).flights = s.flights := rfl
@[simp] theorem State.setBuffer_faults (s : State) (r : Nat) (x : List CmdRec) : (s.setBuffer r x).faults = s.faults := rfl
@[simp] theorem State.setBuffer_recovery (s : State) (r : Nat) (x : List CmdRec) : (s.setBuffer r x).recovery = s.recovery := rfl
@[simp] theorem State.setBuffer_log (s : State) (r : Nat) (x : List CmdRec) : (s.setBuffer r x).log = s.log := rfl
@[simp] theorem State.setBuffer_logNext (s : State) (r : Nat) (x : List CmdRec) : (s.setBuffer r x).logNext = s.logNext := rfl
@[simp] theorem State.setBuffer_usPhase (s : State) (r : Nat) (x : List CmdRec) : (s.setBuffer r x).usPhase = s.usPhase := rfl
@[simp] theorem State.setBuffer_time (s : State) (r : Nat) (x : List CmdRec) : (s.setBuffer r x).time = s.time := rfl
@[simp] theorem State.setBuffer_cells (s : State) (r : Nat) (x : List CmdRec) : (s.setBuffer r x).cells = s.cells := rfl
@[simp] theorem State.setBuffer_lanes (s : State) (r : Nat) (x : List CmdRec) : (s.setBuffer r x).lanes = s.lanes := rfl
@[simp] theorem State.setBuffer_partners (s : State) (r : Nat) (x : List CmdRec) : (s.setBuffer r x).partners = s.partners := rfl
@[simp] theorem State.setBuffer_rules (s : State) (r : Nat) (x : List CmdRec) : (s.setBuffer r x).rules = s.rules := rfl
@[simp] theorem State.setBuffer_streams (s : State) (r : Nat) (x : List CmdRec) : (s.setBuffer r x).streams = s.streams := rfl
@[simp] theorem State.setBuffer_asm (s : State) (r : Nat) (x : List CmdRec) : (s.setBuffer r x).asm = s.asm := rfl
@[simp] theorem State.setBuffer_alloc (s : State) (r : Nat) (x : List CmdRec) : (s.setBuffer r x).alloc = s.alloc := rfl
@[simp] theorem State.setBuffer_holdoff (s : State) (r : Nat) (x : List CmdRec) : (s.setBuffer r x).holdoff = s.holdoff := rfl
@[simp] theorem State.setBuffer_parts (s : State) (r : Nat) (x : List CmdRec) : (s.setBuffer r x).parts = s.parts := rfl
@[simp] theorem State.setBuffer_roles (s : State) (r : Nat) (x : List CmdRec) : (s.setBuffer r x).roles = s.roles := rfl
@[simp] theorem State.setBuffer_slices (s : State) (r : Nat) (x : List CmdRec) : (s.setBuffer r x).slices = s.slices := rfl
@[simp] theorem State.setBuffer_sliceNow (s : State) (r : Nat) (x : List CmdRec) : (s.setBuffer r x).sliceNow = s.sliceNow := rfl
@[simp] theorem State.setBuffer_secSlot (s : State) (r : Nat) (x : List CmdRec) : (s.setBuffer r x).secSlot = s.secSlot := rfl
@[simp] theorem State.setBuffer_hostReads (s : State) (r : Nat) (x : List CmdRec) : (s.setBuffer r x).hostReads = s.hostReads := rfl
@[simp] theorem State.setBuffer_logRead (s : State) (r : Nat) (x : List CmdRec) : (s.setBuffer r x).logRead = s.logRead := rfl
@[simp] theorem State.setBuffer_perc (s : State) (r : Nat) (x : List CmdRec) : (s.setBuffer r x).perc = s.perc := rfl
@[simp] theorem State.setBuffer_cupEn (s : State) (r : Nat) (x : List CmdRec) : (s.setBuffer r x).cupEn = s.cupEn := rfl
@[simp] theorem State.setBuffer_cupPeriod (s : State) (r : Nat) (x : List CmdRec) : (s.setBuffer r x).cupPeriod = s.cupPeriod := rfl
@[simp] theorem State.setBuffer_power (s : State) (r : Nat) (x : List CmdRec) : (s.setBuffer r x).power = s.power := rfl
@[simp] theorem State.setBuffer_boot (s : State) (r : Nat) (x : List CmdRec) : (s.setBuffer r x).boot = s.boot := rfl
@[simp] theorem State.setBuffer_fuses (s : State) (r : Nat) (x : List CmdRec) : (s.setBuffer r x).fuses = s.fuses := rfl
@[simp] theorem State.setBuffer_shadow (s : State) (r : Nat) (x : List CmdRec) : (s.setBuffer r x).shadow = s.shadow := rfl
@[simp] theorem State.setBuffer_flash (s : State) (r : Nat) (x : List CmdRec) : (s.setBuffer r x).flash = s.flash := rfl
@[simp] theorem State.setBuffer_smbAddr (s : State) (r : Nat) (x : List CmdRec) : (s.setBuffer r x).smbAddr = s.smbAddr := rfl
@[simp] theorem State.setBuffer_tap (s : State) (r : Nat) (x : List CmdRec) : (s.setBuffer r x).tap = s.tap := rfl
@[simp] theorem State.setBuffer_dbgAccess (s : State) (r : Nat) (x : List CmdRec) : (s.setBuffer r x).dbgAccess = s.dbgAccess := rfl
@[simp] theorem State.setBuffer_readOut (s : State) (r : Nat) (x : List CmdRec) : (s.setBuffer r x).readOut = s.readOut := rfl
@[simp] theorem State.setBuffer_drawn (s : State) (r : Nat) (x : List CmdRec) : (s.setBuffer r x).drawn = s.drawn := rfl
@[simp] theorem State.setBuffer_tm (s : State) (r : Nat) (x : List CmdRec) (i : Nat) : (s.setBuffer r x).tm i = s.tm i := rfl
@[simp] theorem State.setBuffer_tile (s : State) (r : Nat) (x : List CmdRec) (i : Nat) : (s.setBuffer r x).tile i = s.tile i := rfl
@[simp] theorem State.setBuffer_link (s : State) (r : Nat) (x : List CmdRec) (i : Nat) : (s.setBuffer r x).link i = s.link i := rfl
@[simp] theorem State.setBuffer_task (s : State) (r : Nat) (x : List CmdRec) (i : Nat) : (s.setBuffer r x).task i = s.task i := rfl
@[simp] theorem State.setBuffer_sector (s : State) (r : Nat) (x : List CmdRec) (i : Nat) : (s.setBuffer r x).sector i = s.sector i := rfl
@[simp] theorem State.setBuffer_evb (s : State) (r : Nat) (x : List CmdRec) (i : Nat) : (s.setBuffer r x).evb i = s.evb i := rfl
@[simp] theorem State.setBuffer_queue (s : State) (r : Nat) (x : List CmdRec) (i : Nat) : (s.setBuffer r x).queue i = s.queue i := rfl
@[simp] theorem State.setBuffer_role (s : State) (r : Nat) (x : List CmdRec) (i : Nat) : (s.setBuffer r x).role i = s.role i := rfl
@[simp] theorem State.setBuffer_part (s : State) (r : Nat) (x : List CmdRec) (i : Nat) : (s.setBuffer r x).part i = s.part i := rfl
@[simp] theorem State.setBuffer_port (s : State) (r : Nat) (x : List CmdRec) (i : Nat) : (s.setBuffer r x).port i = s.port i := rfl
@[simp] theorem State.setBuffer_inFlight (s : State) (r : Nat) (x : List CmdRec) (i : Nat) : (s.setBuffer r x).inFlight i = s.inFlight i := rfl
@[simp] theorem State.setBuffer_lane (s : State) (r : Nat) (x : List CmdRec) (i : Nat) : (s.setBuffer r x).lane i = s.lane i := rfl
@[simp] theorem State.setBuffer_stream (s : State) (r : Nat) (x : List CmdRec) (i : Nat) : (s.setBuffer r x).stream i = s.stream i := rfl
@[simp] theorem State.setBuffer_buffer_same (s : State) (r : Nat) (x : List CmdRec) : (s.setBuffer r x).buffer r = x := by
  unfold State.buffer State.setBuffer; exact tget_tset_same _ _ _ _
theorem State.setBuffer_buffer (s : State) (r : Nat) (x : List CmdRec) (i : Nat) : (s.setBuffer r x).buffer i = if i = r then x else s.buffer i := by
  unfold State.buffer State.setBuffer; exact tget_tset _ _ _ _ _

/-! ## setLane -/

@[simp] theorem State.setLane_pending (s : State) (l : Nat) (x : Lane) : (s.setLane l x).pending = s.pending := rfl
@[simp] theorem State.setLane_tileMap (s : State) (l : Nat) (x : Lane) : (s.setLane l x).tileMap = s.tileMap := rfl
@[simp] theorem State.setLane_win (s : State) (l : Nat) (x : Lane) : (s.setLane l x).win = s.win := rfl
@[simp] theorem State.setLane_links (s : State) (l : Nat) (x : Lane) : (s.setLane l x).links = s.links := rfl
@[simp] theorem State.setLane_tiles (s : State) (l : Nat) (x : Lane) : (s.setLane l x).tiles = s.tiles := rfl
@[simp] theorem State.setLane_tasks (s : State) (l : Nat) (x : Lane) : (s.setLane l x).tasks = s.tasks := rfl
@[simp] theorem State.setLane_sectors (s : State) (l : Nat) (x : Lane) : (s.setLane l x).sectors = s.sectors := rfl
@[simp] theorem State.setLane_grants (s : State) (l : Nat) (x : Lane) : (s.setLane l x).grants = s.grants := rfl
@[simp] theorem State.setLane_dones (s : State) (l : Nat) (x : Lane) : (s.setLane l x).dones = s.dones := rfl
@[simp] theorem State.setLane_getWorks (s : State) (l : Nat) (x : Lane) : (s.setLane l x).getWorks = s.getWorks := rfl
@[simp] theorem State.setLane_notifies (s : State) (l : Nat) (x : Lane) : (s.setLane l x).notifies = s.notifies := rfl
@[simp] theorem State.setLane_mem (s : State) (l : Nat) (x : Lane) : (s.setLane l x).mem = s.mem := rfl
@[simp] theorem State.setLane_mesh (s : State) (l : Nat) (x : Lane) : (s.setLane l x).mesh = s.mesh := rfl
@[simp] theorem State.setLane_events (s : State) (l : Nat) (x : Lane) : (s.setLane l x).events = s.events := rfl
@[simp] theorem State.setLane_queues (s : State) (l : Nat) (x : Lane) : (s.setLane l x).queues = s.queues := rfl
@[simp] theorem State.setLane_ports (s : State) (l : Nat) (x : Lane) : (s.setLane l x).ports = s.ports := rfl
@[simp] theorem State.setLane_hostWrites (s : State) (l : Nat) (x : Lane) : (s.setLane l x).hostWrites = s.hostWrites := rfl
@[simp] theorem State.setLane_starts (s : State) (l : Nat) (x : Lane) : (s.setLane l x).starts = s.starts := rfl
@[simp] theorem State.setLane_buffers (s : State) (l : Nat) (x : Lane) : (s.setLane l x).buffers = s.buffers := rfl
@[simp] theorem State.setLane_running (s : State) (l : Nat) (x : Lane) : (s.setLane l x).running = s.running := rfl
@[simp] theorem State.setLane_flights (s : State) (l : Nat) (x : Lane) : (s.setLane l x).flights = s.flights := rfl
@[simp] theorem State.setLane_faults (s : State) (l : Nat) (x : Lane) : (s.setLane l x).faults = s.faults := rfl
@[simp] theorem State.setLane_recovery (s : State) (l : Nat) (x : Lane) : (s.setLane l x).recovery = s.recovery := rfl
@[simp] theorem State.setLane_log (s : State) (l : Nat) (x : Lane) : (s.setLane l x).log = s.log := rfl
@[simp] theorem State.setLane_logNext (s : State) (l : Nat) (x : Lane) : (s.setLane l x).logNext = s.logNext := rfl
@[simp] theorem State.setLane_usPhase (s : State) (l : Nat) (x : Lane) : (s.setLane l x).usPhase = s.usPhase := rfl
@[simp] theorem State.setLane_time (s : State) (l : Nat) (x : Lane) : (s.setLane l x).time = s.time := rfl
@[simp] theorem State.setLane_cells (s : State) (l : Nat) (x : Lane) : (s.setLane l x).cells = s.cells := rfl
@[simp] theorem State.setLane_partners (s : State) (l : Nat) (x : Lane) : (s.setLane l x).partners = s.partners := rfl
@[simp] theorem State.setLane_rules (s : State) (l : Nat) (x : Lane) : (s.setLane l x).rules = s.rules := rfl
@[simp] theorem State.setLane_streams (s : State) (l : Nat) (x : Lane) : (s.setLane l x).streams = s.streams := rfl
@[simp] theorem State.setLane_asm (s : State) (l : Nat) (x : Lane) : (s.setLane l x).asm = s.asm := rfl
@[simp] theorem State.setLane_alloc (s : State) (l : Nat) (x : Lane) : (s.setLane l x).alloc = s.alloc := rfl
@[simp] theorem State.setLane_holdoff (s : State) (l : Nat) (x : Lane) : (s.setLane l x).holdoff = s.holdoff := rfl
@[simp] theorem State.setLane_parts (s : State) (l : Nat) (x : Lane) : (s.setLane l x).parts = s.parts := rfl
@[simp] theorem State.setLane_roles (s : State) (l : Nat) (x : Lane) : (s.setLane l x).roles = s.roles := rfl
@[simp] theorem State.setLane_slices (s : State) (l : Nat) (x : Lane) : (s.setLane l x).slices = s.slices := rfl
@[simp] theorem State.setLane_sliceNow (s : State) (l : Nat) (x : Lane) : (s.setLane l x).sliceNow = s.sliceNow := rfl
@[simp] theorem State.setLane_secSlot (s : State) (l : Nat) (x : Lane) : (s.setLane l x).secSlot = s.secSlot := rfl
@[simp] theorem State.setLane_hostReads (s : State) (l : Nat) (x : Lane) : (s.setLane l x).hostReads = s.hostReads := rfl
@[simp] theorem State.setLane_logRead (s : State) (l : Nat) (x : Lane) : (s.setLane l x).logRead = s.logRead := rfl
@[simp] theorem State.setLane_perc (s : State) (l : Nat) (x : Lane) : (s.setLane l x).perc = s.perc := rfl
@[simp] theorem State.setLane_cupEn (s : State) (l : Nat) (x : Lane) : (s.setLane l x).cupEn = s.cupEn := rfl
@[simp] theorem State.setLane_cupPeriod (s : State) (l : Nat) (x : Lane) : (s.setLane l x).cupPeriod = s.cupPeriod := rfl
@[simp] theorem State.setLane_power (s : State) (l : Nat) (x : Lane) : (s.setLane l x).power = s.power := rfl
@[simp] theorem State.setLane_boot (s : State) (l : Nat) (x : Lane) : (s.setLane l x).boot = s.boot := rfl
@[simp] theorem State.setLane_fuses (s : State) (l : Nat) (x : Lane) : (s.setLane l x).fuses = s.fuses := rfl
@[simp] theorem State.setLane_shadow (s : State) (l : Nat) (x : Lane) : (s.setLane l x).shadow = s.shadow := rfl
@[simp] theorem State.setLane_flash (s : State) (l : Nat) (x : Lane) : (s.setLane l x).flash = s.flash := rfl
@[simp] theorem State.setLane_smbAddr (s : State) (l : Nat) (x : Lane) : (s.setLane l x).smbAddr = s.smbAddr := rfl
@[simp] theorem State.setLane_tap (s : State) (l : Nat) (x : Lane) : (s.setLane l x).tap = s.tap := rfl
@[simp] theorem State.setLane_dbgAccess (s : State) (l : Nat) (x : Lane) : (s.setLane l x).dbgAccess = s.dbgAccess := rfl
@[simp] theorem State.setLane_readOut (s : State) (l : Nat) (x : Lane) : (s.setLane l x).readOut = s.readOut := rfl
@[simp] theorem State.setLane_drawn (s : State) (l : Nat) (x : Lane) : (s.setLane l x).drawn = s.drawn := rfl
@[simp] theorem State.setLane_tm (s : State) (l : Nat) (x : Lane) (i : Nat) : (s.setLane l x).tm i = s.tm i := rfl
@[simp] theorem State.setLane_tile (s : State) (l : Nat) (x : Lane) (i : Nat) : (s.setLane l x).tile i = s.tile i := rfl
@[simp] theorem State.setLane_link (s : State) (l : Nat) (x : Lane) (i : Nat) : (s.setLane l x).link i = s.link i := rfl
@[simp] theorem State.setLane_task (s : State) (l : Nat) (x : Lane) (i : Nat) : (s.setLane l x).task i = s.task i := rfl
@[simp] theorem State.setLane_sector (s : State) (l : Nat) (x : Lane) (i : Nat) : (s.setLane l x).sector i = s.sector i := rfl
@[simp] theorem State.setLane_evb (s : State) (l : Nat) (x : Lane) (i : Nat) : (s.setLane l x).evb i = s.evb i := rfl
@[simp] theorem State.setLane_queue (s : State) (l : Nat) (x : Lane) (i : Nat) : (s.setLane l x).queue i = s.queue i := rfl
@[simp] theorem State.setLane_role (s : State) (l : Nat) (x : Lane) (i : Nat) : (s.setLane l x).role i = s.role i := rfl
@[simp] theorem State.setLane_part (s : State) (l : Nat) (x : Lane) (i : Nat) : (s.setLane l x).part i = s.part i := rfl
@[simp] theorem State.setLane_port (s : State) (l : Nat) (x : Lane) (i : Nat) : (s.setLane l x).port i = s.port i := rfl
@[simp] theorem State.setLane_inFlight (s : State) (l : Nat) (x : Lane) (i : Nat) : (s.setLane l x).inFlight i = s.inFlight i := rfl
@[simp] theorem State.setLane_buffer (s : State) (l : Nat) (x : Lane) (i : Nat) : (s.setLane l x).buffer i = s.buffer i := rfl
@[simp] theorem State.setLane_stream (s : State) (l : Nat) (x : Lane) (i : Nat) : (s.setLane l x).stream i = s.stream i := rfl
@[simp] theorem State.setLane_lane_same (s : State) (l : Nat) (x : Lane) : (s.setLane l x).lane l = x := by
  unfold State.lane State.setLane; exact tget_tset_same _ _ _ _
theorem State.setLane_lane (s : State) (l : Nat) (x : Lane) (i : Nat) : (s.setLane l x).lane i = if i = l then x else s.lane i := by
  unfold State.lane State.setLane; exact tget_tset _ _ _ _ _

/-! ## updLane -/

@[simp] theorem State.updLane_pending (s : State) (l : Nat) (f : Lane → Lane) : (s.updLane l f).pending = s.pending := rfl
@[simp] theorem State.updLane_tileMap (s : State) (l : Nat) (f : Lane → Lane) : (s.updLane l f).tileMap = s.tileMap := rfl
@[simp] theorem State.updLane_win (s : State) (l : Nat) (f : Lane → Lane) : (s.updLane l f).win = s.win := rfl
@[simp] theorem State.updLane_links (s : State) (l : Nat) (f : Lane → Lane) : (s.updLane l f).links = s.links := rfl
@[simp] theorem State.updLane_tiles (s : State) (l : Nat) (f : Lane → Lane) : (s.updLane l f).tiles = s.tiles := rfl
@[simp] theorem State.updLane_tasks (s : State) (l : Nat) (f : Lane → Lane) : (s.updLane l f).tasks = s.tasks := rfl
@[simp] theorem State.updLane_sectors (s : State) (l : Nat) (f : Lane → Lane) : (s.updLane l f).sectors = s.sectors := rfl
@[simp] theorem State.updLane_grants (s : State) (l : Nat) (f : Lane → Lane) : (s.updLane l f).grants = s.grants := rfl
@[simp] theorem State.updLane_dones (s : State) (l : Nat) (f : Lane → Lane) : (s.updLane l f).dones = s.dones := rfl
@[simp] theorem State.updLane_getWorks (s : State) (l : Nat) (f : Lane → Lane) : (s.updLane l f).getWorks = s.getWorks := rfl
@[simp] theorem State.updLane_notifies (s : State) (l : Nat) (f : Lane → Lane) : (s.updLane l f).notifies = s.notifies := rfl
@[simp] theorem State.updLane_mem (s : State) (l : Nat) (f : Lane → Lane) : (s.updLane l f).mem = s.mem := rfl
@[simp] theorem State.updLane_mesh (s : State) (l : Nat) (f : Lane → Lane) : (s.updLane l f).mesh = s.mesh := rfl
@[simp] theorem State.updLane_events (s : State) (l : Nat) (f : Lane → Lane) : (s.updLane l f).events = s.events := rfl
@[simp] theorem State.updLane_queues (s : State) (l : Nat) (f : Lane → Lane) : (s.updLane l f).queues = s.queues := rfl
@[simp] theorem State.updLane_ports (s : State) (l : Nat) (f : Lane → Lane) : (s.updLane l f).ports = s.ports := rfl
@[simp] theorem State.updLane_hostWrites (s : State) (l : Nat) (f : Lane → Lane) : (s.updLane l f).hostWrites = s.hostWrites := rfl
@[simp] theorem State.updLane_starts (s : State) (l : Nat) (f : Lane → Lane) : (s.updLane l f).starts = s.starts := rfl
@[simp] theorem State.updLane_buffers (s : State) (l : Nat) (f : Lane → Lane) : (s.updLane l f).buffers = s.buffers := rfl
@[simp] theorem State.updLane_running (s : State) (l : Nat) (f : Lane → Lane) : (s.updLane l f).running = s.running := rfl
@[simp] theorem State.updLane_flights (s : State) (l : Nat) (f : Lane → Lane) : (s.updLane l f).flights = s.flights := rfl
@[simp] theorem State.updLane_faults (s : State) (l : Nat) (f : Lane → Lane) : (s.updLane l f).faults = s.faults := rfl
@[simp] theorem State.updLane_recovery (s : State) (l : Nat) (f : Lane → Lane) : (s.updLane l f).recovery = s.recovery := rfl
@[simp] theorem State.updLane_log (s : State) (l : Nat) (f : Lane → Lane) : (s.updLane l f).log = s.log := rfl
@[simp] theorem State.updLane_logNext (s : State) (l : Nat) (f : Lane → Lane) : (s.updLane l f).logNext = s.logNext := rfl
@[simp] theorem State.updLane_usPhase (s : State) (l : Nat) (f : Lane → Lane) : (s.updLane l f).usPhase = s.usPhase := rfl
@[simp] theorem State.updLane_time (s : State) (l : Nat) (f : Lane → Lane) : (s.updLane l f).time = s.time := rfl
@[simp] theorem State.updLane_cells (s : State) (l : Nat) (f : Lane → Lane) : (s.updLane l f).cells = s.cells := rfl
@[simp] theorem State.updLane_partners (s : State) (l : Nat) (f : Lane → Lane) : (s.updLane l f).partners = s.partners := rfl
@[simp] theorem State.updLane_rules (s : State) (l : Nat) (f : Lane → Lane) : (s.updLane l f).rules = s.rules := rfl
@[simp] theorem State.updLane_streams (s : State) (l : Nat) (f : Lane → Lane) : (s.updLane l f).streams = s.streams := rfl
@[simp] theorem State.updLane_asm (s : State) (l : Nat) (f : Lane → Lane) : (s.updLane l f).asm = s.asm := rfl
@[simp] theorem State.updLane_alloc (s : State) (l : Nat) (f : Lane → Lane) : (s.updLane l f).alloc = s.alloc := rfl
@[simp] theorem State.updLane_holdoff (s : State) (l : Nat) (f : Lane → Lane) : (s.updLane l f).holdoff = s.holdoff := rfl
@[simp] theorem State.updLane_parts (s : State) (l : Nat) (f : Lane → Lane) : (s.updLane l f).parts = s.parts := rfl
@[simp] theorem State.updLane_roles (s : State) (l : Nat) (f : Lane → Lane) : (s.updLane l f).roles = s.roles := rfl
@[simp] theorem State.updLane_slices (s : State) (l : Nat) (f : Lane → Lane) : (s.updLane l f).slices = s.slices := rfl
@[simp] theorem State.updLane_sliceNow (s : State) (l : Nat) (f : Lane → Lane) : (s.updLane l f).sliceNow = s.sliceNow := rfl
@[simp] theorem State.updLane_secSlot (s : State) (l : Nat) (f : Lane → Lane) : (s.updLane l f).secSlot = s.secSlot := rfl
@[simp] theorem State.updLane_hostReads (s : State) (l : Nat) (f : Lane → Lane) : (s.updLane l f).hostReads = s.hostReads := rfl
@[simp] theorem State.updLane_logRead (s : State) (l : Nat) (f : Lane → Lane) : (s.updLane l f).logRead = s.logRead := rfl
@[simp] theorem State.updLane_perc (s : State) (l : Nat) (f : Lane → Lane) : (s.updLane l f).perc = s.perc := rfl
@[simp] theorem State.updLane_cupEn (s : State) (l : Nat) (f : Lane → Lane) : (s.updLane l f).cupEn = s.cupEn := rfl
@[simp] theorem State.updLane_cupPeriod (s : State) (l : Nat) (f : Lane → Lane) : (s.updLane l f).cupPeriod = s.cupPeriod := rfl
@[simp] theorem State.updLane_power (s : State) (l : Nat) (f : Lane → Lane) : (s.updLane l f).power = s.power := rfl
@[simp] theorem State.updLane_boot (s : State) (l : Nat) (f : Lane → Lane) : (s.updLane l f).boot = s.boot := rfl
@[simp] theorem State.updLane_fuses (s : State) (l : Nat) (f : Lane → Lane) : (s.updLane l f).fuses = s.fuses := rfl
@[simp] theorem State.updLane_shadow (s : State) (l : Nat) (f : Lane → Lane) : (s.updLane l f).shadow = s.shadow := rfl
@[simp] theorem State.updLane_flash (s : State) (l : Nat) (f : Lane → Lane) : (s.updLane l f).flash = s.flash := rfl
@[simp] theorem State.updLane_smbAddr (s : State) (l : Nat) (f : Lane → Lane) : (s.updLane l f).smbAddr = s.smbAddr := rfl
@[simp] theorem State.updLane_tap (s : State) (l : Nat) (f : Lane → Lane) : (s.updLane l f).tap = s.tap := rfl
@[simp] theorem State.updLane_dbgAccess (s : State) (l : Nat) (f : Lane → Lane) : (s.updLane l f).dbgAccess = s.dbgAccess := rfl
@[simp] theorem State.updLane_readOut (s : State) (l : Nat) (f : Lane → Lane) : (s.updLane l f).readOut = s.readOut := rfl
@[simp] theorem State.updLane_drawn (s : State) (l : Nat) (f : Lane → Lane) : (s.updLane l f).drawn = s.drawn := rfl
@[simp] theorem State.updLane_tm (s : State) (l : Nat) (f : Lane → Lane) (i : Nat) : (s.updLane l f).tm i = s.tm i := rfl
@[simp] theorem State.updLane_tile (s : State) (l : Nat) (f : Lane → Lane) (i : Nat) : (s.updLane l f).tile i = s.tile i := rfl
@[simp] theorem State.updLane_link (s : State) (l : Nat) (f : Lane → Lane) (i : Nat) : (s.updLane l f).link i = s.link i := rfl
@[simp] theorem State.updLane_task (s : State) (l : Nat) (f : Lane → Lane) (i : Nat) : (s.updLane l f).task i = s.task i := rfl
@[simp] theorem State.updLane_sector (s : State) (l : Nat) (f : Lane → Lane) (i : Nat) : (s.updLane l f).sector i = s.sector i := rfl
@[simp] theorem State.updLane_evb (s : State) (l : Nat) (f : Lane → Lane) (i : Nat) : (s.updLane l f).evb i = s.evb i := rfl
@[simp] theorem State.updLane_queue (s : State) (l : Nat) (f : Lane → Lane) (i : Nat) : (s.updLane l f).queue i = s.queue i := rfl
@[simp] theorem State.updLane_role (s : State) (l : Nat) (f : Lane → Lane) (i : Nat) : (s.updLane l f).role i = s.role i := rfl
@[simp] theorem State.updLane_part (s : State) (l : Nat) (f : Lane → Lane) (i : Nat) : (s.updLane l f).part i = s.part i := rfl
@[simp] theorem State.updLane_port (s : State) (l : Nat) (f : Lane → Lane) (i : Nat) : (s.updLane l f).port i = s.port i := rfl
@[simp] theorem State.updLane_inFlight (s : State) (l : Nat) (f : Lane → Lane) (i : Nat) : (s.updLane l f).inFlight i = s.inFlight i := rfl
@[simp] theorem State.updLane_buffer (s : State) (l : Nat) (f : Lane → Lane) (i : Nat) : (s.updLane l f).buffer i = s.buffer i := rfl
@[simp] theorem State.updLane_stream (s : State) (l : Nat) (f : Lane → Lane) (i : Nat) : (s.updLane l f).stream i = s.stream i := rfl
@[simp] theorem State.updLane_lane_same (s : State) (l : Nat) (f : Lane → Lane) : (s.updLane l f).lane l = f (s.lane l) := by
  unfold State.lane State.updLane; exact tget_tset_same _ _ _ _
theorem State.updLane_lane (s : State) (l : Nat) (f : Lane → Lane) (i : Nat) : (s.updLane l f).lane i = if i = l then f (s.lane l) else s.lane i := by
  unfold State.lane State.updLane; exact tget_tset _ _ _ _ _

/-! ## setStream -/

@[simp] theorem State.setStream_pending (s : State) (k : Nat) (x : Stream) : (s.setStream k x).pending = s.pending := rfl
@[simp] theorem State.setStream_tileMap (s : State) (k : Nat) (x : Stream) : (s.setStream k x).tileMap = s.tileMap := rfl
@[simp] theorem State.setStream_win (s : State) (k : Nat) (x : Stream) : (s.setStream k x).win = s.win := rfl
@[simp] theorem State.setStream_links (s : State) (k : Nat) (x : Stream) : (s.setStream k x).links = s.links := rfl
@[simp] theorem State.setStream_tiles (s : State) (k : Nat) (x : Stream) : (s.setStream k x).tiles = s.tiles := rfl
@[simp] theorem State.setStream_tasks (s : State) (k : Nat) (x : Stream) : (s.setStream k x).tasks = s.tasks := rfl
@[simp] theorem State.setStream_sectors (s : State) (k : Nat) (x : Stream) : (s.setStream k x).sectors = s.sectors := rfl
@[simp] theorem State.setStream_grants (s : State) (k : Nat) (x : Stream) : (s.setStream k x).grants = s.grants := rfl
@[simp] theorem State.setStream_dones (s : State) (k : Nat) (x : Stream) : (s.setStream k x).dones = s.dones := rfl
@[simp] theorem State.setStream_getWorks (s : State) (k : Nat) (x : Stream) : (s.setStream k x).getWorks = s.getWorks := rfl
@[simp] theorem State.setStream_notifies (s : State) (k : Nat) (x : Stream) : (s.setStream k x).notifies = s.notifies := rfl
@[simp] theorem State.setStream_mem (s : State) (k : Nat) (x : Stream) : (s.setStream k x).mem = s.mem := rfl
@[simp] theorem State.setStream_mesh (s : State) (k : Nat) (x : Stream) : (s.setStream k x).mesh = s.mesh := rfl
@[simp] theorem State.setStream_events (s : State) (k : Nat) (x : Stream) : (s.setStream k x).events = s.events := rfl
@[simp] theorem State.setStream_queues (s : State) (k : Nat) (x : Stream) : (s.setStream k x).queues = s.queues := rfl
@[simp] theorem State.setStream_ports (s : State) (k : Nat) (x : Stream) : (s.setStream k x).ports = s.ports := rfl
@[simp] theorem State.setStream_hostWrites (s : State) (k : Nat) (x : Stream) : (s.setStream k x).hostWrites = s.hostWrites := rfl
@[simp] theorem State.setStream_starts (s : State) (k : Nat) (x : Stream) : (s.setStream k x).starts = s.starts := rfl
@[simp] theorem State.setStream_buffers (s : State) (k : Nat) (x : Stream) : (s.setStream k x).buffers = s.buffers := rfl
@[simp] theorem State.setStream_running (s : State) (k : Nat) (x : Stream) : (s.setStream k x).running = s.running := rfl
@[simp] theorem State.setStream_flights (s : State) (k : Nat) (x : Stream) : (s.setStream k x).flights = s.flights := rfl
@[simp] theorem State.setStream_faults (s : State) (k : Nat) (x : Stream) : (s.setStream k x).faults = s.faults := rfl
@[simp] theorem State.setStream_recovery (s : State) (k : Nat) (x : Stream) : (s.setStream k x).recovery = s.recovery := rfl
@[simp] theorem State.setStream_log (s : State) (k : Nat) (x : Stream) : (s.setStream k x).log = s.log := rfl
@[simp] theorem State.setStream_logNext (s : State) (k : Nat) (x : Stream) : (s.setStream k x).logNext = s.logNext := rfl
@[simp] theorem State.setStream_usPhase (s : State) (k : Nat) (x : Stream) : (s.setStream k x).usPhase = s.usPhase := rfl
@[simp] theorem State.setStream_time (s : State) (k : Nat) (x : Stream) : (s.setStream k x).time = s.time := rfl
@[simp] theorem State.setStream_cells (s : State) (k : Nat) (x : Stream) : (s.setStream k x).cells = s.cells := rfl
@[simp] theorem State.setStream_lanes (s : State) (k : Nat) (x : Stream) : (s.setStream k x).lanes = s.lanes := rfl
@[simp] theorem State.setStream_partners (s : State) (k : Nat) (x : Stream) : (s.setStream k x).partners = s.partners := rfl
@[simp] theorem State.setStream_rules (s : State) (k : Nat) (x : Stream) : (s.setStream k x).rules = s.rules := rfl
@[simp] theorem State.setStream_asm (s : State) (k : Nat) (x : Stream) : (s.setStream k x).asm = s.asm := rfl
@[simp] theorem State.setStream_alloc (s : State) (k : Nat) (x : Stream) : (s.setStream k x).alloc = s.alloc := rfl
@[simp] theorem State.setStream_holdoff (s : State) (k : Nat) (x : Stream) : (s.setStream k x).holdoff = s.holdoff := rfl
@[simp] theorem State.setStream_parts (s : State) (k : Nat) (x : Stream) : (s.setStream k x).parts = s.parts := rfl
@[simp] theorem State.setStream_roles (s : State) (k : Nat) (x : Stream) : (s.setStream k x).roles = s.roles := rfl
@[simp] theorem State.setStream_slices (s : State) (k : Nat) (x : Stream) : (s.setStream k x).slices = s.slices := rfl
@[simp] theorem State.setStream_sliceNow (s : State) (k : Nat) (x : Stream) : (s.setStream k x).sliceNow = s.sliceNow := rfl
@[simp] theorem State.setStream_secSlot (s : State) (k : Nat) (x : Stream) : (s.setStream k x).secSlot = s.secSlot := rfl
@[simp] theorem State.setStream_hostReads (s : State) (k : Nat) (x : Stream) : (s.setStream k x).hostReads = s.hostReads := rfl
@[simp] theorem State.setStream_logRead (s : State) (k : Nat) (x : Stream) : (s.setStream k x).logRead = s.logRead := rfl
@[simp] theorem State.setStream_perc (s : State) (k : Nat) (x : Stream) : (s.setStream k x).perc = s.perc := rfl
@[simp] theorem State.setStream_cupEn (s : State) (k : Nat) (x : Stream) : (s.setStream k x).cupEn = s.cupEn := rfl
@[simp] theorem State.setStream_cupPeriod (s : State) (k : Nat) (x : Stream) : (s.setStream k x).cupPeriod = s.cupPeriod := rfl
@[simp] theorem State.setStream_power (s : State) (k : Nat) (x : Stream) : (s.setStream k x).power = s.power := rfl
@[simp] theorem State.setStream_boot (s : State) (k : Nat) (x : Stream) : (s.setStream k x).boot = s.boot := rfl
@[simp] theorem State.setStream_fuses (s : State) (k : Nat) (x : Stream) : (s.setStream k x).fuses = s.fuses := rfl
@[simp] theorem State.setStream_shadow (s : State) (k : Nat) (x : Stream) : (s.setStream k x).shadow = s.shadow := rfl
@[simp] theorem State.setStream_flash (s : State) (k : Nat) (x : Stream) : (s.setStream k x).flash = s.flash := rfl
@[simp] theorem State.setStream_smbAddr (s : State) (k : Nat) (x : Stream) : (s.setStream k x).smbAddr = s.smbAddr := rfl
@[simp] theorem State.setStream_tap (s : State) (k : Nat) (x : Stream) : (s.setStream k x).tap = s.tap := rfl
@[simp] theorem State.setStream_dbgAccess (s : State) (k : Nat) (x : Stream) : (s.setStream k x).dbgAccess = s.dbgAccess := rfl
@[simp] theorem State.setStream_readOut (s : State) (k : Nat) (x : Stream) : (s.setStream k x).readOut = s.readOut := rfl
@[simp] theorem State.setStream_drawn (s : State) (k : Nat) (x : Stream) : (s.setStream k x).drawn = s.drawn := rfl
@[simp] theorem State.setStream_tm (s : State) (k : Nat) (x : Stream) (i : Nat) : (s.setStream k x).tm i = s.tm i := rfl
@[simp] theorem State.setStream_tile (s : State) (k : Nat) (x : Stream) (i : Nat) : (s.setStream k x).tile i = s.tile i := rfl
@[simp] theorem State.setStream_link (s : State) (k : Nat) (x : Stream) (i : Nat) : (s.setStream k x).link i = s.link i := rfl
@[simp] theorem State.setStream_task (s : State) (k : Nat) (x : Stream) (i : Nat) : (s.setStream k x).task i = s.task i := rfl
@[simp] theorem State.setStream_sector (s : State) (k : Nat) (x : Stream) (i : Nat) : (s.setStream k x).sector i = s.sector i := rfl
@[simp] theorem State.setStream_evb (s : State) (k : Nat) (x : Stream) (i : Nat) : (s.setStream k x).evb i = s.evb i := rfl
@[simp] theorem State.setStream_queue (s : State) (k : Nat) (x : Stream) (i : Nat) : (s.setStream k x).queue i = s.queue i := rfl
@[simp] theorem State.setStream_role (s : State) (k : Nat) (x : Stream) (i : Nat) : (s.setStream k x).role i = s.role i := rfl
@[simp] theorem State.setStream_part (s : State) (k : Nat) (x : Stream) (i : Nat) : (s.setStream k x).part i = s.part i := rfl
@[simp] theorem State.setStream_port (s : State) (k : Nat) (x : Stream) (i : Nat) : (s.setStream k x).port i = s.port i := rfl
@[simp] theorem State.setStream_inFlight (s : State) (k : Nat) (x : Stream) (i : Nat) : (s.setStream k x).inFlight i = s.inFlight i := rfl
@[simp] theorem State.setStream_buffer (s : State) (k : Nat) (x : Stream) (i : Nat) : (s.setStream k x).buffer i = s.buffer i := rfl
@[simp] theorem State.setStream_lane (s : State) (k : Nat) (x : Stream) (i : Nat) : (s.setStream k x).lane i = s.lane i := rfl
@[simp] theorem State.setStream_stream_same (s : State) (k : Nat) (x : Stream) : (s.setStream k x).stream k = x := by
  unfold State.stream State.setStream; exact tget_tset_same _ _ _ _
theorem State.setStream_stream (s : State) (k : Nat) (x : Stream) (i : Nat) : (s.setStream k x).stream i = if i = k then x else s.stream i := by
  unfold State.stream State.setStream; exact tget_tset _ _ _ _ _

/-! ## updStream -/

@[simp] theorem State.updStream_pending (s : State) (k : Nat) (f : Stream → Stream) : (s.updStream k f).pending = s.pending := rfl
@[simp] theorem State.updStream_tileMap (s : State) (k : Nat) (f : Stream → Stream) : (s.updStream k f).tileMap = s.tileMap := rfl
@[simp] theorem State.updStream_win (s : State) (k : Nat) (f : Stream → Stream) : (s.updStream k f).win = s.win := rfl
@[simp] theorem State.updStream_links (s : State) (k : Nat) (f : Stream → Stream) : (s.updStream k f).links = s.links := rfl
@[simp] theorem State.updStream_tiles (s : State) (k : Nat) (f : Stream → Stream) : (s.updStream k f).tiles = s.tiles := rfl
@[simp] theorem State.updStream_tasks (s : State) (k : Nat) (f : Stream → Stream) : (s.updStream k f).tasks = s.tasks := rfl
@[simp] theorem State.updStream_sectors (s : State) (k : Nat) (f : Stream → Stream) : (s.updStream k f).sectors = s.sectors := rfl
@[simp] theorem State.updStream_grants (s : State) (k : Nat) (f : Stream → Stream) : (s.updStream k f).grants = s.grants := rfl
@[simp] theorem State.updStream_dones (s : State) (k : Nat) (f : Stream → Stream) : (s.updStream k f).dones = s.dones := rfl
@[simp] theorem State.updStream_getWorks (s : State) (k : Nat) (f : Stream → Stream) : (s.updStream k f).getWorks = s.getWorks := rfl
@[simp] theorem State.updStream_notifies (s : State) (k : Nat) (f : Stream → Stream) : (s.updStream k f).notifies = s.notifies := rfl
@[simp] theorem State.updStream_mem (s : State) (k : Nat) (f : Stream → Stream) : (s.updStream k f).mem = s.mem := rfl
@[simp] theorem State.updStream_mesh (s : State) (k : Nat) (f : Stream → Stream) : (s.updStream k f).mesh = s.mesh := rfl
@[simp] theorem State.updStream_events (s : State) (k : Nat) (f : Stream → Stream) : (s.updStream k f).events = s.events := rfl
@[simp] theorem State.updStream_queues (s : State) (k : Nat) (f : Stream → Stream) : (s.updStream k f).queues = s.queues := rfl
@[simp] theorem State.updStream_ports (s : State) (k : Nat) (f : Stream → Stream) : (s.updStream k f).ports = s.ports := rfl
@[simp] theorem State.updStream_hostWrites (s : State) (k : Nat) (f : Stream → Stream) : (s.updStream k f).hostWrites = s.hostWrites := rfl
@[simp] theorem State.updStream_starts (s : State) (k : Nat) (f : Stream → Stream) : (s.updStream k f).starts = s.starts := rfl
@[simp] theorem State.updStream_buffers (s : State) (k : Nat) (f : Stream → Stream) : (s.updStream k f).buffers = s.buffers := rfl
@[simp] theorem State.updStream_running (s : State) (k : Nat) (f : Stream → Stream) : (s.updStream k f).running = s.running := rfl
@[simp] theorem State.updStream_flights (s : State) (k : Nat) (f : Stream → Stream) : (s.updStream k f).flights = s.flights := rfl
@[simp] theorem State.updStream_faults (s : State) (k : Nat) (f : Stream → Stream) : (s.updStream k f).faults = s.faults := rfl
@[simp] theorem State.updStream_recovery (s : State) (k : Nat) (f : Stream → Stream) : (s.updStream k f).recovery = s.recovery := rfl
@[simp] theorem State.updStream_log (s : State) (k : Nat) (f : Stream → Stream) : (s.updStream k f).log = s.log := rfl
@[simp] theorem State.updStream_logNext (s : State) (k : Nat) (f : Stream → Stream) : (s.updStream k f).logNext = s.logNext := rfl
@[simp] theorem State.updStream_usPhase (s : State) (k : Nat) (f : Stream → Stream) : (s.updStream k f).usPhase = s.usPhase := rfl
@[simp] theorem State.updStream_time (s : State) (k : Nat) (f : Stream → Stream) : (s.updStream k f).time = s.time := rfl
@[simp] theorem State.updStream_cells (s : State) (k : Nat) (f : Stream → Stream) : (s.updStream k f).cells = s.cells := rfl
@[simp] theorem State.updStream_lanes (s : State) (k : Nat) (f : Stream → Stream) : (s.updStream k f).lanes = s.lanes := rfl
@[simp] theorem State.updStream_partners (s : State) (k : Nat) (f : Stream → Stream) : (s.updStream k f).partners = s.partners := rfl
@[simp] theorem State.updStream_rules (s : State) (k : Nat) (f : Stream → Stream) : (s.updStream k f).rules = s.rules := rfl
@[simp] theorem State.updStream_asm (s : State) (k : Nat) (f : Stream → Stream) : (s.updStream k f).asm = s.asm := rfl
@[simp] theorem State.updStream_alloc (s : State) (k : Nat) (f : Stream → Stream) : (s.updStream k f).alloc = s.alloc := rfl
@[simp] theorem State.updStream_holdoff (s : State) (k : Nat) (f : Stream → Stream) : (s.updStream k f).holdoff = s.holdoff := rfl
@[simp] theorem State.updStream_parts (s : State) (k : Nat) (f : Stream → Stream) : (s.updStream k f).parts = s.parts := rfl
@[simp] theorem State.updStream_roles (s : State) (k : Nat) (f : Stream → Stream) : (s.updStream k f).roles = s.roles := rfl
@[simp] theorem State.updStream_slices (s : State) (k : Nat) (f : Stream → Stream) : (s.updStream k f).slices = s.slices := rfl
@[simp] theorem State.updStream_sliceNow (s : State) (k : Nat) (f : Stream → Stream) : (s.updStream k f).sliceNow = s.sliceNow := rfl
@[simp] theorem State.updStream_secSlot (s : State) (k : Nat) (f : Stream → Stream) : (s.updStream k f).secSlot = s.secSlot := rfl
@[simp] theorem State.updStream_hostReads (s : State) (k : Nat) (f : Stream → Stream) : (s.updStream k f).hostReads = s.hostReads := rfl
@[simp] theorem State.updStream_logRead (s : State) (k : Nat) (f : Stream → Stream) : (s.updStream k f).logRead = s.logRead := rfl
@[simp] theorem State.updStream_perc (s : State) (k : Nat) (f : Stream → Stream) : (s.updStream k f).perc = s.perc := rfl
@[simp] theorem State.updStream_cupEn (s : State) (k : Nat) (f : Stream → Stream) : (s.updStream k f).cupEn = s.cupEn := rfl
@[simp] theorem State.updStream_cupPeriod (s : State) (k : Nat) (f : Stream → Stream) : (s.updStream k f).cupPeriod = s.cupPeriod := rfl
@[simp] theorem State.updStream_power (s : State) (k : Nat) (f : Stream → Stream) : (s.updStream k f).power = s.power := rfl
@[simp] theorem State.updStream_boot (s : State) (k : Nat) (f : Stream → Stream) : (s.updStream k f).boot = s.boot := rfl
@[simp] theorem State.updStream_fuses (s : State) (k : Nat) (f : Stream → Stream) : (s.updStream k f).fuses = s.fuses := rfl
@[simp] theorem State.updStream_shadow (s : State) (k : Nat) (f : Stream → Stream) : (s.updStream k f).shadow = s.shadow := rfl
@[simp] theorem State.updStream_flash (s : State) (k : Nat) (f : Stream → Stream) : (s.updStream k f).flash = s.flash := rfl
@[simp] theorem State.updStream_smbAddr (s : State) (k : Nat) (f : Stream → Stream) : (s.updStream k f).smbAddr = s.smbAddr := rfl
@[simp] theorem State.updStream_tap (s : State) (k : Nat) (f : Stream → Stream) : (s.updStream k f).tap = s.tap := rfl
@[simp] theorem State.updStream_dbgAccess (s : State) (k : Nat) (f : Stream → Stream) : (s.updStream k f).dbgAccess = s.dbgAccess := rfl
@[simp] theorem State.updStream_readOut (s : State) (k : Nat) (f : Stream → Stream) : (s.updStream k f).readOut = s.readOut := rfl
@[simp] theorem State.updStream_drawn (s : State) (k : Nat) (f : Stream → Stream) : (s.updStream k f).drawn = s.drawn := rfl
@[simp] theorem State.updStream_tm (s : State) (k : Nat) (f : Stream → Stream) (i : Nat) : (s.updStream k f).tm i = s.tm i := rfl
@[simp] theorem State.updStream_tile (s : State) (k : Nat) (f : Stream → Stream) (i : Nat) : (s.updStream k f).tile i = s.tile i := rfl
@[simp] theorem State.updStream_link (s : State) (k : Nat) (f : Stream → Stream) (i : Nat) : (s.updStream k f).link i = s.link i := rfl
@[simp] theorem State.updStream_task (s : State) (k : Nat) (f : Stream → Stream) (i : Nat) : (s.updStream k f).task i = s.task i := rfl
@[simp] theorem State.updStream_sector (s : State) (k : Nat) (f : Stream → Stream) (i : Nat) : (s.updStream k f).sector i = s.sector i := rfl
@[simp] theorem State.updStream_evb (s : State) (k : Nat) (f : Stream → Stream) (i : Nat) : (s.updStream k f).evb i = s.evb i := rfl
@[simp] theorem State.updStream_queue (s : State) (k : Nat) (f : Stream → Stream) (i : Nat) : (s.updStream k f).queue i = s.queue i := rfl
@[simp] theorem State.updStream_role (s : State) (k : Nat) (f : Stream → Stream) (i : Nat) : (s.updStream k f).role i = s.role i := rfl
@[simp] theorem State.updStream_part (s : State) (k : Nat) (f : Stream → Stream) (i : Nat) : (s.updStream k f).part i = s.part i := rfl
@[simp] theorem State.updStream_port (s : State) (k : Nat) (f : Stream → Stream) (i : Nat) : (s.updStream k f).port i = s.port i := rfl
@[simp] theorem State.updStream_inFlight (s : State) (k : Nat) (f : Stream → Stream) (i : Nat) : (s.updStream k f).inFlight i = s.inFlight i := rfl
@[simp] theorem State.updStream_buffer (s : State) (k : Nat) (f : Stream → Stream) (i : Nat) : (s.updStream k f).buffer i = s.buffer i := rfl
@[simp] theorem State.updStream_lane (s : State) (k : Nat) (f : Stream → Stream) (i : Nat) : (s.updStream k f).lane i = s.lane i := rfl
@[simp] theorem State.updStream_stream_same (s : State) (k : Nat) (f : Stream → Stream) : (s.updStream k f).stream k = f (s.stream k) := by
  unfold State.stream State.updStream; exact tget_tset_same _ _ _ _
theorem State.updStream_stream (s : State) (k : Nat) (f : Stream → Stream) (i : Nat) : (s.updStream k f).stream i = if i = k then f (s.stream k) else s.stream i := by
  unfold State.stream State.updStream; exact tget_tset _ _ _ _ _

/-! ## setCell -/

@[simp] theorem State.setCell_pending (s : State) (c : Nat) (x : Cell) : (s.setCell c x).pending = s.pending := rfl
@[simp] theorem State.setCell_tileMap (s : State) (c : Nat) (x : Cell) : (s.setCell c x).tileMap = s.tileMap := rfl
@[simp] theorem State.setCell_win (s : State) (c : Nat) (x : Cell) : (s.setCell c x).win = s.win := rfl
@[simp] theorem State.setCell_links (s : State) (c : Nat) (x : Cell) : (s.setCell c x).links = s.links := rfl
@[simp] theorem State.setCell_tiles (s : State) (c : Nat) (x : Cell) : (s.setCell c x).tiles = s.tiles := rfl
@[simp] theorem State.setCell_tasks (s : State) (c : Nat) (x : Cell) : (s.setCell c x).tasks = s.tasks := rfl
@[simp] theorem State.setCell_sectors (s : State) (c : Nat) (x : Cell) : (s.setCell c x).sectors = s.sectors := rfl
@[simp] theorem State.setCell_grants (s : State) (c : Nat) (x : Cell) : (s.setCell c x).grants = s.grants := rfl
@[simp] theorem State.setCell_dones (s : State) (c : Nat) (x : Cell) : (s.setCell c x).dones = s.dones := rfl
@[simp] theorem State.setCell_getWorks (s : State) (c : Nat) (x : Cell) : (s.setCell c x).getWorks = s.getWorks := rfl
@[simp] theorem State.setCell_notifies (s : State) (c : Nat) (x : Cell) : (s.setCell c x).notifies = s.notifies := rfl
@[simp] theorem State.setCell_mem (s : State) (c : Nat) (x : Cell) : (s.setCell c x).mem = s.mem := rfl
@[simp] theorem State.setCell_mesh (s : State) (c : Nat) (x : Cell) : (s.setCell c x).mesh = s.mesh := rfl
@[simp] theorem State.setCell_events (s : State) (c : Nat) (x : Cell) : (s.setCell c x).events = s.events := rfl
@[simp] theorem State.setCell_queues (s : State) (c : Nat) (x : Cell) : (s.setCell c x).queues = s.queues := rfl
@[simp] theorem State.setCell_ports (s : State) (c : Nat) (x : Cell) : (s.setCell c x).ports = s.ports := rfl
@[simp] theorem State.setCell_hostWrites (s : State) (c : Nat) (x : Cell) : (s.setCell c x).hostWrites = s.hostWrites := rfl
@[simp] theorem State.setCell_starts (s : State) (c : Nat) (x : Cell) : (s.setCell c x).starts = s.starts := rfl
@[simp] theorem State.setCell_buffers (s : State) (c : Nat) (x : Cell) : (s.setCell c x).buffers = s.buffers := rfl
@[simp] theorem State.setCell_running (s : State) (c : Nat) (x : Cell) : (s.setCell c x).running = s.running := rfl
@[simp] theorem State.setCell_flights (s : State) (c : Nat) (x : Cell) : (s.setCell c x).flights = s.flights := rfl
@[simp] theorem State.setCell_faults (s : State) (c : Nat) (x : Cell) : (s.setCell c x).faults = s.faults := rfl
@[simp] theorem State.setCell_recovery (s : State) (c : Nat) (x : Cell) : (s.setCell c x).recovery = s.recovery := rfl
@[simp] theorem State.setCell_log (s : State) (c : Nat) (x : Cell) : (s.setCell c x).log = s.log := rfl
@[simp] theorem State.setCell_logNext (s : State) (c : Nat) (x : Cell) : (s.setCell c x).logNext = s.logNext := rfl
@[simp] theorem State.setCell_usPhase (s : State) (c : Nat) (x : Cell) : (s.setCell c x).usPhase = s.usPhase := rfl
@[simp] theorem State.setCell_time (s : State) (c : Nat) (x : Cell) : (s.setCell c x).time = s.time := rfl
@[simp] theorem State.setCell_lanes (s : State) (c : Nat) (x : Cell) : (s.setCell c x).lanes = s.lanes := rfl
@[simp] theorem State.setCell_partners (s : State) (c : Nat) (x : Cell) : (s.setCell c x).partners = s.partners := rfl
@[simp] theorem State.setCell_rules (s : State) (c : Nat) (x : Cell) : (s.setCell c x).rules = s.rules := rfl
@[simp] theorem State.setCell_streams (s : State) (c : Nat) (x : Cell) : (s.setCell c x).streams = s.streams := rfl
@[simp] theorem State.setCell_asm (s : State) (c : Nat) (x : Cell) : (s.setCell c x).asm = s.asm := rfl
@[simp] theorem State.setCell_alloc (s : State) (c : Nat) (x : Cell) : (s.setCell c x).alloc = s.alloc := rfl
@[simp] theorem State.setCell_holdoff (s : State) (c : Nat) (x : Cell) : (s.setCell c x).holdoff = s.holdoff := rfl
@[simp] theorem State.setCell_parts (s : State) (c : Nat) (x : Cell) : (s.setCell c x).parts = s.parts := rfl
@[simp] theorem State.setCell_roles (s : State) (c : Nat) (x : Cell) : (s.setCell c x).roles = s.roles := rfl
@[simp] theorem State.setCell_slices (s : State) (c : Nat) (x : Cell) : (s.setCell c x).slices = s.slices := rfl
@[simp] theorem State.setCell_sliceNow (s : State) (c : Nat) (x : Cell) : (s.setCell c x).sliceNow = s.sliceNow := rfl
@[simp] theorem State.setCell_secSlot (s : State) (c : Nat) (x : Cell) : (s.setCell c x).secSlot = s.secSlot := rfl
@[simp] theorem State.setCell_hostReads (s : State) (c : Nat) (x : Cell) : (s.setCell c x).hostReads = s.hostReads := rfl
@[simp] theorem State.setCell_logRead (s : State) (c : Nat) (x : Cell) : (s.setCell c x).logRead = s.logRead := rfl
@[simp] theorem State.setCell_perc (s : State) (c : Nat) (x : Cell) : (s.setCell c x).perc = s.perc := rfl
@[simp] theorem State.setCell_cupEn (s : State) (c : Nat) (x : Cell) : (s.setCell c x).cupEn = s.cupEn := rfl
@[simp] theorem State.setCell_cupPeriod (s : State) (c : Nat) (x : Cell) : (s.setCell c x).cupPeriod = s.cupPeriod := rfl
@[simp] theorem State.setCell_power (s : State) (c : Nat) (x : Cell) : (s.setCell c x).power = s.power := rfl
@[simp] theorem State.setCell_boot (s : State) (c : Nat) (x : Cell) : (s.setCell c x).boot = s.boot := rfl
@[simp] theorem State.setCell_fuses (s : State) (c : Nat) (x : Cell) : (s.setCell c x).fuses = s.fuses := rfl
@[simp] theorem State.setCell_shadow (s : State) (c : Nat) (x : Cell) : (s.setCell c x).shadow = s.shadow := rfl
@[simp] theorem State.setCell_flash (s : State) (c : Nat) (x : Cell) : (s.setCell c x).flash = s.flash := rfl
@[simp] theorem State.setCell_smbAddr (s : State) (c : Nat) (x : Cell) : (s.setCell c x).smbAddr = s.smbAddr := rfl
@[simp] theorem State.setCell_tap (s : State) (c : Nat) (x : Cell) : (s.setCell c x).tap = s.tap := rfl
@[simp] theorem State.setCell_dbgAccess (s : State) (c : Nat) (x : Cell) : (s.setCell c x).dbgAccess = s.dbgAccess := rfl
@[simp] theorem State.setCell_readOut (s : State) (c : Nat) (x : Cell) : (s.setCell c x).readOut = s.readOut := rfl
@[simp] theorem State.setCell_drawn (s : State) (c : Nat) (x : Cell) : (s.setCell c x).drawn = s.drawn := rfl
@[simp] theorem State.setCell_tm (s : State) (c : Nat) (x : Cell) (i : Nat) : (s.setCell c x).tm i = s.tm i := rfl
@[simp] theorem State.setCell_tile (s : State) (c : Nat) (x : Cell) (i : Nat) : (s.setCell c x).tile i = s.tile i := rfl
@[simp] theorem State.setCell_link (s : State) (c : Nat) (x : Cell) (i : Nat) : (s.setCell c x).link i = s.link i := rfl
@[simp] theorem State.setCell_task (s : State) (c : Nat) (x : Cell) (i : Nat) : (s.setCell c x).task i = s.task i := rfl
@[simp] theorem State.setCell_sector (s : State) (c : Nat) (x : Cell) (i : Nat) : (s.setCell c x).sector i = s.sector i := rfl
@[simp] theorem State.setCell_evb (s : State) (c : Nat) (x : Cell) (i : Nat) : (s.setCell c x).evb i = s.evb i := rfl
@[simp] theorem State.setCell_queue (s : State) (c : Nat) (x : Cell) (i : Nat) : (s.setCell c x).queue i = s.queue i := rfl
@[simp] theorem State.setCell_role (s : State) (c : Nat) (x : Cell) (i : Nat) : (s.setCell c x).role i = s.role i := rfl
@[simp] theorem State.setCell_part (s : State) (c : Nat) (x : Cell) (i : Nat) : (s.setCell c x).part i = s.part i := rfl
@[simp] theorem State.setCell_port (s : State) (c : Nat) (x : Cell) (i : Nat) : (s.setCell c x).port i = s.port i := rfl
@[simp] theorem State.setCell_inFlight (s : State) (c : Nat) (x : Cell) (i : Nat) : (s.setCell c x).inFlight i = s.inFlight i := rfl
@[simp] theorem State.setCell_buffer (s : State) (c : Nat) (x : Cell) (i : Nat) : (s.setCell c x).buffer i = s.buffer i := rfl
@[simp] theorem State.setCell_lane (s : State) (c : Nat) (x : Cell) (i : Nat) : (s.setCell c x).lane i = s.lane i := rfl
@[simp] theorem State.setCell_stream (s : State) (c : Nat) (x : Cell) (i : Nat) : (s.setCell c x).stream i = s.stream i := rfl

/-! ## setRec -/

@[simp] theorem State.setRec_pending (s : State) (q : Nat) (x : Option Recovery) : (s.setRec q x).pending = s.pending := rfl
@[simp] theorem State.setRec_tileMap (s : State) (q : Nat) (x : Option Recovery) : (s.setRec q x).tileMap = s.tileMap := rfl
@[simp] theorem State.setRec_win (s : State) (q : Nat) (x : Option Recovery) : (s.setRec q x).win = s.win := rfl
@[simp] theorem State.setRec_links (s : State) (q : Nat) (x : Option Recovery) : (s.setRec q x).links = s.links := rfl
@[simp] theorem State.setRec_tiles (s : State) (q : Nat) (x : Option Recovery) : (s.setRec q x).tiles = s.tiles := rfl
@[simp] theorem State.setRec_tasks (s : State) (q : Nat) (x : Option Recovery) : (s.setRec q x).tasks = s.tasks := rfl
@[simp] theorem State.setRec_sectors (s : State) (q : Nat) (x : Option Recovery) : (s.setRec q x).sectors = s.sectors := rfl
@[simp] theorem State.setRec_grants (s : State) (q : Nat) (x : Option Recovery) : (s.setRec q x).grants = s.grants := rfl
@[simp] theorem State.setRec_dones (s : State) (q : Nat) (x : Option Recovery) : (s.setRec q x).dones = s.dones := rfl
@[simp] theorem State.setRec_getWorks (s : State) (q : Nat) (x : Option Recovery) : (s.setRec q x).getWorks = s.getWorks := rfl
@[simp] theorem State.setRec_notifies (s : State) (q : Nat) (x : Option Recovery) : (s.setRec q x).notifies = s.notifies := rfl
@[simp] theorem State.setRec_mem (s : State) (q : Nat) (x : Option Recovery) : (s.setRec q x).mem = s.mem := rfl
@[simp] theorem State.setRec_mesh (s : State) (q : Nat) (x : Option Recovery) : (s.setRec q x).mesh = s.mesh := rfl
@[simp] theorem State.setRec_events (s : State) (q : Nat) (x : Option Recovery) : (s.setRec q x).events = s.events := rfl
@[simp] theorem State.setRec_queues (s : State) (q : Nat) (x : Option Recovery) : (s.setRec q x).queues = s.queues := rfl
@[simp] theorem State.setRec_ports (s : State) (q : Nat) (x : Option Recovery) : (s.setRec q x).ports = s.ports := rfl
@[simp] theorem State.setRec_hostWrites (s : State) (q : Nat) (x : Option Recovery) : (s.setRec q x).hostWrites = s.hostWrites := rfl
@[simp] theorem State.setRec_starts (s : State) (q : Nat) (x : Option Recovery) : (s.setRec q x).starts = s.starts := rfl
@[simp] theorem State.setRec_buffers (s : State) (q : Nat) (x : Option Recovery) : (s.setRec q x).buffers = s.buffers := rfl
@[simp] theorem State.setRec_running (s : State) (q : Nat) (x : Option Recovery) : (s.setRec q x).running = s.running := rfl
@[simp] theorem State.setRec_flights (s : State) (q : Nat) (x : Option Recovery) : (s.setRec q x).flights = s.flights := rfl
@[simp] theorem State.setRec_faults (s : State) (q : Nat) (x : Option Recovery) : (s.setRec q x).faults = s.faults := rfl
@[simp] theorem State.setRec_log (s : State) (q : Nat) (x : Option Recovery) : (s.setRec q x).log = s.log := rfl
@[simp] theorem State.setRec_logNext (s : State) (q : Nat) (x : Option Recovery) : (s.setRec q x).logNext = s.logNext := rfl
@[simp] theorem State.setRec_usPhase (s : State) (q : Nat) (x : Option Recovery) : (s.setRec q x).usPhase = s.usPhase := rfl
@[simp] theorem State.setRec_time (s : State) (q : Nat) (x : Option Recovery) : (s.setRec q x).time = s.time := rfl
@[simp] theorem State.setRec_cells (s : State) (q : Nat) (x : Option Recovery) : (s.setRec q x).cells = s.cells := rfl
@[simp] theorem State.setRec_lanes (s : State) (q : Nat) (x : Option Recovery) : (s.setRec q x).lanes = s.lanes := rfl
@[simp] theorem State.setRec_partners (s : State) (q : Nat) (x : Option Recovery) : (s.setRec q x).partners = s.partners := rfl
@[simp] theorem State.setRec_rules (s : State) (q : Nat) (x : Option Recovery) : (s.setRec q x).rules = s.rules := rfl
@[simp] theorem State.setRec_streams (s : State) (q : Nat) (x : Option Recovery) : (s.setRec q x).streams = s.streams := rfl
@[simp] theorem State.setRec_asm (s : State) (q : Nat) (x : Option Recovery) : (s.setRec q x).asm = s.asm := rfl
@[simp] theorem State.setRec_alloc (s : State) (q : Nat) (x : Option Recovery) : (s.setRec q x).alloc = s.alloc := rfl
@[simp] theorem State.setRec_holdoff (s : State) (q : Nat) (x : Option Recovery) : (s.setRec q x).holdoff = s.holdoff := rfl
@[simp] theorem State.setRec_parts (s : State) (q : Nat) (x : Option Recovery) : (s.setRec q x).parts = s.parts := rfl
@[simp] theorem State.setRec_roles (s : State) (q : Nat) (x : Option Recovery) : (s.setRec q x).roles = s.roles := rfl
@[simp] theorem State.setRec_slices (s : State) (q : Nat) (x : Option Recovery) : (s.setRec q x).slices = s.slices := rfl
@[simp] theorem State.setRec_sliceNow (s : State) (q : Nat) (x : Option Recovery) : (s.setRec q x).sliceNow = s.sliceNow := rfl
@[simp] theorem State.setRec_secSlot (s : State) (q : Nat) (x : Option Recovery) : (s.setRec q x).secSlot = s.secSlot := rfl
@[simp] theorem State.setRec_hostReads (s : State) (q : Nat) (x : Option Recovery) : (s.setRec q x).hostReads = s.hostReads := rfl
@[simp] theorem State.setRec_logRead (s : State) (q : Nat) (x : Option Recovery) : (s.setRec q x).logRead = s.logRead := rfl
@[simp] theorem State.setRec_perc (s : State) (q : Nat) (x : Option Recovery) : (s.setRec q x).perc = s.perc := rfl
@[simp] theorem State.setRec_cupEn (s : State) (q : Nat) (x : Option Recovery) : (s.setRec q x).cupEn = s.cupEn := rfl
@[simp] theorem State.setRec_cupPeriod (s : State) (q : Nat) (x : Option Recovery) : (s.setRec q x).cupPeriod = s.cupPeriod := rfl
@[simp] theorem State.setRec_power (s : State) (q : Nat) (x : Option Recovery) : (s.setRec q x).power = s.power := rfl
@[simp] theorem State.setRec_boot (s : State) (q : Nat) (x : Option Recovery) : (s.setRec q x).boot = s.boot := rfl
@[simp] theorem State.setRec_fuses (s : State) (q : Nat) (x : Option Recovery) : (s.setRec q x).fuses = s.fuses := rfl
@[simp] theorem State.setRec_shadow (s : State) (q : Nat) (x : Option Recovery) : (s.setRec q x).shadow = s.shadow := rfl
@[simp] theorem State.setRec_flash (s : State) (q : Nat) (x : Option Recovery) : (s.setRec q x).flash = s.flash := rfl
@[simp] theorem State.setRec_smbAddr (s : State) (q : Nat) (x : Option Recovery) : (s.setRec q x).smbAddr = s.smbAddr := rfl
@[simp] theorem State.setRec_tap (s : State) (q : Nat) (x : Option Recovery) : (s.setRec q x).tap = s.tap := rfl
@[simp] theorem State.setRec_dbgAccess (s : State) (q : Nat) (x : Option Recovery) : (s.setRec q x).dbgAccess = s.dbgAccess := rfl
@[simp] theorem State.setRec_readOut (s : State) (q : Nat) (x : Option Recovery) : (s.setRec q x).readOut = s.readOut := rfl
@[simp] theorem State.setRec_drawn (s : State) (q : Nat) (x : Option Recovery) : (s.setRec q x).drawn = s.drawn := rfl
@[simp] theorem State.setRec_tm (s : State) (q : Nat) (x : Option Recovery) (i : Nat) : (s.setRec q x).tm i = s.tm i := rfl
@[simp] theorem State.setRec_tile (s : State) (q : Nat) (x : Option Recovery) (i : Nat) : (s.setRec q x).tile i = s.tile i := rfl
@[simp] theorem State.setRec_link (s : State) (q : Nat) (x : Option Recovery) (i : Nat) : (s.setRec q x).link i = s.link i := rfl
@[simp] theorem State.setRec_task (s : State) (q : Nat) (x : Option Recovery) (i : Nat) : (s.setRec q x).task i = s.task i := rfl
@[simp] theorem State.setRec_sector (s : State) (q : Nat) (x : Option Recovery) (i : Nat) : (s.setRec q x).sector i = s.sector i := rfl
@[simp] theorem State.setRec_evb (s : State) (q : Nat) (x : Option Recovery) (i : Nat) : (s.setRec q x).evb i = s.evb i := rfl
@[simp] theorem State.setRec_queue (s : State) (q : Nat) (x : Option Recovery) (i : Nat) : (s.setRec q x).queue i = s.queue i := rfl
@[simp] theorem State.setRec_role (s : State) (q : Nat) (x : Option Recovery) (i : Nat) : (s.setRec q x).role i = s.role i := rfl
@[simp] theorem State.setRec_part (s : State) (q : Nat) (x : Option Recovery) (i : Nat) : (s.setRec q x).part i = s.part i := rfl
@[simp] theorem State.setRec_port (s : State) (q : Nat) (x : Option Recovery) (i : Nat) : (s.setRec q x).port i = s.port i := rfl
@[simp] theorem State.setRec_inFlight (s : State) (q : Nat) (x : Option Recovery) (i : Nat) : (s.setRec q x).inFlight i = s.inFlight i := rfl
@[simp] theorem State.setRec_buffer (s : State) (q : Nat) (x : Option Recovery) (i : Nat) : (s.setRec q x).buffer i = s.buffer i := rfl
@[simp] theorem State.setRec_lane (s : State) (q : Nat) (x : Option Recovery) (i : Nat) : (s.setRec q x).lane i = s.lane i := rfl
@[simp] theorem State.setRec_stream (s : State) (q : Nat) (x : Option Recovery) (i : Nat) : (s.setRec q x).stream i = s.stream i := rfl

/-! ## setBoot -/

@[simp] theorem State.setBoot_pending (s : State) (x : Boot) : (s.setBoot x).pending = s.pending := rfl
@[simp] theorem State.setBoot_tileMap (s : State) (x : Boot) : (s.setBoot x).tileMap = s.tileMap := rfl
@[simp] theorem State.setBoot_win (s : State) (x : Boot) : (s.setBoot x).win = s.win := rfl
@[simp] theorem State.setBoot_links (s : State) (x : Boot) : (s.setBoot x).links = s.links := rfl
@[simp] theorem State.setBoot_tiles (s : State) (x : Boot) : (s.setBoot x).tiles = s.tiles := rfl
@[simp] theorem State.setBoot_tasks (s : State) (x : Boot) : (s.setBoot x).tasks = s.tasks := rfl
@[simp] theorem State.setBoot_sectors (s : State) (x : Boot) : (s.setBoot x).sectors = s.sectors := rfl
@[simp] theorem State.setBoot_grants (s : State) (x : Boot) : (s.setBoot x).grants = s.grants := rfl
@[simp] theorem State.setBoot_dones (s : State) (x : Boot) : (s.setBoot x).dones = s.dones := rfl
@[simp] theorem State.setBoot_getWorks (s : State) (x : Boot) : (s.setBoot x).getWorks = s.getWorks := rfl
@[simp] theorem State.setBoot_notifies (s : State) (x : Boot) : (s.setBoot x).notifies = s.notifies := rfl
@[simp] theorem State.setBoot_mem (s : State) (x : Boot) : (s.setBoot x).mem = s.mem := rfl
@[simp] theorem State.setBoot_mesh (s : State) (x : Boot) : (s.setBoot x).mesh = s.mesh := rfl
@[simp] theorem State.setBoot_events (s : State) (x : Boot) : (s.setBoot x).events = s.events := rfl
@[simp] theorem State.setBoot_queues (s : State) (x : Boot) : (s.setBoot x).queues = s.queues := rfl
@[simp] theorem State.setBoot_ports (s : State) (x : Boot) : (s.setBoot x).ports = s.ports := rfl
@[simp] theorem State.setBoot_hostWrites (s : State) (x : Boot) : (s.setBoot x).hostWrites = s.hostWrites := rfl
@[simp] theorem State.setBoot_starts (s : State) (x : Boot) : (s.setBoot x).starts = s.starts := rfl
@[simp] theorem State.setBoot_buffers (s : State) (x : Boot) : (s.setBoot x).buffers = s.buffers := rfl
@[simp] theorem State.setBoot_running (s : State) (x : Boot) : (s.setBoot x).running = s.running := rfl
@[simp] theorem State.setBoot_flights (s : State) (x : Boot) : (s.setBoot x).flights = s.flights := rfl
@[simp] theorem State.setBoot_faults (s : State) (x : Boot) : (s.setBoot x).faults = s.faults := rfl
@[simp] theorem State.setBoot_recovery (s : State) (x : Boot) : (s.setBoot x).recovery = s.recovery := rfl
@[simp] theorem State.setBoot_log (s : State) (x : Boot) : (s.setBoot x).log = s.log := rfl
@[simp] theorem State.setBoot_logNext (s : State) (x : Boot) : (s.setBoot x).logNext = s.logNext := rfl
@[simp] theorem State.setBoot_usPhase (s : State) (x : Boot) : (s.setBoot x).usPhase = s.usPhase := rfl
@[simp] theorem State.setBoot_time (s : State) (x : Boot) : (s.setBoot x).time = s.time := rfl
@[simp] theorem State.setBoot_cells (s : State) (x : Boot) : (s.setBoot x).cells = s.cells := rfl
@[simp] theorem State.setBoot_lanes (s : State) (x : Boot) : (s.setBoot x).lanes = s.lanes := rfl
@[simp] theorem State.setBoot_partners (s : State) (x : Boot) : (s.setBoot x).partners = s.partners := rfl
@[simp] theorem State.setBoot_rules (s : State) (x : Boot) : (s.setBoot x).rules = s.rules := rfl
@[simp] theorem State.setBoot_streams (s : State) (x : Boot) : (s.setBoot x).streams = s.streams := rfl
@[simp] theorem State.setBoot_asm (s : State) (x : Boot) : (s.setBoot x).asm = s.asm := rfl
@[simp] theorem State.setBoot_alloc (s : State) (x : Boot) : (s.setBoot x).alloc = s.alloc := rfl
@[simp] theorem State.setBoot_holdoff (s : State) (x : Boot) : (s.setBoot x).holdoff = s.holdoff := rfl
@[simp] theorem State.setBoot_parts (s : State) (x : Boot) : (s.setBoot x).parts = s.parts := rfl
@[simp] theorem State.setBoot_roles (s : State) (x : Boot) : (s.setBoot x).roles = s.roles := rfl
@[simp] theorem State.setBoot_slices (s : State) (x : Boot) : (s.setBoot x).slices = s.slices := rfl
@[simp] theorem State.setBoot_sliceNow (s : State) (x : Boot) : (s.setBoot x).sliceNow = s.sliceNow := rfl
@[simp] theorem State.setBoot_secSlot (s : State) (x : Boot) : (s.setBoot x).secSlot = s.secSlot := rfl
@[simp] theorem State.setBoot_hostReads (s : State) (x : Boot) : (s.setBoot x).hostReads = s.hostReads := rfl
@[simp] theorem State.setBoot_logRead (s : State) (x : Boot) : (s.setBoot x).logRead = s.logRead := rfl
@[simp] theorem State.setBoot_perc (s : State) (x : Boot) : (s.setBoot x).perc = s.perc := rfl
@[simp] theorem State.setBoot_cupEn (s : State) (x : Boot) : (s.setBoot x).cupEn = s.cupEn := rfl
@[simp] theorem State.setBoot_cupPeriod (s : State) (x : Boot) : (s.setBoot x).cupPeriod = s.cupPeriod := rfl
@[simp] theorem State.setBoot_power (s : State) (x : Boot) : (s.setBoot x).power = s.power := rfl
@[simp] theorem State.setBoot_fuses (s : State) (x : Boot) : (s.setBoot x).fuses = s.fuses := rfl
@[simp] theorem State.setBoot_shadow (s : State) (x : Boot) : (s.setBoot x).shadow = s.shadow := rfl
@[simp] theorem State.setBoot_flash (s : State) (x : Boot) : (s.setBoot x).flash = s.flash := rfl
@[simp] theorem State.setBoot_smbAddr (s : State) (x : Boot) : (s.setBoot x).smbAddr = s.smbAddr := rfl
@[simp] theorem State.setBoot_tap (s : State) (x : Boot) : (s.setBoot x).tap = s.tap := rfl
@[simp] theorem State.setBoot_dbgAccess (s : State) (x : Boot) : (s.setBoot x).dbgAccess = s.dbgAccess := rfl
@[simp] theorem State.setBoot_readOut (s : State) (x : Boot) : (s.setBoot x).readOut = s.readOut := rfl
@[simp] theorem State.setBoot_drawn (s : State) (x : Boot) : (s.setBoot x).drawn = s.drawn := rfl
@[simp] theorem State.setBoot_tm (s : State) (x : Boot) (i : Nat) : (s.setBoot x).tm i = s.tm i := rfl
@[simp] theorem State.setBoot_tile (s : State) (x : Boot) (i : Nat) : (s.setBoot x).tile i = s.tile i := rfl
@[simp] theorem State.setBoot_link (s : State) (x : Boot) (i : Nat) : (s.setBoot x).link i = s.link i := rfl
@[simp] theorem State.setBoot_task (s : State) (x : Boot) (i : Nat) : (s.setBoot x).task i = s.task i := rfl
@[simp] theorem State.setBoot_sector (s : State) (x : Boot) (i : Nat) : (s.setBoot x).sector i = s.sector i := rfl
@[simp] theorem State.setBoot_evb (s : State) (x : Boot) (i : Nat) : (s.setBoot x).evb i = s.evb i := rfl
@[simp] theorem State.setBoot_queue (s : State) (x : Boot) (i : Nat) : (s.setBoot x).queue i = s.queue i := rfl
@[simp] theorem State.setBoot_role (s : State) (x : Boot) (i : Nat) : (s.setBoot x).role i = s.role i := rfl
@[simp] theorem State.setBoot_part (s : State) (x : Boot) (i : Nat) : (s.setBoot x).part i = s.part i := rfl
@[simp] theorem State.setBoot_port (s : State) (x : Boot) (i : Nat) : (s.setBoot x).port i = s.port i := rfl
@[simp] theorem State.setBoot_inFlight (s : State) (x : Boot) (i : Nat) : (s.setBoot x).inFlight i = s.inFlight i := rfl
@[simp] theorem State.setBoot_buffer (s : State) (x : Boot) (i : Nat) : (s.setBoot x).buffer i = s.buffer i := rfl
@[simp] theorem State.setBoot_lane (s : State) (x : Boot) (i : Nat) : (s.setBoot x).lane i = s.lane i := rfl
@[simp] theorem State.setBoot_stream (s : State) (x : Boot) (i : Nat) : (s.setBoot x).stream i = s.stream i := rfl

/-! ## raiseFault -/

@[simp] theorem State.raiseFault_pending (s : State) (x : FaultRec) : (s.raiseFault x).pending = s.pending := rfl
@[simp] theorem State.raiseFault_tileMap (s : State) (x : FaultRec) : (s.raiseFault x).tileMap = s.tileMap := rfl
@[simp] theorem State.raiseFault_win (s : State) (x : FaultRec) : (s.raiseFault x).win = s.win := rfl
@[simp] theorem State.raiseFault_links (s : State) (x : FaultRec) : (s.raiseFault x).links = s.links := rfl
@[simp] theorem State.raiseFault_tiles (s : State) (x : FaultRec) : (s.raiseFault x).tiles = s.tiles := rfl
@[simp] theorem State.raiseFault_tasks (s : State) (x : FaultRec) : (s.raiseFault x).tasks = s.tasks := rfl
@[simp] theorem State.raiseFault_sectors (s : State) (x : FaultRec) : (s.raiseFault x).sectors = s.sectors := rfl
@[simp] theorem State.raiseFault_grants (s : State) (x : FaultRec) : (s.raiseFault x).grants = s.grants := rfl
@[simp] theorem State.raiseFault_dones (s : State) (x : FaultRec) : (s.raiseFault x).dones = s.dones := rfl
@[simp] theorem State.raiseFault_getWorks (s : State) (x : FaultRec) : (s.raiseFault x).getWorks = s.getWorks := rfl
@[simp] theorem State.raiseFault_notifies (s : State) (x : FaultRec) : (s.raiseFault x).notifies = s.notifies := rfl
@[simp] theorem State.raiseFault_mem (s : State) (x : FaultRec) : (s.raiseFault x).mem = s.mem := rfl
@[simp] theorem State.raiseFault_mesh (s : State) (x : FaultRec) : (s.raiseFault x).mesh = s.mesh := rfl
@[simp] theorem State.raiseFault_events (s : State) (x : FaultRec) : (s.raiseFault x).events = s.events := rfl
@[simp] theorem State.raiseFault_queues (s : State) (x : FaultRec) : (s.raiseFault x).queues = s.queues := rfl
@[simp] theorem State.raiseFault_ports (s : State) (x : FaultRec) : (s.raiseFault x).ports = s.ports := rfl
@[simp] theorem State.raiseFault_hostWrites (s : State) (x : FaultRec) : (s.raiseFault x).hostWrites = s.hostWrites := rfl
@[simp] theorem State.raiseFault_starts (s : State) (x : FaultRec) : (s.raiseFault x).starts = s.starts := rfl
@[simp] theorem State.raiseFault_buffers (s : State) (x : FaultRec) : (s.raiseFault x).buffers = s.buffers := rfl
@[simp] theorem State.raiseFault_running (s : State) (x : FaultRec) : (s.raiseFault x).running = s.running := rfl
@[simp] theorem State.raiseFault_flights (s : State) (x : FaultRec) : (s.raiseFault x).flights = s.flights := rfl
@[simp] theorem State.raiseFault_recovery (s : State) (x : FaultRec) : (s.raiseFault x).recovery = s.recovery := rfl
@[simp] theorem State.raiseFault_log (s : State) (x : FaultRec) : (s.raiseFault x).log = s.log := rfl
@[simp] theorem State.raiseFault_logNext (s : State) (x : FaultRec) : (s.raiseFault x).logNext = s.logNext := rfl
@[simp] theorem State.raiseFault_usPhase (s : State) (x : FaultRec) : (s.raiseFault x).usPhase = s.usPhase := rfl
@[simp] theorem State.raiseFault_time (s : State) (x : FaultRec) : (s.raiseFault x).time = s.time := rfl
@[simp] theorem State.raiseFault_cells (s : State) (x : FaultRec) : (s.raiseFault x).cells = s.cells := rfl
@[simp] theorem State.raiseFault_lanes (s : State) (x : FaultRec) : (s.raiseFault x).lanes = s.lanes := rfl
@[simp] theorem State.raiseFault_partners (s : State) (x : FaultRec) : (s.raiseFault x).partners = s.partners := rfl
@[simp] theorem State.raiseFault_rules (s : State) (x : FaultRec) : (s.raiseFault x).rules = s.rules := rfl
@[simp] theorem State.raiseFault_streams (s : State) (x : FaultRec) : (s.raiseFault x).streams = s.streams := rfl
@[simp] theorem State.raiseFault_asm (s : State) (x : FaultRec) : (s.raiseFault x).asm = s.asm := rfl
@[simp] theorem State.raiseFault_alloc (s : State) (x : FaultRec) : (s.raiseFault x).alloc = s.alloc := rfl
@[simp] theorem State.raiseFault_holdoff (s : State) (x : FaultRec) : (s.raiseFault x).holdoff = s.holdoff := rfl
@[simp] theorem State.raiseFault_parts (s : State) (x : FaultRec) : (s.raiseFault x).parts = s.parts := rfl
@[simp] theorem State.raiseFault_roles (s : State) (x : FaultRec) : (s.raiseFault x).roles = s.roles := rfl
@[simp] theorem State.raiseFault_slices (s : State) (x : FaultRec) : (s.raiseFault x).slices = s.slices := rfl
@[simp] theorem State.raiseFault_sliceNow (s : State) (x : FaultRec) : (s.raiseFault x).sliceNow = s.sliceNow := rfl
@[simp] theorem State.raiseFault_secSlot (s : State) (x : FaultRec) : (s.raiseFault x).secSlot = s.secSlot := rfl
@[simp] theorem State.raiseFault_hostReads (s : State) (x : FaultRec) : (s.raiseFault x).hostReads = s.hostReads := rfl
@[simp] theorem State.raiseFault_logRead (s : State) (x : FaultRec) : (s.raiseFault x).logRead = s.logRead := rfl
@[simp] theorem State.raiseFault_perc (s : State) (x : FaultRec) : (s.raiseFault x).perc = s.perc := rfl
@[simp] theorem State.raiseFault_cupEn (s : State) (x : FaultRec) : (s.raiseFault x).cupEn = s.cupEn := rfl
@[simp] theorem State.raiseFault_cupPeriod (s : State) (x : FaultRec) : (s.raiseFault x).cupPeriod = s.cupPeriod := rfl
@[simp] theorem State.raiseFault_power (s : State) (x : FaultRec) : (s.raiseFault x).power = s.power := rfl
@[simp] theorem State.raiseFault_boot (s : State) (x : FaultRec) : (s.raiseFault x).boot = s.boot := rfl
@[simp] theorem State.raiseFault_fuses (s : State) (x : FaultRec) : (s.raiseFault x).fuses = s.fuses := rfl
@[simp] theorem State.raiseFault_shadow (s : State) (x : FaultRec) : (s.raiseFault x).shadow = s.shadow := rfl
@[simp] theorem State.raiseFault_flash (s : State) (x : FaultRec) : (s.raiseFault x).flash = s.flash := rfl
@[simp] theorem State.raiseFault_smbAddr (s : State) (x : FaultRec) : (s.raiseFault x).smbAddr = s.smbAddr := rfl
@[simp] theorem State.raiseFault_tap (s : State) (x : FaultRec) : (s.raiseFault x).tap = s.tap := rfl
@[simp] theorem State.raiseFault_dbgAccess (s : State) (x : FaultRec) : (s.raiseFault x).dbgAccess = s.dbgAccess := rfl
@[simp] theorem State.raiseFault_readOut (s : State) (x : FaultRec) : (s.raiseFault x).readOut = s.readOut := rfl
@[simp] theorem State.raiseFault_drawn (s : State) (x : FaultRec) : (s.raiseFault x).drawn = s.drawn := rfl
@[simp] theorem State.raiseFault_tm (s : State) (x : FaultRec) (i : Nat) : (s.raiseFault x).tm i = s.tm i := rfl
@[simp] theorem State.raiseFault_tile (s : State) (x : FaultRec) (i : Nat) : (s.raiseFault x).tile i = s.tile i := rfl
@[simp] theorem State.raiseFault_link (s : State) (x : FaultRec) (i : Nat) : (s.raiseFault x).link i = s.link i := rfl
@[simp] theorem State.raiseFault_task (s : State) (x : FaultRec) (i : Nat) : (s.raiseFault x).task i = s.task i := rfl
@[simp] theorem State.raiseFault_sector (s : State) (x : FaultRec) (i : Nat) : (s.raiseFault x).sector i = s.sector i := rfl
@[simp] theorem State.raiseFault_evb (s : State) (x : FaultRec) (i : Nat) : (s.raiseFault x).evb i = s.evb i := rfl
@[simp] theorem State.raiseFault_queue (s : State) (x : FaultRec) (i : Nat) : (s.raiseFault x).queue i = s.queue i := rfl
@[simp] theorem State.raiseFault_role (s : State) (x : FaultRec) (i : Nat) : (s.raiseFault x).role i = s.role i := rfl
@[simp] theorem State.raiseFault_part (s : State) (x : FaultRec) (i : Nat) : (s.raiseFault x).part i = s.part i := rfl
@[simp] theorem State.raiseFault_port (s : State) (x : FaultRec) (i : Nat) : (s.raiseFault x).port i = s.port i := rfl
@[simp] theorem State.raiseFault_inFlight (s : State) (x : FaultRec) (i : Nat) : (s.raiseFault x).inFlight i = s.inFlight i := rfl
@[simp] theorem State.raiseFault_buffer (s : State) (x : FaultRec) (i : Nat) : (s.raiseFault x).buffer i = s.buffer i := rfl
@[simp] theorem State.raiseFault_lane (s : State) (x : FaultRec) (i : Nat) : (s.raiseFault x).lane i = s.lane i := rfl
@[simp] theorem State.raiseFault_stream (s : State) (x : FaultRec) (i : Nat) : (s.raiseFault x).stream i = s.stream i := rfl

/-! ## updCtl -/

@[simp] theorem State.updCtl_pending (s : State) (c : Nat) (f : DramCtl → DramCtl) : (s.updCtl c f).pending = s.pending := rfl
@[simp] theorem State.updCtl_tileMap (s : State) (c : Nat) (f : DramCtl → DramCtl) : (s.updCtl c f).tileMap = s.tileMap := rfl
@[simp] theorem State.updCtl_win (s : State) (c : Nat) (f : DramCtl → DramCtl) : (s.updCtl c f).win = s.win := rfl
@[simp] theorem State.updCtl_links (s : State) (c : Nat) (f : DramCtl → DramCtl) : (s.updCtl c f).links = s.links := rfl
@[simp] theorem State.updCtl_tiles (s : State) (c : Nat) (f : DramCtl → DramCtl) : (s.updCtl c f).tiles = s.tiles := rfl
@[simp] theorem State.updCtl_tasks (s : State) (c : Nat) (f : DramCtl → DramCtl) : (s.updCtl c f).tasks = s.tasks := rfl
@[simp] theorem State.updCtl_sectors (s : State) (c : Nat) (f : DramCtl → DramCtl) : (s.updCtl c f).sectors = s.sectors := rfl
@[simp] theorem State.updCtl_grants (s : State) (c : Nat) (f : DramCtl → DramCtl) : (s.updCtl c f).grants = s.grants := rfl
@[simp] theorem State.updCtl_dones (s : State) (c : Nat) (f : DramCtl → DramCtl) : (s.updCtl c f).dones = s.dones := rfl
@[simp] theorem State.updCtl_getWorks (s : State) (c : Nat) (f : DramCtl → DramCtl) : (s.updCtl c f).getWorks = s.getWorks := rfl
@[simp] theorem State.updCtl_notifies (s : State) (c : Nat) (f : DramCtl → DramCtl) : (s.updCtl c f).notifies = s.notifies := rfl
@[simp] theorem State.updCtl_mesh (s : State) (c : Nat) (f : DramCtl → DramCtl) : (s.updCtl c f).mesh = s.mesh := rfl
@[simp] theorem State.updCtl_events (s : State) (c : Nat) (f : DramCtl → DramCtl) : (s.updCtl c f).events = s.events := rfl
@[simp] theorem State.updCtl_queues (s : State) (c : Nat) (f : DramCtl → DramCtl) : (s.updCtl c f).queues = s.queues := rfl
@[simp] theorem State.updCtl_ports (s : State) (c : Nat) (f : DramCtl → DramCtl) : (s.updCtl c f).ports = s.ports := rfl
@[simp] theorem State.updCtl_hostWrites (s : State) (c : Nat) (f : DramCtl → DramCtl) : (s.updCtl c f).hostWrites = s.hostWrites := rfl
@[simp] theorem State.updCtl_buffers (s : State) (c : Nat) (f : DramCtl → DramCtl) : (s.updCtl c f).buffers = s.buffers := rfl
@[simp] theorem State.updCtl_running (s : State) (c : Nat) (f : DramCtl → DramCtl) : (s.updCtl c f).running = s.running := rfl
@[simp] theorem State.updCtl_flights (s : State) (c : Nat) (f : DramCtl → DramCtl) : (s.updCtl c f).flights = s.flights := rfl
@[simp] theorem State.updCtl_starts (s : State) (c : Nat) (f : DramCtl → DramCtl) : (s.updCtl c f).starts = s.starts := rfl
@[simp] theorem State.updCtl_faults (s : State) (c : Nat) (f : DramCtl → DramCtl) : (s.updCtl c f).faults = s.faults := rfl
@[simp] theorem State.updCtl_recovery (s : State) (c : Nat) (f : DramCtl → DramCtl) : (s.updCtl c f).recovery = s.recovery := rfl
@[simp] theorem State.updCtl_log (s : State) (c : Nat) (f : DramCtl → DramCtl) : (s.updCtl c f).log = s.log := rfl
@[simp] theorem State.updCtl_logNext (s : State) (c : Nat) (f : DramCtl → DramCtl) : (s.updCtl c f).logNext = s.logNext := rfl
@[simp] theorem State.updCtl_time (s : State) (c : Nat) (f : DramCtl → DramCtl) : (s.updCtl c f).time = s.time := rfl
@[simp] theorem State.updCtl_usPhase (s : State) (c : Nat) (f : DramCtl → DramCtl) : (s.updCtl c f).usPhase = s.usPhase := rfl
@[simp] theorem State.updCtl_cells (s : State) (c : Nat) (f : DramCtl → DramCtl) : (s.updCtl c f).cells = s.cells := rfl
@[simp] theorem State.updCtl_lanes (s : State) (c : Nat) (f : DramCtl → DramCtl) : (s.updCtl c f).lanes = s.lanes := rfl
@[simp] theorem State.updCtl_partners (s : State) (c : Nat) (f : DramCtl → DramCtl) : (s.updCtl c f).partners = s.partners := rfl
@[simp] theorem State.updCtl_rules (s : State) (c : Nat) (f : DramCtl → DramCtl) : (s.updCtl c f).rules = s.rules := rfl
@[simp] theorem State.updCtl_streams (s : State) (c : Nat) (f : DramCtl → DramCtl) : (s.updCtl c f).streams = s.streams := rfl
@[simp] theorem State.updCtl_asm (s : State) (c : Nat) (f : DramCtl → DramCtl) : (s.updCtl c f).asm = s.asm := rfl
@[simp] theorem State.updCtl_alloc (s : State) (c : Nat) (f : DramCtl → DramCtl) : (s.updCtl c f).alloc = s.alloc := rfl
@[simp] theorem State.updCtl_holdoff (s : State) (c : Nat) (f : DramCtl → DramCtl) : (s.updCtl c f).holdoff = s.holdoff := rfl
@[simp] theorem State.updCtl_parts (s : State) (c : Nat) (f : DramCtl → DramCtl) : (s.updCtl c f).parts = s.parts := rfl
@[simp] theorem State.updCtl_roles (s : State) (c : Nat) (f : DramCtl → DramCtl) : (s.updCtl c f).roles = s.roles := rfl
@[simp] theorem State.updCtl_slices (s : State) (c : Nat) (f : DramCtl → DramCtl) : (s.updCtl c f).slices = s.slices := rfl
@[simp] theorem State.updCtl_sliceNow (s : State) (c : Nat) (f : DramCtl → DramCtl) : (s.updCtl c f).sliceNow = s.sliceNow := rfl
@[simp] theorem State.updCtl_secSlot (s : State) (c : Nat) (f : DramCtl → DramCtl) : (s.updCtl c f).secSlot = s.secSlot := rfl
@[simp] theorem State.updCtl_hostReads (s : State) (c : Nat) (f : DramCtl → DramCtl) : (s.updCtl c f).hostReads = s.hostReads := rfl
@[simp] theorem State.updCtl_logRead (s : State) (c : Nat) (f : DramCtl → DramCtl) : (s.updCtl c f).logRead = s.logRead := rfl
@[simp] theorem State.updCtl_perc (s : State) (c : Nat) (f : DramCtl → DramCtl) : (s.updCtl c f).perc = s.perc := rfl
@[simp] theorem State.updCtl_cupEn (s : State) (c : Nat) (f : DramCtl → DramCtl) : (s.updCtl c f).cupEn = s.cupEn := rfl
@[simp] theorem State.updCtl_cupPeriod (s : State) (c : Nat) (f : DramCtl → DramCtl) : (s.updCtl c f).cupPeriod = s.cupPeriod := rfl
@[simp] theorem State.updCtl_power (s : State) (c : Nat) (f : DramCtl → DramCtl) : (s.updCtl c f).power = s.power := rfl
@[simp] theorem State.updCtl_boot (s : State) (c : Nat) (f : DramCtl → DramCtl) : (s.updCtl c f).boot = s.boot := rfl
@[simp] theorem State.updCtl_fuses (s : State) (c : Nat) (f : DramCtl → DramCtl) : (s.updCtl c f).fuses = s.fuses := rfl
@[simp] theorem State.updCtl_shadow (s : State) (c : Nat) (f : DramCtl → DramCtl) : (s.updCtl c f).shadow = s.shadow := rfl
@[simp] theorem State.updCtl_flash (s : State) (c : Nat) (f : DramCtl → DramCtl) : (s.updCtl c f).flash = s.flash := rfl
@[simp] theorem State.updCtl_smbAddr (s : State) (c : Nat) (f : DramCtl → DramCtl) : (s.updCtl c f).smbAddr = s.smbAddr := rfl
@[simp] theorem State.updCtl_tap (s : State) (c : Nat) (f : DramCtl → DramCtl) : (s.updCtl c f).tap = s.tap := rfl
@[simp] theorem State.updCtl_dbgAccess (s : State) (c : Nat) (f : DramCtl → DramCtl) : (s.updCtl c f).dbgAccess = s.dbgAccess := rfl
@[simp] theorem State.updCtl_readOut (s : State) (c : Nat) (f : DramCtl → DramCtl) : (s.updCtl c f).readOut = s.readOut := rfl
@[simp] theorem State.updCtl_drawn (s : State) (c : Nat) (f : DramCtl → DramCtl) : (s.updCtl c f).drawn = s.drawn := rfl
@[simp] theorem State.updCtl_tm (s : State) (c : Nat) (f : DramCtl → DramCtl) (i : Nat) : (s.updCtl c f).tm i = s.tm i := rfl
@[simp] theorem State.updCtl_tile (s : State) (c : Nat) (f : DramCtl → DramCtl) (i : Nat) : (s.updCtl c f).tile i = s.tile i := rfl
@[simp] theorem State.updCtl_link (s : State) (c : Nat) (f : DramCtl → DramCtl) (i : Nat) : (s.updCtl c f).link i = s.link i := rfl
@[simp] theorem State.updCtl_task (s : State) (c : Nat) (f : DramCtl → DramCtl) (i : Nat) : (s.updCtl c f).task i = s.task i := rfl
@[simp] theorem State.updCtl_sector (s : State) (c : Nat) (f : DramCtl → DramCtl) (i : Nat) : (s.updCtl c f).sector i = s.sector i := rfl
@[simp] theorem State.updCtl_evb (s : State) (c : Nat) (f : DramCtl → DramCtl) (i : Nat) : (s.updCtl c f).evb i = s.evb i := rfl
@[simp] theorem State.updCtl_queue (s : State) (c : Nat) (f : DramCtl → DramCtl) (i : Nat) : (s.updCtl c f).queue i = s.queue i := rfl
@[simp] theorem State.updCtl_role (s : State) (c : Nat) (f : DramCtl → DramCtl) (i : Nat) : (s.updCtl c f).role i = s.role i := rfl
@[simp] theorem State.updCtl_part (s : State) (c : Nat) (f : DramCtl → DramCtl) (i : Nat) : (s.updCtl c f).part i = s.part i := rfl
@[simp] theorem State.updCtl_port (s : State) (c : Nat) (f : DramCtl → DramCtl) (i : Nat) : (s.updCtl c f).port i = s.port i := rfl
@[simp] theorem State.updCtl_inFlight (s : State) (c : Nat) (f : DramCtl → DramCtl) (i : Nat) : (s.updCtl c f).inFlight i = s.inFlight i := rfl
@[simp] theorem State.updCtl_buffer (s : State) (c : Nat) (f : DramCtl → DramCtl) (i : Nat) : (s.updCtl c f).buffer i = s.buffer i := rfl
@[simp] theorem State.updCtl_lane (s : State) (c : Nat) (f : DramCtl → DramCtl) (i : Nat) : (s.updCtl c f).lane i = s.lane i := rfl
@[simp] theorem State.updCtl_stream (s : State) (c : Nat) (f : DramCtl → DramCtl) (i : Nat) : (s.updCtl c f).stream i = s.stream i := rfl

/-! ## setLine -/

@[simp] theorem State.setLine_pending (s : State) (a : Nat) (l : DramLine) : (s.setLine a l).pending = s.pending := rfl
@[simp] theorem State.setLine_tileMap (s : State) (a : Nat) (l : DramLine) : (s.setLine a l).tileMap = s.tileMap := rfl
@[simp] theorem State.setLine_win (s : State) (a : Nat) (l : DramLine) : (s.setLine a l).win = s.win := rfl
@[simp] theorem State.setLine_links (s : State) (a : Nat) (l : DramLine) : (s.setLine a l).links = s.links := rfl
@[simp] theorem State.setLine_tiles (s : State) (a : Nat) (l : DramLine) : (s.setLine a l).tiles = s.tiles := rfl
@[simp] theorem State.setLine_tasks (s : State) (a : Nat) (l : DramLine) : (s.setLine a l).tasks = s.tasks := rfl
@[simp] theorem State.setLine_sectors (s : State) (a : Nat) (l : DramLine) : (s.setLine a l).sectors = s.sectors := rfl
@[simp] theorem State.setLine_grants (s : State) (a : Nat) (l : DramLine) : (s.setLine a l).grants = s.grants := rfl
@[simp] theorem State.setLine_dones (s : State) (a : Nat) (l : DramLine) : (s.setLine a l).dones = s.dones := rfl
@[simp] theorem State.setLine_getWorks (s : State) (a : Nat) (l : DramLine) : (s.setLine a l).getWorks = s.getWorks := rfl
@[simp] theorem State.setLine_notifies (s : State) (a : Nat) (l : DramLine) : (s.setLine a l).notifies = s.notifies := rfl
@[simp] theorem State.setLine_mesh (s : State) (a : Nat) (l : DramLine) : (s.setLine a l).mesh = s.mesh := rfl
@[simp] theorem State.setLine_events (s : State) (a : Nat) (l : DramLine) : (s.setLine a l).events = s.events := rfl
@[simp] theorem State.setLine_queues (s : State) (a : Nat) (l : DramLine) : (s.setLine a l).queues = s.queues := rfl
@[simp] theorem State.setLine_ports (s : State) (a : Nat) (l : DramLine) : (s.setLine a l).ports = s.ports := rfl
@[simp] theorem State.setLine_hostWrites (s : State) (a : Nat) (l : DramLine) : (s.setLine a l).hostWrites = s.hostWrites := rfl
@[simp] theorem State.setLine_buffers (s : State) (a : Nat) (l : DramLine) : (s.setLine a l).buffers = s.buffers := rfl
@[simp] theorem State.setLine_running (s : State) (a : Nat) (l : DramLine) : (s.setLine a l).running = s.running := rfl
@[simp] theorem State.setLine_flights (s : State) (a : Nat) (l : DramLine) : (s.setLine a l).flights = s.flights := rfl
@[simp] theorem State.setLine_starts (s : State) (a : Nat) (l : DramLine) : (s.setLine a l).starts = s.starts := rfl
@[simp] theorem State.setLine_faults (s : State) (a : Nat) (l : DramLine) : (s.setLine a l).faults = s.faults := rfl
@[simp] theorem State.setLine_recovery (s : State) (a : Nat) (l : DramLine) : (s.setLine a l).recovery = s.recovery := rfl
@[simp] theorem State.setLine_log (s : State) (a : Nat) (l : DramLine) : (s.setLine a l).log = s.log := rfl
@[simp] theorem State.setLine_logNext (s : State) (a : Nat) (l : DramLine) : (s.setLine a l).logNext = s.logNext := rfl
@[simp] theorem State.setLine_time (s : State) (a : Nat) (l : DramLine) : (s.setLine a l).time = s.time := rfl
@[simp] theorem State.setLine_usPhase (s : State) (a : Nat) (l : DramLine) : (s.setLine a l).usPhase = s.usPhase := rfl
@[simp] theorem State.setLine_cells (s : State) (a : Nat) (l : DramLine) : (s.setLine a l).cells = s.cells := rfl
@[simp] theorem State.setLine_lanes (s : State) (a : Nat) (l : DramLine) : (s.setLine a l).lanes = s.lanes := rfl
@[simp] theorem State.setLine_partners (s : State) (a : Nat) (l : DramLine) : (s.setLine a l).partners = s.partners := rfl
@[simp] theorem State.setLine_rules (s : State) (a : Nat) (l : DramLine) : (s.setLine a l).rules = s.rules := rfl
@[simp] theorem State.setLine_streams (s : State) (a : Nat) (l : DramLine) : (s.setLine a l).streams = s.streams := rfl
@[simp] theorem State.setLine_asm (s : State) (a : Nat) (l : DramLine) : (s.setLine a l).asm = s.asm := rfl
@[simp] theorem State.setLine_alloc (s : State) (a : Nat) (l : DramLine) : (s.setLine a l).alloc = s.alloc := rfl
@[simp] theorem State.setLine_holdoff (s : State) (a : Nat) (l : DramLine) : (s.setLine a l).holdoff = s.holdoff := rfl
@[simp] theorem State.setLine_parts (s : State) (a : Nat) (l : DramLine) : (s.setLine a l).parts = s.parts := rfl
@[simp] theorem State.setLine_roles (s : State) (a : Nat) (l : DramLine) : (s.setLine a l).roles = s.roles := rfl
@[simp] theorem State.setLine_slices (s : State) (a : Nat) (l : DramLine) : (s.setLine a l).slices = s.slices := rfl
@[simp] theorem State.setLine_sliceNow (s : State) (a : Nat) (l : DramLine) : (s.setLine a l).sliceNow = s.sliceNow := rfl
@[simp] theorem State.setLine_secSlot (s : State) (a : Nat) (l : DramLine) : (s.setLine a l).secSlot = s.secSlot := rfl
@[simp] theorem State.setLine_hostReads (s : State) (a : Nat) (l : DramLine) : (s.setLine a l).hostReads = s.hostReads := rfl
@[simp] theorem State.setLine_logRead (s : State) (a : Nat) (l : DramLine) : (s.setLine a l).logRead = s.logRead := rfl
@[simp] theorem State.setLine_perc (s : State) (a : Nat) (l : DramLine) : (s.setLine a l).perc = s.perc := rfl
@[simp] theorem State.setLine_cupEn (s : State) (a : Nat) (l : DramLine) : (s.setLine a l).cupEn = s.cupEn := rfl
@[simp] theorem State.setLine_cupPeriod (s : State) (a : Nat) (l : DramLine) : (s.setLine a l).cupPeriod = s.cupPeriod := rfl
@[simp] theorem State.setLine_power (s : State) (a : Nat) (l : DramLine) : (s.setLine a l).power = s.power := rfl
@[simp] theorem State.setLine_boot (s : State) (a : Nat) (l : DramLine) : (s.setLine a l).boot = s.boot := rfl
@[simp] theorem State.setLine_fuses (s : State) (a : Nat) (l : DramLine) : (s.setLine a l).fuses = s.fuses := rfl
@[simp] theorem State.setLine_shadow (s : State) (a : Nat) (l : DramLine) : (s.setLine a l).shadow = s.shadow := rfl
@[simp] theorem State.setLine_flash (s : State) (a : Nat) (l : DramLine) : (s.setLine a l).flash = s.flash := rfl
@[simp] theorem State.setLine_smbAddr (s : State) (a : Nat) (l : DramLine) : (s.setLine a l).smbAddr = s.smbAddr := rfl
@[simp] theorem State.setLine_tap (s : State) (a : Nat) (l : DramLine) : (s.setLine a l).tap = s.tap := rfl
@[simp] theorem State.setLine_dbgAccess (s : State) (a : Nat) (l : DramLine) : (s.setLine a l).dbgAccess = s.dbgAccess := rfl
@[simp] theorem State.setLine_readOut (s : State) (a : Nat) (l : DramLine) : (s.setLine a l).readOut = s.readOut := rfl
@[simp] theorem State.setLine_drawn (s : State) (a : Nat) (l : DramLine) : (s.setLine a l).drawn = s.drawn := rfl
@[simp] theorem State.setLine_tm (s : State) (a : Nat) (l : DramLine) (i : Nat) : (s.setLine a l).tm i = s.tm i := rfl
@[simp] theorem State.setLine_tile (s : State) (a : Nat) (l : DramLine) (i : Nat) : (s.setLine a l).tile i = s.tile i := rfl
@[simp] theorem State.setLine_link (s : State) (a : Nat) (l : DramLine) (i : Nat) : (s.setLine a l).link i = s.link i := rfl
@[simp] theorem State.setLine_task (s : State) (a : Nat) (l : DramLine) (i : Nat) : (s.setLine a l).task i = s.task i := rfl
@[simp] theorem State.setLine_sector (s : State) (a : Nat) (l : DramLine) (i : Nat) : (s.setLine a l).sector i = s.sector i := rfl
@[simp] theorem State.setLine_evb (s : State) (a : Nat) (l : DramLine) (i : Nat) : (s.setLine a l).evb i = s.evb i := rfl
@[simp] theorem State.setLine_queue (s : State) (a : Nat) (l : DramLine) (i : Nat) : (s.setLine a l).queue i = s.queue i := rfl
@[simp] theorem State.setLine_role (s : State) (a : Nat) (l : DramLine) (i : Nat) : (s.setLine a l).role i = s.role i := rfl
@[simp] theorem State.setLine_part (s : State) (a : Nat) (l : DramLine) (i : Nat) : (s.setLine a l).part i = s.part i := rfl
@[simp] theorem State.setLine_port (s : State) (a : Nat) (l : DramLine) (i : Nat) : (s.setLine a l).port i = s.port i := rfl
@[simp] theorem State.setLine_inFlight (s : State) (a : Nat) (l : DramLine) (i : Nat) : (s.setLine a l).inFlight i = s.inFlight i := rfl
@[simp] theorem State.setLine_buffer (s : State) (a : Nat) (l : DramLine) (i : Nat) : (s.setLine a l).buffer i = s.buffer i := rfl
@[simp] theorem State.setLine_lane (s : State) (a : Nat) (l : DramLine) (i : Nat) : (s.setLine a l).lane i = s.lane i := rfl
@[simp] theorem State.setLine_stream (s : State) (a : Nat) (l : DramLine) (i : Nat) : (s.setLine a l).stream i = s.stream i := rfl

/-! ## updRouter -/

@[simp] theorem State.updRouter_pending (s : State) (r : Nat) (f : Router → Router) : (s.updRouter r f).pending = s.pending := rfl
@[simp] theorem State.updRouter_tileMap (s : State) (r : Nat) (f : Router → Router) : (s.updRouter r f).tileMap = s.tileMap := rfl
@[simp] theorem State.updRouter_win (s : State) (r : Nat) (f : Router → Router) : (s.updRouter r f).win = s.win := rfl
@[simp] theorem State.updRouter_links (s : State) (r : Nat) (f : Router → Router) : (s.updRouter r f).links = s.links := rfl
@[simp] theorem State.updRouter_tiles (s : State) (r : Nat) (f : Router → Router) : (s.updRouter r f).tiles = s.tiles := rfl
@[simp] theorem State.updRouter_tasks (s : State) (r : Nat) (f : Router → Router) : (s.updRouter r f).tasks = s.tasks := rfl
@[simp] theorem State.updRouter_sectors (s : State) (r : Nat) (f : Router → Router) : (s.updRouter r f).sectors = s.sectors := rfl
@[simp] theorem State.updRouter_grants (s : State) (r : Nat) (f : Router → Router) : (s.updRouter r f).grants = s.grants := rfl
@[simp] theorem State.updRouter_dones (s : State) (r : Nat) (f : Router → Router) : (s.updRouter r f).dones = s.dones := rfl
@[simp] theorem State.updRouter_getWorks (s : State) (r : Nat) (f : Router → Router) : (s.updRouter r f).getWorks = s.getWorks := rfl
@[simp] theorem State.updRouter_notifies (s : State) (r : Nat) (f : Router → Router) : (s.updRouter r f).notifies = s.notifies := rfl
@[simp] theorem State.updRouter_mem (s : State) (r : Nat) (f : Router → Router) : (s.updRouter r f).mem = s.mem := rfl
@[simp] theorem State.updRouter_events (s : State) (r : Nat) (f : Router → Router) : (s.updRouter r f).events = s.events := rfl
@[simp] theorem State.updRouter_queues (s : State) (r : Nat) (f : Router → Router) : (s.updRouter r f).queues = s.queues := rfl
@[simp] theorem State.updRouter_ports (s : State) (r : Nat) (f : Router → Router) : (s.updRouter r f).ports = s.ports := rfl
@[simp] theorem State.updRouter_hostWrites (s : State) (r : Nat) (f : Router → Router) : (s.updRouter r f).hostWrites = s.hostWrites := rfl
@[simp] theorem State.updRouter_buffers (s : State) (r : Nat) (f : Router → Router) : (s.updRouter r f).buffers = s.buffers := rfl
@[simp] theorem State.updRouter_running (s : State) (r : Nat) (f : Router → Router) : (s.updRouter r f).running = s.running := rfl
@[simp] theorem State.updRouter_flights (s : State) (r : Nat) (f : Router → Router) : (s.updRouter r f).flights = s.flights := rfl
@[simp] theorem State.updRouter_starts (s : State) (r : Nat) (f : Router → Router) : (s.updRouter r f).starts = s.starts := rfl
@[simp] theorem State.updRouter_faults (s : State) (r : Nat) (f : Router → Router) : (s.updRouter r f).faults = s.faults := rfl
@[simp] theorem State.updRouter_recovery (s : State) (r : Nat) (f : Router → Router) : (s.updRouter r f).recovery = s.recovery := rfl
@[simp] theorem State.updRouter_log (s : State) (r : Nat) (f : Router → Router) : (s.updRouter r f).log = s.log := rfl
@[simp] theorem State.updRouter_logNext (s : State) (r : Nat) (f : Router → Router) : (s.updRouter r f).logNext = s.logNext := rfl
@[simp] theorem State.updRouter_time (s : State) (r : Nat) (f : Router → Router) : (s.updRouter r f).time = s.time := rfl
@[simp] theorem State.updRouter_usPhase (s : State) (r : Nat) (f : Router → Router) : (s.updRouter r f).usPhase = s.usPhase := rfl
@[simp] theorem State.updRouter_cells (s : State) (r : Nat) (f : Router → Router) : (s.updRouter r f).cells = s.cells := rfl
@[simp] theorem State.updRouter_lanes (s : State) (r : Nat) (f : Router → Router) : (s.updRouter r f).lanes = s.lanes := rfl
@[simp] theorem State.updRouter_partners (s : State) (r : Nat) (f : Router → Router) : (s.updRouter r f).partners = s.partners := rfl
@[simp] theorem State.updRouter_rules (s : State) (r : Nat) (f : Router → Router) : (s.updRouter r f).rules = s.rules := rfl
@[simp] theorem State.updRouter_streams (s : State) (r : Nat) (f : Router → Router) : (s.updRouter r f).streams = s.streams := rfl
@[simp] theorem State.updRouter_asm (s : State) (r : Nat) (f : Router → Router) : (s.updRouter r f).asm = s.asm := rfl
@[simp] theorem State.updRouter_alloc (s : State) (r : Nat) (f : Router → Router) : (s.updRouter r f).alloc = s.alloc := rfl
@[simp] theorem State.updRouter_holdoff (s : State) (r : Nat) (f : Router → Router) : (s.updRouter r f).holdoff = s.holdoff := rfl
@[simp] theorem State.updRouter_parts (s : State) (r : Nat) (f : Router → Router) : (s.updRouter r f).parts = s.parts := rfl
@[simp] theorem State.updRouter_roles (s : State) (r : Nat) (f : Router → Router) : (s.updRouter r f).roles = s.roles := rfl
@[simp] theorem State.updRouter_slices (s : State) (r : Nat) (f : Router → Router) : (s.updRouter r f).slices = s.slices := rfl
@[simp] theorem State.updRouter_sliceNow (s : State) (r : Nat) (f : Router → Router) : (s.updRouter r f).sliceNow = s.sliceNow := rfl
@[simp] theorem State.updRouter_secSlot (s : State) (r : Nat) (f : Router → Router) : (s.updRouter r f).secSlot = s.secSlot := rfl
@[simp] theorem State.updRouter_hostReads (s : State) (r : Nat) (f : Router → Router) : (s.updRouter r f).hostReads = s.hostReads := rfl
@[simp] theorem State.updRouter_logRead (s : State) (r : Nat) (f : Router → Router) : (s.updRouter r f).logRead = s.logRead := rfl
@[simp] theorem State.updRouter_perc (s : State) (r : Nat) (f : Router → Router) : (s.updRouter r f).perc = s.perc := rfl
@[simp] theorem State.updRouter_cupEn (s : State) (r : Nat) (f : Router → Router) : (s.updRouter r f).cupEn = s.cupEn := rfl
@[simp] theorem State.updRouter_cupPeriod (s : State) (r : Nat) (f : Router → Router) : (s.updRouter r f).cupPeriod = s.cupPeriod := rfl
@[simp] theorem State.updRouter_power (s : State) (r : Nat) (f : Router → Router) : (s.updRouter r f).power = s.power := rfl
@[simp] theorem State.updRouter_boot (s : State) (r : Nat) (f : Router → Router) : (s.updRouter r f).boot = s.boot := rfl
@[simp] theorem State.updRouter_fuses (s : State) (r : Nat) (f : Router → Router) : (s.updRouter r f).fuses = s.fuses := rfl
@[simp] theorem State.updRouter_shadow (s : State) (r : Nat) (f : Router → Router) : (s.updRouter r f).shadow = s.shadow := rfl
@[simp] theorem State.updRouter_flash (s : State) (r : Nat) (f : Router → Router) : (s.updRouter r f).flash = s.flash := rfl
@[simp] theorem State.updRouter_smbAddr (s : State) (r : Nat) (f : Router → Router) : (s.updRouter r f).smbAddr = s.smbAddr := rfl
@[simp] theorem State.updRouter_tap (s : State) (r : Nat) (f : Router → Router) : (s.updRouter r f).tap = s.tap := rfl
@[simp] theorem State.updRouter_dbgAccess (s : State) (r : Nat) (f : Router → Router) : (s.updRouter r f).dbgAccess = s.dbgAccess := rfl
@[simp] theorem State.updRouter_readOut (s : State) (r : Nat) (f : Router → Router) : (s.updRouter r f).readOut = s.readOut := rfl
@[simp] theorem State.updRouter_drawn (s : State) (r : Nat) (f : Router → Router) : (s.updRouter r f).drawn = s.drawn := rfl
@[simp] theorem State.updRouter_tm (s : State) (r : Nat) (f : Router → Router) (i : Nat) : (s.updRouter r f).tm i = s.tm i := rfl
@[simp] theorem State.updRouter_tile (s : State) (r : Nat) (f : Router → Router) (i : Nat) : (s.updRouter r f).tile i = s.tile i := rfl
@[simp] theorem State.updRouter_link (s : State) (r : Nat) (f : Router → Router) (i : Nat) : (s.updRouter r f).link i = s.link i := rfl
@[simp] theorem State.updRouter_task (s : State) (r : Nat) (f : Router → Router) (i : Nat) : (s.updRouter r f).task i = s.task i := rfl
@[simp] theorem State.updRouter_sector (s : State) (r : Nat) (f : Router → Router) (i : Nat) : (s.updRouter r f).sector i = s.sector i := rfl
@[simp] theorem State.updRouter_evb (s : State) (r : Nat) (f : Router → Router) (i : Nat) : (s.updRouter r f).evb i = s.evb i := rfl
@[simp] theorem State.updRouter_queue (s : State) (r : Nat) (f : Router → Router) (i : Nat) : (s.updRouter r f).queue i = s.queue i := rfl
@[simp] theorem State.updRouter_role (s : State) (r : Nat) (f : Router → Router) (i : Nat) : (s.updRouter r f).role i = s.role i := rfl
@[simp] theorem State.updRouter_part (s : State) (r : Nat) (f : Router → Router) (i : Nat) : (s.updRouter r f).part i = s.part i := rfl
@[simp] theorem State.updRouter_port (s : State) (r : Nat) (f : Router → Router) (i : Nat) : (s.updRouter r f).port i = s.port i := rfl
@[simp] theorem State.updRouter_inFlight (s : State) (r : Nat) (f : Router → Router) (i : Nat) : (s.updRouter r f).inFlight i = s.inFlight i := rfl
@[simp] theorem State.updRouter_buffer (s : State) (r : Nat) (f : Router → Router) (i : Nat) : (s.updRouter r f).buffer i = s.buffer i := rfl
@[simp] theorem State.updRouter_lane (s : State) (r : Nat) (f : Router → Router) (i : Nat) : (s.updRouter r f).lane i = s.lane i := rfl
@[simp] theorem State.updRouter_stream (s : State) (r : Nat) (f : Router → Router) (i : Nat) : (s.updRouter r f).stream i = s.stream i := rfl

/-! ## updVc -/

@[simp] theorem State.updVc_pending (s : State) (x : Nat) (f : VcBuf → VcBuf) : (s.updVc x f).pending = s.pending := rfl
@[simp] theorem State.updVc_tileMap (s : State) (x : Nat) (f : VcBuf → VcBuf) : (s.updVc x f).tileMap = s.tileMap := rfl
@[simp] theorem State.updVc_win (s : State) (x : Nat) (f : VcBuf → VcBuf) : (s.updVc x f).win = s.win := rfl
@[simp] theorem State.updVc_links (s : State) (x : Nat) (f : VcBuf → VcBuf) : (s.updVc x f).links = s.links := rfl
@[simp] theorem State.updVc_tiles (s : State) (x : Nat) (f : VcBuf → VcBuf) : (s.updVc x f).tiles = s.tiles := rfl
@[simp] theorem State.updVc_tasks (s : State) (x : Nat) (f : VcBuf → VcBuf) : (s.updVc x f).tasks = s.tasks := rfl
@[simp] theorem State.updVc_sectors (s : State) (x : Nat) (f : VcBuf → VcBuf) : (s.updVc x f).sectors = s.sectors := rfl
@[simp] theorem State.updVc_grants (s : State) (x : Nat) (f : VcBuf → VcBuf) : (s.updVc x f).grants = s.grants := rfl
@[simp] theorem State.updVc_dones (s : State) (x : Nat) (f : VcBuf → VcBuf) : (s.updVc x f).dones = s.dones := rfl
@[simp] theorem State.updVc_getWorks (s : State) (x : Nat) (f : VcBuf → VcBuf) : (s.updVc x f).getWorks = s.getWorks := rfl
@[simp] theorem State.updVc_notifies (s : State) (x : Nat) (f : VcBuf → VcBuf) : (s.updVc x f).notifies = s.notifies := rfl
@[simp] theorem State.updVc_mem (s : State) (x : Nat) (f : VcBuf → VcBuf) : (s.updVc x f).mem = s.mem := rfl
@[simp] theorem State.updVc_events (s : State) (x : Nat) (f : VcBuf → VcBuf) : (s.updVc x f).events = s.events := rfl
@[simp] theorem State.updVc_queues (s : State) (x : Nat) (f : VcBuf → VcBuf) : (s.updVc x f).queues = s.queues := rfl
@[simp] theorem State.updVc_ports (s : State) (x : Nat) (f : VcBuf → VcBuf) : (s.updVc x f).ports = s.ports := rfl
@[simp] theorem State.updVc_hostWrites (s : State) (x : Nat) (f : VcBuf → VcBuf) : (s.updVc x f).hostWrites = s.hostWrites := rfl
@[simp] theorem State.updVc_buffers (s : State) (x : Nat) (f : VcBuf → VcBuf) : (s.updVc x f).buffers = s.buffers := rfl
@[simp] theorem State.updVc_running (s : State) (x : Nat) (f : VcBuf → VcBuf) : (s.updVc x f).running = s.running := rfl
@[simp] theorem State.updVc_flights (s : State) (x : Nat) (f : VcBuf → VcBuf) : (s.updVc x f).flights = s.flights := rfl
@[simp] theorem State.updVc_starts (s : State) (x : Nat) (f : VcBuf → VcBuf) : (s.updVc x f).starts = s.starts := rfl
@[simp] theorem State.updVc_faults (s : State) (x : Nat) (f : VcBuf → VcBuf) : (s.updVc x f).faults = s.faults := rfl
@[simp] theorem State.updVc_recovery (s : State) (x : Nat) (f : VcBuf → VcBuf) : (s.updVc x f).recovery = s.recovery := rfl
@[simp] theorem State.updVc_log (s : State) (x : Nat) (f : VcBuf → VcBuf) : (s.updVc x f).log = s.log := rfl
@[simp] theorem State.updVc_logNext (s : State) (x : Nat) (f : VcBuf → VcBuf) : (s.updVc x f).logNext = s.logNext := rfl
@[simp] theorem State.updVc_time (s : State) (x : Nat) (f : VcBuf → VcBuf) : (s.updVc x f).time = s.time := rfl
@[simp] theorem State.updVc_usPhase (s : State) (x : Nat) (f : VcBuf → VcBuf) : (s.updVc x f).usPhase = s.usPhase := rfl
@[simp] theorem State.updVc_cells (s : State) (x : Nat) (f : VcBuf → VcBuf) : (s.updVc x f).cells = s.cells := rfl
@[simp] theorem State.updVc_lanes (s : State) (x : Nat) (f : VcBuf → VcBuf) : (s.updVc x f).lanes = s.lanes := rfl
@[simp] theorem State.updVc_partners (s : State) (x : Nat) (f : VcBuf → VcBuf) : (s.updVc x f).partners = s.partners := rfl
@[simp] theorem State.updVc_rules (s : State) (x : Nat) (f : VcBuf → VcBuf) : (s.updVc x f).rules = s.rules := rfl
@[simp] theorem State.updVc_streams (s : State) (x : Nat) (f : VcBuf → VcBuf) : (s.updVc x f).streams = s.streams := rfl
@[simp] theorem State.updVc_asm (s : State) (x : Nat) (f : VcBuf → VcBuf) : (s.updVc x f).asm = s.asm := rfl
@[simp] theorem State.updVc_alloc (s : State) (x : Nat) (f : VcBuf → VcBuf) : (s.updVc x f).alloc = s.alloc := rfl
@[simp] theorem State.updVc_holdoff (s : State) (x : Nat) (f : VcBuf → VcBuf) : (s.updVc x f).holdoff = s.holdoff := rfl
@[simp] theorem State.updVc_parts (s : State) (x : Nat) (f : VcBuf → VcBuf) : (s.updVc x f).parts = s.parts := rfl
@[simp] theorem State.updVc_roles (s : State) (x : Nat) (f : VcBuf → VcBuf) : (s.updVc x f).roles = s.roles := rfl
@[simp] theorem State.updVc_slices (s : State) (x : Nat) (f : VcBuf → VcBuf) : (s.updVc x f).slices = s.slices := rfl
@[simp] theorem State.updVc_sliceNow (s : State) (x : Nat) (f : VcBuf → VcBuf) : (s.updVc x f).sliceNow = s.sliceNow := rfl
@[simp] theorem State.updVc_secSlot (s : State) (x : Nat) (f : VcBuf → VcBuf) : (s.updVc x f).secSlot = s.secSlot := rfl
@[simp] theorem State.updVc_hostReads (s : State) (x : Nat) (f : VcBuf → VcBuf) : (s.updVc x f).hostReads = s.hostReads := rfl
@[simp] theorem State.updVc_logRead (s : State) (x : Nat) (f : VcBuf → VcBuf) : (s.updVc x f).logRead = s.logRead := rfl
@[simp] theorem State.updVc_perc (s : State) (x : Nat) (f : VcBuf → VcBuf) : (s.updVc x f).perc = s.perc := rfl
@[simp] theorem State.updVc_cupEn (s : State) (x : Nat) (f : VcBuf → VcBuf) : (s.updVc x f).cupEn = s.cupEn := rfl
@[simp] theorem State.updVc_cupPeriod (s : State) (x : Nat) (f : VcBuf → VcBuf) : (s.updVc x f).cupPeriod = s.cupPeriod := rfl
@[simp] theorem State.updVc_power (s : State) (x : Nat) (f : VcBuf → VcBuf) : (s.updVc x f).power = s.power := rfl
@[simp] theorem State.updVc_boot (s : State) (x : Nat) (f : VcBuf → VcBuf) : (s.updVc x f).boot = s.boot := rfl
@[simp] theorem State.updVc_fuses (s : State) (x : Nat) (f : VcBuf → VcBuf) : (s.updVc x f).fuses = s.fuses := rfl
@[simp] theorem State.updVc_shadow (s : State) (x : Nat) (f : VcBuf → VcBuf) : (s.updVc x f).shadow = s.shadow := rfl
@[simp] theorem State.updVc_flash (s : State) (x : Nat) (f : VcBuf → VcBuf) : (s.updVc x f).flash = s.flash := rfl
@[simp] theorem State.updVc_smbAddr (s : State) (x : Nat) (f : VcBuf → VcBuf) : (s.updVc x f).smbAddr = s.smbAddr := rfl
@[simp] theorem State.updVc_tap (s : State) (x : Nat) (f : VcBuf → VcBuf) : (s.updVc x f).tap = s.tap := rfl
@[simp] theorem State.updVc_dbgAccess (s : State) (x : Nat) (f : VcBuf → VcBuf) : (s.updVc x f).dbgAccess = s.dbgAccess := rfl
@[simp] theorem State.updVc_readOut (s : State) (x : Nat) (f : VcBuf → VcBuf) : (s.updVc x f).readOut = s.readOut := rfl
@[simp] theorem State.updVc_drawn (s : State) (x : Nat) (f : VcBuf → VcBuf) : (s.updVc x f).drawn = s.drawn := rfl
@[simp] theorem State.updVc_tm (s : State) (x : Nat) (f : VcBuf → VcBuf) (i : Nat) : (s.updVc x f).tm i = s.tm i := rfl
@[simp] theorem State.updVc_tile (s : State) (x : Nat) (f : VcBuf → VcBuf) (i : Nat) : (s.updVc x f).tile i = s.tile i := rfl
@[simp] theorem State.updVc_link (s : State) (x : Nat) (f : VcBuf → VcBuf) (i : Nat) : (s.updVc x f).link i = s.link i := rfl
@[simp] theorem State.updVc_task (s : State) (x : Nat) (f : VcBuf → VcBuf) (i : Nat) : (s.updVc x f).task i = s.task i := rfl
@[simp] theorem State.updVc_sector (s : State) (x : Nat) (f : VcBuf → VcBuf) (i : Nat) : (s.updVc x f).sector i = s.sector i := rfl
@[simp] theorem State.updVc_evb (s : State) (x : Nat) (f : VcBuf → VcBuf) (i : Nat) : (s.updVc x f).evb i = s.evb i := rfl
@[simp] theorem State.updVc_queue (s : State) (x : Nat) (f : VcBuf → VcBuf) (i : Nat) : (s.updVc x f).queue i = s.queue i := rfl
@[simp] theorem State.updVc_role (s : State) (x : Nat) (f : VcBuf → VcBuf) (i : Nat) : (s.updVc x f).role i = s.role i := rfl
@[simp] theorem State.updVc_part (s : State) (x : Nat) (f : VcBuf → VcBuf) (i : Nat) : (s.updVc x f).part i = s.part i := rfl
@[simp] theorem State.updVc_port (s : State) (x : Nat) (f : VcBuf → VcBuf) (i : Nat) : (s.updVc x f).port i = s.port i := rfl
@[simp] theorem State.updVc_inFlight (s : State) (x : Nat) (f : VcBuf → VcBuf) (i : Nat) : (s.updVc x f).inFlight i = s.inFlight i := rfl
@[simp] theorem State.updVc_buffer (s : State) (x : Nat) (f : VcBuf → VcBuf) (i : Nat) : (s.updVc x f).buffer i = s.buffer i := rfl
@[simp] theorem State.updVc_lane (s : State) (x : Nat) (f : VcBuf → VcBuf) (i : Nat) : (s.updVc x f).lane i = s.lane i := rfl
@[simp] theorem State.updVc_stream (s : State) (x : Nat) (f : VcBuf → VcBuf) (i : Nat) : (s.updVc x f).stream i = s.stream i := rfl

/-! ## setPortVc -/

@[simp] theorem State.setPortVc_pending (s : State) (x : Nat) (b : PortVc) : (s.setPortVc x b).pending = s.pending := rfl
@[simp] theorem State.setPortVc_tileMap (s : State) (x : Nat) (b : PortVc) : (s.setPortVc x b).tileMap = s.tileMap := rfl
@[simp] theorem State.setPortVc_win (s : State) (x : Nat) (b : PortVc) : (s.setPortVc x b).win = s.win := rfl
@[simp] theorem State.setPortVc_links (s : State) (x : Nat) (b : PortVc) : (s.setPortVc x b).links = s.links := rfl
@[simp] theorem State.setPortVc_tiles (s : State) (x : Nat) (b : PortVc) : (s.setPortVc x b).tiles = s.tiles := rfl
@[simp] theorem State.setPortVc_tasks (s : State) (x : Nat) (b : PortVc) : (s.setPortVc x b).tasks = s.tasks := rfl
@[simp] theorem State.setPortVc_sectors (s : State) (x : Nat) (b : PortVc) : (s.setPortVc x b).sectors = s.sectors := rfl
@[simp] theorem State.setPortVc_grants (s : State) (x : Nat) (b : PortVc) : (s.setPortVc x b).grants = s.grants := rfl
@[simp] theorem State.setPortVc_dones (s : State) (x : Nat) (b : PortVc) : (s.setPortVc x b).dones = s.dones := rfl
@[simp] theorem State.setPortVc_getWorks (s : State) (x : Nat) (b : PortVc) : (s.setPortVc x b).getWorks = s.getWorks := rfl
@[simp] theorem State.setPortVc_notifies (s : State) (x : Nat) (b : PortVc) : (s.setPortVc x b).notifies = s.notifies := rfl
@[simp] theorem State.setPortVc_mem (s : State) (x : Nat) (b : PortVc) : (s.setPortVc x b).mem = s.mem := rfl
@[simp] theorem State.setPortVc_events (s : State) (x : Nat) (b : PortVc) : (s.setPortVc x b).events = s.events := rfl
@[simp] theorem State.setPortVc_queues (s : State) (x : Nat) (b : PortVc) : (s.setPortVc x b).queues = s.queues := rfl
@[simp] theorem State.setPortVc_ports (s : State) (x : Nat) (b : PortVc) : (s.setPortVc x b).ports = s.ports := rfl
@[simp] theorem State.setPortVc_hostWrites (s : State) (x : Nat) (b : PortVc) : (s.setPortVc x b).hostWrites = s.hostWrites := rfl
@[simp] theorem State.setPortVc_buffers (s : State) (x : Nat) (b : PortVc) : (s.setPortVc x b).buffers = s.buffers := rfl
@[simp] theorem State.setPortVc_running (s : State) (x : Nat) (b : PortVc) : (s.setPortVc x b).running = s.running := rfl
@[simp] theorem State.setPortVc_flights (s : State) (x : Nat) (b : PortVc) : (s.setPortVc x b).flights = s.flights := rfl
@[simp] theorem State.setPortVc_starts (s : State) (x : Nat) (b : PortVc) : (s.setPortVc x b).starts = s.starts := rfl
@[simp] theorem State.setPortVc_faults (s : State) (x : Nat) (b : PortVc) : (s.setPortVc x b).faults = s.faults := rfl
@[simp] theorem State.setPortVc_recovery (s : State) (x : Nat) (b : PortVc) : (s.setPortVc x b).recovery = s.recovery := rfl
@[simp] theorem State.setPortVc_log (s : State) (x : Nat) (b : PortVc) : (s.setPortVc x b).log = s.log := rfl
@[simp] theorem State.setPortVc_logNext (s : State) (x : Nat) (b : PortVc) : (s.setPortVc x b).logNext = s.logNext := rfl
@[simp] theorem State.setPortVc_time (s : State) (x : Nat) (b : PortVc) : (s.setPortVc x b).time = s.time := rfl
@[simp] theorem State.setPortVc_usPhase (s : State) (x : Nat) (b : PortVc) : (s.setPortVc x b).usPhase = s.usPhase := rfl
@[simp] theorem State.setPortVc_cells (s : State) (x : Nat) (b : PortVc) : (s.setPortVc x b).cells = s.cells := rfl
@[simp] theorem State.setPortVc_lanes (s : State) (x : Nat) (b : PortVc) : (s.setPortVc x b).lanes = s.lanes := rfl
@[simp] theorem State.setPortVc_partners (s : State) (x : Nat) (b : PortVc) : (s.setPortVc x b).partners = s.partners := rfl
@[simp] theorem State.setPortVc_rules (s : State) (x : Nat) (b : PortVc) : (s.setPortVc x b).rules = s.rules := rfl
@[simp] theorem State.setPortVc_streams (s : State) (x : Nat) (b : PortVc) : (s.setPortVc x b).streams = s.streams := rfl
@[simp] theorem State.setPortVc_asm (s : State) (x : Nat) (b : PortVc) : (s.setPortVc x b).asm = s.asm := rfl
@[simp] theorem State.setPortVc_alloc (s : State) (x : Nat) (b : PortVc) : (s.setPortVc x b).alloc = s.alloc := rfl
@[simp] theorem State.setPortVc_holdoff (s : State) (x : Nat) (b : PortVc) : (s.setPortVc x b).holdoff = s.holdoff := rfl
@[simp] theorem State.setPortVc_parts (s : State) (x : Nat) (b : PortVc) : (s.setPortVc x b).parts = s.parts := rfl
@[simp] theorem State.setPortVc_roles (s : State) (x : Nat) (b : PortVc) : (s.setPortVc x b).roles = s.roles := rfl
@[simp] theorem State.setPortVc_slices (s : State) (x : Nat) (b : PortVc) : (s.setPortVc x b).slices = s.slices := rfl
@[simp] theorem State.setPortVc_sliceNow (s : State) (x : Nat) (b : PortVc) : (s.setPortVc x b).sliceNow = s.sliceNow := rfl
@[simp] theorem State.setPortVc_secSlot (s : State) (x : Nat) (b : PortVc) : (s.setPortVc x b).secSlot = s.secSlot := rfl
@[simp] theorem State.setPortVc_hostReads (s : State) (x : Nat) (b : PortVc) : (s.setPortVc x b).hostReads = s.hostReads := rfl
@[simp] theorem State.setPortVc_logRead (s : State) (x : Nat) (b : PortVc) : (s.setPortVc x b).logRead = s.logRead := rfl
@[simp] theorem State.setPortVc_perc (s : State) (x : Nat) (b : PortVc) : (s.setPortVc x b).perc = s.perc := rfl
@[simp] theorem State.setPortVc_cupEn (s : State) (x : Nat) (b : PortVc) : (s.setPortVc x b).cupEn = s.cupEn := rfl
@[simp] theorem State.setPortVc_cupPeriod (s : State) (x : Nat) (b : PortVc) : (s.setPortVc x b).cupPeriod = s.cupPeriod := rfl
@[simp] theorem State.setPortVc_power (s : State) (x : Nat) (b : PortVc) : (s.setPortVc x b).power = s.power := rfl
@[simp] theorem State.setPortVc_boot (s : State) (x : Nat) (b : PortVc) : (s.setPortVc x b).boot = s.boot := rfl
@[simp] theorem State.setPortVc_fuses (s : State) (x : Nat) (b : PortVc) : (s.setPortVc x b).fuses = s.fuses := rfl
@[simp] theorem State.setPortVc_shadow (s : State) (x : Nat) (b : PortVc) : (s.setPortVc x b).shadow = s.shadow := rfl
@[simp] theorem State.setPortVc_flash (s : State) (x : Nat) (b : PortVc) : (s.setPortVc x b).flash = s.flash := rfl
@[simp] theorem State.setPortVc_smbAddr (s : State) (x : Nat) (b : PortVc) : (s.setPortVc x b).smbAddr = s.smbAddr := rfl
@[simp] theorem State.setPortVc_tap (s : State) (x : Nat) (b : PortVc) : (s.setPortVc x b).tap = s.tap := rfl
@[simp] theorem State.setPortVc_dbgAccess (s : State) (x : Nat) (b : PortVc) : (s.setPortVc x b).dbgAccess = s.dbgAccess := rfl
@[simp] theorem State.setPortVc_readOut (s : State) (x : Nat) (b : PortVc) : (s.setPortVc x b).readOut = s.readOut := rfl
@[simp] theorem State.setPortVc_drawn (s : State) (x : Nat) (b : PortVc) : (s.setPortVc x b).drawn = s.drawn := rfl
@[simp] theorem State.setPortVc_tm (s : State) (x : Nat) (b : PortVc) (i : Nat) : (s.setPortVc x b).tm i = s.tm i := rfl
@[simp] theorem State.setPortVc_tile (s : State) (x : Nat) (b : PortVc) (i : Nat) : (s.setPortVc x b).tile i = s.tile i := rfl
@[simp] theorem State.setPortVc_link (s : State) (x : Nat) (b : PortVc) (i : Nat) : (s.setPortVc x b).link i = s.link i := rfl
@[simp] theorem State.setPortVc_task (s : State) (x : Nat) (b : PortVc) (i : Nat) : (s.setPortVc x b).task i = s.task i := rfl
@[simp] theorem State.setPortVc_sector (s : State) (x : Nat) (b : PortVc) (i : Nat) : (s.setPortVc x b).sector i = s.sector i := rfl
@[simp] theorem State.setPortVc_evb (s : State) (x : Nat) (b : PortVc) (i : Nat) : (s.setPortVc x b).evb i = s.evb i := rfl
@[simp] theorem State.setPortVc_queue (s : State) (x : Nat) (b : PortVc) (i : Nat) : (s.setPortVc x b).queue i = s.queue i := rfl
@[simp] theorem State.setPortVc_role (s : State) (x : Nat) (b : PortVc) (i : Nat) : (s.setPortVc x b).role i = s.role i := rfl
@[simp] theorem State.setPortVc_part (s : State) (x : Nat) (b : PortVc) (i : Nat) : (s.setPortVc x b).part i = s.part i := rfl
@[simp] theorem State.setPortVc_port (s : State) (x : Nat) (b : PortVc) (i : Nat) : (s.setPortVc x b).port i = s.port i := rfl
@[simp] theorem State.setPortVc_inFlight (s : State) (x : Nat) (b : PortVc) (i : Nat) : (s.setPortVc x b).inFlight i = s.inFlight i := rfl
@[simp] theorem State.setPortVc_buffer (s : State) (x : Nat) (b : PortVc) (i : Nat) : (s.setPortVc x b).buffer i = s.buffer i := rfl
@[simp] theorem State.setPortVc_lane (s : State) (x : Nat) (b : PortVc) (i : Nat) : (s.setPortVc x b).lane i = s.lane i := rfl
@[simp] theorem State.setPortVc_stream (s : State) (x : Nat) (b : PortVc) (i : Nat) : (s.setPortVc x b).stream i = s.stream i := rfl

/-! ## setRtSticky -/

@[simp] theorem State.setRtSticky_pending (s : State) (r : Nat) (b : BitVec 32) : (s.setRtSticky r b).pending = s.pending := rfl
@[simp] theorem State.setRtSticky_tileMap (s : State) (r : Nat) (b : BitVec 32) : (s.setRtSticky r b).tileMap = s.tileMap := rfl
@[simp] theorem State.setRtSticky_win (s : State) (r : Nat) (b : BitVec 32) : (s.setRtSticky r b).win = s.win := rfl
@[simp] theorem State.setRtSticky_links (s : State) (r : Nat) (b : BitVec 32) : (s.setRtSticky r b).links = s.links := rfl
@[simp] theorem State.setRtSticky_tiles (s : State) (r : Nat) (b : BitVec 32) : (s.setRtSticky r b).tiles = s.tiles := rfl
@[simp] theorem State.setRtSticky_tasks (s : State) (r : Nat) (b : BitVec 32) : (s.setRtSticky r b).tasks = s.tasks := rfl
@[simp] theorem State.setRtSticky_sectors (s : State) (r : Nat) (b : BitVec 32) : (s.setRtSticky r b).sectors = s.sectors := rfl
@[simp] theorem State.setRtSticky_grants (s : State) (r : Nat) (b : BitVec 32) : (s.setRtSticky r b).grants = s.grants := rfl
@[simp] theorem State.setRtSticky_dones (s : State) (r : Nat) (b : BitVec 32) : (s.setRtSticky r b).dones = s.dones := rfl
@[simp] theorem State.setRtSticky_getWorks (s : State) (r : Nat) (b : BitVec 32) : (s.setRtSticky r b).getWorks = s.getWorks := rfl
@[simp] theorem State.setRtSticky_notifies (s : State) (r : Nat) (b : BitVec 32) : (s.setRtSticky r b).notifies = s.notifies := rfl
@[simp] theorem State.setRtSticky_mem (s : State) (r : Nat) (b : BitVec 32) : (s.setRtSticky r b).mem = s.mem := rfl
@[simp] theorem State.setRtSticky_events (s : State) (r : Nat) (b : BitVec 32) : (s.setRtSticky r b).events = s.events := rfl
@[simp] theorem State.setRtSticky_queues (s : State) (r : Nat) (b : BitVec 32) : (s.setRtSticky r b).queues = s.queues := rfl
@[simp] theorem State.setRtSticky_ports (s : State) (r : Nat) (b : BitVec 32) : (s.setRtSticky r b).ports = s.ports := rfl
@[simp] theorem State.setRtSticky_hostWrites (s : State) (r : Nat) (b : BitVec 32) : (s.setRtSticky r b).hostWrites = s.hostWrites := rfl
@[simp] theorem State.setRtSticky_buffers (s : State) (r : Nat) (b : BitVec 32) : (s.setRtSticky r b).buffers = s.buffers := rfl
@[simp] theorem State.setRtSticky_running (s : State) (r : Nat) (b : BitVec 32) : (s.setRtSticky r b).running = s.running := rfl
@[simp] theorem State.setRtSticky_flights (s : State) (r : Nat) (b : BitVec 32) : (s.setRtSticky r b).flights = s.flights := rfl
@[simp] theorem State.setRtSticky_starts (s : State) (r : Nat) (b : BitVec 32) : (s.setRtSticky r b).starts = s.starts := rfl
@[simp] theorem State.setRtSticky_faults (s : State) (r : Nat) (b : BitVec 32) : (s.setRtSticky r b).faults = s.faults := rfl
@[simp] theorem State.setRtSticky_recovery (s : State) (r : Nat) (b : BitVec 32) : (s.setRtSticky r b).recovery = s.recovery := rfl
@[simp] theorem State.setRtSticky_log (s : State) (r : Nat) (b : BitVec 32) : (s.setRtSticky r b).log = s.log := rfl
@[simp] theorem State.setRtSticky_logNext (s : State) (r : Nat) (b : BitVec 32) : (s.setRtSticky r b).logNext = s.logNext := rfl
@[simp] theorem State.setRtSticky_time (s : State) (r : Nat) (b : BitVec 32) : (s.setRtSticky r b).time = s.time := rfl
@[simp] theorem State.setRtSticky_usPhase (s : State) (r : Nat) (b : BitVec 32) : (s.setRtSticky r b).usPhase = s.usPhase := rfl
@[simp] theorem State.setRtSticky_cells (s : State) (r : Nat) (b : BitVec 32) : (s.setRtSticky r b).cells = s.cells := rfl
@[simp] theorem State.setRtSticky_lanes (s : State) (r : Nat) (b : BitVec 32) : (s.setRtSticky r b).lanes = s.lanes := rfl
@[simp] theorem State.setRtSticky_partners (s : State) (r : Nat) (b : BitVec 32) : (s.setRtSticky r b).partners = s.partners := rfl
@[simp] theorem State.setRtSticky_rules (s : State) (r : Nat) (b : BitVec 32) : (s.setRtSticky r b).rules = s.rules := rfl
@[simp] theorem State.setRtSticky_streams (s : State) (r : Nat) (b : BitVec 32) : (s.setRtSticky r b).streams = s.streams := rfl
@[simp] theorem State.setRtSticky_asm (s : State) (r : Nat) (b : BitVec 32) : (s.setRtSticky r b).asm = s.asm := rfl
@[simp] theorem State.setRtSticky_alloc (s : State) (r : Nat) (b : BitVec 32) : (s.setRtSticky r b).alloc = s.alloc := rfl
@[simp] theorem State.setRtSticky_holdoff (s : State) (r : Nat) (b : BitVec 32) : (s.setRtSticky r b).holdoff = s.holdoff := rfl
@[simp] theorem State.setRtSticky_parts (s : State) (r : Nat) (b : BitVec 32) : (s.setRtSticky r b).parts = s.parts := rfl
@[simp] theorem State.setRtSticky_roles (s : State) (r : Nat) (b : BitVec 32) : (s.setRtSticky r b).roles = s.roles := rfl
@[simp] theorem State.setRtSticky_slices (s : State) (r : Nat) (b : BitVec 32) : (s.setRtSticky r b).slices = s.slices := rfl
@[simp] theorem State.setRtSticky_sliceNow (s : State) (r : Nat) (b : BitVec 32) : (s.setRtSticky r b).sliceNow = s.sliceNow := rfl
@[simp] theorem State.setRtSticky_secSlot (s : State) (r : Nat) (b : BitVec 32) : (s.setRtSticky r b).secSlot = s.secSlot := rfl
@[simp] theorem State.setRtSticky_hostReads (s : State) (r : Nat) (b : BitVec 32) : (s.setRtSticky r b).hostReads = s.hostReads := rfl
@[simp] theorem State.setRtSticky_logRead (s : State) (r : Nat) (b : BitVec 32) : (s.setRtSticky r b).logRead = s.logRead := rfl
@[simp] theorem State.setRtSticky_perc (s : State) (r : Nat) (b : BitVec 32) : (s.setRtSticky r b).perc = s.perc := rfl
@[simp] theorem State.setRtSticky_cupEn (s : State) (r : Nat) (b : BitVec 32) : (s.setRtSticky r b).cupEn = s.cupEn := rfl
@[simp] theorem State.setRtSticky_cupPeriod (s : State) (r : Nat) (b : BitVec 32) : (s.setRtSticky r b).cupPeriod = s.cupPeriod := rfl
@[simp] theorem State.setRtSticky_power (s : State) (r : Nat) (b : BitVec 32) : (s.setRtSticky r b).power = s.power := rfl
@[simp] theorem State.setRtSticky_boot (s : State) (r : Nat) (b : BitVec 32) : (s.setRtSticky r b).boot = s.boot := rfl
@[simp] theorem State.setRtSticky_fuses (s : State) (r : Nat) (b : BitVec 32) : (s.setRtSticky r b).fuses = s.fuses := rfl
@[simp] theorem State.setRtSticky_shadow (s : State) (r : Nat) (b : BitVec 32) : (s.setRtSticky r b).shadow = s.shadow := rfl
@[simp] theorem State.setRtSticky_flash (s : State) (r : Nat) (b : BitVec 32) : (s.setRtSticky r b).flash = s.flash := rfl
@[simp] theorem State.setRtSticky_smbAddr (s : State) (r : Nat) (b : BitVec 32) : (s.setRtSticky r b).smbAddr = s.smbAddr := rfl
@[simp] theorem State.setRtSticky_tap (s : State) (r : Nat) (b : BitVec 32) : (s.setRtSticky r b).tap = s.tap := rfl
@[simp] theorem State.setRtSticky_dbgAccess (s : State) (r : Nat) (b : BitVec 32) : (s.setRtSticky r b).dbgAccess = s.dbgAccess := rfl
@[simp] theorem State.setRtSticky_readOut (s : State) (r : Nat) (b : BitVec 32) : (s.setRtSticky r b).readOut = s.readOut := rfl
@[simp] theorem State.setRtSticky_drawn (s : State) (r : Nat) (b : BitVec 32) : (s.setRtSticky r b).drawn = s.drawn := rfl
@[simp] theorem State.setRtSticky_tm (s : State) (r : Nat) (b : BitVec 32) (i : Nat) : (s.setRtSticky r b).tm i = s.tm i := rfl
@[simp] theorem State.setRtSticky_tile (s : State) (r : Nat) (b : BitVec 32) (i : Nat) : (s.setRtSticky r b).tile i = s.tile i := rfl
@[simp] theorem State.setRtSticky_link (s : State) (r : Nat) (b : BitVec 32) (i : Nat) : (s.setRtSticky r b).link i = s.link i := rfl
@[simp] theorem State.setRtSticky_task (s : State) (r : Nat) (b : BitVec 32) (i : Nat) : (s.setRtSticky r b).task i = s.task i := rfl
@[simp] theorem State.setRtSticky_sector (s : State) (r : Nat) (b : BitVec 32) (i : Nat) : (s.setRtSticky r b).sector i = s.sector i := rfl
@[simp] theorem State.setRtSticky_evb (s : State) (r : Nat) (b : BitVec 32) (i : Nat) : (s.setRtSticky r b).evb i = s.evb i := rfl
@[simp] theorem State.setRtSticky_queue (s : State) (r : Nat) (b : BitVec 32) (i : Nat) : (s.setRtSticky r b).queue i = s.queue i := rfl
@[simp] theorem State.setRtSticky_role (s : State) (r : Nat) (b : BitVec 32) (i : Nat) : (s.setRtSticky r b).role i = s.role i := rfl
@[simp] theorem State.setRtSticky_part (s : State) (r : Nat) (b : BitVec 32) (i : Nat) : (s.setRtSticky r b).part i = s.part i := rfl
@[simp] theorem State.setRtSticky_port (s : State) (r : Nat) (b : BitVec 32) (i : Nat) : (s.setRtSticky r b).port i = s.port i := rfl
@[simp] theorem State.setRtSticky_inFlight (s : State) (r : Nat) (b : BitVec 32) (i : Nat) : (s.setRtSticky r b).inFlight i = s.inFlight i := rfl
@[simp] theorem State.setRtSticky_buffer (s : State) (r : Nat) (b : BitVec 32) (i : Nat) : (s.setRtSticky r b).buffer i = s.buffer i := rfl
@[simp] theorem State.setRtSticky_lane (s : State) (r : Nat) (b : BitVec 32) (i : Nat) : (s.setRtSticky r b).lane i = s.lane i := rfl
@[simp] theorem State.setRtSticky_stream (s : State) (r : Nat) (b : BitVec 32) (i : Nat) : (s.setRtSticky r b).stream i = s.stream i := rfl

/-! ## setTracker -/

@[simp] theorem State.setTracker_pending (s : State) (g : Nat) (t : Tracker) : (s.setTracker g t).pending = s.pending := rfl
@[simp] theorem State.setTracker_tileMap (s : State) (g : Nat) (t : Tracker) : (s.setTracker g t).tileMap = s.tileMap := rfl
@[simp] theorem State.setTracker_win (s : State) (g : Nat) (t : Tracker) : (s.setTracker g t).win = s.win := rfl
@[simp] theorem State.setTracker_links (s : State) (g : Nat) (t : Tracker) : (s.setTracker g t).links = s.links := rfl
@[simp] theorem State.setTracker_tiles (s : State) (g : Nat) (t : Tracker) : (s.setTracker g t).tiles = s.tiles := rfl
@[simp] theorem State.setTracker_tasks (s : State) (g : Nat) (t : Tracker) : (s.setTracker g t).tasks = s.tasks := rfl
@[simp] theorem State.setTracker_sectors (s : State) (g : Nat) (t : Tracker) : (s.setTracker g t).sectors = s.sectors := rfl
@[simp] theorem State.setTracker_grants (s : State) (g : Nat) (t : Tracker) : (s.setTracker g t).grants = s.grants := rfl
@[simp] theorem State.setTracker_dones (s : State) (g : Nat) (t : Tracker) : (s.setTracker g t).dones = s.dones := rfl
@[simp] theorem State.setTracker_getWorks (s : State) (g : Nat) (t : Tracker) : (s.setTracker g t).getWorks = s.getWorks := rfl
@[simp] theorem State.setTracker_notifies (s : State) (g : Nat) (t : Tracker) : (s.setTracker g t).notifies = s.notifies := rfl
@[simp] theorem State.setTracker_mesh (s : State) (g : Nat) (t : Tracker) : (s.setTracker g t).mesh = s.mesh := rfl
@[simp] theorem State.setTracker_events (s : State) (g : Nat) (t : Tracker) : (s.setTracker g t).events = s.events := rfl
@[simp] theorem State.setTracker_queues (s : State) (g : Nat) (t : Tracker) : (s.setTracker g t).queues = s.queues := rfl
@[simp] theorem State.setTracker_ports (s : State) (g : Nat) (t : Tracker) : (s.setTracker g t).ports = s.ports := rfl
@[simp] theorem State.setTracker_hostWrites (s : State) (g : Nat) (t : Tracker) : (s.setTracker g t).hostWrites = s.hostWrites := rfl
@[simp] theorem State.setTracker_buffers (s : State) (g : Nat) (t : Tracker) : (s.setTracker g t).buffers = s.buffers := rfl
@[simp] theorem State.setTracker_running (s : State) (g : Nat) (t : Tracker) : (s.setTracker g t).running = s.running := rfl
@[simp] theorem State.setTracker_flights (s : State) (g : Nat) (t : Tracker) : (s.setTracker g t).flights = s.flights := rfl
@[simp] theorem State.setTracker_starts (s : State) (g : Nat) (t : Tracker) : (s.setTracker g t).starts = s.starts := rfl
@[simp] theorem State.setTracker_faults (s : State) (g : Nat) (t : Tracker) : (s.setTracker g t).faults = s.faults := rfl
@[simp] theorem State.setTracker_recovery (s : State) (g : Nat) (t : Tracker) : (s.setTracker g t).recovery = s.recovery := rfl
@[simp] theorem State.setTracker_log (s : State) (g : Nat) (t : Tracker) : (s.setTracker g t).log = s.log := rfl
@[simp] theorem State.setTracker_logNext (s : State) (g : Nat) (t : Tracker) : (s.setTracker g t).logNext = s.logNext := rfl
@[simp] theorem State.setTracker_time (s : State) (g : Nat) (t : Tracker) : (s.setTracker g t).time = s.time := rfl
@[simp] theorem State.setTracker_usPhase (s : State) (g : Nat) (t : Tracker) : (s.setTracker g t).usPhase = s.usPhase := rfl
@[simp] theorem State.setTracker_cells (s : State) (g : Nat) (t : Tracker) : (s.setTracker g t).cells = s.cells := rfl
@[simp] theorem State.setTracker_lanes (s : State) (g : Nat) (t : Tracker) : (s.setTracker g t).lanes = s.lanes := rfl
@[simp] theorem State.setTracker_partners (s : State) (g : Nat) (t : Tracker) : (s.setTracker g t).partners = s.partners := rfl
@[simp] theorem State.setTracker_rules (s : State) (g : Nat) (t : Tracker) : (s.setTracker g t).rules = s.rules := rfl
@[simp] theorem State.setTracker_streams (s : State) (g : Nat) (t : Tracker) : (s.setTracker g t).streams = s.streams := rfl
@[simp] theorem State.setTracker_asm (s : State) (g : Nat) (t : Tracker) : (s.setTracker g t).asm = s.asm := rfl
@[simp] theorem State.setTracker_alloc (s : State) (g : Nat) (t : Tracker) : (s.setTracker g t).alloc = s.alloc := rfl
@[simp] theorem State.setTracker_holdoff (s : State) (g : Nat) (t : Tracker) : (s.setTracker g t).holdoff = s.holdoff := rfl
@[simp] theorem State.setTracker_parts (s : State) (g : Nat) (t : Tracker) : (s.setTracker g t).parts = s.parts := rfl
@[simp] theorem State.setTracker_roles (s : State) (g : Nat) (t : Tracker) : (s.setTracker g t).roles = s.roles := rfl
@[simp] theorem State.setTracker_slices (s : State) (g : Nat) (t : Tracker) : (s.setTracker g t).slices = s.slices := rfl
@[simp] theorem State.setTracker_sliceNow (s : State) (g : Nat) (t : Tracker) : (s.setTracker g t).sliceNow = s.sliceNow := rfl
@[simp] theorem State.setTracker_secSlot (s : State) (g : Nat) (t : Tracker) : (s.setTracker g t).secSlot = s.secSlot := rfl
@[simp] theorem State.setTracker_hostReads (s : State) (g : Nat) (t : Tracker) : (s.setTracker g t).hostReads = s.hostReads := rfl
@[simp] theorem State.setTracker_logRead (s : State) (g : Nat) (t : Tracker) : (s.setTracker g t).logRead = s.logRead := rfl
@[simp] theorem State.setTracker_perc (s : State) (g : Nat) (t : Tracker) : (s.setTracker g t).perc = s.perc := rfl
@[simp] theorem State.setTracker_cupEn (s : State) (g : Nat) (t : Tracker) : (s.setTracker g t).cupEn = s.cupEn := rfl
@[simp] theorem State.setTracker_cupPeriod (s : State) (g : Nat) (t : Tracker) : (s.setTracker g t).cupPeriod = s.cupPeriod := rfl
@[simp] theorem State.setTracker_power (s : State) (g : Nat) (t : Tracker) : (s.setTracker g t).power = s.power := rfl
@[simp] theorem State.setTracker_boot (s : State) (g : Nat) (t : Tracker) : (s.setTracker g t).boot = s.boot := rfl
@[simp] theorem State.setTracker_fuses (s : State) (g : Nat) (t : Tracker) : (s.setTracker g t).fuses = s.fuses := rfl
@[simp] theorem State.setTracker_shadow (s : State) (g : Nat) (t : Tracker) : (s.setTracker g t).shadow = s.shadow := rfl
@[simp] theorem State.setTracker_flash (s : State) (g : Nat) (t : Tracker) : (s.setTracker g t).flash = s.flash := rfl
@[simp] theorem State.setTracker_smbAddr (s : State) (g : Nat) (t : Tracker) : (s.setTracker g t).smbAddr = s.smbAddr := rfl
@[simp] theorem State.setTracker_tap (s : State) (g : Nat) (t : Tracker) : (s.setTracker g t).tap = s.tap := rfl
@[simp] theorem State.setTracker_dbgAccess (s : State) (g : Nat) (t : Tracker) : (s.setTracker g t).dbgAccess = s.dbgAccess := rfl
@[simp] theorem State.setTracker_readOut (s : State) (g : Nat) (t : Tracker) : (s.setTracker g t).readOut = s.readOut := rfl
@[simp] theorem State.setTracker_drawn (s : State) (g : Nat) (t : Tracker) : (s.setTracker g t).drawn = s.drawn := rfl
@[simp] theorem State.setTracker_tm (s : State) (g : Nat) (t : Tracker) (i : Nat) : (s.setTracker g t).tm i = s.tm i := rfl
@[simp] theorem State.setTracker_tile (s : State) (g : Nat) (t : Tracker) (i : Nat) : (s.setTracker g t).tile i = s.tile i := rfl
@[simp] theorem State.setTracker_link (s : State) (g : Nat) (t : Tracker) (i : Nat) : (s.setTracker g t).link i = s.link i := rfl
@[simp] theorem State.setTracker_task (s : State) (g : Nat) (t : Tracker) (i : Nat) : (s.setTracker g t).task i = s.task i := rfl
@[simp] theorem State.setTracker_sector (s : State) (g : Nat) (t : Tracker) (i : Nat) : (s.setTracker g t).sector i = s.sector i := rfl
@[simp] theorem State.setTracker_evb (s : State) (g : Nat) (t : Tracker) (i : Nat) : (s.setTracker g t).evb i = s.evb i := rfl
@[simp] theorem State.setTracker_queue (s : State) (g : Nat) (t : Tracker) (i : Nat) : (s.setTracker g t).queue i = s.queue i := rfl
@[simp] theorem State.setTracker_role (s : State) (g : Nat) (t : Tracker) (i : Nat) : (s.setTracker g t).role i = s.role i := rfl
@[simp] theorem State.setTracker_part (s : State) (g : Nat) (t : Tracker) (i : Nat) : (s.setTracker g t).part i = s.part i := rfl
@[simp] theorem State.setTracker_port (s : State) (g : Nat) (t : Tracker) (i : Nat) : (s.setTracker g t).port i = s.port i := rfl
@[simp] theorem State.setTracker_inFlight (s : State) (g : Nat) (t : Tracker) (i : Nat) : (s.setTracker g t).inFlight i = s.inFlight i := rfl
@[simp] theorem State.setTracker_buffer (s : State) (g : Nat) (t : Tracker) (i : Nat) : (s.setTracker g t).buffer i = s.buffer i := rfl
@[simp] theorem State.setTracker_lane (s : State) (g : Nat) (t : Tracker) (i : Nat) : (s.setTracker g t).lane i = s.lane i := rfl
@[simp] theorem State.setTracker_stream (s : State) (g : Nat) (t : Tracker) (i : Nat) : (s.setTracker g t).stream i = s.stream i := rfl

/-! ## The readers of routers, buffers and controllers after their updates -/

@[simp] theorem State.updRouter_router_same (s : State) (x : Nat) (f : Router → Router) : (s.updRouter x f).router x = f (s.router x) :=
  tget_tset_same (α := Router) _ _ _ _
theorem State.updRouter_router (s : State) (x : Nat) (f : Router → Router) (i : Nat) :
    (s.updRouter x f).router i = if i = x then f (s.router x) else s.router i := by
  by_cases h : i = x
  · rw [h, if_pos rfl]; exact State.updRouter_router_same s x f
  · rw [if_neg h]; exact tget_tset_ne' _ _ _ h _
@[simp] theorem State.updVc_vcBuf_same (s : State) (x : Nat) (f : VcBuf → VcBuf) : (s.updVc x f).vcBuf x = f (s.vcBuf x) :=
  tget_tset_same (α := VcBuf) _ _ _ _
theorem State.updVc_vcBuf (s : State) (x : Nat) (f : VcBuf → VcBuf) (i : Nat) :
    (s.updVc x f).vcBuf i = if i = x then f (s.vcBuf x) else s.vcBuf i := by
  by_cases h : i = x
  · rw [h, if_pos rfl]; exact State.updVc_vcBuf_same s x f
  · rw [if_neg h]; exact tget_tset_ne' _ _ _ h _
@[simp] theorem State.setPortVc_portVc_same (s : State) (x : Nat) (f : PortVc) : (s.setPortVc x f).portVc x = f :=
  tget_tset_same (α := PortVc) _ _ _ _
theorem State.setPortVc_portVc (s : State) (x : Nat) (f : PortVc) (i : Nat) :
    (s.setPortVc x f).portVc i = if i = x then f else s.portVc i := by
  by_cases h : i = x
  · rw [h, if_pos rfl]; exact State.setPortVc_portVc_same s x f
  · rw [if_neg h]; exact tget_tset_ne' _ _ _ h _
@[simp] theorem State.updCtl_ctlOf_same (s : State) (c : Nat) (f : DramCtl → DramCtl) :
    (s.updCtl c f).mem.ctlOf c = f (s.mem.ctlOf c) := tget_tset_same (α := DramCtl) _ _ _ _
theorem State.updCtl_ctlOf (s : State) (c : Nat) (f : DramCtl → DramCtl) (i : Nat) :
    (s.updCtl c f).mem.ctlOf i = if i = c then f (s.mem.ctlOf c) else s.mem.ctlOf i := by
  by_cases h : i = c
  · rw [h, if_pos rfl]; exact State.updCtl_ctlOf_same s c f
  · rw [if_neg h]; exact tget_tset_ne' _ _ _ h _

end Sys2Proof.Machine
end

