-- ==== Sys2Proof/Laws/Ops.lean ====
section
/-!
SUPPORT. Laws/Ops.lean: what the shared operations can do: an event changes the event buffers, one that a block sends the
requests that wait for a tag, a sticky bit its register and those requests, a fault log entry the log and its copy in system
SRAM, and nothing else.
-/
namespace Sys2Proof.Machine

/-- An event changes the recipient's event buffer alone. -/
theorem raiseEvent_eq (s : State) (r : Nat) (e : Event) : ∃ b, s.raiseEvent r e = s.setEvb r b := by
  unfold State.raiseEvent
  simp only
  split
  · exact ⟨_, rfl⟩
  · exact ⟨_, rfl⟩

/-- An event with room takes the next ESEQ at the end of its recipient's buffer (R354). -/
theorem raiseEvent_room {s : State} {r : Nat} (h : (s.evb r).entries.length < 256) (e : Event) :
    (s.raiseEvent r e).evb r = { s.evb r with entries := (s.evb r).entries ++ [{ eseq := (s.evb r).next.toNat, ev := e }]
                                              next := (s.evb r).next + 1 } := by
  unfold State.raiseEvent
  simp only [h, if_true]
  exact State.setEvb_evb_same ..

/-- An event to a full buffer is counted as discarded (R354). -/
theorem raiseEvent_full {s : State} {r : Nat} (h : ¬ (s.evb r).entries.length < 256) (e : Event) :
    (s.raiseEvent r e).evb r = { s.evb r with discarded := (s.evb r).discarded + 1 } := by
  unfold State.raiseEvent
  simp only [h, if_false]
  exact State.setEvb_evb_same ..

/-- An event leaves every part of the state but the event buffers. -/
theorem raiseEvent_frame (s : State) (r : Nat) (e : Event) : { s.raiseEvent r e with events := s.events } = s := by
  obtain ⟨b, h⟩ := raiseEvent_eq s r e
  rw [h]; rfl

/-- A request joins those that wait for a tag, with the next number; nothing else changes. -/
theorem enqueue_frame (s : State) (k : Packet) : { s.enqueue k with mesh := s.mesh } = s := rfl
theorem enqueue_waiting (s : State) (k : Packet) :
    (s.enqueue k).mesh.waiting = s.mesh.waiting ++ [{ k with id := s.mesh.nextId }] := rfl

/-- An event of a block is a packet to Barista, and changes no more than a request does (R354). -/
theorem sendEvent_frame (s : State) (src r : Nat) (e : Event) : { s.sendEvent src r e with mesh := s.mesh } = s := rfl

theorem tellOwner_frame (s : State) (src q : Nat) (e : Event) : { s.tellOwner src q e with mesh := s.mesh } = s := by
  unfold State.tellOwner
  split <;> rfl

/-- A sticky bit of a tile changes that tile's TILE_STICKY and the requests that wait for a tag. -/
theorem stick_frame (s : State) (p : Nat) (b : BitVec 32) :
    { s.stick p b with mesh := s.mesh, tiles := s.tiles } = s := by
  unfold State.stick
  simp only
  split
  · rfl
  · unfold State.tellOwner
    split <;> rfl

/-- A log entry changes the log, its copy in system SRAM and, for a SYSTEM fault, the platform owner's events. -/
theorem logFault_eq (s : State) (cls part flags source object detail addr : Nat) :
    ∃ (e : LogEntry) (ev : Tab EventBuf), e.index = s.logNext ∧ s.logFault cls part flags source object detail addr
      = { s with log := (e :: s.log).take 1024, logNext := (s.logNext + 1) % 2 ^ 32, mem := s.mem.putLog e, events := ev } := by
  unfold State.logFault
  by_cases h : cls = 5
  · simp only [h, if_true]
    refine ⟨_, _, ?_, (raiseEvent_eq _ _ _).choose_spec.trans rfl⟩
    rfl
  · simp only [h, if_false]
    exact ⟨_, _, rfl, rfl⟩

/-- The log moves on by one entry (R460). -/
theorem logFault_next (s : State) (cls part flags source object detail addr : Nat) :
    (s.logFault cls part flags source object detail addr).logNext = (s.logNext + 1) % 2 ^ 32 := by
  obtain ⟨e, ev, -, h⟩ := logFault_eq s cls part flags source object detail addr
  rw [h]

/-- A log entry keeps the memories in their form. -/
theorem wf_logFault {s : State} (h : s.mem.wf = true) (cls part flags source object detail addr : Nat) :
    (s.logFault cls part flags source object detail addr).mem.wf = true := by
  obtain ⟨e, ev, -, h'⟩ := logFault_eq s cls part flags source object detail addr
  rw [h']
  exact Memory.wf_putLog h e

/-- A drawn value moves the model's counter alone. -/
@[simp] theorem draw_fst (s : State) : (s.draw).1 = s.drawn := rfl
@[simp] theorem draw_snd (s : State) : (s.draw).2 = { s with drawn := s.drawn + 1 } := rfl

/-! ## Words of the SRAMs -/

/-- A read of a word changes no state unless its code corrects it. -/
theorem readWord_state {s : State} {a : Nat} (h : (s.mem.read a).2 ≠ .corrected) : (State.readWord s a).2.2 = s := by
  unfold State.readWord
  split
  · next e => exact absurd (by rw [e]) h
  · rfl

/-- A word with a correct code reads as it is stored. -/
theorem readWord_clean {s : State} {a : Nat} (h : s.mem.synOf a = 0) : State.readWord s a = (s.mem.raw a, false, s) := by
  have : s.mem.read a = (s.mem.raw a, .clean) := by unfold Memory.read decodeWord; rw [h]; rfl
  unfold State.readWord
  rw [this]; rfl

/-- A whole-word write changes the word, its code and the correction trackers. -/
theorem writeWord_frame (s : State) (a : Nat) (d : Word) (p : Bool) : { s.writeWord a d p with mem := s.mem } = s := by
  unfold State.writeWord State.trackWrite
  simp only
  split <;> rfl

end Sys2Proof.Machine
end

