-- ==== Sys2Proof/WellFormed.lean ====
section
/-!
DEFINITION. WellFormed.lean: which commands can come to the block at all: the bounds on what they carry that their types
do not say. `exec` gives every command an outcome; these are the ones the specification speaks of.
-/
namespace Sys2Proof

/-- A mesh request carries at most 256 bytes; a read carries none (R284, R285). -/
def MeshReq.wfRead (r : MeshReq) : Bool := decide (r.len.toNat ≤ 256) && r.data.isEmpty
def MeshReq.wfWrite (r : MeshReq) : Bool := decide (r.data.length ≤ 256) && r.len.toNat == r.data.length
/-- An ATOM carries its data as a write does (R312). -/
def MeshReq.wfAtom (r : MeshReq) : Bool := r.wfWrite

/-- An upset strikes a stored bit (R98, R302, R304): 39 bits a word, 576 a line, three copies of 256 latch bits. -/
def UpsetAt.wf : UpsetAt → Bool
  | .sram a b => a.toNat % 4 == 0 && decide (b < 39)
  | .dram a b => a.toNat % 64 == 0 && decide (b < 576)
  | .latch c b => decide (c < 3) && decide (b < 256)

/-- What the board programs into the flash lies in the range its addresses span (R493). -/
def BoardIn.wf (b : BoardIn) : Bool := b.flash.all fun e => decide (e.1.toNat + e.2.length ≤ 2 ^ 32)

/-- The command is one that can come to the block. -/
def Instr.wf : Instr → Bool
  | .meshRd r => r.wfRead
  | .meshWr r _ => r.wfWrite
  | .aliasBitSet r => r.wfWrite && r.addr.toNat / 2 ^ 44 == 1
  | .aliasBitClear r => r.wfWrite && r.addr.toNat / 2 ^ 44 == 2
  | .atomSwap r | .atomCas r | .atomFadd r | .atomFor r | .atomFand r | .atomFxor r | .atomUmin r | .atomUmax r => r.wfAtom
  | .tapSteal _ _ r => r.wfRead || r.wfWrite
  | .meshEvt r => r.wfWrite
  | .registerWrite _ a _ => a.toNat % 4 == 0
  | .smbusCommandWrite _ d _ => decide (d.length ≤ 255)
  | .hostReadCompletion _ _ d _ => decide (d.length ≤ 4096)
  | .powerCapUpdate _ xs => xs.length == 8
  | .thermalUpdate xs => xs.length == 11
  | .resetRelease b => b.wf
  | .upset u => u.wf
  | _ => true

end Sys2Proof
end

