-- ==== Sys2Proof/Tests/Slice0.lean ====
section
/-!
SUPPORT. Tests/Slice0.lean: values worked out in the specification, commands on small states, ill-formed commands that
the check refuses, and for each statement with hypotheses a state that meets them.
-/
open Sys2Proof Sys2Proof.Machine

namespace Sys2Proof.Tests

set_option linter.unusedVariables false
set_option Elab.async false

/-- A tile in RUN, outside its fence, its slots VALID. -/
def tileRun : Tile := { seq := .run, fenced := false, fenceReq := false, hot := Vector.replicate 16 .valid }

/-- A device in which partition 0 owns tiles 0 and 1; `t` is tile 0 and `bs` its active context (offset, byte). -/
def one (bs : List (Nat × Nat)) (t : Tile := tileRun) : State :=
  { tileMap := [(0, { logical := 0, owner := 0 }), (1, { logical := 1, owner := 0 })]
    tiles := [(0, t), (1, tileRun)]
    mem := { cells := ((7, 1) :: bs).foldl (fun m b => tput m (ctxBase 0 0 + b.1) (BitVec.ofNat 8 b.2)) [] } }

/-- `one` with a word at the register of the western input 12 of tile 0. -/
def fed (bs : List (Nat × Nat)) (w : LinkWord := { data := 5 }) (t : Tile := tileRun) : State :=
  { one bs t with links := [(12, { held := [w], spent := 1 })] }

/-- `fed`, with ALU_0 of tile 0 taking operand A from that input and B from IMM, its OP `op`. -/
def fedAlu (op : Nat) (w : LinkWord := { data := 5 }) (t : Tile := tileRun) : State :=
  fed [(8 + 20, 14), (0x30 + 6, 0x20), (0x30 + 7, 4 * op), (0x30 + 8, 3)] w t

/-- `fed`, with port P_0 of tile 0 taking its address from that input and zero data, in mode `mode`, with one access. -/
def fedPort (mode : Nat) (t : Tile := tileRun) : State :=
  fed [(8 + 32, 14), (8 + 34, 1), (0x61, 0x20), (0x67, 32 * mode)] { data := 5 } t

/-- `one` with MAC_0 of tile 0 enabled and an instruction (bytes 0, 2 and 3) at its PC. -/
def mac (b3 : Nat) (b0 : Nat := 0) (b2 : Nat := 0) : State := one [(0x3A0, 1), (0xA0, b0), (0xA2, b2), (0xA3, b3)]

/-- Controls of an ALU with IMM as operand B. -/
def aluOf (op : Nat) (sgn : Bool) : AluCtl := { imm := 3, op := op, cond := 0, sgn := sgn, bsrc := true, lsel := false }

/-- Tile 0 with a dequeue endpoint. -/
def deqTile (d : Deq) : Tile := { tileRun with deq := tileRun.deq.set 0 d }

/-- A ring of eight words in bank 0. -/
def ring : Deq := { geom := { kind := 1, size := 8 } }

/-- Partition 0 owns bank region 0 of a device with 16 GB of DRAM. -/
def banked (s : State) : State := { s with mem := { s.mem with capacity := 2 ^ 34, ctl := [(0, { owner := [(0, 0)] })] } }

/-- A task of partition 0 in sector 0. -/
def task0 (state : TaskState) : Task := { st := { ctrl := 0, eligible := 1 }, state := state }

/-- What the start of a fold has and every step over the list preserves, the fold has. -/
theorem fold_preserves {σ ι : Type} {go : σ → ι → σ} {Has : σ → Prop} (xs : List ι) (start : σ) (h0 : Has start)
    (keep : ∀ s, Has s → ∀ i ∈ xs, Has (go s i)) : Has (xs.foldl go start) := List.foldlRecOn xs go h0 keep

/-- A fold whose steps all leave the start alone ends at the start. -/
theorem fold_stays {σ ι : Type} (go : σ → ι → σ) (start : σ) (same : ∀ i, go start i = start) (xs : List ι) :
    xs.foldl go start = start := fold_preserves (Has := (· = start)) xs start rfl fun _ hs i _ => hs ▸ same i

/-- A frame of zeros has its CRC. -/
theorem frameCrcOk_empty (m : Memory) (h : m.cells = []) (p f : Nat) : m.frameCrcOk p f = true := by
  have hr (a : Nat) : m.raw a = 0 := by simp only [Memory.raw, Memory.byte, h, tget]; decide
  simp only [Memory.frameCrcOk, hr]
  rw [fold_stays (fun c _ => crcWord c 0) 0 (fun _ => by decide +kernel)]
  rfl

/-- Copying zeros over zeros. -/
theorem copyFrame_empty (s : State) (h : s.mem.cells = []) (h' : s.mem.syn = []) (ht : s.mem.trackers = []) (p c d : Nat) :
    s.copyFrame p c d = (false, s) := by
  have hr (a : Nat) : State.readWord s a = (0, false, s) := by
    have : s.mem.read a = (0, .clean) := by
      simp only [Memory.read, Memory.raw, Memory.byte, Memory.synOf, h, h', tget]; decide
    simp only [State.readWord, this, Verdict.isPoison]
  have hw (a : Nat) : State.writeWord s a 0 false = s := by
    have : s.mem.write a 0 false = s.mem := by
      simp [Memory.write, Memory.setBytes, Memory.setByte, leBytes, List.range_succ, tset, h, h']
      cases hm : s.mem; simp_all
    have hs : s.setMem (s.mem.write a 0 false) = s := by rw [this]; cases s; rfl
    have he (g : Nat) : (s.tracker g).entries = [] := by simp [State.tracker, ht, tget]
    rw [State.writeWord, hs, State.trackWrite]
    simp only [he, List.any_nil, Bool.false_eq_true, if_false]
  exact fold_stays _ _ (fun i => by simp only [hr, hw, Bool.or_self]) _

/-- A running lane of partition 0 whose partner 0 speaks MLF, with stream 0. -/
def lineS (k : Lane) (x : Stream := {}) : State :=
  { one [] with lanes := [(0, k)], partners := [(0, 3 * 2 ^ 30)], streams := [(0, x)] }
/-- An UP lane: FEC none, PFC on, frames to 9,600 bytes, heartbeats. -/
def laneUp : Lane := { status := 5, ctrl := 0x00031000, partner := 0x80000000, aux := 0x25800100 }
/-- An MLF stream of partition 0, OPEN on lane 0 and edge port W_0_0: ingress, or egress. -/
def ingress : Stream := { ctrl := 0x20400000, path := 0x80400000, size := 0x00080008 }
def egress : Stream := { ctrl := 0x20C00000, path := 0x80400000 }
/-- A frame with an EtherType, an MLF byte and zeros. -/
def frame (t1 t0 b : Nat) (fcs : Bool := true) : RxFrame :=
  { bytes := List.replicate 12 0 ++ [BitVec.ofNat 8 t1, BitVec.ofNat 8 t0, BitVec.ofNat 8 b] ++ List.replicate 45 0, cut := false, fcs := fcs, sec := none }
/-- An MLF frame with this header and payload. -/
def mlfOf (h : MlfHeader) (payload : List Byte := [1, 2, 3, 4]) : RxFrame :=
  { bytes := padTo 60 (List.replicate 12 0 ++ [0x88, 0xB5] ++ h.bytes ++ payload), cut := false, fcs := true, sec := none }
/-- Its header, for stream 0. -/
def mlfHead (type : Nat) (len : Nat := 4) (version : Nat := 1) : MlfHeader :=
  { version := version, type := type, crv := false, rsp := false, stream := 0, seq := 0, crStream := 0, crTotal := 0, len := len }
/-- A MAC control frame with this opcode; `dst` is the last byte of its destination. -/
def macFrame (op : Nat) (dst : Byte := 1) : RxFrame :=
  { frame 0 0 0 with bytes := [1, 0x80, 0xC2, 0, 0, dst] ++ List.replicate 6 0 ++ [0x88, 8, BitVec.ofNat 8 (op / 256), BitVec.ofNat 8 op] ++ List.replicate 44 0 }
/-- `lineS` with a plain partner and rule 0, whose first word is `w` beside its valid bit. -/
def plainS (w : Nat := 0) (k : Lane := laneUp) : State :=
  { lineS k ingress with partners := [(0, 2 ^ 31)], rules := [(0, BitVec.ofNat 32 (2 ^ 31 + w))] }
/-- The state that an answered Carafe request leaves. -/
def leaves {α : Type} (o : Option (Packet × Option α × State)) : State :=
  match o with
  | some x => x.2.2
  | none => State.reset
/-- `lineS` with an answered request of stream 0's Carafe, whose oldest position is at stage `stage` with `left` to come. -/
def carafed (stage left : Nat) (p : Purpose) : State :=
  { lineS laneUp { ingress with far := [{ stage := stage, left := left, cell := some 0 }] } with mesh := { answered := [{ purpose := p }] } }

/-- An outcome is a next state when evaluation says so. -/
theorem next_of {o : Host.Outcome State Fault Refusal} {t : State}
    (h : (match o with | .next u => decide (u = t) | _ => false) = true) : o = .next t := by
  cases o with
  | next u => simp only [decide_eq_true_eq] at h; rw [h]
  | fault => cases h
  | refused => cases h

/-- A request from outside to tile 0. -/
def reqTo (addr : BitVec 48) (data : List Byte) (q : Recip := 0) : MeshReq :=
  { part := q, addr := addr, len := 4, data := data, poison := 0, tag := 0, epoch := 0, src := 0, sub := 0, secure := false }
/-- Host port 0 is there and trains, and its queue 0 is of partition 0. -/
def hostS (q : Queue) : State :=
  { State.reset with boot := { shell := { width := 0 }, held := false, ready := true }, ports := [(0, { training := true })]
                     queues := [(0, { q with owner := 0, sqSize := 4, cqSize := 4 })] }
/-- The state an outcome answers. -/
def after (o : Host.Outcome State Fault Refusal) : State :=
  match o with
  | .next t => t
  | _ => State.reset
/-- Router 0 holds a one-flit packet at input 0, on a virtual channel of the system partition. -/
def meshS (b : VcBuf) : State := { State.reset with mesh := { vc := [(vcKey 0 0 32, b)] } }
/-- DRAM controller 0 alone, READY unless told otherwise. -/
def dramS (k : DramCtl) : State := { State.reset with mem := { ctl := [(0, k)] } }
/-- The system partition's read of the first line of DRAM. -/
def readReq : DramReq := { pkt := { opc := 1, addr := dramBase, len := 64 }, line := dramBase }
/-- It waits at a sealed region of the system's, its controller being at a metadata slot. -/
def sealedS : State :=
  { State.reset with
    mem := { capacity := 2 ^ 34, ctl := [(0, { state := 2, slotPos := 7, owner := [(0, 0x8000001F)], queue := [(16, [readReq])] })] } }
/-- The device is READY, outside reset. -/
def ready : Boot := { held := false, ready := true }
/-- A state in which an in-band command frame of one command has come. -/
def inband : State :=
  { lineS laneUp with partners := [(0, 3 * 2 ^ 30 + 2 ^ 25)], queues := [(65536, { owner := 0, sent := [{ status := 0, ident := 0, opcode := 0 }] })] }
def commandFrame : RxFrame :=
  { frame 0x88 0xB5 0 with bytes := List.replicate 12 0 ++ [0x88, 0xB5, 0x14] ++ List.replicate 12 0 ++ [68, 0, 0, 0, 1] ++ List.replicate 66 0 }

/-- A boot stage that goes well. -/
def stageIn : BootIn :=
  { fuses := true, selfTest := 0, badTiles := [], calW := true, calE := true, flash := true, profile := true, slot := true, vpp := true, readback := true, firmware := true }

/-- Tile 0 of a created partition, with context 1 in its cache frame 16 and its golden copy named, whose fill unit has read that copy for a repair. -/
def goldS : State :=
  { State.reset with
    tileMap := [(0, { logical := 0, owner := 0 })]
    tiles := [(0, { frameId := [(16, some 1)], fill := some { cache := some 16, who := .percolator, ctxId := 1, words := [3] } })]
    parts := [(0, { state := 1, pers := [(1, some { ctxs := [(0, 16, 1, 0)] })] })]
    mem := { cells := [⟨ctxBase 0 16 + 1020, 1⟩], ctl := [(0, { owner := [(0, 0)] })], capacity := 2 ^ 34 }
    perc := { repairs := [0] } }
/-- The CRC of words of zero is zero. -/
theorem crc_zeros (n : Nat) : (List.replicate n (0 : Word)).foldl crcWord 0 = 0 := by
  induction n with
  | zero => rfl
  | succ n ih => rw [List.replicate_succ, List.foldl_cons, show crcWord 0 0 = 0 from by decide +kernel, ih]

/-- A frame of words of zero whose CRC word is not zero is upset. -/
theorem frame_upset (m : Memory) (p f : Nat) (h : ∀ i ∈ List.range 255, m.raw (ctxBase p f + 4 * i) = 0)
    (hc : m.raw (ctxBase p f + 1020) ≠ 0) : m.frameCrcOk p f = false := by
  have hl : (List.range 255).map (fun i => m.raw (ctxBase p f + 4 * i)) = List.replicate 255 (0 : Word) :=
    (List.map_congr_left h).trans (List.map_const'.trans (by rw [List.length_range]))
  have h0 : (List.range 255).foldl (fun c i => crcWord c (m.raw (ctxBase p f + 4 * i))) (0 : Word) = 0 := by
    rw [← List.foldl_map (f := fun i => m.raw (ctxBase p f + 4 * i)) (g := crcWord), hl]
    exact crc_zeros 255
  simp only [Memory.frameCrcOk, h0]
  simpa using hc.symm

/-- A golden copy of zeros has its CRC. -/
theorem golden_zeros (ws : List Word) (h : ws = List.replicate 256 0) : goldenOk ws = true := by
  subst h
  simp only [goldenOk, List.take_replicate, crc_zeros]
  rfl

/-! ## Commands -/

/-- The parameter bytes 16 to 63 of a command, from fields (offset, bytes, value). -/
def params (fs : List (Nat × Nat × Nat)) : List Byte :=
  (List.range 48).map fun i => BitVec.ofNat 8 (fs.foldl (fun v f =>
    if f.1 ≤ 16 + i ∧ 16 + i < f.1 + f.2.1 then f.2.2 / 2 ^ (8 * (16 + i - f.1)) else v) 0)
/-- The first ten bytes of a command: opcode, flags, CID 0 and SEQ 1. -/
def head10 (op : Nat) (flags : Byte) : List Byte := [BitVec.ofNat 8 op, BitVec.ofNat 8 (op / 256), flags, 0, 0, 0, 1, 0, 0, 0]
/-- A command of recipient `r` without a MAC, from host queue 0. -/
def plain (r op : Nat) (fs : List (Nat × Nat × Nat)) : CmdRec :=
  { qid := 0, stamp := r, bytes := head10 op 0 ++ List.replicate 6 0 ++ params fs }
/-- Its MAC under the empty key. -/
def macOf (op : Nat) (fs : List (Nat × Nat × Nat)) : List Byte :=
  padTo 6 (Config.gmac [] (macIv 0 1 0) (head10 op 2 ++ leBytes 6 0 ++ params fs))
/-- A command with its MAC. -/
def sealed (r op : Nat) (fs : List (Nat × Nat × Nat)) : CmdRec :=
  { qid := 0, stamp := r, bytes := head10 op 2 ++ (List.range 6).map (fun i => (macOf op fs).getD i 0) ++ params fs }
/-- A ready device in a slice of `r`, whose session has empty keys, with a command of `r` waiting. -/
def cmdS (s : State) (r : Nat) (c : CmdRec) : State :=
  { s with boot := { s.boot with held := false, ready := true }, roles := [(r, { session := some {} })], slices := [(1, r)]
           sliceNow := #v[1, 0, 0, 0], buffers := [(r, [c])] }
/-- The same without a session. -/
def openS (s : State) (r : Nat) (c : CmdRec) : State := { cmdS s r c with roles := [] }
/-- A device in a slice of `r` with a started command. -/
def runS (s : State) (r : Nat) (x : Running) : State :=
  { s with slices := [(1, r)], sliceNow := #v[1, 0, 0, 0], running := [x] }

theorem macOf_length (op : Nat) (fs : List (Nat × Nat × Nat)) : (macOf op fs).length = 6 := by
  simp only [macOf, padTo, List.length_take, List.length_append, List.length_replicate]; omega
theorem range6_getD (l : List Byte) (h : l.length = 6) : (List.range 6).map (fun i => l.getD i 0) = l := by
  match l, h with
  | [a, b, c, d, e, f], _ => rfl
/-- A sealed command carries its MAC. -/
theorem sealed_macOk (r op : Nat) (fs : List (Nat × Nat × Nat)) : (sealed r op fs).macOk [] = true := by
  have h1 : (sealed r op fs).bytes.take 10 = head10 op 2 := rfl
  have h2 : (sealed r op fs).bytes.drop 16 = params fs := rfl
  have h3 : (sealed r op fs).sub 10 6 = macOf op fs := by
    refine Eq.trans ?_ (range6_getD _ (macOf_length op fs)); rfl
  have h4 : (sealed r op fs).seq = 1 := rfl
  have h5 : (sealed r op fs).qid = 0 := rfl
  simp only [CmdRec.macOk, h1, h2, h3, h4, h5, macOf, beq_self_eq_true]

/-- It authenticates where its role has the empty keys and its queue has seen no sequence number. -/
theorem authenticate_sealed {s : State} {r op : Nat} {fs : List (Nat × Nat × Nat)} (hr : s.role r = { session := some {} })
    (hl : (s.queue 0).last = 0) (hn : (s.queue 0).rseq = 0) : s.authenticate (sealed r op fs) = some true := by
  have hr' : s.role (sealed r op fs).stamp = { session := some {} } := hr
  have hq : s.queue (sealed r op fs).qid = s.queue 0 := rfl
  have hf : (sealed r op fs).flags.testBit 1 = true := by
    have : (sealed r op fs).flags = 2 := rfl
    rw [this]; rfl
  have hs : (sealed r op fs).seq = 1 := rfl
  simp only [State.authenticate, hf, hr', hq, hs, hl, hn, sealed_macOk]
  rfl

/-- The checks of a command that come before its own work, but for its MAC. -/
abbrev Checks (s : State) (r : Recip) (c : CmdRec) (op : Nat) : Prop :=
  c.opcode = op ∧ opcodeKnown op = true ∧ s.inSlice r = true ∧ s.hasSlice r = true ∧
    (s.running.filter fun x => x.cmd.stamp == r.val && x.cmd.opcode == op && x.wait != .payload && s.onCore x.cmd) = [] ∧
    s.boot.activate = false ∧ ¬(r.val < 16 ∧ (s.part r).state = 3) ∧ s.orderOk c = true ∧ c.roleOk = true ∧
    (c.flags < 4 ∧ c.num 3 1 = 0)
/-- No started command that has still to take effect names its object. -/
abbrev Unheld (s : State) (c : CmdRec) : Prop := (s.running.any fun x => x.wait.idle && x.cmd.conflicts c) = false
/-- A command alone in its buffer starts where every check passes. -/
theorem starts_of {s : State} {r : Recip} {op : Nat} {c : CmdRec} {auth : Bool}
    (h : s.buffer r = [c] ∧ s.boot.ready = true ∧ (s.setBuffer r []).authenticate c = some auth ∧ Checks s r c op) :
    s.Starts r c [] op auth := by
  constructor <;> simp only [h, not_false_eq_true, and_self]
/-- It is accepted where no other holds it back. -/
theorem accepts_of {s : State} {r : Recip} {op : Nat} {c : CmdRec} {auth : Bool}
    (h : (s.buffer r = [c] ∧ s.boot.ready = true ∧ (s.setBuffer r []).authenticate c = some auth ∧ Checks s r c op) ∧ Unheld s c) :
    s.Accepts r c [] op auth := ⟨starts_of h.1, h.2⟩
/-- A sealed command of an empty session authenticates, and starts where every other check passes. -/
theorem starts_sealed {s : State} {r : Recip} {op : Nat} {fs : List (Nat × Nat × Nat)}
    (h : let t := cmdS s r (sealed r op fs)
      ((t.queue 0).last = 0 ∧ (t.queue 0).rseq = 0) ∧ Checks t r (sealed r op fs) op) :
    (cmdS s r (sealed r op fs)).Starts r (sealed r op fs) [] op true := by
  have own {α : Type} (d x : α) : tget d [(r.val, x)] r.val = x := by simp [tget]
  exact starts_of ⟨own _ _, rfl,
    authenticate_sealed (s := (cmdS s r (sealed r op fs)).setBuffer r []) (own _ _) h.1.1 h.1.2, h.2⟩
/-- And it is accepted. -/
theorem accepts_sealed {s : State} {r : Recip} {op : Nat} {fs : List (Nat × Nat × Nat)}
    (h : let t := cmdS s r (sealed r op fs)
      (((t.queue 0).last = 0 ∧ (t.queue 0).rseq = 0) ∧ Checks t r (sealed r op fs) op) ∧ Unheld t (sealed r op fs)) :
    (cmdS s r (sealed r op fs)).Accepts r (sealed r op fs) [] op true := ⟨starts_sealed h.1, h.2⟩

/-- A started command resumes in a slice of its owner. -/
theorem waits_run {s : State} {r : Recip} {op : Nat} {c : CmdRec} {w : Wait}
    (h : (runS s r { cmd := c, wait := w }).onCore c = true ∧ c.stamp = r.val ∧ c.opcode = op ∧ (w == .payload) = false) :
    (runS s r { cmd := c, wait := w }).WaitsFor r { cmd := c, wait := w } op w := by
  obtain ⟨h1, h2, h3, h4⟩ := h
  refine ⟨⟨[], ?_⟩, rfl⟩
  have h1' : State.onCore { s with slices := [(1, r)], sliceNow := #v[1, 0, 0, 0], running := [{ cmd := c, wait := w }] } c = true := h1
  simp [runS, h2, h3, h1', bne, h4]
/-- From a progress, too. -/
theorem resumes_run {s : State} {r : Recip} {op : Nat} {c : CmdRec} {p : List Nat}
    (h : (runS s r { cmd := c, wait := .again p }).onCore c = true ∧ c.stamp = r.val ∧ c.opcode = op) :
    (runS s r { cmd := c, wait := .again p }).Resumes r { cmd := c, wait := .again p } op p :=
  waits_run ⟨h.1, h.2.1, h.2.2, rfl⟩
/-- Partition 0 exists, holds tiles 0 and 1, every block, two tags and a slot of router 0, and the personality `v` as its handle 7. -/
def partS (s : State := one []) (v : Option Pers := none) : State :=
  { s with
    parts := [(0, { state := 2, streams := 2 ^ 256 - 1, rules := 2 ^ 64 - 1, tasks := 2 ^ 256 - 1, sets := 2 ^ 64 - 1, timers := 2 ^ 128 - 1
                    pers := match v with
                      | some v => [(7, some v)]
                      | none => [] })]
    mesh := { routers := [(0, { slot := [(0, 0)] })], tagQuota := [(0, 2)] } }
/-- A device with 16 GB of DRAM that no partition owns. -/
def dramG : State := { State.reset with mem := { capacity := 2 ^ 34 } }
/-- A personality with one context on logical tile 0. -/
def persV : Pers := { version := 1, ctxs := [(0, 16, 1, 0)] }

/-! ## Reading a blank DRAM -/

/-- No line has been written and no region is sealed. -/
def Blank (s : State) : Prop := s.mem.lines = [] ∧ s.mem.ctl = []

/-- A blank line is read without poison, and nothing is recorded. -/
theorem lineRead_blank {s : State} (h : Blank s) (a : Nat) : (s.lineRead a).2 = (false, s) := by
  obtain ⟨hl, hc⟩ := h
  have hp (p : Place) : s.placeSealed p = false := by
    simp only [State.placeSealed, Memory.ctlOf, hc, tget, DramCtl.ownerReg]; decide
  simp [State.lineRead, hl, hp, tget, decodeLine, State.dramRead]

/-- Blank bytes carry no poison. -/
theorem dramBytes_blank {s : State} (h : Blank s) (a n : Nat) : (s.dramBytes a n).2 = s ∧ ∀ b ∈ (s.dramBytes a n).1, b.2 = false := by
  unfold State.dramBytes
  split
  · exact ⟨rfl, nofun⟩
  · have := fold_preserves (go := fun (x : List (Byte × Bool) × State) l =>
        (x.1 ++ (x.2.lineRead l).1.map fun b => (b, (x.2.lineRead l).2.1), (x.2.lineRead l).2.2))
      (Has := fun x => x.2 = s ∧ ∀ b ∈ x.1, b.2 = false) (linesOf a n) ([], s) ⟨rfl, nofun⟩ (by
        rintro ⟨bs, t⟩ ⟨rfl, hb⟩ l -
        have hr := lineRead_blank h l
        refine ⟨by simp [hr], ?_⟩
        intro b hm
        simp only [List.mem_append, List.mem_map] at hm
        rcases hm with hm | ⟨x, _, rfl⟩
        · exact hb b hm
        · simp [hr])
    refine ⟨this.1, fun b hb => this.2 b (List.mem_of_mem_drop (List.mem_of_mem_take hb))⟩

/-- A request that passes its checks leaves the state as it is. -/
theorem memCheck_none {s : State} {k : Packet} (h : (s.memCheck k).1 = none) : s.memCheck k = (none, s) := by
  have key (w : Nat) : (if w = 2 then (some stWrongPartition, s.holeAccess k.addr) else if w = 1 then (some stWrongPartition, s)
      else if (k.opc ≠ 3 ∧ k.crosses) ∨ (k.opc = 3 ∧ s.atomBad k) then (some stBadLength, s) else (none, s)).1 = none →
      (if w = 2 then (some stWrongPartition, s.holeAccess k.addr) else if w = 1 then (some stWrongPartition, s)
      else if (k.opc ≠ 3 ∧ k.crosses) ∨ (k.opc = 3 ∧ s.atomBad k) then (some stBadLength, s) else (none, s)) = (none, s) := by
    intro h
    by_cases h2 : w = 2
    · simp [h2] at h
    by_cases h1 : w = 1
    · simp [h1] at h
    by_cases h0 : (k.opc ≠ 3 ∧ k.crosses) ∨ (k.opc = 3 ∧ s.atomBad k)
    · rw [if_neg h2, if_neg h1, if_pos h0] at h; cases h
    rw [if_neg h2, if_neg h1, if_neg h0]
  unfold State.memCheck at h ⊢
  by_cases hu : k.unknown = true
  · simp [hu] at h
  · dsimp only at h ⊢
    rw [if_neg hu] at h ⊢
    exact key _ h

/-- A read of a blank range that passes its checks answers OK, free of poison. -/
theorem readRange_blank {s : State} (hs : Blank s) (r a n : Nat)
    (h : ∀ p ∈ piecesOf a n, s.deviceOf r p.1 p.2 false = some p.1 ∧ areaOf (p.1 % 2 ^ 44) = .dram ∧
      (s.memCheck { part := r, opc := 1, addr := p.1, len := p.2 }).1 = none) :
    (s.readRange r a n).status = stOk ∧ (s.readRange r a n).poison = none ∧ (s.readRange r a n).s = s := by
  have : (s.readRange r a n).status = stOk ∧ (s.readRange r a n).poison = none ∧ (s.readRange r a n).s = s := by
    refine fold_preserves (Has := fun m : Moved => m.status = stOk ∧ m.poison = none ∧ m.s = s) _ _ ⟨rfl, rfl, rfl⟩ ?_
    rintro ⟨d, st, data, po, t⟩ ⟨h1, h2, h3⟩ p hp
    obtain ⟨hd, ha, hc⟩ := h p hp
    dsimp only at h1 h2 h3
    subst h1 h2 h3
    have hb := dramBytes_blank hs (p.1 % 2 ^ 44) p.2
    have hm : flitMask p.2 (fun i => ((t.dramBytes (p.1 % 2 ^ 44) p.2).1.getD i (0, false)).2) = 0 := by
      unfold flitMask
      refine fold_preserves (Has := fun m : Nat => m = 0) _ _ rfl ?_
      intro m hm f _
      rw [if_neg, hm]
      simp only [List.any_eq_true, Bool.and_eq_true, not_exists, not_and]
      rintro k _ _ h
      have : ((t.dramBytes (p.1 % 2 ^ 44) p.2).1.getD k (0, false)).2 = false := by
        rw [List.getD_eq_getElem?_getD]
        cases hg : (t.dramBytes (p.1 % 2 ^ 44) p.2).1[k]? with
        | none => rfl
        | some v => exact hb.2 v (List.mem_of_getElem? hg)
      exact absurd (this.symm.trans h) (by simp)
    have hv : t.serve r 1 p.1 p.2 [] = (stOk, (t.dramBytes (p.1 % 2 ^ 44) p.2).1.map (·.1), 0, t) := by
      unfold State.serve
      simp only [ha, State.memServe, memCheck_none hc, State.dramServe, if_true, hm, hb.1]
    have hf : ((List.range p.2).find? fun i => Nat.testBit 0 (flitOf i)) = none := by simp
    simp only [ne_eq, not_true_eq_false, if_false, hd, hv, hf, false_and]
    simp
  exact this

/-! ## The specification's own worked values -/

/-- R39 example: physical tile (0, 4) lies in SEC_2 with i = 0 and is logical tile 62 after reset. -/
theorem test_tile_0_4_is_logical_62 : sectorOf 64 = 2 ∧ indexOf 64 = 0 ∧ (State.reset.tm 64).logical = 62 := by decide +kernel
/-- R92 example: E_k of home (14, 3) reaches EDGE_E_3_k, and N_k of (15, 2) joins S_k of (15, 4), by a boundary queue. -/
theorem test_links_pass_the_spare_home :
    outLink (16 * 3 + 14) 4 = some (edgeOut 1 3 0) ∧ (outLink (16 * 2 + 15) 0).map (fun l => (linkReceiver l, linkBoundary l)) = some (some 79, true) := by
  decide +kernel
/-- R303, R304 example: data 0x8000_0001 has check bits 0x65, and a flip of bit 31 is the syndrome 0x62. -/
theorem test_secded_example :
    checkBits 0x80000001 = 0x65 ∧ decodeWord 0x00000001 0x62 = (0x80000001, .corrected) ∧ decodeWord 0x80000001 0x7F = (0x80000001, .poisoned) := by
  decide +kernel
/-- R64: GFMUL reduces modulo 0x11D with IMM 0x1D: 0x80 times 2 is 0x1D. -/
theorem test_gfmul_reduces : gfMul 0x1D 0x80 0x02 = 0x1D := by decide +kernel
/-- R103 example: the header of a context with FORMAT 1, CTX_ID 0x0042 and count source DEQ_0. -/
theorem test_context_header :
    let s := one [(5, 0x42), (4, 0x80)]
    s.mem.ctxId 0 0 = 0x0042 ∧ s.countSrc 0 = 32 ∧ s.countLast 0 = false ∧ s.format 0 = 1 := by decide +kernel
/-- Table 04-10: the 513th addition of P wraps ACC to 0x80_3DFF_0201 with WC +1, and taking P off again brings both back. -/
theorem test_sum_wraps_and_returns :
    let v := ({ acc := 0x7FFE000200 } : AccView).step false 0x3FFF0001
    v.acc = 0x803DFF0201 ∧ v.wc = 1 ∧ v.step false (-0x3FFF0001) = { acc := 0x7FFE000200 } := by decide +kernel
/-- Table 04-10: 100 P stored with K = 24 is 0x1900, and a nonzero WC stores the bound. -/
theorem test_store_rounds_and_clamps :
    ({ acc := 0x18FF9C0064 } : AccView).store 32 24 = (0x1900, false) ∧ ({ wc := 1 } : AccView).store 32 24 = (0x7FFFFFFF, true) := by
  decide +kernel
/-- Table 04-20: 0x409E_0002 is SETP of OF_0 with value 2 in all four slices, and 0x6010_0004 is REPT of 1 by 4. -/
theorem test_compressor_program_words :
    miOp 0x409E0002 = 16 ∧ miSetMask 0x409E0002 = 15 ∧ miValue 0x409E0002 = 2 ∧ miLen 0x60100004 = 1 ∧ miCount 0x60100004 = 4 := by
  decide +kernel
/-- Table 07-13: the header of the egress frame of the walk. -/
theorem test_mlf_header_example :
    mlfHeader [0x11, 0x80, 0x01, 0x13, 0, 0, 0x0A, 0x5C, 0x01, 0x14, 0x3E, 0x08, 0x06, 0x04, 0, 0]
      = { version := 1, type := 1, crv := true, rsp := false, stream := 0x113, seq := 0xA5C, crStream := 0x114, crTotal := 0x3E08, len := 1540 }
    ∧ cellCount 1540 = 7 := by decide +kernel
/-- The same fields written out again are the same bytes. -/
theorem test_mlf_header_bytes :
    (mlfHeader [0x11, 0x80, 0x01, 0x13, 0, 0, 0x0A, 0x5C, 0x01, 0x14, 0x3E, 0x08, 0x06, 0x04, 0, 0]).bytes
      = [0x11, 0x80, 0x01, 0x13, 0, 0, 0x0A, 0x5C, 0x01, 0x14, 0x3E, 0x08, 0x06, 0x04, 0, 0] := by decide +kernel
/-- R318 example: TTURN 4 and TRC 8 make F = 273, and the refresh rule holds for ROWS 8,192 and TREF 64,000. -/
theorem test_dram_description_example :
    let d : List Byte := [1, 3, 2, 0, 12, 10, 8, 4, 0, 0x20, 0, 0, 0, 0xFA, 0, 0, 0, 0] ++ List.replicate 14 0
    descFrame d = 273 ∧ descStatus d = stOk := by decide +kernel
/-- The first ten bytes of the command of the worked example of command transport, and of its reply. -/
theorem test_command_and_reply_example :
    let c : CmdRec := { qid := 0x1005, stamp := 3, bytes := [1, 0, 2, 0, 0x2A, 0, 3, 1, 0, 0] ++ List.replicate 54 0 }
    c.opcode = 1 ∧ c.cid = 0x2A ∧ c.seq = 0x103 ∧ c.flags.testBit 1 = true
    ∧ (({ status := 0, ident := 0x2A, opcode := 1, key := some [] } : Reply).packet 0x1005 1 6).take 10 = [0, 0, 0x2A, 0, 1, 0, 5, 0, 6, 0] := by
  decide +kernel
/-- The STREAM_OPEN of the example after R384, bytes 16 to 35, and the registers it gives the stream. -/
theorem test_stream_open_example :
    let c : CmdRec := { qid := 0, stamp := 3, bytes := [1, 5, 2, 0, 0x31, 0, 0, 2, 0, 0] ++ List.replicate 6 0
      ++ [0x21, 0x0A, 0, 1, 0x22, 0x0C, 0x25, 0, 0, 2, 0, 1, 1, 0, 0, 0, 0x10, 0, 0, 0] ++ List.replicate 28 0 }
    let x := c.openStream true 0
    c.num 16 2 = 0x0A21 ∧ x.egress = false ∧ x.ep = true ∧ x.side = 0 ∧ x.row = 2 ∧ x.kmask = 2 ∧ x.lane = 12 ∧ x.partner = 37
    ∧ x.ring = 512 ∧ x.credLimit = 256 ∧ x.sigCells = 1 ∧ x.taskNo = 16 ∧ x.flag = 0 ∧ x.owner = 3 ∧ x.state = 1 := by decide +kernel
/-- Table 15-5: 1,200 MHz runs at 770 mV. -/
theorem test_supply_at_1200 : supplyAt 1200 = 770 := by decide +kernel

/-! ## Commands on small states -/

/-- R63: ADD wraps and ADDS clamps. -/
theorem test_alu_add : (aluEval (aluOf 2 true) 0x7FFFFFFF 3).res = 0x80000002 ∧ (aluEval (aluOf 4 true) 0x7FFFFFFF 3).res = 0x7FFFFFFF := by
  decide +kernel
/-- R59: a word at a link input without consumers stays where it is. -/
theorem test_unselected_word_stays : (execCrossbarWordMove 0 14 (fed [])) = .next (fed []) := next_of (by decide +kernel)
/-- A word that a through route selects leaves the input for the next link. -/
theorem test_selected_word_moves : ((after (execCrossbarWordMove 0 14 (fed [(8 + 13, 14)]))).link 12).held = [] := by decide +kernel
/-- R526 to R530: the test port's reset selects IDCODE. -/
theorem test_tap_resets_to_idcode : (after (execTapReset State.reset)).tap.instr = .idcode := by decide +kernel
/-- An empty queue is one tick of the clocks: the global slot counts (R288). -/
theorem test_idle_counts_a_slot : (after (step State.reset)).mesh.slotCount = State.reset.mesh.slotCount + 1 := by decide +kernel
/-- The front command runs and leaves the queue. -/
theorem test_step_takes_the_front :
    (after (step { State.reset with pending := [.linkWordArrive 20, .linkWordArrive 21] })).pending = [.linkWordArrive 21] := by decide +kernel
/-- The table gives no row any bits: no word spells a command, and the machine stays as it is. -/
theorem test_no_word_spells_a_command : decodeTableWord 32 0 = none ∧ State.reset.withFetchWord 32 0 = State.reset := by
  exact ⟨rfl, rfl⟩
/-- The memories after reset hold nothing and are in their form. -/
theorem test_reset_memory : State.reset.mem.wf = true ∧ State.reset.pending = [] := by decide +kernel

/-! ## Ill-formed commands -/

/-- A read of 257 bytes, and a read with data. -/
theorem test_wf_read : Instr.wf (.meshRd { reqTo 0 [] with len := 257 }) = false ∧ Instr.wf (.meshRd (reqTo 0 [1])) = false := by decide +kernel
/-- A write whose length is not that of its data, and one of more than 256 bytes. -/
theorem test_wf_write :
    Instr.wf (.meshWr (reqTo 0 [1]) []) = false ∧ Instr.wf (.meshWr { reqTo 0 (List.replicate 257 0) with len := 257 } []) = false := by
  decide +kernel
/-- An alias write outside its alias. -/
theorem test_wf_alias :
    Instr.wf (.aliasBitSet (reqTo 0 [0, 0, 0, 0])) = false ∧ Instr.wf (.aliasBitClear (reqTo (2 ^ 44) [0, 0, 0, 0])) = false := by decide +kernel
/-- Atomic operations without their data. -/
theorem test_wf_atom : ([Instr.atomSwap, .atomCas, .atomFadd, .atomFor, .atomFand, .atomFxor, .atomUmin, .atomUmax].any
    fun f => (f (reqTo 0 [])).wf) = false := by decide +kernel
/-- A steal that is neither a read nor a write, and an event whose length is wrong. -/
theorem test_wf_steal_event : Instr.wf (.tapSteal 0 0 (reqTo 0 [1])) = false ∧ Instr.wf (.meshEvt (reqTo 0 [1])) = false := by decide +kernel
/-- A register write at an address that is no multiple of four. -/
theorem test_wf_register : Instr.wf (.registerWrite none 2 0) = false := by decide +kernel
/-- A block of more than 255 bytes, and a completion of more than 4,096. -/
theorem test_wf_lengths :
    Instr.wf (.smbusCommandWrite 0 (List.replicate 256 0) true) = false
    ∧ Instr.wf (.hostReadCompletion 0 0 (List.replicate 4097 0) false) = false := by decide +kernel
/-- A power update without its eight sectors, and temperatures without their eleven sensors. -/
theorem test_wf_sensors : Instr.wf (.powerCapUpdate 0 []) = false ∧ Instr.wf (.thermalUpdate []) = false := by decide +kernel
/-- A flash image past the end of the flash, and upsets of bits that are not there. -/
theorem test_wf_board_upset :
    Instr.wf (.resetRelease { rails := true, rstN := true, testEn := false, smb := 0, flash := [(0xFFFFFFFF, [0, 0])] }) = false
    ∧ Instr.wf (.upset (.sram 0 39)) = false ∧ Instr.wf (.upset (.dram 0 576)) = false ∧ Instr.wf (.upset (.latch 3 0)) = false := by
  decide +kernel

/-! ## States that meet the hypotheses of the statements -/

theorem witness_IdleStepCountsOneCycle :
    ∃ s : State, (s.pending = []) :=
  ⟨State.reset, by decide +kernel⟩

theorem witness_MemoryStaysCanonical :
    ∃ s t : State, (s.mem.wf = true) ∧ (step s = .next t) :=
  ⟨State.reset, State.reset.tick, by first | decide +kernel | exact ⟨by decide +kernel, rfl⟩⟩

theorem witness_BlownFusesStayBlown :
    ∃ (f : Fuses) (s t : State), (f.keptIn s.fuses) ∧ (step s = .next t) :=
  ⟨{}, State.reset, State.reset.tick, ⟨⟨Nat.le_refl 0, Nat.le_refl 0, fun _ h => absurd rfl h⟩, rfl⟩⟩

theorem witness_SecdedCorrectsOneBitAndReportsTwo :
    (∃ d : Word, ∃ b, (b < 32)) ∧
    (∃ d : Word, ∃ j, (32 ≤ j) ∧ (j < 39)) ∧
    (∃ d : Word, ∃ (x : Word) (b c : Nat), (b < c) ∧ (c < 39)) ∧
    (∃ (d : Word) (b : Nat), (b < 32)) :=
  ⟨⟨5, 31, by decide +kernel⟩,
   ⟨5, 38, by decide +kernel⟩,
   ⟨5, 5, 0, 38, by decide +kernel⟩,
   ⟨5, 0, by decide +kernel⟩⟩

theorem witness_SramReadsBackWhatWasWritten :
    ∃ a b : Nat, a % 4 = 0 ∧ b % 4 = 0 ∧ b ≠ a :=
  ⟨0, 4, by decide⟩

theorem witness_WordsMoveOverLinksInOrder :
    (∃ (s : State) (p : TileIx) (c : BitVec 6) (src units : List Nat), (s.closure p 14 [c.toNat] [] = (src, units)) ∧ (s.jointOk p src units = true)) ∧
    (∃ (s : State) (p : TileIx) (c : BitVec 6) (src units : List Nat), (s.closure p 14 [c.toNat] [] = (src, units)) ∧ (s.jointOk p src units = false)) ∧
    (∃ (s : State) (l : LinkIx), ∃ w r, ((s.link l).flight = w :: r) ∧ ((linkBoundary l = false))) ∧
    (∃ (s : State) (l : LinkIx), ∃ w r, ((s.link l).flight = w :: r) ∧ ((linkBoundary l = true))) ∧
    (∃ (s : State) (l : LinkIx), (0 < (s.link l).credBack) ∧ (s.linkFenced l = false) ∧ ((linkBoundary l = false))) ∧
    (∃ (s : State) (l : LinkIx), (0 < (s.link l).credBack) ∧ (linkBoundary l = true)) :=
  ⟨⟨fed [(8 + 13, 14)], 0, 14, [14], [], by decide +kernel⟩,
   ⟨one [(8 + 13, 14)], 0, 14, [14], [], by decide +kernel⟩,
   ⟨{ State.reset with links := [(20, { flight := [{}], spent := 1 })] }, 20, {}, [], by first | decide +kernel | (dsimp only; decide +kernel), by first | decide +kernel | (dsimp only; decide +kernel)⟩,
   ⟨{ State.reset with links := [(12, { flight := [{}], spent := 1 })] }, 12, {}, [], by first | decide +kernel | (dsimp only; decide +kernel), by first | decide +kernel | (dsimp only; decide +kernel)⟩,
   ⟨{ one [] with links := [(32, { credBack := 1, spent := 1 })] }, 32, by first | decide +kernel | (dsimp only; decide +kernel), by first | decide +kernel | (dsimp only; decide +kernel), by first | decide +kernel | (dsimp only; decide +kernel)⟩,
   ⟨{ State.reset with links := [(12, { credBack := 1, spent := 1 })] }, 12, by first | decide +kernel | (dsimp only; decide +kernel), by first | decide +kernel | (dsimp only; decide +kernel)⟩⟩

theorem witness_LinkToLinkMove :
    ∃ (s : State) (p : TileIx) (i j h l : Nat) (w : LinkWord) (r : List LinkWord), (i < 20) ∧ (j < 20) ∧ (s.homeOf p = some h) ∧ ((s.link (linkId h i)).held = w :: r) ∧ (s.linkFenced (linkId h i) = false) ∧ (s.sel p j = i + 2) ∧ (outLink h j = some l) ∧ (l ≠ linkId h i) ∧ (∀ j', j' < 20 → j' ≠ j → s.sel p j' ≠ i + 2) ∧ (s.countSrc p ≠ i + 2) ∧ (s.closure p 14 [i + 2] [] = ([i + 2], [])) ∧ (s.jointOk p [i + 2] [] = true) :=
  ⟨fed [(8 + 13, 14)], 0, 12, 13, 0, 5121, { data := 5 }, [], by decide +kernel⟩

theorem witness_AlusIssueAndDeliver :
    (∃ (s : State) (p : TileIx) (n : Fin 4) (src units : List Nat), (s.closure p 14 [] [n.val] = (src, units)) ∧ ((s.aluCtl p n).op = 0)) ∧
    (∃ (s : State) (p : TileIx) (n : Fin 4) (src units : List Nat), (s.closure p 14 [] [n.val] = (src, units)) ∧ ((s.aluCtl p n).reserved = true) ∧ ((s.tile p).seq = .run) ∧ (s.moving p = true)) ∧
    (∃ (s : State) (p : TileIx) (n : Fin 4) (src units : List Nat), (s.closure p 14 [] [n.val] = (src, units)) ∧ (s.jointOk p src units = true) ∧ ((s.aluCtl p n).opActs = 0x01)) ∧
    (∃ (s : State) (p : TileIx) (n : Fin 4) (src units : List Nat), (s.closure p 14 [] [n.val] = (src, units)) ∧ (s.jointOk p src units = true) ∧ ((s.aluCtl p n).opActs = 0x02)) ∧
    (∃ (s : State) (p : TileIx) (n : Fin 4) (src units : List Nat), (s.closure p 14 [] [n.val] = (src, units)) ∧ (s.jointOk p src units = true) ∧ ((s.aluCtl p n).opActs = 0x03)) ∧
    (∃ (s : State) (p : TileIx) (n : Fin 4) (src units : List Nat), (s.closure p 14 [] [n.val] = (src, units)) ∧ (s.jointOk p src units = true) ∧ ((s.aluCtl p n).opActs = 0x04)) ∧
    (∃ (s : State) (p : TileIx) (n : Fin 4) (src units : List Nat), (s.closure p 14 [] [n.val] = (src, units)) ∧ (s.jointOk p src units = true) ∧ ((s.aluCtl p n).opActs = 0x05)) ∧
    (∃ (s : State) (p : TileIx) (n : Fin 4) (src units : List Nat), (s.closure p 14 [] [n.val] = (src, units)) ∧ (s.jointOk p src units = true) ∧ ((s.aluCtl p n).opActs = 0x06)) ∧
    (∃ (s : State) (p : TileIx) (n : Fin 4) (src units : List Nat), (s.closure p 14 [] [n.val] = (src, units)) ∧ (s.jointOk p src units = true) ∧ ((s.aluCtl p n).opActs = 0x07)) ∧
    (∃ (s : State) (p : TileIx) (n : Fin 4) (src units : List Nat), (s.closure p 14 [] [n.val] = (src, units)) ∧ (s.jointOk p src units = true) ∧ ((s.aluCtl p n).opActs = 0x08)) ∧
    (∃ (s : State) (p : TileIx) (n : Fin 4) (src units : List Nat), (s.closure p 14 [] [n.val] = (src, units)) ∧ (s.jointOk p src units = true) ∧ ((s.aluCtl p n).opActs = 0x09)) ∧
    (∃ (s : State) (p : TileIx) (n : Fin 4) (src units : List Nat), (s.closure p 14 [] [n.val] = (src, units)) ∧ (s.jointOk p src units = true) ∧ ((s.aluCtl p n).opActs = 0x10)) ∧
    (∃ (s : State) (p : TileIx) (n : Fin 4) (src units : List Nat), (s.closure p 14 [] [n.val] = (src, units)) ∧ (s.jointOk p src units = true) ∧ ((s.aluCtl p n).opActs = 0x11)) ∧
    (∃ (s : State) (p : TileIx) (n : Fin 4) (src units : List Nat), (s.closure p 14 [] [n.val] = (src, units)) ∧ (s.jointOk p src units = true) ∧ ((s.aluCtl p n).opActs = 0x12)) ∧
    (∃ (s : State) (p : TileIx) (n : Fin 4) (src units : List Nat), (s.closure p 14 [] [n.val] = (src, units)) ∧ (s.jointOk p src units = true) ∧ ((s.aluCtl p n).opActs = 0x13)) ∧
    (∃ (s : State) (p : TileIx) (n : Fin 4) (src units : List Nat), (s.closure p 14 [] [n.val] = (src, units)) ∧ (s.jointOk p src units = true) ∧ ((s.aluCtl p n).opActs = 0x18)) ∧
    (∃ (s : State) (p : TileIx) (n : Fin 4) (src units : List Nat), (s.closure p 14 [] [n.val] = (src, units)) ∧ (s.jointOk p src units = true) ∧ ((s.aluCtl p n).opActs = 0x19)) ∧
    (∃ (s : State) (p : TileIx) (n : Fin 4) (src units : List Nat), (s.closure p 14 [] [n.val] = (src, units)) ∧ (s.jointOk p src units = true) ∧ ((s.aluCtl p n).opActs = 0x1A)) ∧
    (∃ (s : State) (p : TileIx) (n : Fin 4) (src units : List Nat), (s.closure p 14 [] [n.val] = (src, units)) ∧ (s.jointOk p src units = true) ∧ ((s.aluCtl p n).opActs = 0x1B)) ∧
    (∃ (s : State) (p : TileIx) (n : Fin 4) (src units : List Nat), (s.closure p 14 [] [n.val] = (src, units)) ∧ (s.jointOk p src units = true) ∧ ((s.aluCtl p n).opActs = 0x20)) ∧
    (∃ (s : State) (p : TileIx) (n : Fin 4) (src units : List Nat), (s.closure p 14 [] [n.val] = (src, units)) ∧ (s.jointOk p src units = true) ∧ ((s.aluCtl p n).opActs = 0x21)) ∧
    (∃ (s : State) (p : TileIx) (n : Fin 4) (src units : List Nat), (s.closure p 14 [] [n.val] = (src, units)) ∧ (s.jointOk p src units = true) ∧ ((s.aluCtl p n).opActs = 0x22)) ∧
    (∃ (s : State) (p : TileIx) (n : Fin 4) (src units : List Nat), (s.closure p 14 [] [n.val] = (src, units)) ∧ (s.jointOk p src units = true) ∧ ((s.aluCtl p n).opActs = 0x23)) ∧
    (∃ (s : State) (p : TileIx) (n : Fin 4) (src units : List Nat), (s.closure p 14 [] [n.val] = (src, units)) ∧ (s.jointOk p src units = true) ∧ ((s.aluCtl p n).opActs = 0x24)) ∧
    (∃ (s : State) (p : TileIx) (n : Fin 4), (s.runs p = true) ∧ (let a := (s.tile p).alu[n]; (a.append = true) ∧ (a.flight.length < 2))) ∧
    (∃ (s : State) (p : TileIx) (n : Fin 4), (s.runs p = true) ∧ (let a := (s.tile p).alu[n]; ∃ w r, (a.flight = w :: r) ∧ (a.result = none))) :=
  ⟨⟨one [], 0, 0, [], [0], by decide +kernel⟩,
   ⟨fedAlu 0x0A, 0, 0, [], [0], by decide +kernel⟩,
   ⟨fedAlu 0x1, 0, 0, [14], [0], by decide +kernel⟩,
   ⟨fedAlu 0x2, 0, 0, [14], [0], by decide +kernel⟩,
   ⟨fedAlu 0x3, 0, 0, [14], [0], by decide +kernel⟩,
   ⟨fedAlu 0x4, 0, 0, [14], [0], by decide +kernel⟩,
   ⟨fedAlu 0x5, 0, 0, [14], [0], by decide +kernel⟩,
   ⟨fedAlu 0x6, 0, 0, [14], [0], by decide +kernel⟩,
   ⟨fedAlu 0x7, 0, 0, [14], [0], by decide +kernel⟩,
   ⟨fedAlu 0x8, 0, 0, [14], [0], by decide +kernel⟩,
   ⟨fedAlu 0x9, 0, 0, [14], [0], by decide +kernel⟩,
   ⟨fedAlu 0x10, 0, 0, [14], [0], by decide +kernel⟩,
   ⟨fedAlu 0x11, 0, 0, [14], [0], by decide +kernel⟩,
   ⟨fedAlu 0x12, 0, 0, [14], [0], by decide +kernel⟩,
   ⟨fedAlu 0x13, 0, 0, [14], [0], by decide +kernel⟩,
   ⟨fedAlu 0x18, 0, 0, [14], [0], by decide +kernel⟩,
   ⟨fedAlu 0x19, 0, 0, [14], [0], by decide +kernel⟩,
   ⟨fedAlu 0x1a, 0, 0, [14], [0], by decide +kernel⟩,
   ⟨fedAlu 0x1b, 0, 0, [14], [0], by decide +kernel⟩,
   ⟨fedAlu 0x20, 0, 0, [14], [0], by decide +kernel⟩,
   ⟨fedAlu 0x21, 0, 0, [14], [0], by decide +kernel⟩,
   ⟨fedAlu 0x22, 0, 0, [14], [0], by decide +kernel⟩,
   ⟨fedAlu 0x23, 0, 0, [14], [0], by decide +kernel⟩,
   ⟨fedAlu 0x24, 0, 0, [14], [0], by decide +kernel⟩,
   ⟨one [] { tileRun with alu := tileRun.alu.set 0 { append := true } }, 0, 0, by first | decide +kernel | (dsimp only; decide +kernel), by first | decide +kernel | (dsimp only; decide +kernel)⟩,
   ⟨one [] { tileRun with alu := tileRun.alu.set 0 { flight := [{}] } }, 0, 0, by first | decide +kernel | (dsimp only; decide +kernel), {}, [], by first | decide +kernel | (dsimp only; decide +kernel)⟩⟩

theorem witness_AluResultsAreTheTable :
    (∃ (c : AluCtl) (a b : Word), (c.opActs = 0x01)) ∧
    (∃ (c : AluCtl) (a b : Word), (c.opActs = 0x02)) ∧
    (∃ (c : AluCtl) (a b : Word), (c.opActs = 0x03)) ∧
    (∃ (c : AluCtl) (a b : Word), (c.opActs = 0x06)) ∧
    (∃ (c : AluCtl) (a b : Word), (c.opActs = 0x07)) ∧
    (∃ (c : AluCtl) (a b : Word), (c.opActs = 0x08)) ∧
    (∃ (c : AluCtl) (a b : Word), (c.opActs = 0x09) ∧ (∃ i, (i < 32))) ∧
    (∃ (c : AluCtl) (a b : Word), (c.opActs = 0x10)) ∧
    (∃ (c : AluCtl) (a b : Word), (c.opActs = 0x11) ∧ (c.sgn = false)) ∧
    (∃ (c : AluCtl) (a b : Word), (c.opActs = 0x11) ∧ (c.sgn = true)) ∧
    (∃ (c : AluCtl) (a b : Word), (c.opActs = 0x12)) ∧
    (∃ (c : AluCtl) (a b : Word), (c.opActs = 0x13)) ∧
    (∃ (c : AluCtl) (a b : Word), (c.opActs = 0x18)) ∧
    (∃ (c : AluCtl) (a b : Word), (c.opActs = 0x19)) ∧
    (∃ (c : AluCtl) (a b : Word), (c.opActs = 0x1A)) ∧
    (∃ (c : AluCtl) (a b : Word), (c.opActs = 0x1B)) ∧
    (∃ (c : AluCtl) (a b : Word), (c.opActs = 0x20)) ∧
    (∃ (c : AluCtl) (a b : Word), (c.opActs = 0x04)) ∧
    (∃ (c : AluCtl) (a b : Word), (c.opActs = 0x05)) :=
  ⟨⟨aluOf 0x1 false, 7, 3, by decide +kernel⟩,
   ⟨aluOf 0x2 false, 7, 3, by decide +kernel⟩,
   ⟨aluOf 0x3 false, 7, 3, by decide +kernel⟩,
   ⟨aluOf 0x6 false, 7, 3, by decide +kernel⟩,
   ⟨aluOf 0x7 false, 7, 3, by decide +kernel⟩,
   ⟨aluOf 0x8 false, 7, 3, by decide +kernel⟩,
   ⟨aluOf 0x9 false, 7, 3, by decide +kernel, 31, by decide +kernel⟩,
   ⟨aluOf 0x10 false, 7, 3, by decide +kernel⟩,
   ⟨aluOf 0x11 false, 7, 3, by decide +kernel⟩,
   ⟨aluOf 0x11 true, 7, 3, by decide +kernel⟩,
   ⟨aluOf 0x12 false, 7, 3, by decide +kernel⟩,
   ⟨aluOf 0x13 false, 7, 3, by decide +kernel⟩,
   ⟨aluOf 0x18 false, 7, 3, by decide +kernel⟩,
   ⟨aluOf 0x19 false, 7, 3, by decide +kernel⟩,
   ⟨aluOf 0x1a false, 7, 3, by decide +kernel⟩,
   ⟨aluOf 0x1b false, 7, 3, by decide +kernel⟩,
   ⟨aluOf 0x20 false, 7, 3, by decide +kernel⟩,
   ⟨aluOf 0x4 true, 7, 3, by first | decide +kernel | (dsimp only; decide +kernel)⟩,
   ⟨aluOf 0x5 false, 7, 3, by first | decide +kernel | (dsimp only; decide +kernel)⟩⟩

theorem witness_OverflowIsSignedOverflowOrClamp :
    (∃ (c : AluCtl) (a b : Word), (c.opActs = 0x02)) ∧
    (∃ (c : AluCtl) (a b : Word), (c.opActs = 0x03)) ∧
    (∃ (c : AluCtl) (a b : Word), ∃ (s : State) (p : TileIx) (n : Fin 4) (src units : List Nat), (s.closure p 14 [] [n.val] = (src, units)) ∧ (∀ u ∈ units, u < 4) ∧ ((s.onceTaken p src).takesPoison p units = false)) :=
  ⟨⟨aluOf 2 false, 7, 3, by decide +kernel⟩,
   ⟨aluOf 3 false, 7, 3, by decide +kernel⟩,
   ⟨aluOf 2 false, 7, 3, fedAlu 2, 0, 0, [14], [0], by decide +kernel⟩⟩

theorem witness_IssuedResultIsInFlight :
    (∃ (s : State) (p : TileIx) (n : Fin 4) (src units : List Nat), (s.closure p 14 [] [n.val] = (src, units)) ∧ (∀ u ∈ units, u < 4) ∧ ((s.onceTaken p src).takesPoison p units = false) ∧ (s.jointOk p src units = true) ∧ (let c := s.aluCtl p n; (c.opActs ≠ 0x22) ∧ (c.opActs ≠ 0x24))) ∧
    (∃ (s : State) (p : TileIx) (n : Fin 4) (src units : List Nat), (s.closure p 14 [] [n.val] = (src, units)) ∧ (∀ u ∈ units, u < 4) ∧ ((s.onceTaken p src).takesPoison p units = false) ∧ (s.jointOk p src units = true) ∧ (let c := s.aluCtl p n; (c.opActs = 0x22))) ∧
    (∃ (s : State) (p : TileIx) (n : Fin 4) (src units : List Nat), (s.closure p 14 [] [n.val] = (src, units)) ∧ (∀ u ∈ units, u < 4) ∧ ((s.onceTaken p src).takesPoison p units = false) ∧ (s.jointOk p src units = true) ∧ (let c := s.aluCtl p n; (c.opActs = 0x24))) :=
  ⟨⟨fedAlu 0x2, 0, 0, [14], [0], by first | decide +kernel | (dsimp only; decide +kernel), by first | decide +kernel | (dsimp only; decide +kernel), by first | decide +kernel | (dsimp only; decide +kernel), by first | decide +kernel | (dsimp only; decide +kernel), by first | decide +kernel | (dsimp only; decide +kernel)⟩,
   ⟨fedAlu 0x22, 0, 0, [14], [0], by first | decide +kernel | (dsimp only; decide +kernel), by first | decide +kernel | (dsimp only; decide +kernel), by first | decide +kernel | (dsimp only; decide +kernel), by first | decide +kernel | (dsimp only; decide +kernel), by first | decide +kernel | (dsimp only; decide +kernel)⟩,
   ⟨fedAlu 0x24, 0, 0, [14], [0], by first | decide +kernel | (dsimp only; decide +kernel), by first | decide +kernel | (dsimp only; decide +kernel), by first | decide +kernel | (dsimp only; decide +kernel), by first | decide +kernel | (dsimp only; decide +kernel), by first | decide +kernel | (dsimp only; decide +kernel)⟩⟩

theorem witness_PortsMakeTheirAccess :
    (∃ (s : State) (p : TileIx) (k : Fin 2) (src units : List Nat), (s.closure p 14 [] [4 + k.val] = (src, units)) ∧ (s.jointOk p src units = true) ∧ ((s.portCtl p k).mode = 1)) ∧
    (∃ (s : State) (p : TileIx) (k : Fin 2) (src units : List Nat), (s.closure p 14 [] [4 + k.val] = (src, units)) ∧ (s.jointOk p src units = true) ∧ ((s.portCtl p k).mode = 2)) ∧
    (∃ (s : State) (p : TileIx) (k : Fin 2) (src units : List Nat), (s.closure p 14 [] [4 + k.val] = (src, units)) ∧ (s.jointOk p src units = true) ∧ ((s.portCtl p k).mode = 5)) ∧
    (∃ (s : State) (p : TileIx) (k : Fin 2) (src units : List Nat), (s.closure p 14 [] [4 + k.val] = (src, units)) ∧ (s.jointOk p src units = true) ∧ ((s.portCtl p k).mode = 6)) ∧
    (∃ (s : State) (p : TileIx) (k : Fin 2) (src units : List Nat), (s.closure p 14 [] [4 + k.val] = (src, units)) ∧ (s.jointOk p src units = true) ∧ ((s.portCtl p k).mode = 3)) ∧
    (∃ (s : State) (p : TileIx) (k : Fin 2) (src units : List Nat), (s.closure p 14 [] [4 + k.val] = (src, units)) ∧ (s.jointOk p src units = true) ∧ ((s.portCtl p k).mode = 4)) ∧
    (∃ (s : State) (p : TileIx) (k : Fin 2) (src units : List Nat), (s.closure p 14 [] [4 + k.val] = (src, units)) ∧ ∃ src units, s.closure p 14 [] [4, 5] = (src, units) ∧ (s.portCtl p (1 - k)).writes = true ∧ s.jointOk p src units = true ∧ (s.portCtl p k).mode = 2) ∧
    (∃ (s : State) (p : TileIx) (k : Fin 2) (src units : List Nat), (s.closure p 14 [] [4 + k.val] = (src, units)) ∧ ∃ src units, s.closure p 14 [] [4, 5] = (src, units) ∧ (s.portCtl p (1 - k)).writes = true ∧ s.jointOk p src units = true ∧ (s.portCtl p k).mode = 4) ∧
    (∃ (s : State) (p : TileIx) (k : Fin 2) (src units : List Nat), (s.closure p 14 [] [4 + k.val] = (src, units)) ∧ (∃ w r, (s.runs p = true) ∧ (((s.tile p).port[k]).flight = w :: r) ∧ (((s.tile p).port[k]).queue.length < 3))) :=
  ⟨⟨fedPort 1, 0, 0, [14], [4], by decide +kernel⟩,
   ⟨fedPort 2, 0, 0, [14], [4], by decide +kernel⟩,
   ⟨fedPort 5, 0, 0, [14], [4], by decide +kernel⟩,
   ⟨fedPort 6, 0, 0, [14], [4], by decide +kernel⟩,
   ⟨fedPort 3, 0, 0, [], [4], by decide +kernel⟩,
   ⟨fedPort 4, 0, 0, [], [4], by decide +kernel⟩,
   ⟨fed [(8 + 32, 14), (8 + 33, 14), (8 + 34, 1), (8 + 35, 1), (0x61, 0x20), (0x67, 0x40), (0x69, 0x20), (0x6F, 0x40)], 0, 1, [14], [4, 5], by first | decide +kernel | (dsimp only; decide +kernel), [14], [4, 5], by first | decide +kernel | (dsimp only; decide +kernel)⟩,
   ⟨one [(8 + 34, 1), (8 + 35, 1), (0x61, 0x20), (0x67, 0x80), (0x69, 0x20), (0x6F, 0x80)], 0, 1, [], [5], by first | decide +kernel | (dsimp only; decide +kernel), [], [4, 5], by first | decide +kernel | (dsimp only; decide +kernel)⟩,
   ⟨one [] { tileRun with port := tileRun.port.set 0 { flight := [{}] } }, 0, 0, [], [4], by decide +kernel, {}, [], by decide +kernel⟩⟩

theorem witness_PortAccessEffects :
    (∃ (s : State) (p : TileIx) (k : Fin 2) (a : Nat) (aw dw : LinkWord), let c := s.portCtl p k; (a < 0xC000) ∧ (c.mode = 2 ∨ c.mode = 4)) ∧
    (∃ (s : State) (p : TileIx) (k : Fin 2) (a : Nat) (aw dw : LinkWord), let c := s.portCtl p k; let addr := bankAddr p (a / 4096) (a % 4096); ∃ d, (a < 0xC000) ∧ (c.mode = 5) ∧ (s.mem.read addr = (d, .clean))) ∧
    (∃ (s : State) (p : TileIx) (k : Fin 2) (a : Nat) (aw dw : LinkWord), let c := s.portCtl p k; let addr := bankAddr p (a / 4096) (a % 4096); ∃ d, (a < 0xC000) ∧ (c.mode = 6) ∧ (s.mem.read addr = (d, .clean))) ∧
    (∃ (s : State) (p : TileIx) (k : Fin 2) (a : Nat) (aw dw : LinkWord), let c := s.portCtl p k; (a < 0xC000) ∧ (c.mode = 1)) ∧
    (∃ (s : State) (p : TileIx) (k : Fin 2) (a : Nat) (aw dw : LinkWord), (0xC000 ≤ a)) ∧
    (∃ (s : State) (p : TileIx) (k : Fin 2) (a : Nat) (aw dw : LinkWord), let c := s.portCtl p k; (0xC000 ≤ a) ∧ (c.mode = 1 ∨ c.mode = 3)) :=
  ⟨⟨fedPort 2, 0, 0, 0xBFFF, {}, { data := 1 }, by first | decide +kernel | (dsimp only; decide +kernel)⟩,
   ⟨fedPort 5, 0, 0, 3, {}, { data := 1 }, 0, by first | decide +kernel | (dsimp only; decide +kernel)⟩,
   ⟨fedPort 6, 0, 0, 3, {}, { data := 1 }, 0, by first | decide +kernel | (dsimp only; decide +kernel)⟩,
   ⟨fedPort 1, 0, 0, 0, {}, {}, by first | decide +kernel | (dsimp only; decide +kernel)⟩,
   ⟨fedPort 2, 0, 0, 0xC000, {}, {}, by first | decide +kernel | (dsimp only; decide +kernel)⟩,
   ⟨fedPort 3, 0, 0, 0xFFFF, {}, {}, by first | decide +kernel | (dsimp only; decide +kernel)⟩⟩

theorem witness_GrantsStartDispatches :
    (∃ (s : State) (p : TileIx), (p.val ∈ s.getWorks) ∧ (s.awake p = true)) ∧
    (∃ (s : State) (p : TileIx), ∃ (g : Grant) (old : List (Nat × Grant)) (rest : List (Nat × Grant)), (s.grants = old ++ (p.val, g) :: rest) ∧ (∀ x ∈ old, x.1 ≠ p.val) ∧ ((s.tile p).abortSent ≠ some 3) ∧ ((s.tile p).fenced = false) ∧ ((s.tile p).seq = .ask) ∧ (g.fill = true ∧ (s.tile p).hotAt g.slot = .valid ∧ (s.tile p).fillPending g.slot = false)) ∧
    (∃ (s : State) (p : TileIx), ∃ (g : Grant) (old : List (Nat × Grant)) (rest : List (Nat × Grant)), (s.grants = old ++ (p.val, g) :: rest) ∧ (∀ x ∈ old, x.1 ≠ p.val) ∧ ((s.tile p).abortSent ≠ some 3) ∧ ((s.tile p).fenced = false) ∧ ((s.tile p).seq = .ask) ∧ (g.fill = true ∧ (s.tile p).hotAt g.slot = .valid ∧ (s.tile p).fillPending g.slot = true)) ∧
    (∃ (s : State) (p : TileIx), (s.drained p = true) ∧ ((s.tile p).yielded = false) ∧ ((s.tile p).fenceReq = false) ∧ (∀ u, s.inClosed p u = false)) :=
  ⟨⟨{ one [] with getWorks := [0] }, 0, by decide +kernel⟩,
   ⟨{ one [] { tileRun with seq := .ask } with grants := [(0, { fill := true, slot := 15 })] }, 0, { fill := true, slot := 15 }, [], [], by first | decide +kernel | (dsimp only; decide +kernel), by first | decide +kernel | (dsimp only; decide +kernel), by first | decide +kernel | (dsimp only; decide +kernel), by first | decide +kernel | (dsimp only; decide +kernel), by first | decide +kernel | (dsimp only; decide +kernel), by first | decide +kernel | (dsimp only; decide +kernel)⟩,
   ⟨{ one [] { tileRun with seq := .ask, fillQ := [{ hot := some 0, src := .cache 16 }] } with grants := [(0, { fill := true })] }, 0, { fill := true }, [], [], by first | decide +kernel | (dsimp only; decide +kernel), by first | decide +kernel | (dsimp only; decide +kernel), by first | decide +kernel | (dsimp only; decide +kernel), by first | decide +kernel | (dsimp only; decide +kernel), by first | decide +kernel | (dsimp only; decide +kernel), by first | decide +kernel | (dsimp only; decide +kernel)⟩,
   ⟨one [] { tileRun with seq := .drain }, 0, by decide +kernel⟩⟩

theorem witness_DispatchesAbortAndYield :
    (∃ (s : State) (p : TileIx), ((s.tile p).abortSent = some 3) ∧ ((s.tile p).seq = .load ∨ (s.tile p).seq = .run ∨ (s.tile p).seq = .drain)) ∧
    (∃ (s : State) (p : TileIx), ((s.tile p).abortSent = some 3) ∧ ((s.tile p).seq = .off ∨ (s.tile p).seq = .ask)) ∧
    (∃ (s : State) (p : TileIx), ((s.tile p).yieldSent = true) ∧ ((s.grants.any fun g => g.1 == p.val) = false) ∧ ((s.tile p).seq = .run ∨ (s.tile p).seq = .load) ∧ s.canYield p = true) ∧
    (∃ (s : State) (p : TileIx), ((s.tile p).yieldSent = true) ∧ ((s.grants.any fun g => g.1 == p.val) = false) ∧ ((s.tile p).seq = .run ∨ (s.tile p).seq = .load) ∧ s.canYield p = false ∧ s.holdoffOf (s.ownerOf p) ≠ 0) ∧
    (∃ (s : State) (p : TileIx), (s.tile p).yieldHere = true ∧ s.canYield p = true) ∧
    (∃ (s : State) (p : TileIx), ((s.tile p).yieldHere = true) ∧ (s.moving p = true) ∧ ((s.tile p).seq = .load ∨ (s.tile p).seq = .run ∧ s.allAtYield p = true)) ∧
    (∃ (s : State) (p : TileIx), ((s.tile p).yieldHere = true) ∧ ((s.tile p).seq ≠ .load) ∧ (s.allAtYield p = false)) :=
  ⟨⟨one [] { tileRun with abortSent := some 3 }, 0, by first | decide +kernel | (dsimp only; decide +kernel)⟩,
   ⟨one [] { tileRun with abortSent := some 3, seq := .ask }, 0, by first | decide +kernel | (dsimp only; decide +kernel)⟩,
   ⟨one [] { tileRun with yieldSent := true }, 0, by first | decide +kernel | (dsimp only; decide +kernel)⟩,
   ⟨one [(0x3A0, 1)] { tileRun with yieldSent := true }, 0, by first | decide +kernel | (dsimp only; decide +kernel)⟩,
   ⟨one [] { tileRun with yieldHere := true, seq := .load }, 0, by first | decide +kernel | (dsimp only; decide +kernel)⟩,
   ⟨one [] { tileRun with yieldHere := true }, 0, by first | decide +kernel | (dsimp only; decide +kernel)⟩,
   ⟨one [(0x3A0, 1)] { tileRun with yieldHere := true }, 0, by first | decide +kernel | (dsimp only; decide +kernel)⟩⟩

theorem witness_FillsQueueStartAndEnd :
    (∃ (s : State) (p : TileIx) (f : Fill), ∃ w, ((s.tile p).fillWait = f :: w) ∧ ((s.tile p).fillQ.length < 2)) ∧
    (∃ (s : State) (p : TileIx) (f : Fill), ∃ w, ((s.tile p).fillWait = f :: w) ∧ (2 ≤ (s.tile p).fillQ.length)) ∧
    (∃ (s : State) (p : TileIx) (f : Fill), ∃ r, ((s.tile p).fill = none) ∧ ((s.tile p).fillQ = f :: r) ∧ (s.fillPower p = true) ∧ ((s.tile p).refuses f = false) ∧ ((s.tile p).zeroizing = false) ∧ ((s.tm p).migrating = false) ∧ ((∀ a, f.src ≠ .store a))) ∧
    (∃ (s : State) (p : TileIx) (f : Fill), ∃ r, ((s.tile p).fill = none) ∧ ((s.tile p).fillQ = f :: r) ∧ (s.fillPower p = true) ∧ ((s.tile p).refuses f = false) ∧ ((s.tile p).zeroizing = false) ∧ ((s.tm p).migrating = false) ∧ (
      let s1 := s.setTile p { s.tile p with
        fill := some f, fillQ := r, fillSlot := f.hot.getD (s.tile p).fillSlot, fillStore := false
        hot := match f.fillsHot with
          | some h => (s.tile p).hot.setIfInBounds h .filling
          | none => (s.tile p).hot }; ∃ a, (f.src = .store a) ∧ (s.storeFills (s.ownerOf p) < 32) ∧ (s1.storeFills (s1.ownerOf p) < 32) ∧ (s1.mem.storeFrame (s1.ownerOf p) a = true))) ∧
    (∃ (s : State) (p : TileIx), ∃ f c h, ((s.tile p).fill = some f) ∧ (f.src = .cache c) ∧ (f.hot = some h) ∧ (s.awake p = true) ∧ ((s.copyFrame p c h).1 = false) ∧ ((s.copyFrame p c h).2.mem.frameCrcOk p h = true)) ∧
    (∃ (s : State) (p : TileIx), ∃ f k r, (s.mesh.answered.find? (fun k => (rowOf k.purpose p).isSome) = some k) ∧ (rowOf k.purpose p = some (r, f.num)) ∧ ((s.tile p).fill = some f) ∧ (k.epoch = s.epochOf k.part) ∧ (f.rowsLeft = [r]) ∧ (f.bad = false) ∧ (k.status = stOk) ∧ (k.poison = 0) ∧ (let s0 : State := { s with mesh := { (s.mesh.freeTag k) with answered := s.mesh.answered.erase k } }; 
      (f.who ≠ .percolator) ∧ let s1 := (f.hot.toList ++ f.cache.toList).foldl (fun s x =>
        State.writeWords s (ctxBase p x + 32 * r) (wordsOf k.data 8) false) s0; (s1.mem.frameCrcOk p (f.hot.getD (f.cache.getD 0)) = true))) ∧
    (∃ (s : State) (p : TileIx), ∃ w r, ((s.tile p).heldWrites = w :: r) ∧ (((s.tile p).fill.any fun f => f.src == .cache w.frame || f.cache == some w.frame) = false)) ∧
    (∃ (s : State) (p : TileIx) (f : Fill) (h : Nat), f.hot = some h ∧ h < 16 ∧ f.src ≠ .zero ∧ ((s.tile p).seq = .load → (s.tile p).grant.slot ≠ h)) ∧
    (∃ (s : State) (p : TileIx), ∃ f, (s.tile p).fill = some f ∧ f.src = .zero ∧ s.awake p = true) ∧
    (∃ (s : State) (p : TileIx), ∃ f k r, (s.mesh.answered.find? (fun k => (rowOf k.purpose p).isSome) = some k) ∧ (rowOf k.purpose p = some (r, f.num)) ∧ ((s.tile p).fill = some f) ∧ (k.epoch = s.epochOf k.part) ∧ (f.rowsLeft = [r]) ∧ (f.bad = false) ∧ (k.status = stOk) ∧ (k.poison = 0) ∧ f.who = .percolator ∧ goldenOk ({ f with rowsLeft := [], bad := false, got := f.got ++ [(r, wordsOf k.data 8)] } : Fill).golden256 = true) :=
  ⟨⟨one [] { tileRun with fillWait := [{}] }, 0, {}, [], by decide +kernel⟩,
   ⟨one [] { tileRun with fillWait := [{}], fillQ := [{}, {}] }, 0, {}, [], by decide +kernel⟩,
   ⟨one [] { tileRun with fillQ := [{}] }, 0, {}, [], by first | decide +kernel | (dsimp only; exact nofun), by first | decide +kernel | (dsimp only; exact nofun), by first | decide +kernel | (dsimp only; exact nofun), by first | decide +kernel | (dsimp only; exact nofun), by first | decide +kernel | (dsimp only; exact nofun), by first | decide +kernel | (dsimp only; exact nofun), by first | decide +kernel | (dsimp only; exact nofun)⟩,
   ⟨banked (one [] { tileRun with fillQ := [{ src := .store (dramBase + 921698304) }] }), 0, { src := .store (dramBase + 921698304) }, [], by first | decide +kernel | (dsimp only; decide +kernel), by first | decide +kernel | (dsimp only; decide +kernel), by first | decide +kernel | (dsimp only; decide +kernel), by first | decide +kernel | (dsimp only; decide +kernel), by first | decide +kernel | (dsimp only; decide +kernel), by first | decide +kernel | (dsimp only; decide +kernel), dramBase + 921698304, by first | decide +kernel | (dsimp only; decide +kernel)⟩,
   ⟨{ one [] { tileRun with fill := some { src := .cache 16, hot := some 1 } } with mem := {} }, 0, { src := .cache 16, hot := some 1 }, 16, 1, by rw [copyFrame_empty _ rfl rfl rfl]; exact ⟨rfl, rfl, rfl, by decide +kernel, rfl, frameCrcOk_empty _ rfl _ _⟩⟩,
   ⟨{ one [] { tileRun with fill := some { hot := some 1, rowsLeft := [31], num := 7 } } with mem := {}, mesh := { answered := [{ purpose := .fillRow 0 31 7, data := List.replicate 32 0 }] } }, 0, { hot := some 1, rowsLeft := [31], num := 7 }, { purpose := .fillRow 0 31 7, data := List.replicate 32 0 }, 31, by first | exact frameCrcOk_empty _ (by decide +kernel) _ _ | decide +kernel, by first | exact frameCrcOk_empty _ (by decide +kernel) _ _ | decide +kernel, by first | exact frameCrcOk_empty _ (by decide +kernel) _ _ | decide +kernel, by first | exact frameCrcOk_empty _ (by decide +kernel) _ _ | decide +kernel, by first | exact frameCrcOk_empty _ (by decide +kernel) _ _ | decide +kernel, by first | exact frameCrcOk_empty _ (by decide +kernel) _ _ | decide +kernel, by first | exact frameCrcOk_empty _ (by decide +kernel) _ _ | decide +kernel, by first | exact frameCrcOk_empty _ (by decide +kernel) _ _ | decide +kernel, by first | exact frameCrcOk_empty _ (by decide +kernel) _ _ | decide +kernel, by first | exact frameCrcOk_empty _ (by decide +kernel) _ _ | decide +kernel⟩,
   ⟨one [] { tileRun with heldWrites := [{ frame := 16, addr := ctxBase 0 16, data := [1], poison := 0 }] }, 0, { frame := 16, addr := ctxBase 0 16, data := [1], poison := 0 }, [], by decide +kernel⟩,
   ⟨one [], 0, { src := .cache 16, hot := some 15 }, 15, by decide +kernel⟩,
   ⟨one [] { tileRun with fill := some { hot := some 15 } }, 0, { hot := some 15 }, by first | decide +kernel | (dsimp only; decide +kernel)⟩,
   ⟨{ one [] { tileRun with fill := some { who := .percolator, cache := some 16, rowsLeft := [31] } } with mesh := { answered := [{ purpose := .fillRow 0 31 0, data := List.replicate 32 0 }] } }, 0, { who := .percolator, cache := some 16, rowsLeft := [31] }, { purpose := .fillRow 0 31 0, data := List.replicate 32 0 }, 31, by first | decide +kernel | (dsimp only; decide +kernel), by first | decide +kernel | (dsimp only; decide +kernel), by first | decide +kernel | (dsimp only; decide +kernel), by first | decide +kernel | (dsimp only; decide +kernel), by first | decide +kernel | (dsimp only; decide +kernel), by first | decide +kernel | (dsimp only; decide +kernel), by first | decide +kernel | (dsimp only; decide +kernel), by first | decide +kernel | (dsimp only; decide +kernel), by first | decide +kernel | (dsimp only; decide +kernel), golden_zeros _ (by decide +kernel)⟩⟩

theorem witness_FencesAndZeroization :
    (∃ (s : State) (p : TileIx), (s.cupMoves p = false)) ∧
    (∃ (s : State) (p : TileIx), (s.cupMoves p = false) ∧ (s.allocated p = true) ∧ ((s.tile p).zeroizing = false) ∧ ((s.tile p).fenced = true) ∧ ((s.sector (sectorOf p)).pstate = .brew ∨ (s.sector (sectorOf p)).pstate = .steep)) ∧
    (∃ (s : State) (p : TileIx), ((s.tile p).fenceReq = true) ∧ ((s.tile p).fenced = false) ∧ ((s.tile p).seq = .ask ∨ (s.tile p).seq = .off)) ∧
    (∃ (s : State) (p : TileIx), ((s.tile p).fenced = true)) ∧
    (∃ (s : State) (p : TileIx), ((s.tile p).fenced = false)) ∧
    (∃ (s : State) (p : TileIx), ((s.tile p).zeroizing = true) ∧ (s.mem.tileClear p = true) ∧ ((s.sector (sectorOf p)).pstate ≠ .cold)) :=
  ⟨⟨one [], 0, by decide +kernel⟩,
   ⟨one [] { tileRun with fenced := true, fenceReq := true, seq := .off }, 0, by decide +kernel⟩,
   ⟨one [] { tileRun with fenceReq := true, seq := .ask }, 0, by decide +kernel⟩,
   ⟨State.reset, 0, by decide +kernel⟩,
   ⟨one [], 0, by decide +kernel⟩,
   ⟨{ State.reset with tiles := [(0, { zeroizing := true })] }, 0, by decide +kernel⟩⟩

theorem witness_ZeroizationLeavesNothing :
    (∃ (s : State) (p : TileIx), let inside (a : Nat) : Prop := areaOf a = .data p.val ∨ areaOf a = .tap p.val ∨ areaOf a = .ctx p.val; ∃ a, (inside a)) ∧
    (∃ (s : State) (p : TileIx), let inside (a : Nat) : Prop := areaOf a = .data p.val ∨ areaOf a = .tap p.val ∨ areaOf a = .ctx p.val; ∃ a, (∀ d, d < 0x40000 → a ≠ dataBase p + d) ∧ (¬inside a)) :=
  ⟨⟨State.reset, 0, 0x2FFFF, by first | decide +kernel | (dsimp only; decide +kernel)⟩,
   ⟨State.reset, 0, 0x20000000, by dsimp only; exact ⟨fun d h e => by simp only [dataBase] at e; omega, by decide +kernel⟩⟩⟩

theorem witness_MacUnitsIssueAndDeliver :
    (∃ (s : State) (p : TileIx) (u : Fin 4), (s.macStops p u = false) ∧ (((s.tile p).mac[u]).endSlot = true ∨ s.macNowReserved p u = true ∨ miOp (s.macNow p u) = 0) ∧ (s.macCanIssue p u = true)) ∧
    (∃ (s : State) (p : TileIx) (u : Fin 4), (s.macStops p u = false) ∧ (s.inClosed p u = false) ∧ (∃ src units, (s.closure p 14 [] [6 + u.val] = (src, units)) ∧ (s.jointOk p src units = true))) ∧
    (∃ (s : State) (p : TileIx) (u : Fin 4), (s.macStops p u = false) ∧ (((s.tile p).mac[u]).endSlot = false) ∧ (s.macNowReserved p u = false) ∧ (s.macCanIssue p u = true) ∧ ((miOp (s.macNow p u) = 0x01))) ∧
    (∃ (s : State) (p : TileIx) (u : Fin 4), (s.macStops p u = false) ∧ (((s.tile p).mac[u]).endSlot = false) ∧ (s.macNowReserved p u = false) ∧ (s.macCanIssue p u = true) ∧ ((miOp (s.macNow p u) = 0x02))) ∧
    (∃ (s : State) (p : TileIx) (u : Fin 4), (s.macStops p u = false) ∧ (((s.tile p).mac[u]).endSlot = false) ∧ (s.macNowReserved p u = false) ∧ (s.macCanIssue p u = true) ∧ ((miOp (s.macNow p u) = 0x03))) ∧
    (∃ (s : State) (p : TileIx) (u : Fin 4), (s.macStops p u = false) ∧ (((s.tile p).mac[u]).endSlot = false) ∧ (s.macNowReserved p u = false) ∧ (s.macCanIssue p u = true) ∧ ((miOp (s.macNow p u) = 0x04))) ∧
    (∃ (s : State) (p : TileIx) (u : Fin 4), (s.macStops p u = false) ∧ (((s.tile p).mac[u]).endSlot = false) ∧ (s.macNowReserved p u = false) ∧ (s.macCanIssue p u = true) ∧ ((miOp (s.macNow p u) = 0x05))) ∧
    (∃ (s : State) (p : TileIx) (u : Fin 4), (s.macStops p u = false) ∧ (((s.tile p).mac[u]).endSlot = false) ∧ (s.macNowReserved p u = false) ∧ (s.macCanIssue p u = true) ∧ ((miOp (s.macNow p u) = 0x09))) ∧
    (∃ (s : State) (p : TileIx) (u : Fin 4), (s.macStops p u = false) ∧ (((s.tile p).mac[u]).endSlot = false) ∧ (s.macNowReserved p u = false) ∧ (s.macCanIssue p u = true) ∧ ((miOp (s.macNow p u) = 0x0A))) ∧
    (∃ (s : State) (p : TileIx) (u : Fin 4), (s.macStops p u = false) ∧ (((s.tile p).mac[u]).endSlot = false) ∧ (s.macNowReserved p u = false) ∧ (s.macCanIssue p u = true) ∧ ((miOp (s.macNow p u) = 0x0B))) ∧
    (∃ (s : State) (p : TileIx) (u : Fin 4), (s.macStops p u = false) ∧ (((s.tile p).mac[u]).endSlot = false) ∧ (s.macNowReserved p u = false) ∧ (s.macCanIssue p u = true) ∧ ((miOp (s.macNow p u) = 0x10))) ∧
    (∃ (s : State) (p : TileIx) (u : Fin 4), (s.macStops p u = false) ∧ (((s.tile p).mac[u]).endSlot = false) ∧ (s.macNowReserved p u = false) ∧ (s.macCanIssue p u = true) ∧ ((miOp (s.macNow p u) = 0x18))) ∧
    (∃ (s : State) (p : TileIx) (u : Fin 4), (s.macStops p u = false) ∧ (((s.tile p).mac[u]).endSlot = false) ∧ (s.macNowReserved p u = false) ∧ (s.macCanIssue p u = true) ∧ ((miOp (s.macNow p u) = 0x19))) ∧
    (∃ (s : State) (p : TileIx) (u : Fin 4), (s.macStops p u = false) ∧ (((s.tile p).mac[u]).endSlot = false) ∧ (s.macNowReserved p u = false) ∧ (s.macCanIssue p u = true) ∧ ((miOp (s.macNow p u) = 0x1A))) ∧
    (∃ (s : State) (p : TileIx) (u : Fin 4), (s.runs p = true) ∧ (let m := ((s.tile p).mac[u]).drainSlot; ∃ w, (m.due = [.out w]) ∧ (m.outq.length < 2) ∧ (s.hasConsumer p (26 + u) = true))) ∧
    (∃ (s : State) (p : TileIx) (u : Fin 4), (s.runs p = true) ∧ (let m := ((s.tile p).mac[u]).drainSlot; ∃ ws, (m.due = [.stt ws]))) ∧
    (∃ (s : State) (p : TileIx) (u : Fin 4), s.macStops p u = true) ∧
    (∃ (s : State) (p : TileIx) (u : Fin 4), s.inClosed p u = true) :=
  ⟨⟨mac 0, 0, 0, by decide +kernel⟩,
   ⟨fed [(8 + 28, 14), (0xA3, 0x20), (0x3A0, 1)], 0, 0, by decide +kernel, by decide +kernel, [14], [6], by decide +kernel⟩,
   ⟨mac 0x4, 0, 0, by first | decide +kernel | (dsimp only; decide +kernel), by first | decide +kernel | (dsimp only; decide +kernel), by first | decide +kernel | (dsimp only; decide +kernel), by first | decide +kernel | (dsimp only; decide +kernel), by first | decide +kernel | (dsimp only; decide +kernel)⟩,
   ⟨mac 0x8, 0, 0, by first | decide +kernel | (dsimp only; decide +kernel), by first | decide +kernel | (dsimp only; decide +kernel), by first | decide +kernel | (dsimp only; decide +kernel), by first | decide +kernel | (dsimp only; decide +kernel), by first | decide +kernel | (dsimp only; decide +kernel)⟩,
   ⟨mac 0xc, 0, 0, by first | decide +kernel | (dsimp only; decide +kernel), by first | decide +kernel | (dsimp only; decide +kernel), by first | decide +kernel | (dsimp only; decide +kernel), by first | decide +kernel | (dsimp only; decide +kernel), by first | decide +kernel | (dsimp only; decide +kernel)⟩,
   ⟨mac 0x10, 0, 0, by first | decide +kernel | (dsimp only; decide +kernel), by first | decide +kernel | (dsimp only; decide +kernel), by first | decide +kernel | (dsimp only; decide +kernel), by first | decide +kernel | (dsimp only; decide +kernel), by first | decide +kernel | (dsimp only; decide +kernel)⟩,
   ⟨mac 0x14, 0, 0, by first | decide +kernel | (dsimp only; decide +kernel), by first | decide +kernel | (dsimp only; decide +kernel), by first | decide +kernel | (dsimp only; decide +kernel), by first | decide +kernel | (dsimp only; decide +kernel), by first | decide +kernel | (dsimp only; decide +kernel)⟩,
   ⟨mac 0x24, 0, 0, by first | decide +kernel | (dsimp only; decide +kernel), by first | decide +kernel | (dsimp only; decide +kernel), by first | decide +kernel | (dsimp only; decide +kernel), by first | decide +kernel | (dsimp only; decide +kernel), by first | decide +kernel | (dsimp only; decide +kernel)⟩,
   ⟨mac 0x28, 0, 0, by first | decide +kernel | (dsimp only; decide +kernel), by first | decide +kernel | (dsimp only; decide +kernel), by first | decide +kernel | (dsimp only; decide +kernel), by first | decide +kernel | (dsimp only; decide +kernel), by first | decide +kernel | (dsimp only; decide +kernel)⟩,
   ⟨mac 0x2c 8, 0, 0, by first | decide +kernel | (dsimp only; decide +kernel), by first | decide +kernel | (dsimp only; decide +kernel), by first | decide +kernel | (dsimp only; decide +kernel), by first | decide +kernel | (dsimp only; decide +kernel), by first | decide +kernel | (dsimp only; decide +kernel)⟩,
   ⟨mac 0x40, 0, 0, by first | decide +kernel | (dsimp only; decide +kernel), by first | decide +kernel | (dsimp only; decide +kernel), by first | decide +kernel | (dsimp only; decide +kernel), by first | decide +kernel | (dsimp only; decide +kernel), by first | decide +kernel | (dsimp only; decide +kernel)⟩,
   ⟨mac 0x60, 0, 0, by first | decide +kernel | (dsimp only; decide +kernel), by first | decide +kernel | (dsimp only; decide +kernel), by first | decide +kernel | (dsimp only; decide +kernel), by first | decide +kernel | (dsimp only; decide +kernel), by first | decide +kernel | (dsimp only; decide +kernel)⟩,
   ⟨mac 0x64, 0, 0, by first | decide +kernel | (dsimp only; decide +kernel), by first | decide +kernel | (dsimp only; decide +kernel), by first | decide +kernel | (dsimp only; decide +kernel), by first | decide +kernel | (dsimp only; decide +kernel), by first | decide +kernel | (dsimp only; decide +kernel)⟩,
   ⟨mac 0x68, 0, 0, by first | decide +kernel | (dsimp only; decide +kernel), by first | decide +kernel | (dsimp only; decide +kernel), by first | decide +kernel | (dsimp only; decide +kernel), by first | decide +kernel | (dsimp only; decide +kernel), by first | decide +kernel | (dsimp only; decide +kernel)⟩,
   ⟨one [(8 + 13, 26)] { tileRun with mac := tileRun.mac.set 0 { due := [.out {}] } }, 0, 0, by first | decide +kernel | (dsimp only; decide +kernel), {}, by first | decide +kernel | (dsimp only; decide +kernel)⟩,
   ⟨one [] { tileRun with mac := tileRun.mac.set 0 { due := [.stt [{ slice := 0, word := 511, value := 1 }]] } }, 0, 0, by first | decide +kernel | (dsimp only; decide +kernel), [{ slice := 0, word := 511, value := 1 }], by first | decide +kernel | (dsimp only; decide +kernel)⟩,
   ⟨one [(0x3A0, 1)] { tileRun with seq := .drain, yielded := true }, 0, 0, by first | decide +kernel | (dsimp only; decide +kernel)⟩,
   ⟨one [(8 + 28, 14), (0xA3, 0x20), (0x3A0, 1)] { tileRun with seq := .drain }, 0, 0, by first | decide +kernel | (dsimp only; decide +kernel)⟩⟩

theorem witness_MacControlFlow :
    (∃ (s : State) (p : TileIx) (u : Fin 4), let i := s.macNow p u; let m := (s.tile p).mac[u]; (m.endSlot = false) ∧ (s.macNowReserved p u = false) ∧ (m.rep = none) ∧ (miOp i = 0x19)) ∧
    (∃ (s : State) (p : TileIx) (u : Fin 4), let i := s.macNow p u; let m := (s.tile p).mac[u]; (m.endSlot = false) ∧ (s.macNowReserved p u = false) ∧ (m.rep = none) ∧ (miOp i = 0x1A)) ∧
    (∃ (s : State) (p : TileIx) (u : Fin 4), let i := s.macNow p u; let m := (s.tile p).mac[u]; (m.endSlot = false) ∧ (s.macNowReserved p u = false) ∧ (m.rep = none) ∧ (miOp i = 0x18)) ∧
    (∃ (s : State) (p : TileIx) (u : Fin 4), let i := s.macNow p u; let m := (s.tile p).mac[u]; (m.endSlot = false) ∧ (s.macNowReserved p u = false) ∧ (m.rep = none) ∧ (miOp i = 0x18) ∧ (miLen i = 0)) ∧
    (∃ (s : State) (p : TileIx) (u : Fin 4), let i := s.macNow p u; let m := (s.tile p).mac[u]; (m.endSlot = false) ∧ (s.macNowReserved p u = false) ∧ (m.rep = none) ∧ (miOp i = 0x18) ∧ (miLen i ≠ 0) ∧ (miCount i = 0)) ∧
    (∃ (s : State) (p : TileIx) (u : Fin 4), let i := s.macNow p u; let m := (s.tile p).mac[u]; (m.endSlot = false) ∧ (s.macNowReserved p u = false) ∧ (m.rep = none) ∧ (miOp i = 0x18) ∧ (miLen i ≠ 0) ∧ (miCount i ≠ 0)) ∧
    (∃ (s : State) (p : TileIx) (u : Fin 4), let i := s.macNow p u; let m := (s.tile p).mac[u]; (m.endSlot = false) ∧ (s.macNowReserved p u = false) ∧ (m.rep = none) ∧ (miOp i = 0x10) ∧ (∃ r : Fin 4, (miReg i = r.val))) ∧
    (∃ (s : State) (p : TileIx) (u : Fin 4), let i := s.macNow p u; let m := (s.tile p).mac[u]; (m.endSlot = false) ∧ (s.macNowReserved p u = false) ∧ (m.rep = none) ∧ (miOp i = 0x10) ∧ (∃ r : Fin 4, (miReg i = r.val))) :=
  ⟨⟨mac 0x64, 0, 0, by first | decide +kernel | (dsimp only; decide +kernel)⟩,
   ⟨mac 0x68, 0, 0, by first | decide +kernel | (dsimp only; decide +kernel)⟩,
   ⟨mac 0x60, 0, 0, by first | decide +kernel | (dsimp only; decide +kernel)⟩,
   ⟨mac 0x60 1, 0, 0, by first | decide +kernel | (dsimp only; decide +kernel)⟩,
   ⟨mac 0x60 0 0x10, 0, 0, by first | decide +kernel | (dsimp only; decide +kernel)⟩,
   ⟨mac 0x60 1 0x10, 0, 0, by first | decide +kernel | (dsimp only; decide +kernel)⟩,
   ⟨mac 0x40, 0, 0, by first | decide +kernel | (dsimp only; decide +kernel), by first | decide +kernel | (dsimp only; decide +kernel), by first | decide +kernel | (dsimp only; decide +kernel), by first | decide +kernel | (dsimp only; decide +kernel), 0, by first | decide +kernel | (dsimp only; decide +kernel)⟩,
   ⟨mac 0x40, 0, 0, by first | decide +kernel | (dsimp only; decide +kernel), by first | decide +kernel | (dsimp only; decide +kernel), by first | decide +kernel | (dsimp only; decide +kernel), by first | decide +kernel | (dsimp only; decide +kernel), 0, by first | decide +kernel | (dsimp only; decide +kernel)⟩⟩

theorem witness_AccumulatorsAndStores :
    (∃ (v : AccView) (p : Int), (-2 ^ 39 ≤ p) ∧ (p < 2 ^ 39)) ∧
    (∃ (v : AccView) (p : Int), (-2 ^ 39 ≤ p) ∧ (p < 2 ^ 39) ∧ (v.wcHeld = false) ∧ (v.wc ≠ 31#6) ∧ (v.wc ≠ 32#6)) ∧
    (∃ (v : AccView) (n k : Nat), (n = 16 ∨ n = 32) ∧ (k ≤ 24) ∧ (v.wc = 0)) ∧
    (∃ (v : AccView) (n k : Nat), (n = 16 ∨ n = 32) ∧ (k ≤ 24) ∧ (0 < v.wc.toInt)) ∧
    (∃ (v : AccView) (n k : Nat), (n = 16 ∨ n = 32) ∧ (k ≤ 24) ∧ (v.wc.toInt < 0)) :=
  ⟨⟨{}, -2 ^ 39, by decide +kernel⟩,
   ⟨{}, 2 ^ 39 - 1, by decide +kernel⟩,
   ⟨{}, 32, 24, by decide +kernel⟩,
   ⟨{ wc := 31 }, 16, 0, by decide +kernel⟩,
   ⟨{ wc := 32 }, 16, 0, by decide +kernel⟩⟩

theorem witness_RingsMoveRowsAndPop :
    (∃ (s : State) (p : TileIx) (k : Fin 4), let d := (s.tile p).deq[k]; (s.moving p = true) ∧ (d.wantsWrite = true) ∧ (s.ringGranted p d.geom.bank k false = true)) ∧
    (∃ (s : State) (p : TileIx) (k : Fin 4), let d := (s.tile p).deq[k]; (s.moving p = true) ∧ (d.wantsRead = true) ∧ (s.ringGranted p d.geom.bank k true = true)) ∧
    (∃ (s : State) (p : TileIx) (k : Fin 4), (s.moving p = true)) ∧
    (∃ (s : State) (p : TileIx) (k : Fin 4), let d := (s.tile p).deq[k]; ∃ g, (d.held = some g) ∧ (d.depth = 0)) ∧
    (∃ (s : State) (p : TileIx) (k : Fin 4) (waited pushed : Bool), (s.awake p = true) ∧ (s.cupFenced p = false) ∧ (let d := (s.tile p).deq[k]; ((s.deqCtl p k).en = false ∨ d.depth = 0))) ∧
    (∃ (s : State) (p : TileIx) (k : Fin 4) (waited pushed : Bool), (s.awake p = true) ∧ (s.cupFenced p = false) ∧ (let d := (s.tile p).deq[k]; ∃ w r, ((s.deqCtl p k).en = true) ∧ (d.rows = w :: r))) ∧
    (∃ (s : State) (p : TileIx) (k : Fin 4), ∃ a, s.portBWrite p = some a ∧ let s1 := s.joint p [] [5]; let e := (s1.tile p).deq[k]; s1.moving p = true ∧ e.wantsWrite = true ∧ s1.ringGranted p e.geom.bank k false = true) :=
  ⟨⟨one [] (deqTile { ring with gather := List.replicate 4 {} }), 0, 0, by first | decide +kernel | (dsimp only; decide +kernel)⟩,
   ⟨one [] (deqTile { ring with inBank := 4 }), 0, 0, by first | decide +kernel | (dsimp only; decide +kernel)⟩,
   ⟨one [] (deqTile { ring with landing := [{}] }), 0, 0, by first | decide +kernel | (dsimp only; decide +kernel)⟩,
   ⟨one [] (deqTile { held := some ring.geom }), 0, 0, ring.geom, by first | decide +kernel | (dsimp only; decide +kernel)⟩,
   ⟨one [], 0, 0, true, false, by first | decide +kernel | (dsimp only; decide +kernel), by first | decide +kernel | (dsimp only; decide +kernel), by first | decide +kernel | (dsimp only; decide +kernel)⟩,
   ⟨one [(0x87, 0x87)] (deqTile { rows := [{}] }), 0, 0, true, false, by first | decide +kernel | (dsimp only; decide +kernel), by first | decide +kernel | (dsimp only; decide +kernel), {}, [], by first | decide +kernel | (dsimp only; decide +kernel)⟩,
   ⟨fed [(8 + 33, 14), (8 + 35, 1), (0x69, 0x20), (0x6F, 0x40)] { data := 5 } (deqTile { ring with gather := List.replicate 4 {} }), 0, 0, 5, by first | decide +kernel | (dsimp only; decide +kernel), by first | decide +kernel | (dsimp only; decide +kernel)⟩⟩

theorem witness_FlagsMakeTasksReady :
    (∃ (s : State) (n : SecIx), ((s.sector n).pstate = .brew) ∧ (∃ t f q k r, ((s.sector n).flagsIn = (t, f, q, k) :: r) ∧ ((k = 0 ∨ (s.task t).st.owner = q)))) ∧
    (∃ (s : State) (n : SecIx), ((s.sector n).pstate = .brew) ∧ (∃ t f q k r, ((s.sector n).flagsIn = (t, f, q, k) :: r) ∧ ((k ≠ 0) ∧ ((s.task t).st.owner ≠ q)))) ∧
    (∃ (s : State) (n : SecIx), ((s.sector n).pstate = .brew) ∧ (∃ x, (s.notifies.find? (fun x => x.task / 2048 == n.val) = some x) ∧ ((s.task x.task).st.owner = x.part))) ∧
    (∃ (s : State) (n : SecIx), ((s.sector n).pstate = .brew) ∧ (∃ (t : TaskIx) (w : Word), (t.val / 2048 = n.val))) ∧
    (∃ (s : State) (n : SecIx), ((s.sector n).pstate = .brew) ∧ (∃ i : Fin 16, let m := tget {} (s.sector n).timers i; (m.cfg.getLsbD 31 = true) ∧ (m.cfg.toNat % 65536 ≠ 0) ∧ m.cfg.toNat % 65536 ≤ m.count)) ∧
    (∃ (s : State) (n : SecIx), ((s.sector n).pstate = .brew) ∧ (∃ t : TaskIx, (t.val / 2048 = n.val) ∧ ((s.task t).state = .armed) ∧ (s.condition t = true))) ∧
    (∃ (s : State) (n : SecIx), ((s.sector n).pstate = .brew) ∧ (canonical {} s.tasks = true)) ∧
    (∃ (s : State) (n : SecIx), (s.sector n).pstate = .brew ∧ ∃ x, s.notifies.find? (fun x => x.task / 2048 == n.val) = some x ∧ (s.task x.task).st.owner ≠ x.part) :=
  ⟨⟨{ one [] with sectors := [(0, { flagsIn := [(0, 31, 0, 0)] })] }, 0, by first | decide +kernel | (dsimp only; decide +kernel), 0, 31, 0, 0, [], by first | decide +kernel | (dsimp only; decide +kernel), by first | decide +kernel | (dsimp only; decide +kernel)⟩,
   ⟨{ one [] with sectors := [(0, { flagsIn := [(0, 31, 0, 1)] })] }, 0, by first | decide +kernel | (dsimp only; decide +kernel), 0, 31, 0, 1, [], by first | decide +kernel | (dsimp only; decide +kernel), by first | decide +kernel | (dsimp only; decide +kernel)⟩,
   ⟨{ one [] with notifies := [{ task := 0, flag := 1, part := 31 }] }, 0, by decide +kernel, { task := 0, flag := 1, part := 31 }, by decide +kernel⟩,
   ⟨State.reset, 7, by decide +kernel, 16383, 1, by decide +kernel⟩,
   ⟨{ one [] with sectors := [(0, { timers := [(15, { cfg := 0x80000001, count := 1 })] })] }, 0, by first | decide +kernel | (dsimp only; decide +kernel), 15, by first | decide +kernel | (dsimp only; decide +kernel)⟩,
   ⟨{ one [] with tasks := [(0, task0 .armed)] }, 0, by decide +kernel, 0, by decide +kernel⟩,
   ⟨{ one [] with tasks := [(0, task0 .ready)] }, 0, by decide +kernel⟩,
   ⟨{ one [] with notifies := [{ task := 0, flag := 1, part := 15 }] }, 0, by first | decide +kernel | (dsimp only; decide +kernel), { task := 0, flag := 1, part := 15 }, by first | decide +kernel | (dsimp only; decide +kernel)⟩⟩

theorem witness_TasksRunAndEnd :
    (∃ (s : State) (q : PartIx) (n : SecIx), (s.recovering q = false) ∧ ((s.sector n).pstate = .brew) ∧ (∃ t i p h fill s1, (s.topTask ((s.readyTasks q n).filter fun t => !(s.candidates t).isEmpty) = some t) ∧ (s.chooseTile t = some i) ∧ (s.sectorTile n i = some p) ∧ (s.chooseSlot t p = some (h, fill, s1)) ∧ ((s.task t).st.setTask = false) ∧ (t / 2048 = n.val))) ∧
    (∃ (s : State) (q : PartIx) (n : SecIx), (s.recovering q = false) ∧ ((s.sector n).pstate = .brew) ∧ (∃ t p h, ((s.sector n).dispCtrl.getLsbD 0 = true) ∧ (s.topTask (s.readyTasks q n) = some t) ∧ (s.candidates t = []) ∧ (((s.eligibleTiles t).any fun p => decide ((s.tile p).rank (s.task t).st.ctxId.toNat < 2)) = false) ∧ ((s.eligibleTiles t).find? (fun p => (s.tile p).fillQ.isEmpty && (s.tile p).fillWait.isEmpty &&
        !((s.tile p).fill.any (·.ahead))) = some p) ∧ (s.victim p = some h))) ∧
    (∃ (s : State) (n : SecIx) (d : Done), (s.dones.find? (fun d => d.sector == n.val) = some d) ∧ (let t := 2048 * n.val + d.task; let a := s.task t; (a.state ≠ .running))) ∧
    (∃ (s : State) (n : SecIx) (d : Done), (s.dones.find? (fun d => d.sector == n.val) = some d) ∧ (let t := 2048 * n.val + d.task; let a := s.task t; (a.state = .running) ∧ (d.code = 3))) ∧
    (∃ (s : State) (n : SecIx) (d : Done), (s.dones.find? (fun d => d.sector == n.val) = some d) ∧ (let t := 2048 * n.val + d.task; let a := s.task t; (a.state = .running) ∧ (d.code = 1))) ∧
    (∃ (s : State) (n : SecIx) (d : Done), (s.dones.find? (fun d => d.sector == n.val) = some d) ∧ (let t := 2048 * n.val + d.task; let a := s.task t; (a.state = .running) ∧ (d.code = 2) ∧ (a.st.owner < 16))) ∧
    (∃ (s : State) (n : SecIx) (d : Done), (s.dones.find? (fun d => d.sector == n.val) = some d) ∧ (let t := 2048 * n.val + d.task; let a := s.task t; (a.state = .running) ∧ (d.code = 0))) :=
  ⟨⟨{ one [] { tileRun with seq := .ask, frameId := [(0, some 0)] } with tasks := [(0, task0 .ready)], sectors := [(0, { ask := [0] })] }, 0, 0, by decide +kernel, by decide +kernel, 0, 0, 0, 0, false, { one [] { tileRun with seq := .ask, frameId := [(0, some 0)] } with tasks := [(0, task0 .ready)], sectors := [(0, { ask := [0] })] }, by decide +kernel⟩,
   ⟨{ one [] with tasks := [(0, task0 .ready)] }, 0, 0, by decide +kernel, by decide +kernel, 0, 0, 1, by decide +kernel⟩,
   ⟨{ one [] with tasks := [(0, task0 .idle)], dones := [{ sector := 0, tile := 0, task := 0, counter := 0, code := 0 }] }, 0, { sector := 0, tile := 0, task := 0, counter := 0, code := 0 }, by first | decide +kernel | (dsimp only; decide +kernel), by first | decide +kernel | (dsimp only; decide +kernel)⟩,
   ⟨{ one [] with tasks := [(0, task0 .running)], dones := [{ sector := 0, tile := 0, task := 0, counter := 0, code := 3 }] }, 0, { sector := 0, tile := 0, task := 0, counter := 0, code := 3 }, by first | decide +kernel | (dsimp only; decide +kernel), by first | decide +kernel | (dsimp only; decide +kernel)⟩,
   ⟨{ one [] with tasks := [(0, task0 .running)], dones := [{ sector := 0, tile := 0, task := 0, counter := 0, code := 1 }] }, 0, { sector := 0, tile := 0, task := 0, counter := 0, code := 1 }, by first | decide +kernel | (dsimp only; decide +kernel), by first | decide +kernel | (dsimp only; decide +kernel)⟩,
   ⟨{ one [] with tasks := [(0, task0 .running)], dones := [{ sector := 0, tile := 0, task := 0, counter := 0, code := 2 }] }, 0, { sector := 0, tile := 0, task := 0, counter := 0, code := 2 }, by first | decide +kernel | (dsimp only; decide +kernel), by first | decide +kernel | (dsimp only; decide +kernel)⟩,
   ⟨{ one [] with tasks := [(0, task0 .running)], dones := [{ sector := 0, tile := 0, task := 0, counter := 0, code := 0 }] }, 0, { sector := 0, tile := 0, task := 0, counter := 0, code := 0 }, by first | decide +kernel | (dsimp only; decide +kernel), by first | decide +kernel | (dsimp only; decide +kernel)⟩⟩

theorem witness_LanesFollowTheirStates :
    (∃ (s : State) (l : LaneIx), let k := s.lane l; (k.status = 2)) ∧
    (∃ (s : State) (l : LaneIx), let k := s.lane l; (k.status = 3)) ∧
    (∃ (s : State) (l : LaneIx), let k := s.lane l; (k.status = 4) ∧ (k.remote = false)) ∧
    (∃ (s : State) (l : LaneIx), let k := s.lane l; (k.status = 4) ∧ (k.remote = true)) ∧
    (∃ (s : State) (l : LaneIx), let k := s.lane l; (k.status = 5 ∧ k.valid = true)) ∧
    (∃ (s : State) (l : LaneIx), let k := s.lane l; (2 ≤ k.status) ∧ (k.status ≠ 5) ∧ k.valid = true) ∧
    (∃ (s : State) (l : LaneIx), let k := s.lane l; (3 ≤ k.status)) ∧
    (∃ (s : State) (l : LaneIx), let k := s.lane l; (4 ≤ k.status) ∧ (k.fec ≠ 0)) ∧
    (∃ (s : State) (l : LaneIx), let k := s.lane l; 2 ≤ k.status ∧ k.status ≠ 5 ∧ k.valid = false) :=
  ⟨⟨lineS { laneUp with status := 2 }, 0, by first | decide +kernel | (dsimp only; decide +kernel)⟩,
   ⟨lineS { laneUp with status := 3 }, 0, by first | decide +kernel | (dsimp only; decide +kernel)⟩,
   ⟨lineS { laneUp with status := 4 }, 0, by first | decide +kernel | (dsimp only; decide +kernel)⟩,
   ⟨lineS { laneUp with status := 4, remote := true }, 0, by first | decide +kernel | (dsimp only; decide +kernel)⟩,
   ⟨lineS { laneUp with status := 5 }, 0, by first | decide +kernel | (dsimp only; decide +kernel)⟩,
   ⟨lineS { laneUp with status := 4 }, 0, by first | decide +kernel | (dsimp only; decide +kernel)⟩,
   ⟨lineS { laneUp with status := 3 }, 0, by first | decide +kernel | (dsimp only; decide +kernel)⟩,
   ⟨lineS { laneUp with status := 4, ctrl := 0x0003C000 }, 0, by first | decide +kernel | (dsimp only; decide +kernel)⟩,
   ⟨lineS { laneUp with status := 2, eqTx := 65 * 2 ^ 8 }, 0, by first | decide +kernel | (dsimp only; decide +kernel)⟩⟩

theorem witness_FramesReceivedByKind :
    (∃ (s : State) (l : LaneIx) (f : RxFrame), let k := s.lane l; let kind := (etherParse f.bytes).1; let body := (etherParse f.bytes).2.1; let h := mlfHeader body; let payload := (body.drop 16).take h.len; let s1 := s.setLane l (k.secAccept f); k.up = true ∧ kind = 0x88B5 ∧ s.laneMlf l = true ∧ k.judge f = 100 ∧ h.version = 1 ∧ 16 ≤ body.length ∧ h.lenOk k.maxFrame = true ∧ h.len ≤ (body.drop 16).length ∧ let s2 := if h.crv then s1.creditRecord l h.crStream h.crTotal else s1; let x := s2.stream h.stream; h.type = 1 ∧ s2.boundHere l h.stream = true ∧ x.egress = false ∧ x.state = 1 ∧ x.seqDiff h.seq = 0 ∧ cellCount payload.length ≤ x.out.toNat) ∧
    (∃ (s : State) (l : LaneIx) (f : RxFrame), let k := s.lane l; let kind := (etherParse f.bytes).1; let body := (etherParse f.bytes).2.1; let h := mlfHeader body; k.up = true ∧ kind = 0x88B5 ∧ s.laneMlf l = true ∧ k.judge f = 100 ∧ h.version = 1 ∧ 16 ≤ body.length ∧ h.lenOk k.maxFrame = true ∧ h.len ≤ (body.drop 16).length ∧ h.type = 2) ∧
    (∃ (s : State) (l : LaneIx) (f : RxFrame), let k := s.lane l; let kind := (etherParse f.bytes).1; let body := (etherParse f.bytes).2.1; let h := mlfHeader body; k.up = true ∧ kind = 0x88B5 ∧ s.laneMlf l = true ∧ k.judge f = 100 ∧ h.version = 1 ∧ 16 ≤ body.length ∧ h.lenOk k.maxFrame = true ∧ h.len ≤ (body.drop 16).length ∧ h.type = 3) ∧
    (∃ (s : State) (l : LaneIx) (f : RxFrame), let k := s.lane l; let kind := (etherParse f.bytes).1; let body := (etherParse f.bytes).2.1; let h := mlfHeader body; k.up = true ∧ kind = 0x88B5 ∧ s.laneMlf l = true ∧ k.judge f ≠ 100 ∧ h.type = 4) ∧
    (∃ (s : State) (l : LaneIx) (f : RxFrame), let k := s.lane l; let kind := (etherParse f.bytes).1; let body := (etherParse f.bytes).2.1; let h := mlfHeader body; k.up = true ∧ kind = 0x88B5 ∧ s.laneMlf l = true ∧ k.judge f = 100 ∧ (h.version ≠ 1 ∨ body.length < 16) ∧ h.type = 2) ∧
    (∃ (s : State) (l : LaneIx) (f : RxFrame), let k := s.lane l; let kind := (etherParse f.bytes).1; let body := (etherParse f.bytes).2.1; let h := mlfHeader body; k.up = true ∧ kind = 0x88B5 ∧ s.laneMlf l = true ∧ k.judge f = 100 ∧ h.version = 1 ∧ 16 ≤ body.length ∧ ¬(h.lenOk k.maxFrame = true ∧ h.len ≤ (body.drop 16).length) ∧ h.type = 0) ∧
    (∃ (s : State) (l : LaneIx) (f : RxFrame), let k := s.lane l; let kind := (etherParse f.bytes).1; let body := (etherParse f.bytes).2.1; let h := mlfHeader body; k.up = true ∧ kind = 0x88B5 ∧ s.partnerOf l = none ∧ k.judge f = 100 ∧ h.type = 3) ∧
    (∃ (s : State) (l : LaneIx) (f : RxFrame), let k := s.lane l; let kind := (etherParse f.bytes).1; k.up = true ∧ (macControl f.bytes).isNone = true ∧ kind ≠ 0x88B5 ∧ k.judge f ≠ 100) ∧
    (∃ (s : State) (l : LaneIx) (f : RxFrame), let k := s.lane l; let kind := (etherParse f.bytes).1; k.up = true ∧ (macControl f.bytes).isNone = true ∧ kind ≠ 0x88B5 ∧ k.judge f = 100 ∧ s.laneMlf l = true) ∧
    (∃ (s : State) (l : LaneIx) (f : RxFrame), let k := s.lane l; let kind := (etherParse f.bytes).1; let s1 := s.setLane l (k.secAccept f); ∃ r, k.up = true ∧ (macControl f.bytes).isNone = true ∧ kind ≠ 0x88B5 ∧ k.judge f = 100 ∧ s.laneMlf l = false ∧ (s.partnerOf l).isSome = true ∧ k.owner < 16 ∧ s1.classify l k.owner f.bytes = some r ∧ let w := s1.rule r 0; let z := field w.toNat 0 13; w.getLsbD 29 = true) ∧
    (∃ (s : State) (l : LaneIx) (f : RxFrame), let k := s.lane l; let kind := (etherParse f.bytes).1; let s1 := s.setLane l (k.secAccept f); ∃ r, k.up = true ∧ (macControl f.bytes).isNone = true ∧ kind ≠ 0x88B5 ∧ k.judge f = 100 ∧ s.laneMlf l = false ∧ (s.partnerOf l).isSome = true ∧ k.owner < 16 ∧ s1.classify l k.owner f.bytes = some r ∧ let w := s1.rule r 0; let z := field w.toNat 0 13; w.getLsbD 29 = false ∧ (s.stream z).egress = false ∧ (s.stream z).state = 1 ∧ (s.stream z).owner = k.owner) ∧
    (∃ (s : State) (l : LaneIx) (f : RxFrame), let k := s.lane l; ∃ b, pfcBody f.bytes = some b ∧ k.up = true ∧ k.judge f = 100 ∧ k.pfc = true ∧ s.laneMlf l = false ∧ ∃ c, c < 8) ∧
    (∃ (s : State) (l : LaneIx) (f : RxFrame), let k := s.lane l; (pfcBody f.bytes).isSome = true ∧ k.up = true ∧ k.judge f ≠ 100) ∧
    (∃ (s : State) (l : LaneIx) (f : RxFrame), let k := s.lane l; (pfcBody f.bytes).isSome = true ∧ k.up = true ∧ k.judge f = 100 ∧ (k.pfc = false ∨ s.laneMlf l = true)) ∧
    (∃ (s : State) (l : LaneIx) (f : RxFrame), let k := s.lane l; (macControl f.bytes).isSome = true ∧ pfcBody f.bytes = none ∧ k.up = true) :=
  ⟨⟨lineS laneUp { ingress with crTotal := 1 }, 0, mlfOf (mlfHead 1), by first | decide +kernel | (dsimp only; decide +kernel)⟩,
   ⟨lineS laneUp, 0, mlfOf (mlfHead 2), by first | decide +kernel | (dsimp only; decide +kernel)⟩,
   ⟨lineS laneUp, 0, mlfOf (mlfHead 3 8) (List.replicate 8 0), by first | decide +kernel | (dsimp only; decide +kernel)⟩,
   ⟨lineS laneUp, 0, { mlfOf (mlfHead 4) with fcs := false }, by first | decide +kernel | (dsimp only; decide +kernel)⟩,
   ⟨lineS laneUp, 0, mlfOf (mlfHead 2 4 2), by first | decide +kernel | (dsimp only; decide +kernel)⟩,
   ⟨lineS laneUp, 0, mlfOf (mlfHead 0), by first | decide +kernel | (dsimp only; decide +kernel)⟩,
   ⟨{ lineS laneUp with partners := [] }, 0, mlfOf (mlfHead 3 8), by first | decide +kernel | (dsimp only; decide +kernel)⟩,
   ⟨plainS, 0, frame 8 0 0 false, by first | decide +kernel | (dsimp only; decide +kernel)⟩,
   ⟨lineS laneUp, 0, frame 8 0 0, by first | decide +kernel | (dsimp only; decide +kernel)⟩,
   ⟨plainS (2 ^ 29), 0, frame 8 0 0, 0, by first | decide +kernel | (dsimp only; decide +kernel)⟩,
   ⟨plainS , 0, frame 8 0 0, 0, by first | decide +kernel | (dsimp only; decide +kernel)⟩,
   ⟨plainS, 0, macFrame 0x0101, List.replicate 44 0, by first | decide +kernel | (dsimp only; decide +kernel), by first | decide +kernel | (dsimp only; decide +kernel), by first | decide +kernel | (dsimp only; decide +kernel), by first | decide +kernel | (dsimp only; decide +kernel), by first | decide +kernel | (dsimp only; decide +kernel), 7, by first | decide +kernel | (dsimp only; decide +kernel)⟩,
   ⟨plainS, 0, { macFrame 0x0101 with cut := true }, by first | decide +kernel | (dsimp only; decide +kernel)⟩,
   ⟨lineS laneUp, 0, macFrame 0x0101, by first | decide +kernel | (dsimp only; decide +kernel)⟩,
   ⟨plainS, 0, macFrame 0x0101 2, by first | decide +kernel | (dsimp only; decide +kernel)⟩⟩

theorem witness_DataFramesReachTheirStream :
    (∃ (s : State) (l : Nat) (h : MlfHeader) (b : List Byte), let x := s.stream h.stream; let c := cellCount b.length; (s.boundHere l h.stream = true) ∧ (x.egress = false) ∧ (x.state = 1) ∧ (x.owner < 16) ∧ (x.seqDiff h.seq = 0) ∧ (c ≤ x.out.toNat) ∧ (x.vpos = x.wpos)) ∧
    (∃ (s : State) (l : Nat) (h : MlfHeader) (b : List Byte), let x := s.stream h.stream; let c := cellCount b.length; (s.boundHere l h.stream = true) ∧ (x.egress = false) ∧ (x.state = 1) ∧ (x.owner < 16) ∧ (x.seqDiff h.seq = 0) ∧ (x.out.toNat < c)) ∧
    (∃ (s : State) (l : Nat) (h : MlfHeader) (b : List Byte), let x := s.stream h.stream; (s.boundHere l h.stream = true) ∧ (x.egress = false) ∧ (x.state = 1) ∧ (x.owner < 16) ∧ (2 ^ 31 ≤ x.seqDiff h.seq)) :=
  ⟨⟨lineS laneUp { ingress with crTotal := 1 }, 0, { version := 1, type := 1, crv := false, rsp := false, stream := 0, seq := 0, crStream := 0, crTotal := 0, len := 4 }, [1], by first | decide +kernel | (dsimp only; decide +kernel)⟩,
   ⟨lineS laneUp ingress, 0, { version := 1, type := 1, crv := false, rsp := false, stream := 0, seq := 0, crStream := 0, crTotal := 0, len := 4 }, [1], by first | decide +kernel | (dsimp only; decide +kernel)⟩,
   ⟨lineS laneUp ingress, 0, { version := 1, type := 1, crv := false, rsp := false, stream := 0, seq := 2 ^ 31, crStream := 0, crTotal := 0, len := 4 }, [1], by first | decide +kernel | (dsimp only; decide +kernel)⟩⟩

theorem witness_PausesAndFramesAreSent :
    (∃ (s : State) (l : LaneIx), let k := s.lane l; ∃ c : Fin 8, (s.pauses l c = true) ∧ (k.xoff.getLsbD c = false) ∧ (k.pfcCfg.toNat % 65536 ≠ 0) ∧ (k.xoffTh c ≤ s.occupancy l c)) ∧
    (∃ (s : State) (l : LaneIx), let k := s.lane l; ∃ c : Fin 8, (s.pauses l c = true) ∧ (k.xoff.getLsbD c = true) ∧ (k.xonTh c ≤ s.occupancy l c)) ∧
    (∃ (s : State) (l : LaneIx), let k := s.lane l; ∃ c : Fin 8, (k.xoff.getLsbD c = true) ∧ (s.occupancy l c < k.xonTh c)) ∧
    (∃ (s : State) (l : LaneIx), let k := s.lane l; (s.mayStart l = true) ∧ (s.laneMlf l = true) ∧ (k.hbPeriod ≠ 0)) ∧
    (∃ (s : State) (l : LaneIx), (s.mayStart l = true) ∧ (s.laneMlf l = true) ∧ (s.creditDue l ≠ [])) ∧
    (∃ (s : State) (l : LaneIx), let k := s.lane l; (s.mayStart l = true) ∧ (s.laneMlf l = true) ∧ (∃ z : StreamIx, ((s.stream z).lane = l.val) ∧ (k.hbPeriod ≠ 0) ∧ s.laneAllows l (s.stream z).owner = true ∧ ((s.stream z).egress = false) ∧ ((s.stream z).mlf = true) ∧ ((s.stream z).state = 1 ∨ (s.stream z).state = 2) ∧ (0 < (s.stream z).out))) ∧
    (∃ (s : State) (l : LaneIx), let k := s.lane l; (s.mayStart l = true) ∧ (s.laneMlf l = true) ∧ (∃ z : StreamIx, ((s.stream z).lane = l.val) ∧ (k.hbPeriod ≠ 0) ∧ s.laneAllows l (s.stream z).owner = true ∧ ((s.stream z).egress = true) ∧ ((s.stream z).mlf = true) ∧ ((s.stream z).state = 1) ∧ ((s.stream z).syncDue = true))) ∧
    (∃ (s : State) (l : LaneIx), let k := s.lane l; (k.up = true) ∧ (s.laneMlf l = true) ∧ (k.hbPeriod ≠ 0)) ∧
    (∃ (s : State) (l : LaneIx), let k := s.lane l; ∃ src r, (s.mayStart l = true) ∧ (k.ctlDue = []) ∧ (s.inbandWaits l = false) ∧ (nextSource k.turn (s.dataSources l) = some (src, r))) ∧
    (∃ (s : State) (l : LaneIx), let k := s.lane l; ∃ f z, (k.tx = some f) ∧ field k.ctrl.toNat 8 2 ≠ 1 ∧ (f.stream = some z) ∧ (f.bypass = none)) ∧
    (∃ (s : State) (l : LaneIx), let k := s.lane l; ∃ f, k.tx = some f ∧ field k.ctrl.toNat 8 2 = 1) :=
  ⟨⟨{ lineS { laneUp with pfcCfg := 0x0100FFFF, pfcTh := [(0, 0x00010000)] } with partners := [], cells := [(0, { owner := 0, eth := true })] }, 0, 0, by first | decide +kernel | (dsimp only; decide +kernel)⟩,
   ⟨{ lineS { laneUp with pfcCfg := 0x0100FFFF, pfcTh := [(0, 0x00010000)], xoff := 1 } with partners := [] }, 0, 0, by first | decide +kernel | (dsimp only; decide +kernel)⟩,
   ⟨{ lineS { laneUp with pfcTh := [(7, 0x00020001)], xoff := 0x80 } with partners := [] }, 0, 7, by first | decide +kernel | (dsimp only; decide +kernel)⟩,
   ⟨lineS laneUp, 0, by first | decide +kernel | (dsimp only; decide +kernel)⟩,
   ⟨lineS laneUp { ingress with crTotal := 1 }, 0, by first | decide +kernel | (dsimp only; decide +kernel)⟩,
   ⟨lineS laneUp { ingress with crTotal := 1 }, 0, by first | decide +kernel | (dsimp only; decide +kernel), by first | decide +kernel | (dsimp only; decide +kernel), 0, by first | decide +kernel | (dsimp only; decide +kernel)⟩,
   ⟨lineS laneUp { egress with syncDue := true }, 0, by first | decide +kernel | (dsimp only; decide +kernel), by first | decide +kernel | (dsimp only; decide +kernel), 0, by first | decide +kernel | (dsimp only; decide +kernel)⟩,
   ⟨lineS laneUp, 0, by first | decide +kernel | (dsimp only; decide +kernel)⟩,
   ⟨{ lineS laneUp { egress with crTotal := 1 } with asm := [(0, { ready := [{ stream := 0, bytes := [1, 2, 3, 4] }] })] }, 0, 0, { stream := 0, bytes := [1, 2, 3, 4] }, by first | decide +kernel | (dsimp only; decide +kernel)⟩,
   ⟨lineS { laneUp with tx := some { kind := 3, stream := some 0 } } egress, 0, { kind := 3, stream := some 0 }, 0, by first | decide +kernel | (dsimp only; decide +kernel)⟩,
   ⟨lineS { laneUp with ctrl := laneUp.ctrl ||| 0x100#32, tx := some { kind := 3 } }, 0, { kind := 3 }, by first | decide +kernel | (dsimp only; decide +kernel)⟩⟩

theorem witness_TimeCycleAddsTheIncrement :
    ∃ u : TimeUnit, (u.locked = true) ∧ (u.ops = []) ∧ (u.ns < 10 ^ 9) ∧ (u.frac < 2 ^ 24) ∧ (u.sec < 2 ^ 48) :=
  ⟨{ locked := true, ns := 10 ^ 9 - 1 }, by first | decide +kernel | (dsimp only; decide +kernel)⟩

theorem witness_StreamsFeedAndLeaveTheArray :
    (∃ (s : State) (k : StreamIx), let x := s.stream k; x.egress = false ∧ x.bypassed = false ∧ x.ep = true ∧ x.state = 1) ∧
    (∃ (s : State) (k : StreamIx), let x := s.stream k; ∃ (i : Nat) (j : Inject), x.inj[i]? = some j ∧ j.done = false ∧ s.canSend (edgeIn j.port) = true ∧ j.pos + (j.word - x.preface) / 64 < x.spos) ∧
    (∃ (s : State) (e : Fin 128), let o := edgeOut (e / 64) (e % 64 / 4) (e % 4); let a := tget {} s.asm e; s.linkReads o = false) ∧
    (∃ (s : State) (e : Fin 128), let o := edgeOut (e / 64) (e % 64 / 4) (e % 4); let a := tget {} s.asm e; ∃ w, s.linkReads o = true ∧ (s.link o).held = [w] ∧ w.last = false ∧ a.poison = false ∧ a.tooLong = false ∧ a.words.length < 1025 ∧ a.load < 8192) ∧
    (∃ (s : State) (k : StreamIx), let x := s.stream k; ∃ z e, (x.target = some z) ∧ (s.headPacket k = some e) ∧ (x.egress = false) ∧ (x.bypassed = true) ∧ (x.state = 1) ∧ (x.bypBusy = false) ∧ (e ≤ x.spos) ∧ ((s.stream z).egress = true) ∧ ((s.stream z).state = 1) ∧ let r := s.packetBytes k x.rpos e; let fits := (s.stream z).mlf = true ∨ (r.1.length + 3) / 4 = 1 + (descLen r.1 + 3) / 4; (r.2.1 = true ∨ ¬fits) ∧ r.2.1 = true) ∧
    (∃ (s : State) (k : StreamIx), let x := s.stream k; ∃ z e, (x.target = some z) ∧ (s.headPacket k = some e) ∧ (x.egress = false) ∧ (x.bypassed = true) ∧ (x.state = 1) ∧ (x.bypBusy = false) ∧ (e ≤ x.spos) ∧ ((s.stream z).egress = true) ∧ ((s.stream z).state = 1) ∧ let r := s.packetBytes k x.rpos e; let fits := (s.stream z).mlf = true ∨ (r.1.length + 3) / 4 = 1 + (descLen r.1 + 3) / 4; ¬fits) ∧
    (∃ (s : State) (k : StreamIx), let x := s.stream k; ∃ z e, (x.target = some z) ∧ (s.headPacket k = some e) ∧ (x.egress = false) ∧ (x.bypassed = true) ∧ (x.state = 1) ∧ (x.bypBusy = false) ∧ (e ≤ x.spos) ∧ ((s.stream z).egress = true) ∧ ((s.stream z).state = 1) ∧ let r := s.packetBytes k x.rpos e; let fits := (s.stream z).mlf = true ∨ (r.1.length + 3) / 4 = 1 + (descLen r.1 + 3) / 4; r.2.1 = false ∧ fits) ∧
    (∃ (s : State) (k : StreamIx), let x := s.stream k; (x.credited = true) ∧ (s.quotaBound x = false)) :=
  ⟨⟨lineS laneUp ingress, 0, by first | decide +kernel | (dsimp only; decide +kernel)⟩,
   ⟨lineS laneUp { ingress with wpos := 1, vpos := 1, spos := 1, chip := [0], inj := [{ port := 0, pos := 0, stop := 1 }] }, 0, 0, { port := 0, pos := 0, stop := 1 }, by first | decide +kernel | (dsimp only; decide +kernel)⟩,
   ⟨State.reset, 127, by first | decide +kernel | (dsimp only; decide +kernel)⟩,
   ⟨{ one [] with links := [(edgeOut 0 0 0, { held := [{ data := 5 }], spent := 1 })] }, 0, { data := 5 }, by first | decide +kernel | (dsimp only; decide +kernel)⟩,
   ⟨{ lineS laneUp with streams := [(0, { ingress with ctrl := 0x20420000, bypTarget := 0x80000001, wpos := 1, vpos := 1, spos := 1, chip := [0] }), (1, egress)], cells := [(0, { owner := 0, len := 4, sop := true, eop := true, poison := true })] }, 0, 1, 1, by first | decide +kernel | (dsimp only; decide +kernel), by first | decide +kernel | (dsimp only; decide +kernel), by first | decide +kernel | (dsimp only; decide +kernel), by first | decide +kernel | (dsimp only; decide +kernel), by first | decide +kernel | (dsimp only; decide +kernel), by first | decide +kernel | (dsimp only; decide +kernel), by first | decide +kernel | (dsimp only; decide +kernel), by first | decide +kernel | (dsimp only; decide +kernel), by first | decide +kernel | (dsimp only; decide +kernel), by first | decide +kernel | (dsimp only; decide +kernel)⟩,
   ⟨{ lineS laneUp with streams := [(0, { ingress with ctrl := 0x20420000, bypTarget := 0x80000001, wpos := 1, vpos := 1, spos := 1, chip := [0] }), (1, { egress with ctrl := 0x20800000 })], cells := [(0, { owner := 0, len := 8, sop := true, eop := true })] }, 0, 1, 1, by first | decide +kernel | (dsimp only; decide +kernel), by first | decide +kernel | (dsimp only; decide +kernel), by first | decide +kernel | (dsimp only; decide +kernel), by first | decide +kernel | (dsimp only; decide +kernel), by first | decide +kernel | (dsimp only; decide +kernel), by first | decide +kernel | (dsimp only; decide +kernel), by first | decide +kernel | (dsimp only; decide +kernel), by first | decide +kernel | (dsimp only; decide +kernel), by first | decide +kernel | (dsimp only; decide +kernel), by first | decide +kernel | (dsimp only; decide +kernel)⟩,
   ⟨{ lineS laneUp with streams := [(0, { ingress with ctrl := 0x20420000, bypTarget := 0x80000001, wpos := 1, vpos := 1, spos := 1, chip := [0] }), (1, egress)], cells := [(0, { owner := 0, len := 4, sop := true, eop := true })] }, 0, 1, 1, by first | decide +kernel | (dsimp only; decide +kernel), by first | decide +kernel | (dsimp only; decide +kernel), by first | decide +kernel | (dsimp only; decide +kernel), by first | decide +kernel | (dsimp only; decide +kernel), by first | decide +kernel | (dsimp only; decide +kernel), by first | decide +kernel | (dsimp only; decide +kernel), by first | decide +kernel | (dsimp only; decide +kernel), by first | decide +kernel | (dsimp only; decide +kernel), by first | decide +kernel | (dsimp only; decide +kernel), by first | decide +kernel | (dsimp only; decide +kernel)⟩,
   ⟨lineS laneUp { ingress with size := 0 }, 0, by first | decide +kernel | (dsimp only; decide +kernel)⟩⟩

theorem witness_CreditNeverExceedsItsLimits :
    (∃ (s t : State) (k : StreamIx), let x := s.stream k; let y := t.stream k; (exec (.creditEngineVisit k) s = .next t) ∧ (x.crTotal < y.crTotal)) ∧
    (∃ (s t : State) (k : StreamIx), let x := s.stream k; let y := t.stream k; (exec (.creditEngineVisit k) s = .next t) ∧ (x.crTotal < y.crTotal) ∧ (0 < y.out)) :=
  ⟨⟨{ lineS laneUp ingress with alloc := { quota := [(0, 8)] } }, { lineS laneUp { ingress with crTotal := 8 } with alloc := { quota := [(0, 8)] } }, 0, by first | decide +kernel | exact ⟨next_of (by decide +kernel), by decide +kernel⟩⟩,
   ⟨{ lineS laneUp ingress with alloc := { quota := [(0, 8)] } }, { lineS laneUp { ingress with crTotal := 8 } with alloc := { quota := [(0, 8)] } }, 0, by first | decide +kernel | exact ⟨next_of (by decide +kernel), by decide +kernel⟩⟩⟩

theorem witness_CarafeSpillsAndRefills :
    (∃ (s : State) (k : StreamIx), let x := s.stream k; ∃ i, ((x.far.findIdx? fun f => f.stage == 0) = some i) ∧ (x.state ≠ 0) ∧ (x.state ≠ 3) ∧ s.spilling k (x.spos + i) = false) ∧
    (∃ (s : State) (k : StreamIx), ∃ p n s1, (s.carafeAnswer (spillOf k) = some (p, some n, s1)) ∧ ((s1.stream k).spos ≤ n) ∧ (let f := (s1.stream k).far.getD (n - (s1.stream k).spos) {}; (f.stage = 1) ∧ (p.status = stOk) ∧ ((s1.stream k).state ≠ 3) ∧ (1 < f.left))) ∧
    (∃ (s : State) (k : StreamIx), ∃ p n s1, (s.carafeAnswer (spillOf k) = some (p, some n, s1)) ∧ ((s1.stream k).spos ≤ n) ∧ (let f := (s1.stream k).far.getD (n - (s1.stream k).spos) {}; (f.stage = 1) ∧ (p.status = stOk) ∧ ((s1.stream k).state ≠ 3) ∧ (f.left ≤ 1))) ∧
    (∃ (s : State) (k : StreamIx), let x := s.stream k; ∃ f, let i := (x.far.takeWhile fun f => 3 ≤ f.stage).length; (x.far[i]? = some f) ∧ (x.state = 1 ∨ x.state = 2) ∧ (f.stage = 2) ∧ ((x.far.filter fun f => f.stage == 3).length < 16) ∧ (x.spos + i - x.mpos < x.ring) ∧ (s.quotaLeft x.owner = true)) ∧
    (∃ (s : State) (k : StreamIx), ∃ p n j s1, (s.carafeAnswer (refillOf k) = some (p, some (n, j), s1)) ∧ ((s1.stream k).spos ≤ n) ∧ (let i := n - (s1.stream k).spos; let f := (s1.stream k).far.getD i {}; (f.stage = 3) ∧ (p.status = stOk) ∧ (p.poison = 0) ∧ (1 < f.left))) ∧
    (∃ (s : State) (k : StreamIx), ∃ p n j s1, (s.carafeAnswer (refillOf k) = some (p, some (n, j), s1)) ∧ ((s1.stream k).spos ≤ n) ∧ let i := n - (s1.stream k).spos; let f := (s1.stream k).far.getD i {}; (f.stage = 3) ∧ (p.status = stOk) ∧ (p.poison = 0) ∧ f.left = 1 ∧ i < (s1.stream k).far.length ∧ (s1.stream k).state ≠ 3 ∧ f.info.poison = false) :=
  ⟨⟨lineS laneUp { ingress with far := [{ cell := some 0 }] }, 0, 0, by first | decide +kernel | (dsimp only; decide +kernel)⟩,
   ⟨carafed 1 4 (.spill 0 0), 0, { purpose := .spill 0 0 }, 0, leaves ((carafed 1 4 (.spill 0 0)).carafeAnswer (spillOf 0)), by first | decide +kernel | (dsimp only; decide +kernel), by first | decide +kernel | (dsimp only; decide +kernel), by first | decide +kernel | (dsimp only; decide +kernel)⟩,
   ⟨carafed 1 1 (.spill 0 0), 0, { purpose := .spill 0 0 }, 0, leaves ((carafed 1 1 (.spill 0 0)).carafeAnswer (spillOf 0)), by first | decide +kernel | (dsimp only; decide +kernel), by first | decide +kernel | (dsimp only; decide +kernel), by first | decide +kernel | (dsimp only; decide +kernel)⟩,
   ⟨{ lineS laneUp { ingress with far := [{ stage := 2 }] } with alloc := { quota := [(0, 8)] } }, 0, { stage := 2 }, by first | decide +kernel | (dsimp only; decide +kernel)⟩,
   ⟨carafed 3 4 (.refill 0 0 0), 0, { purpose := .refill 0 0 0 }, 0, 0, leaves ((carafed 3 4 (.refill 0 0 0)).carafeAnswer (refillOf 0)), by first | decide +kernel | (dsimp only; decide +kernel), by first | decide +kernel | (dsimp only; decide +kernel), by first | decide +kernel | (dsimp only; decide +kernel)⟩,
   ⟨carafed 3 1 (.refill 0 0 3), 0, { purpose := .refill 0 0 3 }, 0, 3, leaves ((carafed 3 1 (.refill 0 0 3)).carafeAnswer (refillOf 0)), by first | decide +kernel | (dsimp only; decide +kernel), by first | decide +kernel | (dsimp only; decide +kernel), by first | decide +kernel | (dsimp only; decide +kernel)⟩⟩

theorem witness_MeshMovesPacketsAndCredits :
    (∃ s : State, ∃ (q : Recip), ∃ k d, (s.nextWaiting q = some k) ∧ (s.targetOf k = some d)) ∧
    (∃ s : State, ∃ (q : Recip), ∃ k, (s.nextWaiting q = some k) ∧ (s.targetOf k = none) ∧ k.opc = 1 ∧ k.len ≤ 256 ∧ ∃ i, i < k.len) ∧
    (∃ s : State, ∃ (r : Fin 64), ∃ (o : Fin 8) (err : LinkFault), ∃ q a x f fs, let inputs (c : Nat) : List (Nat × Nat) := (List.range 8).map (fun i => let a := (tget 7 (s.router r).turn (32 * o.val + q) + 1 + i) % 8; (a, vcKey r a (2 * q + c))); (slotOwner ((s.router r).slotAt s.mesh.slotCount.toNat) = some q) ∧ (((inputs 1 ++ inputs 0).find? fun z => s.canForward r o z.2) = some (a, x)) ∧ ((s.vcBuf x).flits = f :: fs) ∧ (f.idx ≠ 0 ∨ (nextRouter r o).isSome ∨ s.proxy r o f.pkt ≠ 1)) ∧
    (∃ s : State, ∃ (r : Fin 64), ∃ (o : Fin 8) (err : LinkFault), ∃ q a x f fs, let inputs (c : Nat) : List (Nat × Nat) := (List.range 8).map (fun i => let a := (tget 7 (s.router r).turn (32 * o.val + q) + 1 + i) % 8; (a, vcKey r a (2 * q + c))); (slotOwner ((s.router r).slotAt s.mesh.slotCount.toNat) = some q) ∧ (((inputs 1 ++ inputs 0).find? fun z => s.canForward r o z.2) = some (a, x)) ∧ ((s.vcBuf x).flits = f :: fs) ∧ (f.idx = 0) ∧ (nextRouter r o = none) ∧ (s.proxy r o f.pkt = 1)) ∧
    (∃ s : State, ∃ (r : Fin 64) (a : Fin 8) (v : Fin 34), let x := vcKey r a v; (0 < (s.vcBuf x).credBack)) ∧
    (∃ s : State, ∃ (r : Fin 64) (a : Fin 8) (v : Fin 34), let x := vcKey r a v; ∃ f fs, ((s.vcBuf x).flits = f :: fs) ∧ ((s.vcBuf x).held = true) ∧ (s.proxy r (routeOf r f.pkt.dst) f.pkt ≠ 1)) ∧
    (∃ s : State, ∃ r : Fin 64, ((s.router r).draining = false)) ∧
    (∃ s : State, ∃ r : Fin 64, ((s.router r).draining = true) ∧ (s.drainBusy r = false) ∧ ((s.router r).drainCycles ≤ 2000) ∧ (∀ e ∈ (s.router r).slotNext, slotReserved e.2 = false)) ∧
    (∃ s : State, ∃ k r, (s.mesh.lost = k :: r)) :=
  ⟨⟨{ State.reset with mesh := { waiting := [{ purpose := .event 0 }] } }, 16, { purpose := .event 0 }, 0, by decide +kernel⟩,
   ⟨{ State.reset with mesh := { waiting := [{ purpose := .command 0, opc := 1, len := 4, addr := 0x40000000 }] } }, 16, { purpose := .command 0, opc := 1, len := 4, addr := 0x40000000 }, by decide +kernel, by decide +kernel, by decide +kernel, by decide +kernel, 3, by decide +kernel⟩,
   ⟨meshS { flits := [{ pkt := { opc := 4, dst := 6 } }] }, 0, 6, .data, 16, 0, vcKey 0 0 32, { pkt := { opc := 4, dst := 6 } }, [], by first | decide +kernel | (dsimp only; decide +kernel)⟩,
   ⟨{ meshS { flits := [{ pkt := { opc := 4 } }] } with sectors := [(0, { pstate := .steep })] }, 0, 0, .data, 16, 0, vcKey 0 0 32, { pkt := { opc := 4 } }, [], by first | decide +kernel | (dsimp only; decide +kernel)⟩,
   ⟨meshS { credBack := 1, spent := 1 }, 0, 0, 32, by first | decide +kernel | (dsimp only; decide +kernel)⟩,
   ⟨meshS { flits := [{ pkt := { opc := 4 } }], held := true }, 0, 0, 32, { pkt := { opc := 4 } }, [], by first | decide +kernel | (dsimp only; decide +kernel)⟩,
   ⟨State.reset, 63, by decide +kernel⟩,
   ⟨{ State.reset with mesh := { routers := [(63, { draining := true, drainCycles := 2000 })] } }, 63, by decide +kernel⟩,
   ⟨{ State.reset with mesh := { lost := [{}] } }, {}, [], by decide +kernel⟩⟩

theorem witness_TargetsServeRequests :
    (∃ (s : State) (r : MeshReq) (opc : Nat), let k := requestPacket r opc 0; let a := r.addr.toNat % 2 ^ 44; areaOf a ≠ .csr ∧ areaOf a ≠ .dram) ∧
    (∃ (s : State) (r : MeshReq) (opc : Nat), let k := requestPacket r opc 0; let a := r.addr.toNat % 2 ^ 44; areaOf a = .dram ∧ s.memCheck k = (none, s) ∧ s.localRoom k = true) ∧
    (∃ (s : State) (r : MeshReq) (opc : Nat), let k := requestPacket r opc 0; let a := r.addr.toNat % 2 ^ 44; areaOf a = .dram ∧ (s.memCheck k).1.isSome = true) ∧
    (∃ (s : State) (r : MeshReq) (opc : Nat), let k := requestPacket r opc 0; let a := r.addr.toNat % 2 ^ 44; areaOf a = .csr ∧ (s.csrServe k).isSome = true) ∧
    (∃ (s : State) (r : MeshReq) (opc : Nat), let k := requestPacket r opc 0; s.mesh.arrived = [] ∧ s.destOf r.addr.toNat = some (0, 0) ∧ s.proxy (portRouter 0) (portNumber 0) k = 0 ∧ (s.serveRequest k).isSome = true ∧ opc = (if r.data.isEmpty then 1 else 2) ∧ areaOf r.addr.toNat = .tap 0 ∧ r.addr.toNat % 0x4000 / 0x1000 = 0 ∧ s.awake 0 = true ∧ (s.memCheck k).1 = none ∧ s.granted k true = true ∧ ((s.serveRequest k).getD s).macIssues 0 0 = true) ∧
    (∃ (s : State) (r : MeshReq) (opc : Nat), let k := requestPacket r opc 0; s.mesh.arrived = [] ∧ s.destOf r.addr.toNat = some (0, 0) ∧ s.proxy (portRouter 0) (portNumber 0) k = 0 ∧ (s.serveRequest k).isSome = true ∧ opc = (if r.data.isEmpty then 1 else 2) ∧ areaOf r.addr.toNat = .tap 0 ∧ r.addr.toNat % 0x4000 / 0x1000 = 0 ∧ s.awake 0 = true ∧ (s.memCheck k).1 = none ∧ s.granted k true = true ∧ ((s.serveRequest k).getD s).macIssues 0 0 = false) ∧
    (∃ (s : State) (r : MeshReq) (opc : Nat), let k := requestPacket r opc 0; s.mesh.arrived = [] ∧ s.destOf r.addr.toNat = some (0, 0) ∧ s.proxy (portRouter 0) (portNumber 0) k = 0 ∧ (s.serveRequest k).isSome = true ∧ ((s.memCheck k).1 ≠ none ∨ s.granted k r.waited = true) ∧ opc = 1) ∧
    (∃ (s : State) (r : MeshReq) (opc : Nat), let k := requestPacket r opc 0; s.mesh.arrived = [] ∧ s.destOf r.addr.toNat = some (0, 0) ∧ s.proxy (portRouter 0) (portNumber 0) k = 0 ∧ (s.serveRequest k).isSome = true ∧ ((s.memCheck k).1 ≠ none ∨ s.granted k r.waited = true) ∧ opc = 2) ∧
    (∃ (s : State) (r : MeshReq) (opc : Nat), let k := requestPacket r opc 0; s.mesh.arrived = [] ∧ s.destOf r.addr.toNat = some (0, 0) ∧ s.proxy (portRouter 0) (portNumber 0) k = 0 ∧ (s.serveRequest k).isSome = true ∧ ((s.memCheck k).1 ≠ none ∨ s.granted k r.waited = true) ∧ opc = 2 ∧ r.addr.toNat / 2 ^ 44 = 1) ∧
    (∃ (s : State) (r : MeshReq) (opc : Nat), let k := requestPacket r opc 0; s.mesh.arrived = [] ∧ s.destOf r.addr.toNat = some (0, 0) ∧ s.proxy (portRouter 0) (portNumber 0) k = 0 ∧ (s.serveRequest k).isSome = true ∧ ((s.memCheck k).1 ≠ none ∨ s.granted k r.waited = true) ∧ opc = 2 ∧ r.addr.toNat / 2 ^ 44 = 2) ∧
    (∃ (s : State) (r : MeshReq) (opc : Nat), let k := requestPacket r opc 0; s.mesh.arrived = [] ∧ s.destOf r.addr.toNat = some (0, 0) ∧ s.proxy (portRouter 0) (portNumber 0) k = 0 ∧ (s.serveRequest k).isSome = true ∧ ((s.memCheck k).1 ≠ none ∨ s.granted k r.waited = true) ∧ opc = 3 ∧ (r.data.getD 0 0).toNat = 1) ∧
    (∃ (s : State) (r : MeshReq) (opc : Nat), let k := requestPacket r opc 0; s.mesh.arrived = [] ∧ s.destOf r.addr.toNat = some (0, 0) ∧ s.proxy (portRouter 0) (portNumber 0) k = 0 ∧ (s.serveRequest k).isSome = true ∧ ((s.memCheck k).1 ≠ none ∨ s.granted k r.waited = true) ∧ opc = 3 ∧ (r.data.getD 0 0).toNat = 2) ∧
    (∃ (s : State) (r : MeshReq) (opc : Nat), let k := requestPacket r opc 0; s.mesh.arrived = [] ∧ s.destOf r.addr.toNat = some (0, 0) ∧ s.proxy (portRouter 0) (portNumber 0) k = 0 ∧ (s.serveRequest k).isSome = true ∧ ((s.memCheck k).1 ≠ none ∨ s.granted k r.waited = true) ∧ opc = 3 ∧ (r.data.getD 0 0).toNat = 3) ∧
    (∃ (s : State) (r : MeshReq) (opc : Nat), let k := requestPacket r opc 0; s.mesh.arrived = [] ∧ s.destOf r.addr.toNat = some (0, 0) ∧ s.proxy (portRouter 0) (portNumber 0) k = 0 ∧ (s.serveRequest k).isSome = true ∧ ((s.memCheck k).1 ≠ none ∨ s.granted k r.waited = true) ∧ opc = 3 ∧ (r.data.getD 0 0).toNat = 4) ∧
    (∃ (s : State) (r : MeshReq) (opc : Nat), let k := requestPacket r opc 0; s.mesh.arrived = [] ∧ s.destOf r.addr.toNat = some (0, 0) ∧ s.proxy (portRouter 0) (portNumber 0) k = 0 ∧ (s.serveRequest k).isSome = true ∧ ((s.memCheck k).1 ≠ none ∨ s.granted k r.waited = true) ∧ opc = 3 ∧ (r.data.getD 0 0).toNat = 5) ∧
    (∃ (s : State) (r : MeshReq) (opc : Nat), let k := requestPacket r opc 0; s.mesh.arrived = [] ∧ s.destOf r.addr.toNat = some (0, 0) ∧ s.proxy (portRouter 0) (portNumber 0) k = 0 ∧ (s.serveRequest k).isSome = true ∧ ((s.memCheck k).1 ≠ none ∨ s.granted k r.waited = true) ∧ opc = 3 ∧ (r.data.getD 0 0).toNat = 6) ∧
    (∃ (s : State) (r : MeshReq) (opc : Nat), let k := requestPacket r opc 0; s.mesh.arrived = [] ∧ s.destOf r.addr.toNat = some (0, 0) ∧ s.proxy (portRouter 0) (portNumber 0) k = 0 ∧ (s.serveRequest k).isSome = true ∧ ((s.memCheck k).1 ≠ none ∨ s.granted k r.waited = true) ∧ opc = 3 ∧ (r.data.getD 0 0).toNat = 7) ∧
    (∃ (s : State) (r : MeshReq) (opc : Nat), let k := requestPacket r opc 0; s.mesh.arrived = [] ∧ s.destOf r.addr.toNat = some (0, 0) ∧ s.proxy (portRouter 0) (portNumber 0) k = 0 ∧ (s.serveRequest k).isSome = true ∧ ((s.memCheck k).1 ≠ none ∨ s.granted k r.waited = true) ∧ opc = 3 ∧ (r.data.getD 0 0).toNat = 8) :=
  ⟨⟨one [], reqTo 0x2FFFF [], 1, by first | decide +kernel | (dsimp only; decide +kernel)⟩,
   ⟨banked (one []), reqTo 0x1000000000 [], 1, by first | decide +kernel | (dsimp only; decide +kernel)⟩,
   ⟨one [], reqTo 0x1000000000 [], 1, by first | decide +kernel | (dsimp only; decide +kernel)⟩,
   ⟨one [], reqTo 0x30000000 [] 16, 1, by first | decide +kernel | (dsimp only; decide +kernel)⟩,
   ⟨mac 0, reqTo 0x04000000 [], 1, by first | decide +kernel | (dsimp only; decide +kernel)⟩,
   ⟨one [], reqTo 0x04000FFF [1], 2, by first | decide +kernel | (dsimp only; decide +kernel)⟩,
   ⟨one [], reqTo 0x2FFFC [], 1, by first | decide +kernel | (dsimp only; decide +kernel)⟩,
   ⟨one [], reqTo 0x2FFFF [1], 2, by first | decide +kernel | (dsimp only; decide +kernel)⟩,
   ⟨one [], reqTo 0x100000000000 [1], 2, by first | decide +kernel | (dsimp only; decide +kernel)⟩,
   ⟨one [], reqTo 0x200000000000 [1], 2, by first | decide +kernel | (dsimp only; decide +kernel)⟩,
   ⟨one [], reqTo 8 (1 :: 8 :: List.replicate 22 0), 3, by first | decide +kernel | (dsimp only; decide +kernel)⟩,
   ⟨one [], reqTo 8 (2 :: 8 :: List.replicate 22 0), 3, by first | decide +kernel | (dsimp only; decide +kernel)⟩,
   ⟨one [], reqTo 8 (3 :: 8 :: List.replicate 22 0), 3, by first | decide +kernel | (dsimp only; decide +kernel)⟩,
   ⟨one [], reqTo 8 (4 :: 8 :: List.replicate 22 0), 3, by first | decide +kernel | (dsimp only; decide +kernel)⟩,
   ⟨one [], reqTo 8 (5 :: 8 :: List.replicate 22 0), 3, by first | decide +kernel | (dsimp only; decide +kernel)⟩,
   ⟨one [], reqTo 8 (6 :: 8 :: List.replicate 22 0), 3, by first | decide +kernel | (dsimp only; decide +kernel)⟩,
   ⟨one [], reqTo 8 (7 :: 8 :: List.replicate 22 0), 3, by first | decide +kernel | (dsimp only; decide +kernel)⟩,
   ⟨one [], reqTo 8 (8 :: 8 :: List.replicate 22 0), 3, by first | decide +kernel | (dsimp only; decide +kernel)⟩⟩

theorem witness_MemoryAccessesAreExact :
    (∃ (s : State) (k : Packet), let a := k.addr % 2 ^ 44; let ali := k.addr / 2 ^ 44; (∀ n, areaOf a ≠ .line n ∧ areaOf a ≠ .ctx n) ∧ (∀ w, a / 4 * 4 ≤ w → w < a + max k.len (max k.data.length 8) → w % 4 = 0 → (s.mem.read w).2 = .clean) ∧ (k.opc = 2) ∧ (k.poison = 0) ∧ (ali < 3)) ∧
    (∃ (s : State) (k : Packet), let a := k.addr % 2 ^ 44; let ali := k.addr / 2 ^ 44; (∀ n, areaOf a ≠ .line n ∧ areaOf a ≠ .ctx n) ∧ (∀ w, a / 4 * 4 ≤ w → w < a + max k.len (max k.data.length 8) → w % 4 = 0 → (s.mem.read w).2 = .clean) ∧ (k.opc = 2) ∧ (k.poison = 0) ∧ (ali < 3)) ∧
    (∃ (s : State) (k : Packet), let a := k.addr % 2 ^ 44; (∀ n, areaOf a ≠ .line n ∧ areaOf a ≠ .ctx n) ∧ (∀ w, a / 4 * 4 ≤ w → w < a + max k.len (max k.data.length 8) → w % 4 = 0 → (s.mem.read w).2 = .clean) ∧ (k.opc = 1)) ∧
    (∃ (s : State) (k : Packet), let a := k.addr % 2 ^ 44; (∀ n, areaOf a ≠ .line n ∧ areaOf a ≠ .ctx n) ∧ (∀ w, a / 4 * 4 ≤ w → w < a + max k.len (max k.data.length 8) → w % 4 = 0 → (s.mem.read w).2 = .clean) ∧ (k.opc = 3) ∧ (∃ aop w x y, (atomFields k.data = (aop, w, x, y)) ∧ (w = 4 ∨ w = 8) ∧ (a % w = 0))) ∧
    (∃ (s : State) (k : Packet), let a := k.addr % 2 ^ 44; (∀ n, areaOf a ≠ .line n ∧ areaOf a ≠ .ctx n) ∧ (∀ w, a / 4 * 4 ≤ w → w < a + max k.len (max k.data.length 8) → w % 4 = 0 → (s.mem.read w).2 = .clean) ∧ (k.opc = 3) ∧ (∃ aop w x y, (atomFields k.data = (aop, w, x, y)) ∧ (w = 4 ∨ w = 8) ∧ (a % w = 0))) :=
  ⟨⟨State.reset, { opc := 2, data := [1] }, by dsimp only; exact ⟨fun _ => ⟨nofun, nofun⟩, fun _ _ _ _ => rfl, rfl, rfl, by decide⟩⟩,
   ⟨State.reset, { opc := 2, data := [1] }, by dsimp only; exact ⟨fun _ => ⟨nofun, nofun⟩, fun _ _ _ _ => rfl, rfl, rfl, by decide⟩⟩,
   ⟨State.reset, { opc := 1, len := 4 }, by dsimp only; exact ⟨fun _ => ⟨nofun, nofun⟩, fun _ _ _ _ => rfl, rfl⟩⟩,
   ⟨State.reset, { opc := 3, data := 1 :: 8 :: List.replicate 22 0 }, fun _ => ⟨nofun, nofun⟩, fun _ _ _ _ => rfl, rfl, 1, 8, 0, 0, by dsimp only; decide +kernel⟩,
   ⟨State.reset, { opc := 3, data := 1 :: 8 :: List.replicate 22 0 }, fun _ => ⟨nofun, nofun⟩, fun _ _ _ _ => rfl, rfl, 1, 8, 0, 0, by dsimp only; decide +kernel⟩⟩

theorem witness_NoAccessToAnotherOwnersTile :
    (∃ (s : State) (r : MeshReq) (p : Nat), (s.mesh.arrived = []) ∧ (s.mesh.inject = []) ∧ (r.addr.toNat < 2 ^ 44) ∧ (areaOf r.addr.toNat = .data p ∨ areaOf r.addr.toNat = .tap p) ∧ (s.ownerOf p ≠ r.part.val) ∧ (∃ ws t, (exec (.meshWr r ws) s = .next t))) ∧
    (∃ (s : State) (r : MeshReq) (p : Nat), (s.mesh.arrived = []) ∧ (s.mesh.inject = []) ∧ (r.addr.toNat < 2 ^ 44) ∧ (areaOf r.addr.toNat = .data p ∨ areaOf r.addr.toNat = .tap p) ∧ (s.ownerOf p ≠ r.part.val) ∧ (∃ t, (exec (.meshRd r) s = .next t))) ∧
    (∃ (s : State) (r : MeshReq) (p : Nat), (s.mesh.arrived = []) ∧ (s.mesh.inject = []) ∧ (r.addr.toNat < 2 ^ 44) ∧ (areaOf r.addr.toNat = .data p ∨ areaOf r.addr.toNat = .tap p) ∧ (s.ownerOf p ≠ r.part.val) ∧ (∃ c y t t', (exec (.meshRd r) s = .next t) ∧ (exec (.meshRd r) { s with mem := { s.mem with cells := c, syn := y } } = .next t'))) :=
  ⟨⟨one [], reqTo 0 [1] 1, 0, by first | decide +kernel | exact next_of (by decide +kernel) | exact ⟨next_of (by decide +kernel), next_of (by decide +kernel)⟩, by first | decide +kernel | exact next_of (by decide +kernel) | exact ⟨next_of (by decide +kernel), next_of (by decide +kernel)⟩, by first | decide +kernel | exact next_of (by decide +kernel) | exact ⟨next_of (by decide +kernel), next_of (by decide +kernel)⟩, by first | decide +kernel | exact next_of (by decide +kernel) | exact ⟨next_of (by decide +kernel), next_of (by decide +kernel)⟩, by first | decide +kernel | exact next_of (by decide +kernel) | exact ⟨next_of (by decide +kernel), next_of (by decide +kernel)⟩, [], after (exec (.meshWr (reqTo 0 [1] 1) []) (one [])), by first | decide +kernel | exact next_of (by decide +kernel) | exact ⟨next_of (by decide +kernel), next_of (by decide +kernel)⟩⟩,
   ⟨one [], reqTo 0x04000000 [] 1, 0, by first | decide +kernel | exact next_of (by decide +kernel) | exact ⟨next_of (by decide +kernel), next_of (by decide +kernel)⟩, by first | decide +kernel | exact next_of (by decide +kernel) | exact ⟨next_of (by decide +kernel), next_of (by decide +kernel)⟩, by first | decide +kernel | exact next_of (by decide +kernel) | exact ⟨next_of (by decide +kernel), next_of (by decide +kernel)⟩, by first | decide +kernel | exact next_of (by decide +kernel) | exact ⟨next_of (by decide +kernel), next_of (by decide +kernel)⟩, by first | decide +kernel | exact next_of (by decide +kernel) | exact ⟨next_of (by decide +kernel), next_of (by decide +kernel)⟩, after (exec (.meshRd (reqTo 0x04000000 [] 1)) (one [])), by first | decide +kernel | exact next_of (by decide +kernel) | exact ⟨next_of (by decide +kernel), next_of (by decide +kernel)⟩⟩,
   ⟨one [], reqTo 0 [] 1, 0, by first | decide +kernel | exact next_of (by decide +kernel) | exact ⟨next_of (by decide +kernel), next_of (by decide +kernel)⟩, by first | decide +kernel | exact next_of (by decide +kernel) | exact ⟨next_of (by decide +kernel), next_of (by decide +kernel)⟩, by first | decide +kernel | exact next_of (by decide +kernel) | exact ⟨next_of (by decide +kernel), next_of (by decide +kernel)⟩, by first | decide +kernel | exact next_of (by decide +kernel) | exact ⟨next_of (by decide +kernel), next_of (by decide +kernel)⟩, by first | decide +kernel | exact next_of (by decide +kernel) | exact ⟨next_of (by decide +kernel), next_of (by decide +kernel)⟩, [], [], after (exec (.meshRd (reqTo 0 [] 1)) (one [])), after (exec (.meshRd (reqTo 0 [] 1)) { one [] with mem := {} }), by first | decide +kernel | exact next_of (by decide +kernel) | exact ⟨next_of (by decide +kernel), next_of (by decide +kernel)⟩⟩⟩

theorem witness_DramControllersServe :
    (∃ (s : State) (c : Fin 12), let k := s.mem.ctlOf c; (k.ready = true) ∧ (k.slotPos < 64) ∧ let s1 := s.slotNext c; slotOwner (k.slotAt k.slotPos &&& 0x1F#8) = none) ∧
    (∃ (s : State) (c : Fin 12), let k := s.mem.ctlOf c; (k.ready = true) ∧ (k.slotPos < 64) ∧ let s1 := s.slotNext c; ∃ q, slotOwner (k.slotAt k.slotPos &&& 0x1F#8) = some q ∧ let read := !(k.slotAt k.slotPos).getLsbD 7; let starts (b : Nat) : Prop := b < 16 ∧ (s1.mem.ctlOf c).initBusy b = true ∧ s1.placeOwner { bank := b, chan := c, line := 0 } = if q < 16 then q else 31; (∃ b, starts b) ∧ read = false) ∧
    (∃ (s : State) (c : Fin 12), let k := s.mem.ctlOf c; (k.ready = true) ∧ (k.slotPos < 64) ∧ let s1 := s.slotNext c; ∃ q, slotOwner (k.slotAt k.slotPos &&& 0x1F#8) = some q ∧ let read := !(k.slotAt k.slotPos).getLsbD 7; let starts (b : Nat) : Prop := b < 16 ∧ (s1.mem.ctlOf c).initBusy b = true ∧ s1.placeOwner { bank := b, chan := c, line := 0 } = if q < 16 then q else 31; ((∀ b, ¬starts b) ∨ read = true) ∧ ∃ o r, k.metaSlot k.slotPos = true ∧ s1.metaPick c q read k.cyc = some (o, r)) ∧
    (∃ (s : State) (c : Fin 12), let k := s.mem.ctlOf c; (k.ready = true) ∧ (k.slotPos < 64) ∧ let s1 := s.slotNext c; ∃ q, slotOwner (k.slotAt k.slotPos &&& 0x1F#8) = some q ∧ let read := !(k.slotAt k.slotPos).getLsbD 7; let starts (b : Nat) : Prop := b < 16 ∧ (s1.mem.ctlOf c).initBusy b = true ∧ s1.placeOwner { bank := b, chan := c, line := 0 } = if q < 16 then q else 31; ((∀ b, ¬starts b) ∨ read = true) ∧ (k.metaSlot k.slotPos = false ∨ s1.metaPick c q read k.cyc = none) ∧ s1.slotPick c q read k.cyc = none) ∧
    (∃ (s : State) (c : Fin 12), let k := s.mem.ctlOf c; (k.ready = true) ∧ (k.slotPos < 64) ∧ let s1 := s.slotNext c; ∃ q, slotOwner (k.slotAt k.slotPos &&& 0x1F#8) = some q ∧ let read := !(k.slotAt k.slotPos).getLsbD 7; let starts (b : Nat) : Prop := b < 16 ∧ (s1.mem.ctlOf c).initBusy b = true ∧ s1.placeOwner { bank := b, chan := c, line := 0 } = if q < 16 then q else 31; ((∀ b, ¬starts b) ∨ read = true) ∧ (k.metaSlot k.slotPos = false ∨ s1.metaPick c q read k.cyc = none) ∧ ∃ r, s1.slotPick c q read k.cyc = some r) ∧
    (∃ r : DramReq, r.pkt.opc = 1) ∧
    (∃ r : DramReq, r.pkt.opc = 2 ∧ r.bad = false) ∧
    (∃ r : DramReq, r.pkt.opc = 3 ∧ r.bad = true) ∧
    (∃ (s : State) (c : Fin 12), let k := s.mem.ctlOf c; ∃ p r, (k.reading = p :: r)) ∧
    (∃ (s : State) (x : DramPart) (j : DramJoin), s.mem.joins.find? (fun j => j.num == x.num) = some j ∧ j.left.filter (· != x.line) = [] ∧ j.pkt.opc = 2 ∧ x.data = []) ∧
    (∃ (s : State) (x : DramPart) (j : DramJoin), s.mem.joins.find? (fun j => j.num == x.num) = some j ∧ j.pkt.opc = 1 ∧ j.pkt.lines = [x.line] ∧ j.left = [x.line] ∧ j.got = [] ∧ j.bad = false ∧ x.bad = false) ∧
    (∃ (s : State) (c : Fin 12), let k := s.mem.ctlOf c; (k.ready = true) ∧ (k.slotPos = 64)) ∧
    (∃ (s : State) (c : Fin 12), let k := s.mem.ctlOf c; k.apply = true ∧ k.slotPos = 0 ∧ 2 < k.turns) ∧
    (∃ (s : State) (c : Fin 12), let k := s.mem.ctlOf c; k.apply = true ∧ k.slotPos = 0 ∧ k.turns ≤ 2) ∧
    (∃ (s : State) (c : Fin 12) (b : Fin 16), let k := s.mem.ctlOf c; ∃ v, tget none k.ownerNext b = some v ∧ s.regionBusy c b = false ∧ (sealedField (k.ownerReg b) = false ∨ sealedField v = true)) ∧
    (∃ (s : State) (c : Fin 12) (b : Fin 16), let k := s.mem.ctlOf c; tget 0 k.init b = 1) ∧
    (∃ (s : State) (c : Fin 12) (b : Fin 16), let k := s.mem.ctlOf c; tget 0 k.init b = 2) ∧
    (∃ (s : State) (c : Fin 12), let k := s.mem.ctlOf c; k.state = 1) :=
  ⟨⟨dramS { state := 2, slotPos := 63, slot := [(63, 0x1F)] }, 0, by first | decide +kernel | (dsimp only; decide +kernel)⟩,
   ⟨dramS { state := 2, slotPos := 63, init := [(15, 1)] }, 0, by first | decide +kernel | (dsimp only; decide +kernel), by first | decide +kernel | (dsimp only; decide +kernel), 16, by first | decide +kernel | (dsimp only; decide +kernel), ⟨15, by first | decide +kernel | (dsimp only; decide +kernel)⟩, by first | decide +kernel | (dsimp only; decide +kernel)⟩,
   ⟨sealedS, 0, by first | decide +kernel | (dsimp only; decide +kernel), by first | decide +kernel | (dsimp only; decide +kernel), 16, by first | decide +kernel | (dsimp only; decide +kernel), Or.inr (by first | decide +kernel | (dsimp only; decide +kernel)), .fetch 6291456, some readReq, by first | decide +kernel | (dsimp only; decide +kernel)⟩,
   ⟨dramS { state := 2 }, 0, by first | decide +kernel | (dsimp only; decide +kernel), by first | decide +kernel | (dsimp only; decide +kernel), 16, by first | decide +kernel | (dsimp only; decide +kernel), Or.inr (by first | decide +kernel | (dsimp only; decide +kernel)), by first | decide +kernel | (dsimp only; decide +kernel)⟩,
   ⟨dramS { state := 2, queue := [(16, [readReq])] }, 0, by first | decide +kernel | (dsimp only; decide +kernel), by first | decide +kernel | (dsimp only; decide +kernel), 16, by first | decide +kernel | (dsimp only; decide +kernel), Or.inr (by first | decide +kernel | (dsimp only; decide +kernel)), by first | decide +kernel | (dsimp only; decide +kernel), readReq, by first | decide +kernel | (dsimp only; decide +kernel)⟩,
   ⟨readReq, by first | decide +kernel | (dsimp only; decide +kernel)⟩,
   ⟨{ pkt := { opc := 2 } }, by first | decide +kernel | (dsimp only; decide +kernel)⟩,
   ⟨{ pkt := { opc := 3 }, bad := true }, by first | decide +kernel | (dsimp only; decide +kernel)⟩,
   ⟨dramS { reading := [{ num := 0, line := 0 }] }, 0, { num := 0, line := 0 }, [], by first | decide +kernel | (dsimp only; decide +kernel)⟩,
   ⟨{ State.reset with mem := { joins := [{ num := 0, pkt := { opc := 2 }, left := [64] }] } }, { num := 0, line := 64 }, { num := 0, pkt := { opc := 2 }, left := [64] }, by first | decide +kernel | (dsimp only; decide +kernel), by first | decide +kernel | (dsimp only; decide +kernel)⟩,
   ⟨{ State.reset with mem := { joins := [{ num := 0, pkt := readReq.pkt, left := [dramBase] }] } }, { num := 0, line := dramBase }, { num := 0, pkt := readReq.pkt, left := [dramBase] }, by first | decide +kernel | (dsimp only; decide +kernel), by first | decide +kernel | (dsimp only; decide +kernel)⟩,
   ⟨dramS { state := 2, slotPos := 64 }, 0, by first | decide +kernel | (dsimp only; decide +kernel)⟩,
   ⟨dramS { apply := true, slotNext := [(1, 0x90)] }, 0, by first | decide +kernel | (dsimp only; decide +kernel)⟩,
   ⟨dramS { apply := true }, 0, by first | decide +kernel | (dsimp only; decide +kernel)⟩,
   ⟨dramS { ownerNext := [(15, some 1)] }, 0, 15, 1, by first | decide +kernel | (dsimp only; decide +kernel)⟩,
   ⟨dramS { init := [(15, 1)] }, 0, 15, by first | decide +kernel | (dsimp only; decide +kernel)⟩,
   ⟨dramS { init := [(15, 2)] }, 0, 15, by first | decide +kernel | (dsimp only; decide +kernel)⟩,
   ⟨dramS { state := 1 }, 0, by first | decide +kernel | (dsimp only; decide +kernel)⟩⟩

theorem witness_DramLinesReadBack :
    (∃ (s : State) (a : Nat) (d : List Byte) (bad : Bool), (a % 64 = 0) ∧ (d.length = 64) ∧ (s.placeSealed (s.mem.place a) = false)) ∧
    (∃ (s : State) (a : Nat) (d : List Byte) (bad : Bool), (a % 64 = 0) ∧ (d.length = 64) ∧ (s.placeSealed (s.mem.place a) = false) ∧ (∃ x, (x ≠ a / 64))) ∧
    (∃ (s : State) (a : Nat) (d : List Byte) (bad : Bool), (a % 64 = 0) ∧ (d.length = 64) ∧ (s.placeSealed (s.mem.place a) = false) ∧ (let t := (s.lineStore a d bad).2; ∃ key' ln, (tget none t.mem.lines (a / 64) = some ln) ∧ (key' ≠ ln.key))) :=
  ⟨⟨State.reset, dramBase, List.replicate 64 0, false, by first | decide +kernel | (dsimp only; decide +kernel)⟩,
   ⟨State.reset, dramBase, List.replicate 64 0, false, by first | decide +kernel | (dsimp only; decide +kernel), by first | decide +kernel | (dsimp only; decide +kernel), by first | decide +kernel | (dsimp only; decide +kernel), dramBase / 64 + 1, by first | decide +kernel | (dsimp only; decide +kernel)⟩,
   ⟨State.reset, dramBase, List.replicate 64 0, false, by first | decide +kernel | (dsimp only; decide +kernel), by first | decide +kernel | (dsimp only; decide +kernel), by first | decide +kernel | (dsimp only; decide +kernel), 1, { data := List.replicate 64 0, key := 0 }, by first | decide +kernel | (dsimp only; decide +kernel)⟩⟩

theorem witness_QueuesOpenFetchAndComplete :
    (∃ (s : State) (n : Fin 4) (m : Fin 64) (w : Word), s.portWidth n ≠ 0 ∧ let x := qidOf 0 n m; let q := s.queue x; let v := field w.toNat 0 13; q.active = true ∧ v < 2 * q.sqSize ∧ (v + 2 * q.sqSize - q.sqHead) % (2 * q.sqSize) ≤ q.sqSize) ∧
    (∃ (s : State) (n : Fin 4) (m : Fin 64) (w : Word), s.portWidth n ≠ 0 ∧ let x := qidOf 0 n m; let q := s.queue x; let v := field w.toNat 0 13; q.active = true ∧ ¬(v < 2 * q.sqSize ∧ (v + 2 * q.sqSize - q.sqHead) % (2 * q.sqSize) ≤ q.sqSize)) ∧
    (∃ (s : State) (n : Fin 4) (m : Fin 64) (w : Word), s.portWidth n ≠ 0 ∧ let x := qidOf 0 n m; let q := s.queue x; let v := field w.toNat 0 13; q.active = true ∧ v < 2 * q.cqSize ∧ (q.cqTail + 2 * q.cqSize - v) % (2 * q.cqSize) ≤ (q.cqTail + 2 * q.cqSize - q.cqHead) % (2 * q.cqSize)) ∧
    (∃ (s : State) (n : Fin 4) (m : Fin 64) (w : Word), s.portWidth n ≠ 0 ∧ let x := qidOf 0 n m; let q := s.queue x; let v := field w.toNat 0 13; q.active = true ∧ ¬(v < 2 * q.cqSize ∧ (q.cqTail + 2 * q.cqSize - v) % (2 * q.cqSize) ≤ (q.cqTail + 2 * q.cqSize - q.cqHead) % (2 * q.cqSize))) ∧
    (∃ (s : State) (n : Fin 4) (m : Fin 64) (w : Word), s.portWidth n ≠ 0 ∧ let x := qidOf 0 n m; let q := s.queue x; let v := field w.toNat 0 13; w.getLsbD 0 = true ∧ q.active = false ∧ q.owner ≠ 31 ∧ 1 ≤ q.sqSize ∧ q.sqSize ≤ 4096 ∧ 1 ≤ q.cqSize ∧ q.cqSize ≤ 4096) ∧
    (∃ (s : State) (n : Fin 4) (m : Fin 64) (w : Word), s.portWidth n ≠ 0 ∧ let x := qidOf 0 n m; let q := s.queue x; let v := field w.toNat 0 13; w.getLsbD 0 = false ∨ q.active = true) ∧
    (∃ (s : State) (n : Fin 4) (m : Fin 64) (w : Word), s.portWidth n ≠ 0 ∧ let x := qidOf 0 n m; let q := s.queue x; let v := field w.toNat 0 13; w.getLsbD 0 = true ∧ q.active = false ∧ ¬((1 ≤ q.sqSize ∧ q.sqSize ≤ 4096) ∧ (1 ≤ q.cqSize ∧ q.cqSize ≤ 4096))) ∧
    (∃ (s : State) (n : Fin 4) (m : Fin 64) (w : Word), s.portWidth n ≠ 0 ∧ let x := qidOf 0 n m; let q := s.queue x; let v := field w.toNat 0 13; w.getLsbD 0 = true ∧ q.active = false ∧ (1 ≤ q.sqSize ∧ q.sqSize ≤ 4096) ∧ (1 ≤ q.cqSize ∧ q.cqSize ≤ 4096) ∧ q.owner = 31) ∧
    (∃ (s : State) (n : Fin 4) (m : Fin 64) (w : Word), s.portWidth n ≠ 0 ∧ let x := qidOf 0 n m; let q := s.queue x; let v := field w.toNat 0 13; q.active = true ∧ q.en = false ∧ q.inFlight = 0 ∧ q.reading = 0 ∧ (q.fault = true ∨ q.replies = [] ∧ q.sent = [])) ∧
    (∃ (s : State) (n : Fin 4) (m : Fin 64) (w : Word), s.portWidth n ≠ 0 ∧ let x := qidOf 0 n m; let q := s.queue x; let v := field w.toNat 0 13; let size := max 1 q.sqSize; let k := min (min 8 ((q.sqTail + 2 * size - q.sqHead) % (2 * size))) (min (size - q.sqHead % size) (s.fetchRoom q.owner)); (s.port n).training = true ∧ q.active = true ∧ q.en = true ∧ q.fault = false ∧ q.reading = 0 ∧ k ≠ 0 ∧ q.owner < 17) ∧
    (∃ (s : State) (n : Fin 4) (m : Fin 64) (w : Word), s.portWidth n ≠ 0 ∧ let x := qidOf 0 n m; let q := s.queue x; let v := field w.toNat 0 13; ∃ h r, ∃ i : Fin 256, (s.hostReads.filter fun h => h.port == n.val)[i.val]? = some h ∧ h.fetch = some (x, r)) ∧
    (∃ (s : State) (n : Fin 4) (m : Fin 64) (w : Word), s.portWidth n ≠ 0 ∧ let x := qidOf 0 n m; let q := s.queue x; let v := field w.toNat 0 13; ∃ r rest, q.sent = r :: rest ∧ q.active = true ∧ q.fault = false ∧ q.ringUsed < q.cqSize) :=
  ⟨⟨hostS { active := true }, 0, 0, 4, by first | decide +kernel | (dsimp only; decide +kernel)⟩,
   ⟨hostS { active := true }, 0, 0, 5, by first | decide +kernel | (dsimp only; decide +kernel)⟩,
   ⟨hostS { active := true }, 0, 0, 0, by first | decide +kernel | (dsimp only; decide +kernel)⟩,
   ⟨hostS { active := true }, 0, 0, 1, by first | decide +kernel | (dsimp only; decide +kernel)⟩,
   ⟨hostS {}, 0, 0, 1, by first | decide +kernel | (dsimp only; decide +kernel)⟩,
   ⟨hostS {}, 0, 0, 2, by first | decide +kernel | (dsimp only; decide +kernel)⟩,
   ⟨{ hostS {} with queues := [(0, { owner := 0, sqSize := 4097, cqSize := 1 })] }, 0, 0, 1, by first | decide +kernel | (dsimp only; decide +kernel)⟩,
   ⟨{ hostS {} with queues := [(0, { sqSize := 4096, cqSize := 1 })] }, 0, 0, 1, by first | decide +kernel | (dsimp only; decide +kernel)⟩,
   ⟨hostS { active := true }, 0, 0, 0, by first | decide +kernel | (dsimp only; decide +kernel)⟩,
   ⟨hostS { active := true, en := true, sqTail := 1 }, 0, 0, 0, by first | decide +kernel | (dsimp only; decide +kernel)⟩,
   ⟨{ hostS { active := true } with hostReads := [{ port := 0, addr := 0, len := 64, fetch := some (0, 0) }] }, 0, 0, 0, by first | decide +kernel | (dsimp only; decide +kernel), { port := 0, addr := 0, len := 64, fetch := some (0, 0) }, 0, 0, by first | decide +kernel | (dsimp only; decide +kernel)⟩,
   ⟨hostS { active := true, sent := [{ status := 0, ident := 0, opcode := 0 }] }, 0, 0, 0, by first | decide +kernel | (dsimp only; decide +kernel), { status := 0, ident := 0, opcode := 0 }, [], by first | decide +kernel | (dsimp only; decide +kernel)⟩⟩

theorem witness_CommandPacketsReachBarista :
    (∃ s : State, ∃ k, s.mesh.arrived.find? (fun k => k.opc == 4) = some k ∧ let x := k.addr; let gone : Prop := k.part < 16 ∧ ((s.part k.part).state = 0 ∨ (s.part k.part).state = 4); qidKind x = 0 ∧ (s.queue x).active = false) ∧
    (∃ s : State, ∃ k, s.mesh.arrived.find? (fun k => k.opc == 4) = some k ∧ let x := k.addr; let gone : Prop := k.part < 16 ∧ ((s.part k.part).state = 0 ∨ (s.part k.part).state = 4); qidKind x = 0 ∧ gone ∧ (s.queue x).active = true) ∧
    (∃ s : State, ∃ k, s.mesh.arrived.find? (fun k => k.opc == 4) = some k ∧ let x := k.addr; let gone : Prop := k.part < 16 ∧ ((s.part k.part).state = 0 ∨ (s.part k.part).state = 4); qidKind x = 0 ∧ ¬gone ∧ (s.queue x).active = true ∧ 256 ≤ (s.buffer k.part).length) ∧
    (∃ s : State, ∃ k, s.mesh.arrived.find? (fun k => k.opc == 4) = some k ∧ let x := k.addr; let gone : Prop := k.part < 16 ∧ ((s.part k.part).state = 0 ∨ (s.part k.part).state = 4); qidKind x = 0 ∧ ¬gone ∧ (s.queue x).active = true ∧ (s.buffer k.part).length < 256) ∧
    (∃ s : State, ∃ k, s.mesh.arrived.find? (fun k => k.opc == 4) = some k ∧ let x := k.addr; let gone : Prop := k.part < 16 ∧ ((s.part k.part).state = 0 ∨ (s.part k.part).state = 4); qidKind x ≠ 0 ∧ gone) ∧
    (∃ s : State, ∃ k, s.mesh.arrived.find? (fun k => k.opc == 4) = some k ∧ let x := k.addr; let gone : Prop := k.part < 16 ∧ ((s.part k.part).state = 0 ∨ (s.part k.part).state = 4); let room : Prop := (s.queue x).inFlight < (s.queue x).depth ∧ (s.buffer k.part).length < 256 ∧ s.inFlight k.part < flightLimit k.part; qidKind x ≠ 0 ∧ ¬gone ∧ ¬room) ∧
    (∃ s : State, ∃ k, s.mesh.arrived.find? (fun k => k.opc == 4) = some k ∧ let x := k.addr; let gone : Prop := k.part < 16 ∧ ((s.part k.part).state = 0 ∨ (s.part k.part).state = 4); let room : Prop := (s.queue x).inFlight < (s.queue x).depth ∧ (s.buffer k.part).length < 256 ∧ s.inFlight k.part < flightLimit k.part; qidKind x ≠ 0 ∧ ¬gone ∧ room) ∧
    (∃ s : State, ∃ (r : MeshReq) (k : Packet), s.mesh.arrived.find? (requestNames r 5) = some k ∧ k.data.length = 32 ∧ let n (a c : Nat) : Nat := leNat ((k.data.drop a).take c); eventKnown k.part (n 4 2) (n 0 2) = true) ∧
    (∃ s : State, ∃ k, s.mesh.arrived.find? (fun k => k.opc == 6) = some k) ∧
    (∃ s : State, ∃ k, s.mesh.answered.find? (fun k => k.purpose.plain || k.epoch != s.epochOf k.part) = some k ∧ let m : Mesh := { (s.mesh.freeTag k) with answered := s.mesh.answered.erase k }; let mine (u : Packet) : Bool := u.part == k.part && u.tag == k.tag && u.purpose == k.purpose; m.unanswered.find? mine = none) ∧
    (∃ s : State, ∃ k, s.mesh.answered.find? (fun k => k.purpose.plain || k.epoch != s.epochOf k.part) = some k ∧ let m : Mesh := { (s.mesh.freeTag k) with answered := s.mesh.answered.erase k }; let mine (u : Packet) : Bool := u.part == k.part && u.tag == k.tag && u.purpose == k.purpose; ∃ u, m.unanswered.find? mine = some u ∧ (k.status ≠ stQueueFull ∨ k.epoch ≠ s.epochOf k.part)) ∧
    (∃ s : State, ∃ k, s.mesh.answered.find? (fun k => k.purpose.plain || k.epoch != s.epochOf k.part) = some k ∧ let m : Mesh := { (s.mesh.freeTag k) with answered := s.mesh.answered.erase k }; let mine (u : Packet) : Bool := u.part == k.part && u.tag == k.tag && u.purpose == k.purpose; ∃ u, m.unanswered.find? mine = some u ∧ k.status = stQueueFull ∧ k.epoch = s.epochOf k.part) ∧
    (∃ s : State, ∃ (r : Recip), ∃ e x rest old, ((s.evb r).entries = old ++ e :: rest) ∧ (e.delivered = false) ∧ (tget none (s.evb r).subs e.ev.code = some x) ∧ ((s.queue x).owner = r.val) ∧ (s.eventRoom x = true) ∧ (∀ y ∈ old, y.delivered = true)) ∧
    (∃ s : State, ∃ (l : LaneIx) (f : RxFrame), let k := s.lane l; let body := (etherParse f.bytes).2.1; let h := mlfHeader body; let payload := (body.drop 16).take h.len; let e := tget 0 s.partners ((s.partnerOf l).getD 0); let b := (payload.getD 0 0).toNat; let n := (payload.getD 1 0).toNat; let x := qidOf 1 (partnerIbh e) b; k.up = true ∧ (etherParse f.bytes).1 = 0x88B5 ∧ s.laneMlf l = true ∧ k.judge f = 100 ∧ h.version = 1 ∧ 16 ≤ body.length ∧ h.type = 4 ∧ h.rsp = false ∧ h.lenOk k.maxFrame = true ∧ h.len ≤ (body.drop 16).length ∧ partnerIb e = true ∧ payload.length = 4 + 64 * n ∧ b < 16 ∧ (s.queue x).owner < 16) ∧
    (∃ s : State, ∃ (q : Fin 192) (l : Nat), let x := qidOf 1 (q / 16) (q % 16); s.inbandLane x = some l ∧ (s.queue x).sent ≠ [] ∧ s.mayStart l = true ∧ s.laneMlf l = true ∧ (s.lane l).ctlDue ≠ []) ∧
    (∃ s : State, ∃ (q : Fin 192) (l : Nat), let x := qidOf 1 (q / 16) (q % 16); s.inbandLane x = some l ∧ (s.queue x).sent ≠ [] ∧ s.mayStart l = true ∧ s.laneMlf l = true ∧ (s.lane l).ctlDue = []) :=
  ⟨⟨{ hostS {} with mesh := { arrived := [{ part := 0, opc := 4, addr := 0 }] } }, { part := 0, opc := 4, addr := 0 }, by first | decide +kernel | (dsimp only; decide +kernel)⟩,
   ⟨{ hostS { active := true } with mesh := { arrived := [{ part := 0, opc := 4, addr := 0 }] } }, { part := 0, opc := 4, addr := 0 }, by first | decide +kernel | (dsimp only; decide +kernel)⟩,
   ⟨{ { { hostS { active := true } with parts := [(0, { state := 2 })] } with buffers := [(0, List.replicate 256 (plain 0 1 []))] } with mesh := { arrived := [{ part := 0, opc := 4, addr := 0 }] } }, { part := 0, opc := 4, addr := 0 }, by first | decide +kernel | (dsimp only; decide +kernel)⟩,
   ⟨{ { hostS { active := true } with parts := [(0, { state := 2 })] } with mesh := { arrived := [{ part := 0, opc := 4, addr := 0 }] } }, { part := 0, opc := 4, addr := 0 }, by first | decide +kernel | (dsimp only; decide +kernel)⟩,
   ⟨{ inband with mesh := { arrived := [{ part := 0, opc := 4, addr := 65536 }] } }, { part := 0, opc := 4, addr := 65536 }, by first | decide +kernel | (dsimp only; decide +kernel)⟩,
   ⟨{ State.reset with mesh := { arrived := [{ part := 16, opc := 4, addr := 65536 }] } }, { part := 16, opc := 4, addr := 65536 }, by first | decide +kernel | (dsimp only; decide +kernel)⟩,
   ⟨{ { State.reset with queues := [(65536, { owner := 16, depth := 1 })] } with mesh := { arrived := [{ part := 16, opc := 4, addr := 65536 }] } }, { part := 16, opc := 4, addr := 65536 }, by first | decide +kernel | (dsimp only; decide +kernel)⟩,
   ⟨{ State.reset with mesh := { arrived := [{ part := 0, opc := 5, data := List.replicate 4 0 ++ [1] ++ List.replicate 27 0 }] } }, reqTo 0 [], { part := 0, opc := 5, data := List.replicate 4 0 ++ [1] ++ List.replicate 27 0 }, by first | decide +kernel | (dsimp only; decide +kernel)⟩,
   ⟨{ State.reset with mesh := { arrived := [{ opc := 6 }] } }, { opc := 6 }, by first | decide +kernel | (dsimp only; decide +kernel)⟩,
   ⟨{ State.reset with mesh := { answered := [{ purpose := .event 0 }] } }, { purpose := .event 0 }, by first | decide +kernel | (dsimp only; decide +kernel)⟩,
   ⟨{ State.reset with mesh := { answered := [{ purpose := .event 0 }], unanswered := [{ purpose := .event 0 }] } }, { purpose := .event 0 }, by first | decide +kernel | (dsimp only; decide +kernel), { purpose := .event 0 }, by first | decide +kernel | (dsimp only; decide +kernel)⟩,
   ⟨{ State.reset with mesh := { answered := [{ purpose := .event 0, status := stQueueFull }], unanswered := [{ purpose := .event 0 }] } }, { purpose := .event 0, status := stQueueFull }, by first | decide +kernel | (dsimp only; decide +kernel), { purpose := .event 0 }, by first | decide +kernel | (dsimp only; decide +kernel)⟩,
   ⟨{ hostS { active := true } with events := [(0, { entries := [{ eseq := 0, ev := { code := 1 } }], subs := [(1, some 0)] })] }, 0, { eseq := 0, ev := { code := 1 } }, 0, [], [], by first | decide +kernel | (dsimp only; decide +kernel)⟩,
   ⟨inband, 0, commandFrame, by first | decide +kernel | (dsimp only; decide +kernel)⟩,
   ⟨{ inband with lanes := [(0, { laneUp with ctlDue := [(1, 0, 0)] })] }, 0, 0, by first | decide +kernel | (dsimp only; decide +kernel)⟩,
   ⟨inband, 0, 0, by first | decide +kernel | (dsimp only; decide +kernel)⟩⟩

theorem witness_PortsSlicesAndManagement :
    (∃ s : State, ∃ n : Fin 4, ∃ e ∈ s.queues, qidKind e.1 = 0 ∧ qidHost e.1 = n.val) ∧
    (∃ s : State, ∃ a : BitVec 7, a.toNat = 0x58 + s.smbAddr ∧ s.boot.held = false ∧ s.boot.ready = true ∧ ∃ b : List Byte, b.length = 64 ∧ (let q := s.queue mgmtQid; q.inFlight < q.depth ∧ (s.buffer 16).length < 256 ∧ s.inFlight 16 < 256)) ∧
    (∃ s : State, ∃ a : BitVec 7, a.toNat = 0x58 + s.smbAddr ∧ s.boot.held = false ∧ s.boot.ready = true ∧ ∃ b : List Byte, b.length = 64 ∧ ¬(let q := s.queue mgmtQid; q.inFlight < q.depth ∧ (s.buffer 16).length < 256 ∧ s.inFlight 16 < 256)) ∧
    (∃ s : State, ∃ a : BitVec 7, a.toNat = 0x58 + s.smbAddr ∧ s.boot.held = false ∧ s.boot.ready = true ∧ ∃ r rest, (s.queue mgmtQid).sent = r :: rest) ∧
    (∃ s : State, ∃ a : BitVec 7, a.toNat = 0x58 + s.smbAddr ∧ s.boot.held = false ∧ s.boot.ready = true ∧ (s.queue mgmtQid).sent = []) ∧
    (∃ s : State, s.boot.ready = true ∧ (s.queue mgmtQid).sent ≠ []) :=
  ⟨⟨hostS {}, 0, by first | decide +kernel | (dsimp only; decide +kernel)⟩,
   ⟨{ State.reset with boot := ready }, 0x58, by first | decide +kernel | (dsimp only; decide +kernel), by first | decide +kernel | (dsimp only; decide +kernel), by first | decide +kernel | (dsimp only; decide +kernel), List.replicate 64 0, by first | decide +kernel | (dsimp only; decide +kernel)⟩,
   ⟨{ State.reset with boot := ready, flights := [(16, 256)] }, 0x58, by first | decide +kernel | (dsimp only; decide +kernel), by first | decide +kernel | (dsimp only; decide +kernel), by first | decide +kernel | (dsimp only; decide +kernel), List.replicate 64 0, by first | decide +kernel | (dsimp only; decide +kernel)⟩,
   ⟨{ State.reset with boot := ready, queues := [(mgmtQid, { owner := 16, depth := 16, sent := [{ status := 0, ident := 0, opcode := 0, faults := true }] })] }, 0x58, by first | decide +kernel | (dsimp only; decide +kernel), by first | decide +kernel | (dsimp only; decide +kernel), by first | decide +kernel | (dsimp only; decide +kernel), { status := 0, ident := 0, opcode := 0, faults := true }, [], by first | decide +kernel | (dsimp only; decide +kernel)⟩,
   ⟨{ State.reset with boot := ready }, 0x58, by first | decide +kernel | (dsimp only; decide +kernel)⟩,
   ⟨{ State.reset with boot := ready, queues := [(mgmtQid, { owner := 16, depth := 16, sent := [{ status := 0, ident := 0, opcode := 0, faults := true }] })] }, by first | decide +kernel | (dsimp only; decide +kernel)⟩⟩

theorem witness_NopAndIdentifyAnswer :
    (∃ (s : State) (r : Recip) (c : CmdRec) (rest : List CmdRec) (auth : Bool), (c.flags.testBit 1 = false) ∧ (c.opcode = 0x0001 ∨ c.opcode = 0x0002)) ∧
    (∃ (s : State) (r : Recip) (c : CmdRec) (rest : List CmdRec) (auth : Bool), (s.Accepts r c rest 0x0001 auth) ∧ (c.stray [] = false)) ∧
    (∃ (s : State) (r : Recip) (c : CmdRec) (rest : List CmdRec) (auth : Bool), (s.Accepts r c rest 0x0002 auth) ∧ (c.stray [] = false)) :=
  ⟨by
    refine ⟨State.reset, 0, plain 0 1 [], [], false, ?_, ?_⟩
    all_goals try dsimp only
    all_goals try first
      | exact accepts_sealed (r := 0) (by decide +kernel)
      | exact accepts_of (by decide +kernel)
      | exact resumes_run (r := 0) (by decide +kernel)
      | decide +kernel
      | with_reducible rfl,
   by
    refine ⟨openS (State.reset) 0 (plain 0 0x0001 []), 0, plain 0 0x0001 [], [], false, ?_, ?_⟩
    all_goals try dsimp only
    all_goals try first
      | exact accepts_sealed (r := 0) (by decide +kernel)
      | exact accepts_of (by decide +kernel)
      | exact resumes_run (r := 0) (by decide +kernel)
      | decide +kernel
      | with_reducible rfl,
   by
    refine ⟨openS (State.reset) 16 (plain 16 0x0002 []), 16, plain 16 0x0002 [], [], false, ?_, ?_⟩
    all_goals try dsimp only
    all_goals try first
      | exact accepts_sealed (r := 16) (by decide +kernel)
      | exact accepts_of (by decide +kernel)
      | exact resumes_run (r := 16) (by decide +kernel)
      | decide +kernel
      | with_reducible rfl⟩

theorem witness_DeviceCommandsAnswer :
    (∃ (s : State) (r : Recip) (c : CmdRec) (rest : List CmdRec) (auth : Bool), (s.Accepts r c rest 0x0003 auth) ∧ (c.stray [] = false)) ∧
    (∃ (s : State) (r : Recip) (c : CmdRec) (rest : List CmdRec) (auth : Bool), let n := c.num 16 1; (s.Accepts r c rest 0x0005 auth) ∧ (c.stray [(16, 1)] = false) ∧ (n ≤ 10 ∨ 16 ≤ n ∧ n ≤ 24)) ∧
    (∃ (s : State) (r : Recip) (c : CmdRec) (rest : List CmdRec) (auth : Bool), (s.Accepts r c rest 0x0205 auth) ∧ (c.stray [(16, 3)] = false) ∧ (60 ≤ c.num 16 1 ∧ c.num 16 1 ≤ 105) ∧ (c.num 17 1 = 0 ∨ 50 ≤ c.num 17 1 ∧ c.num 17 1 + 5 ≤ c.num 16 1) ∧ (c.num 18 1 ≤ 7)) ∧
    (∃ (s : State) (r : Recip) (c : CmdRec) (rest : List CmdRec) (auth : Bool), (s.Accepts r c rest 0x0206 auth) ∧ (c.num 16 1 = 1 ∧ c.stray [(16, 1), (20, 10)] = false ∧ c.num 20 4 < 2 ^ 30 ∨
        (c.num 16 1 = 2 ∨ c.num 16 1 = 3) ∧ c.stray [(16, 1), (20, 4)] = false ∧ c.num 20 4 ≠ 0)) ∧
    (∃ (s : State) (r : Recip) (c : CmdRec) (rest : List CmdRec) (auth : Bool), (s.Accepts r c rest 0x0605 auth) ∧ (c.stray [(16, 1)] = false)) ∧
    (∃ (s : State) (r : Recip) (c : CmdRec) (rest : List CmdRec) (auth : Bool), let b := s.begun r c rest auth; (s.Accepts r c rest 0x0701 auth) ∧ (c.stray [(16, 8)] = false) ∧ (c.num 20 4 ≤ 65535) ∧ (∀ v ∈ (b.part c.stamp).loaded, v.2.holdoff ≤ c.num 20 4)) ∧
    (∃ (s : State) (r : Recip) (c : CmdRec) (rest : List CmdRec) (auth : Bool), ∃ n, (s.Accepts r c rest 0x0702 auth) ∧ (n = c.num 16 1) ∧ (c.stamp = 16) ∧ (n < 8) ∧ (c.stray [(16, 1)] = false)) ∧
    (∃ (s : State) (r : Recip) (c : CmdRec) (rest : List CmdRec) (auth : Bool), ∃ n, (s.Accepts r c rest 0x0702 auth) ∧ (n = c.num 16 1) ∧ (c.stamp = 16) ∧ (n = 8) ∧ (c.stray [(16, 1)] = false)) ∧
    (∃ (s : State) (r : Recip) (c : CmdRec) (rest : List CmdRec) (auth : Bool), ∃ n, (s.Accepts r c rest 0x0702 auth) ∧ (n = c.num 16 1) ∧ (c.stamp ≠ 16) ∧ (c.stray [] = false)) ∧
    (∃ (s : State) (r : Recip) (c : CmdRec) (rest : List CmdRec) (auth : Bool), (s.Accepts r c rest 0x0703 auth) ∧ (c.stray [(16, 4)] = false) ∧ (40000 ≤ c.num 16 4 ∧ c.num 16 4 ≤ 185000)) :=
  ⟨by
    refine ⟨cmdS (State.reset) 16 (sealed 16 0x0003 []), 16, sealed 16 0x0003 [], [], true, ?_, ?_⟩
    all_goals try dsimp only
    all_goals try first
      | exact accepts_sealed (r := 16) (by decide +kernel)
      | exact accepts_of (by decide +kernel)
      | exact resumes_run (r := 16) (by decide +kernel)
      | decide +kernel
      | with_reducible rfl,
   by
    refine ⟨cmdS (State.reset) 16 (sealed 16 0x0005 [(16, 1, 24)]), 16, sealed 16 0x0005 [(16, 1, 24)], [], true, ?_, ?_, ?_⟩
    all_goals try dsimp only
    all_goals try first
      | exact accepts_sealed (r := 16) (by decide +kernel)
      | exact accepts_of (by decide +kernel)
      | exact resumes_run (r := 16) (by decide +kernel)
      | decide +kernel
      | with_reducible rfl,
   by
    refine ⟨cmdS (State.reset) 16 (sealed 16 0x0205 [(16, 1, 105), (17, 1, 100), (18, 1, 7)]), 16, sealed 16 0x0205 [(16, 1, 105), (17, 1, 100), (18, 1, 7)], [], true, ?_, ?_, ?_, ?_, ?_⟩
    all_goals try dsimp only
    all_goals try first
      | exact accepts_sealed (r := 16) (by decide +kernel)
      | exact accepts_of (by decide +kernel)
      | exact resumes_run (r := 16) (by decide +kernel)
      | decide +kernel
      | with_reducible rfl,
   by
    refine ⟨cmdS (State.reset) 16 (sealed 16 0x0206 [(16, 1, 1), (20, 4, 1073741823), (24, 6, 5)]), 16, sealed 16 0x0206 [(16, 1, 1), (20, 4, 1073741823), (24, 6, 5)], [], true, ?_, ?_⟩
    all_goals try dsimp only
    all_goals try first
      | exact accepts_sealed (r := 16) (by decide +kernel)
      | exact accepts_of (by decide +kernel)
      | exact resumes_run (r := 16) (by decide +kernel)
      | decide +kernel
      | with_reducible rfl,
   by
    refine ⟨cmdS (State.reset) 0 (sealed 0 0x0605 [(16, 1, 255)]), 0, sealed 0 0x0605 [(16, 1, 255)], [], true, ?_, ?_⟩
    all_goals try dsimp only
    all_goals try first
      | exact accepts_sealed (r := 0) (by decide +kernel)
      | exact accepts_of (by decide +kernel)
      | exact resumes_run (r := 0) (by decide +kernel)
      | decide +kernel
      | with_reducible rfl,
   by
    refine ⟨cmdS (State.reset) 0 (sealed 0 0x0701 [(16, 4, 100), (20, 4, 65535)]), 0, sealed 0 0x0701 [(16, 4, 100), (20, 4, 65535)], [], true, ?_, ?_, ?_, ?_⟩
    all_goals try dsimp only
    all_goals try first
      | exact accepts_sealed (r := 0) (by decide +kernel)
      | exact accepts_of (by decide +kernel)
      | exact resumes_run (r := 0) (by decide +kernel)
      | decide +kernel
      | with_reducible rfl,
   by
    refine ⟨cmdS (State.reset) 16 (sealed 16 0x0702 [(16, 1, 7)]), 16, sealed 16 0x0702 [(16, 1, 7)], [], true, 7, ?_, ?_, ?_, ?_, ?_⟩
    all_goals try dsimp only
    all_goals try first
      | exact accepts_sealed (r := 16) (by decide +kernel)
      | exact accepts_of (by decide +kernel)
      | exact resumes_run (r := 16) (by decide +kernel)
      | decide +kernel
      | with_reducible rfl,
   by
    refine ⟨cmdS (State.reset) 16 (sealed 16 0x0702 [(16, 1, 8)]), 16, sealed 16 0x0702 [(16, 1, 8)], [], true, 8, ?_, ?_, ?_, ?_, ?_⟩
    all_goals try dsimp only
    all_goals try first
      | exact accepts_sealed (r := 16) (by decide +kernel)
      | exact accepts_of (by decide +kernel)
      | exact resumes_run (r := 16) (by decide +kernel)
      | decide +kernel
      | with_reducible rfl,
   by
    refine ⟨cmdS (State.reset) 0 (sealed 0 0x0702 []), 0, sealed 0 0x0702 [], [], true, 0, ?_, ?_, ?_, ?_⟩
    all_goals try dsimp only
    all_goals try first
      | exact accepts_sealed (r := 0) (by decide +kernel)
      | exact accepts_of (by decide +kernel)
      | exact resumes_run (r := 0) (by decide +kernel)
      | decide +kernel
      | with_reducible rfl,
   by
    refine ⟨cmdS (State.reset) 16 (sealed 16 0x0703 [(16, 4, 185000)]), 16, sealed 16 0x0703 [(16, 4, 185000)], [], true, ?_, ?_, ?_⟩
    all_goals try dsimp only
    all_goals try first
      | exact accepts_sealed (r := 16) (by decide +kernel)
      | exact accepts_of (by decide +kernel)
      | exact resumes_run (r := 16) (by decide +kernel)
      | decide +kernel
      | with_reducible rfl⟩

theorem witness_LaneCommandsAnswer :
    (∃ (s : State) (r : Recip) (c : CmdRec) (rest : List CmdRec) (auth : Bool), let b := s.begun r c rest auth; ∃ l page f, (s.Accepts r c rest 0x0201 auth) ∧ (l = c.num 16 1) ∧ (page = c.num 17 1) ∧ (f = c.num 20 1) ∧ (l < 64) ∧ (page < 4) ∧ (c.stray (lanePageUsed page) = false) ∧ (c.lanePageReserved page = false) ∧ (page = 0 → fecPermitted (c.num 18 1) (c.num 19 1) = true ∧ c.num 19 1 ≤ 3 ∧ field f 4 2 ≠ 3 ∧ cursorsOk (c.word 24) = true ∧
        (f.testBit 6 = true → 16 ≤ (b.lane l).owner) ∧ (f.testBit 6 = false → (b.lane l).owner = 16 → b.laneInUse l = false)) ∧ (2 ≤ page → (b.lane l).owner = c.stamp)) ∧
    (∃ (s : State) (r : Recip) (c : CmdRec) (rest : List CmdRec) (auth : Bool), let b := s.begun r c rest auth; ∃ l d, (s.Accepts r c rest 0x0202 auth) ∧ (l = c.num 16 1) ∧ (d = c.desc 24) ∧ (l < 64) ∧ (c.stray [(16, 2), (24, 16)] = false) ∧ (c.num 17 1 ≤ 1) ∧ (d.rsv = 0) ∧ (let x := b.lane l; (d.len = 0) ∧ (c.stamp = 16 ∨ x.owner = c.stamp))) ∧
    (∃ (s : State) (r : Recip) (c : CmdRec) (rest : List CmdRec) (auth : Bool), let b := s.begun r c rest auth; ∃ l d, (s.Accepts r c rest 0x0202 auth) ∧ (l = c.num 16 1) ∧ (d = c.desc 24) ∧ (l < 64) ∧ (c.stray [(16, 2), (24, 16)] = false) ∧ (c.num 17 1 ≤ 1) ∧ (d.rsv = 0) ∧ (let x := b.lane l; (d.len = 0) ∧ (c.stamp ≠ 16) ∧ (x.owner = 16))) ∧
    (∃ (s : State) (r : Recip) (c : CmdRec) (rest : List CmdRec) (auth : Bool), let b := s.begun r c rest auth; ∃ l d, (s.Accepts r c rest 0x0202 auth) ∧ (l = c.num 16 1) ∧ (d = c.desc 24) ∧ (l < 64) ∧ (c.stray [(16, 2), (24, 16)] = false) ∧ (c.num 17 1 ≤ 1) ∧ (d.rsv = 0) ∧ (let x := b.lane l; (80 ≤ d.len) ∧ (b.descReady c d 80 true) ∧ (c.stamp = 16 ∨ x.owner = c.stamp))) ∧
    (∃ (s : State) (r : Recip) (c : CmdRec) (rest : List CmdRec) (auth : Bool), let b := s.begun r c rest auth; ∃ p f mask, (s.Accepts r c rest 0x0203 auth) ∧ (p = c.num 16 2) ∧ (f = c.num 18 1) ∧ (mask = c.num 32 8) ∧ (c.stray [(16, 5), (24, 6), (32, 8)] = false) ∧ (p < 512) ∧ (f < 8) ∧ (c.num 19 1 < 16) ∧ (c.num 20 1 < 16) ∧ (∀ x ∈ b.streams, x.2.state = 0 ∨ x.2.partner ≠ p ∧ mask.testBit x.2.lane = false) ∧ (
      let e := c.num 24 6 * 2 ^ 32 + 2 ^ 31 + bit (f.testBit 1) * 2 ^ 30 + c.num 19 1 * 2 ^ 26 + bit (f.testBit 2) * 2 ^ 25
        + c.num 20 1 * 2 ^ 21; (f.testBit 0 = true) ∧ (partnerIb e = true → ∀ x ∈ b.partners, x.1 = p ∨ x.2.testBit 31 = false ∨ partnerIb x.2 = false ∨
          partnerIbh x.2 ≠ partnerIbh e))) ∧
    (∃ (s : State) (r : Recip) (c : CmdRec) (rest : List CmdRec) (auth : Bool), let b := s.begun r c rest auth; ∃ p f mask, (s.Accepts r c rest 0x0203 auth) ∧ (p = c.num 16 2) ∧ (f = c.num 18 1) ∧ (mask = c.num 32 8) ∧ (c.stray [(16, 5), (24, 6), (32, 8)] = false) ∧ (p < 512) ∧ (f < 8) ∧ (c.num 19 1 < 16) ∧ (c.num 20 1 < 16) ∧ (∀ x ∈ b.streams, x.2.state = 0 ∨ x.2.partner ≠ p ∧ mask.testBit x.2.lane = false) ∧ ((f.testBit 0 = false))) ∧
    (∃ (s : State) (r : Recip) (c : CmdRec) (rest : List CmdRec) (auth : Bool), let b := s.begun r c rest auth; (s.Accepts r c rest 0x0204 auth) ∧ (c.stray [(16, 16)] = false) ∧ ((c.desc 16).rsv = 0) ∧ (32 ≤ (c.desc 16).len) ∧ ((c.desc 16).space = 0) ∧ (qidKind c.qid = 0)) ∧
    (∃ (s : State) (r : Recip) (c : CmdRec) (rest : List CmdRec) (auth : Bool), let b := s.begun r c rest auth; (s.Accepts r c rest 0x0204 auth) ∧ (c.stray [(16, 16)] = false) ∧ ((c.desc 16).rsv = 0) ∧ (32 ≤ (c.desc 16).len) ∧ (let m := b.readRange c.stamp (c.desc 16).addr 32; ((c.desc 16).space = 1) ∧ (b.rangeAt c.stamp (c.desc 16).addr 32 false = 0) ∧ (b.noTags c.stamp = false) ∧ (m.status = stOk) ∧ (m.poison = none) ∧ (descStatus m.data = stOk) ∧ (∀ x, x < 16 → m.s.mem.bankOwner x = 31))) ∧
    (∃ (s : State) (r : Recip) (c : CmdRec) (rest : List CmdRec) (auth : Bool), let b := s.begun r c rest auth; (s.Accepts r c rest 0x0204 auth) ∧ (c.stray [(16, 16)] = false) ∧ ((c.desc 16).rsv = 0) ∧ (32 ≤ (c.desc 16).len) ∧ (let m := b.readRange c.stamp (c.desc 16).addr 32; ((c.desc 16).space = 1) ∧ (b.rangeAt c.stamp (c.desc 16).addr 32 false = 0) ∧ (b.noTags c.stamp = false) ∧ (m.status = stOk) ∧ (m.poison ≠ none))) ∧
    (∃ (s : State) (r : Recip) (c : CmdRec) (rest : List CmdRec) (auth : Bool), let b := s.begun r c rest auth; (s.Accepts r c rest 0x0204 auth) ∧ (c.stray [(16, 16)] = false) ∧ ((c.desc 16).rsv = 0) ∧ (32 ≤ (c.desc 16).len) ∧ (let m := b.readRange c.stamp (c.desc 16).addr 32; ((c.desc 16).space = 1) ∧ (b.rangeAt c.stamp (c.desc 16).addr 32 false = 0) ∧ (b.noTags c.stamp = false) ∧ (m.status ≠ stOk))) ∧
    (∃ (s : State) (r : Recip) (c : CmdRec) (rest : List CmdRec) (auth : Bool), ∃ x p, (s.Resumes r x 0x0204 (1 :: p)) ∧ (∀ y, y < 12 → (s.mem.ctlOf y).state ≠ 1)) :=
  ⟨by
    refine ⟨cmdS (State.reset) 16 (sealed 16 0x0201 [(16, 1, 63), (17, 1, 0), (18, 1, 3), (19, 1, 2)]), 16, sealed 16 0x0201 [(16, 1, 63), (17, 1, 0), (18, 1, 3), (19, 1, 2)], [], true, 63, 0, 0, ?_, ?_, ?_, ?_, ?_, ?_, ?_, ?_, ?_, ?_⟩
    all_goals try dsimp only
    all_goals try first
      | exact accepts_sealed (r := 16) (by decide +kernel)
      | exact accepts_of (by decide +kernel)
      | exact resumes_run (r := 16) (by decide +kernel)
      | decide +kernel
      | with_reducible rfl,
   by
    refine ⟨cmdS (State.reset) 16 (sealed 16 0x0202 [(16, 1, 63), (17, 1, 1)]), 16, sealed 16 0x0202 [(16, 1, 63), (17, 1, 1)], [], true, 63, ?v1, ?_, ?_, ?_, ?_, ?_, ?_, ?_, ?_, ?_⟩
    all_goals try dsimp only
    all_goals try first
      | exact accepts_sealed (r := 16) (by decide +kernel)
      | exact accepts_of (by decide +kernel)
      | exact resumes_run (r := 16) (by decide +kernel)
      | decide +kernel
      | with_reducible rfl,
   by
    refine ⟨cmdS ({ State.reset with lanes := [(3, { ctrl := 0x10000000 })] }) 0 (sealed 0 0x0202 [(16, 1, 3)]), 0, sealed 0 0x0202 [(16, 1, 3)], [], true, 3, ?v2, ?_, ?_, ?_, ?_, ?_, ?_, ?_, ?_, ?_, ?_⟩
    all_goals try dsimp only
    all_goals try first
      | exact accepts_sealed (r := 0) (by decide +kernel)
      | exact accepts_of (by decide +kernel)
      | exact resumes_run (r := 0) (by decide +kernel)
      | decide +kernel
      | with_reducible rfl,
   by
    refine ⟨cmdS (State.reset) 16 (sealed 16 0x0202 [(16, 1, 63), (24, 8, 4096), (32, 4, 80)]), 16, sealed 16 0x0202 [(16, 1, 63), (24, 8, 4096), (32, 4, 80)], [], true, 63, ?v3, ?_, ?_, ?_, ?_, ?_, ?_, ?_, ?_, ?_, ?_⟩
    all_goals try dsimp only
    all_goals try first
      | exact accepts_sealed (r := 16) (by decide +kernel)
      | exact accepts_of (by decide +kernel)
      | exact waits_run (r := 16) (by decide +kernel)
      | decide +kernel
      | with_reducible rfl
      | exact Or.inl (by decide +kernel)
      | exact Or.inr (by decide +kernel),
   by
    refine ⟨cmdS (State.reset) 16 (sealed 16 0x0203 [(16, 2, 511), (18, 1, 7), (19, 1, 15), (20, 1, 15), (24, 6, 1), (32, 8, 1)]), 16, sealed 16 0x0203 [(16, 2, 511), (18, 1, 7), (19, 1, 15), (20, 1, 15), (24, 6, 1), (32, 8, 1)], [], true, 511, 7, 1, ?_, ?_, ?_, ?_, ?_, ?_, ?_, ?_, ?_, ?_, ?_, ?_⟩
    all_goals try dsimp only
    all_goals try first
      | exact accepts_sealed (r := 16) (by decide +kernel)
      | exact accepts_of (by decide +kernel)
      | exact resumes_run (r := 16) (by decide +kernel)
      | decide +kernel
      | with_reducible rfl,
   by
    refine ⟨cmdS (State.reset) 16 (sealed 16 0x0203 [(16, 2, 511)]), 16, sealed 16 0x0203 [(16, 2, 511)], [], true, 511, 0, 0, ?_, ?_, ?_, ?_, ?_, ?_, ?_, ?_, ?_, ?_, ?_⟩
    all_goals try dsimp only
    all_goals try first
      | exact accepts_sealed (r := 16) (by decide +kernel)
      | exact accepts_of (by decide +kernel)
      | exact resumes_run (r := 16) (by decide +kernel)
      | decide +kernel
      | with_reducible rfl,
   by
    refine ⟨cmdS (State.reset) 16 (sealed 16 0x0204 [(16, 8, 4096), (24, 4, 32)]), 16, sealed 16 0x0204 [(16, 8, 4096), (24, 4, 32)], [], true, ?_, ?_, ?_, ?_, ?_, ?_⟩
    all_goals try dsimp only
    all_goals try first
      | exact accepts_sealed (r := 16) (by decide +kernel)
      | exact accepts_of (by decide +kernel)
      | exact waits_run (r := 16) (by decide +kernel)
      | decide +kernel
      | with_reducible rfl
      | exact Or.inl (by decide +kernel)
      | exact Or.inr (by decide +kernel),
   by
    refine ⟨cmdS ({ State.reset with mem := { capacity := 2 ^ 34, lines := [(dramBase / 64, some { data := [1, 1, 1, 0, 3, 4, 4, 2, 0, 8, 0, 0, 0x78, 0x1E, 0, 0] ++ List.replicate 48 0, key := 0 })] } }) 16 (sealed 16 0x0204 [(16, 8, dramBase), (24, 4, 32), (28, 1, 1)]), 16, sealed 16 0x0204 [(16, 8, dramBase), (24, 4, 32), (28, 1, 1)], [], true, ?_, ?_, ?_, ?_, ?_, ?_, ?_, ?_, ?_, ?_, ?_⟩
    all_goals try dsimp only
    all_goals try first
      | exact accepts_sealed (r := 16) (by decide +kernel)
      | exact accepts_of (by decide +kernel)
      | exact waits_run (r := 16) (by decide +kernel)
      | decide +kernel
      | with_reducible rfl
      | exact Or.inl (by decide +kernel)
      | exact Or.inr (by decide +kernel),
   by
    refine ⟨cmdS ({ State.reset with mem := { capacity := 2 ^ 34, lines := [(dramBase / 64, some { data := List.replicate 64 0, key := 0, poison := true })] } }) 16 (sealed 16 0x0204 [(16, 8, dramBase), (24, 4, 32), (28, 1, 1)]), 16, sealed 16 0x0204 [(16, 8, dramBase), (24, 4, 32), (28, 1, 1)], [], true, ?_, ?_, ?_, ?_, ?_, ?_, ?_, ?_, ?_⟩
    all_goals try dsimp only
    all_goals try first
      | exact accepts_sealed (r := 16) (by decide +kernel)
      | exact accepts_of (by decide +kernel)
      | exact waits_run (r := 16) (by decide +kernel)
      | decide +kernel
      | with_reducible rfl
      | exact Or.inl (by decide +kernel)
      | exact Or.inr (by decide +kernel),
   by
    refine ⟨cmdS ({ State.reset with mem := { capacity := 2 ^ 34, ctl := (List.range 12).map fun k => (k, { owner := [(15, 0x8000001F)] }) } }) 16 (sealed 16 0x0204 [(16, 8, (dramBase + 2 ^ 34 - 64)), (24, 4, 32), (28, 1, 1)]), 16, sealed 16 0x0204 [(16, 8, (dramBase + 2 ^ 34 - 64)), (24, 4, 32), (28, 1, 1)], [], true, ?_, ?_, ?_, ?_, ?_, ?_, ?_, ?_⟩
    all_goals try dsimp only
    all_goals try first
      | exact accepts_sealed (r := 16) (by decide +kernel)
      | exact accepts_of (by decide +kernel)
      | exact waits_run (r := 16) (by decide +kernel)
      | decide +kernel
      | with_reducible rfl
      | exact Or.inl (by decide +kernel)
      | exact Or.inr (by decide +kernel),
   by
    refine ⟨runS (State.reset) 16 { cmd := plain 16 0x0204 [], wait := .again [1] }, 16, plain 16 0x0204 [], [], true, { cmd := plain 16 0x0204 [], wait := .again [1] }, [], ?_, ?_⟩
    all_goals try dsimp only
    all_goals try first
      | exact accepts_sealed (r := 16) (by decide +kernel)
      | exact accepts_of (by decide +kernel)
      | exact resumes_run (r := 16) (by decide +kernel)
      | decide +kernel
      | with_reducible rfl⟩

theorem witness_IntegrityCommandsAnswer :
    (∃ (s : State) (r : Recip) (c : CmdRec) (rest : List CmdRec) (auth : Bool), (s.Accepts r c rest 0x0802 auth) ∧ (c.stray [(16, 1)] = false) ∧ (c.num 16 1 = 1 ∨ c.num 16 1 = 2)) ∧
    (∃ (s : State) (r : Recip) (c : CmdRec) (rest : List CmdRec) (auth : Bool), (s.Accepts r c rest 0x0803 auth) ∧ (c.num 16 1 = 1) ∧ (c.stray [(16, 2), (20, 4)] = false) ∧ (c.num 17 1 ≤ 1) ∧ (100 ≤ c.num 20 4 ∧ c.num 20 4 ≤ 3600000)) ∧
    (∃ (s : State) (r : Recip) (c : CmdRec) (rest : List CmdRec) (auth : Bool), (s.Accepts r c rest 0x0803 auth) ∧ (c.num 16 1 = 2) ∧ (c.stray [(16, 2)] = false) ∧ (c.num 17 1 ≤ 1)) ∧
    (∃ (s : State) (r : Recip) (c : CmdRec) (rest : List CmdRec) (auth : Bool), let b := s.begun r c rest auth; ∃ d n dist, (s.Accepts r c rest 0x0804 auth) ∧ (d = c.desc 24) ∧ (n = c.num 20 2) ∧ (dist = (c.num 16 4 + 2 ^ 32 - b.logOldest) % 2 ^ 32) ∧ (c.stray [(16, 6), (24, 16)] = false) ∧ (d.rsv = 0) ∧ (1 ≤ n) ∧ (n ≤ 256) ∧ (32 * n ≤ d.len) ∧ (b.descReady c d (32 * n) true)) ∧
    (∃ (s : State) (r : Recip) (c : CmdRec) (rest : List CmdRec) (auth : Bool), let b := s.begun r c rest auth; ∃ n a, (s.Accepts r c rest 0x0805 auth) ∧ (n = c.num 16 1) ∧ (n = 1 ∨ n = 2 ∨ n = 3) ∧ (b.locate c.stamp (c.num 24 8) 1 true = .ok a) ∧ (c.stray ([(16, 1), (24, 8)] ++ if n = 3 then [] else [(35, 1)]) = false) ∧ (n ≠ 3 → c.num 35 1 + (n - 1) ≤ if (areaOf (a % 2 ^ 44)).sram then 38 else 71) ∧ (b.ownMemory c.stamp (a % 2 ^ 44) = true) ∧ (b.addressOff (a % 2 ^ 44) = false)) ∧
    (∃ (s : State) (r : Recip) (c : CmdRec) (rest : List CmdRec) (auth : Bool), let b := s.begun r c rest auth; ∃ p, (s.Accepts r c rest 0x0805 auth) ∧ (c.num 16 1 = 4) ∧ (c.stray [(16, 1), (32, 6)] = false) ∧ (c.num 34 1 ≤ 63) ∧ (c.num 35 1 ≤ 31) ∧ (c.num 36 2 ≤ 255) ∧ (b.tileOfLogical (c.num 32 2) = some p) ∧ (b.ownerOf p = c.stamp) ∧ (b.tileOff p = false)) ∧
    (∃ (s : State) (r : Recip) (c : CmdRec) (rest : List CmdRec) (auth : Bool), (s.Accepts r c rest 0x0805 auth) ∧ (c.num 16 1 = 5) ∧ (c.stray [(16, 1)] = false)) ∧
    (∃ (s : State) (r : Recip) (c : CmdRec) (rest : List CmdRec) (auth : Bool), (s.Accepts r c rest 0x0805 auth) ∧ (c.num 16 1 = 6) ∧ (c.stray [(16, 1), (35, 1)] = false)) ∧
    (∃ (s : State) (r : Recip) (c : CmdRec) (rest : List CmdRec) (auth : Bool), let b := s.begun r c rest auth; ∃ code, (s.Accepts r c rest 0x0A01 auth) ∧ (code = c.num 16 2) ∧ (c.stray [(16, 3), (20, 4)] = false) ∧ (eventCodes.contains code ∨ code = 0xFFFF) ∧ (c.stamp ≠ 16 → code ≠ 0x50) ∧ (c.num 18 1 ≤ 1) ∧ ((b.queue (c.num 20 4)).owner = c.stamp)) ∧
    (∃ (s : State) (r : Recip) (c : CmdRec) (rest : List CmdRec) (auth : Bool), (s.Accepts r c rest 0x0A02 auth) ∧ (c.stray [(16, 2)] = false)) :=
  ⟨by
    refine ⟨cmdS (State.reset) 16 (sealed 16 0x0802 [(16, 1, 1)]), 16, sealed 16 0x0802 [(16, 1, 1)], [], true, ?_, ?_, ?_⟩
    all_goals try dsimp only
    all_goals try first
      | exact accepts_sealed (r := 16) (by decide +kernel)
      | exact accepts_of (by decide +kernel)
      | exact resumes_run (r := 16) (by decide +kernel)
      | decide +kernel
      | with_reducible rfl,
   by
    refine ⟨cmdS (State.reset) 16 (sealed 16 0x0803 [(16, 1, 1), (17, 1, 1), (20, 4, 3600000)]), 16, sealed 16 0x0803 [(16, 1, 1), (17, 1, 1), (20, 4, 3600000)], [], true, ?_, ?_, ?_, ?_, ?_⟩
    all_goals try dsimp only
    all_goals try first
      | exact accepts_sealed (r := 16) (by decide +kernel)
      | exact accepts_of (by decide +kernel)
      | exact resumes_run (r := 16) (by decide +kernel)
      | decide +kernel
      | with_reducible rfl,
   by
    refine ⟨cmdS (State.reset) 16 (sealed 16 0x0803 [(16, 1, 2)]), 16, sealed 16 0x0803 [(16, 1, 2)], [], true, ?_, ?_, ?_, ?_⟩
    all_goals try dsimp only
    all_goals try first
      | exact accepts_sealed (r := 16) (by decide +kernel)
      | exact accepts_of (by decide +kernel)
      | exact resumes_run (r := 16) (by decide +kernel)
      | decide +kernel
      | with_reducible rfl,
   by
    refine ⟨cmdS (State.reset) 16 (sealed 16 0x0804 [(20, 2, 256), (24, 8, 4096), (32, 4, 8192)]), 16, sealed 16 0x0804 [(20, 2, 256), (24, 8, 4096), (32, 4, 8192)], [], true, ?v6, 256, 0, ?_, ?_, ?_, ?_, ?_, ?_, ?_, ?_, ?_, ?_⟩
    all_goals try dsimp only
    all_goals try first
      | exact accepts_sealed (r := 16) (by decide +kernel)
      | exact accepts_of (by decide +kernel)
      | exact waits_run (r := 16) (by decide +kernel)
      | decide +kernel
      | with_reducible rfl
      | exact Or.inl (by decide +kernel)
      | exact Or.inr (by decide +kernel),
   by
    refine ⟨cmdS (dramG) 16 (sealed 16 0x0805 [(16, 1, 2), (24, 8, dramBase), (35, 1, 70)]), 16, sealed 16 0x0805 [(16, 1, 2), (24, 8, dramBase), (35, 1, 70)], [], true, 2, dramBase, ?_, ?_, ?_, ?_, ?_, ?_, ?_, ?_⟩
    all_goals try dsimp only
    all_goals try first
      | exact accepts_sealed (r := 16) (by decide +kernel)
      | exact accepts_of (by decide +kernel)
      | exact resumes_run (r := 16) (by decide +kernel)
      | decide +kernel
      | with_reducible rfl,
   by
    refine ⟨cmdS (one []) 0 (sealed 0 0x0805 [(16, 1, 4), (32, 2, 0), (34, 1, 63), (35, 1, 31), (36, 2, 255)]), 0, sealed 0 0x0805 [(16, 1, 4), (32, 2, 0), (34, 1, 63), (35, 1, 31), (36, 2, 255)], [], true, 0, ?_, ?_, ?_, ?_, ?_, ?_, ?_, ?_, ?_⟩
    all_goals try dsimp only
    all_goals try first
      | exact accepts_sealed (r := 0) (by decide +kernel)
      | exact accepts_of (by decide +kernel)
      | exact resumes_run (r := 0) (by decide +kernel)
      | decide +kernel
      | with_reducible rfl,
   by
    refine ⟨cmdS (State.reset) 0 (sealed 0 0x0805 [(16, 1, 5)]), 0, sealed 0 0x0805 [(16, 1, 5)], [], true, ?_, ?_, ?_⟩
    all_goals try dsimp only
    all_goals try first
      | exact accepts_sealed (r := 0) (by decide +kernel)
      | exact accepts_of (by decide +kernel)
      | exact resumes_run (r := 0) (by decide +kernel)
      | decide +kernel
      | with_reducible rfl,
   by
    refine ⟨cmdS (State.reset) 16 (sealed 16 0x0805 [(16, 1, 6), (35, 1, 255)]), 16, sealed 16 0x0805 [(16, 1, 6), (35, 1, 255)], [], true, ?_, ?_, ?_⟩
    all_goals try dsimp only
    all_goals try first
      | exact accepts_sealed (r := 16) (by decide +kernel)
      | exact accepts_of (by decide +kernel)
      | exact resumes_run (r := 16) (by decide +kernel)
      | decide +kernel
      | with_reducible rfl,
   by
    refine ⟨cmdS (State.reset) 16 (sealed 16 0x0A01 [(16, 2, 65535), (18, 1, 1), (20, 4, 131072)]), 16, sealed 16 0x0A01 [(16, 2, 65535), (18, 1, 1), (20, 4, 131072)], [], true, 0xFFFF, ?_, ?_, ?_, ?_, ?_, ?_, ?_⟩
    all_goals try dsimp only
    all_goals try first
      | exact accepts_sealed (r := 16) (by decide +kernel)
      | exact accepts_of (by decide +kernel)
      | exact resumes_run (r := 16) (by decide +kernel)
      | decide +kernel
      | with_reducible rfl,
   by
    refine ⟨cmdS (State.reset) 0 (sealed 0 0x0A02 [(16, 2, 255)]), 0, sealed 0 0x0A02 [(16, 2, 255)], [], true, ?_, ?_⟩
    all_goals try dsimp only
    all_goals try first
      | exact accepts_sealed (r := 0) (by decide +kernel)
      | exact accepts_of (by decide +kernel)
      | exact resumes_run (r := 0) (by decide +kernel)
      | decide +kernel
      | with_reducible rfl⟩

theorem witness_MemoryCommandsAnswer_1 :
    (∃ (s : State) (r : Recip) (c : CmdRec) (rest : List CmdRec) (auth : Bool), let b := s.begun r c rest auth; let a := c.num 16 8; let n := c.num 24 4; let clear (wr : Bool) := 0 < n ∧ n ≤ memMax ∧ b.rangeAt c.stamp a n wr = 0 ∧ b.noTags c.stamp = false; (s.Accepts r c rest 0x0301 auth) ∧ (clear true) ∧ ((c.num 28 1 = 0) ∧ (n ≤ 32) ∧ (c.stray [(16, 13), (32, 32)] = false))) ∧
    (∃ (s : State) (r : Recip) (c : CmdRec) (rest : List CmdRec) (auth : Bool), let b := s.begun r c rest auth; let a := c.num 16 8; let n := c.num 24 4; let d := c.desc 32; let clear (wr : Bool) := 0 < n ∧ n ≤ memMax ∧ b.rangeAt c.stamp a n wr = 0 ∧ b.noTags c.stamp = false; (s.Accepts r c rest 0x0301 auth) ∧ (clear true) ∧ ((c.num 28 1 = 1) ∧ (c.stray [(16, 13), (32, 16)] = false) ∧ (d.rsv = 0) ∧ (n ≤ d.len) ∧ (d.space = 0) ∧ (qidKind c.qid = 0))) ∧
    (∃ (s : State) (r : Recip) (c : CmdRec) (rest : List CmdRec) (auth : Bool), let b := s.begun r c rest auth; let a := c.num 16 8; let n := c.num 24 4; let d := c.desc 32; let clear (wr : Bool) := 0 < n ∧ n ≤ memMax ∧ b.rangeAt c.stamp a n wr = 0 ∧ b.noTags c.stamp = false; (s.Accepts r c rest 0x0301 auth) ∧ (clear true) ∧ ((c.num 28 1 = 1) ∧ (c.stray [(16, 13), (32, 16)] = false) ∧ (d.rsv = 0) ∧ (n ≤ d.len) ∧ (d.space = 1) ∧ (b.rangeAt c.stamp d.addr n false = 0) ∧ (b.noTags c.stamp = false) ∧ (∃ i, (i = b.readRange c.stamp d.addr n) ∧ (i.status = stOk) ∧ (i.poison = none)))) ∧
    (∃ (s : State) (r : Recip) (c : CmdRec) (rest : List CmdRec) (auth : Bool), let b := s.begun r c rest auth; let a := c.num 16 8; let n := c.num 24 4; let clear (wr : Bool) := 0 < n ∧ n ≤ memMax ∧ b.rangeAt c.stamp a n wr = 0 ∧ b.noTags c.stamp = false; (s.Accepts r c rest 0x0302 auth) ∧ (clear false) ∧ (∃ m, (m = b.readRange c.stamp a n) ∧ ((c.num 28 1 = 0) ∧ (n ≤ 8) ∧ (c.stray [(16, 13)] = false)))) ∧
    (∃ (s : State) (r : Recip) (c : CmdRec) (rest : List CmdRec) (auth : Bool), let b := s.begun r c rest auth; let a := c.num 16 8; let n := c.num 24 4; let d := c.desc 32; let clear (wr : Bool) := 0 < n ∧ n ≤ memMax ∧ b.rangeAt c.stamp a n wr = 0 ∧ b.noTags c.stamp = false; (s.Accepts r c rest 0x0302 auth) ∧ (clear false) ∧ (∃ m, (m = b.readRange c.stamp a n) ∧ ((c.num 28 1 = 1) ∧ (c.stray [(16, 13), (32, 16)] = false) ∧ (d.rsv = 0) ∧ (n ≤ d.len) ∧ (b.descReady c d n true)))) :=
  ⟨by
    refine ⟨cmdS (dramG) 16 (sealed 16 0x0301 [(16, 8, dramBase), (24, 4, 32), (32, 1, 7)]), 16, sealed 16 0x0301 [(16, 8, dramBase), (24, 4, 32), (32, 1, 7)], [], true, ?_, ?_, ?_, ?_, ?_⟩
    all_goals try dsimp only
    all_goals try first
      | exact accepts_sealed (r := 16) (by decide +kernel)
      | exact accepts_of (by decide +kernel)
      | exact resumes_run (r := 16) (by decide +kernel)
      | decide +kernel
      | with_reducible rfl,
   by
    refine ⟨cmdS (dramG) 16 (sealed 16 0x0301 [(16, 8, dramBase), (24, 4, 1), (28, 1, 1), (40, 4, 1)]), 16, sealed 16 0x0301 [(16, 8, dramBase), (24, 4, 1), (28, 1, 1), (40, 4, 1)], [], true, ?_, ?_, ?_, ?_, ?_, ?_, ?_, ?_⟩
    all_goals try dsimp only
    all_goals try first
      | exact accepts_sealed (r := 16) (by decide +kernel)
      | exact accepts_of (by decide +kernel)
      | exact resumes_run (r := 16) (by decide +kernel)
      | decide +kernel
      | with_reducible rfl,
   by
    refine ⟨cmdS (dramG) 16 (sealed 16 0x0301 [(16, 8, dramBase), (24, 4, 8), (28, 1, 1), (32, 8, dramBase + 64), (40, 4, 8), (44, 1, 1)]), 16, sealed 16 0x0301 [(16, 8, dramBase), (24, 4, 8), (28, 1, 1), (32, 8, dramBase + 64), (40, 4, 8), (44, 1, 1)], [], true, ?_, ?_, ?_, ?_, ?_, ?_, ?_, ?_, ?_, ?v7, ?_, ?_, ?_⟩
    all_goals try dsimp only
    all_goals try first
      | exact accepts_sealed (r := 16) (by decide +kernel)
      | exact accepts_of (by decide +kernel)
      | exact waits_run (r := 16) (by decide +kernel)
      | decide +kernel
      | with_reducible rfl
      | exact Or.inl (by decide +kernel)
      | exact Or.inr (by decide +kernel),
   by
    refine ⟨cmdS (dramG) 16 (sealed 16 0x0302 [(16, 8, dramBase), (24, 4, 8)]), 16, sealed 16 0x0302 [(16, 8, dramBase), (24, 4, 8)], [], true, ?_, ?_, ?v9, ?_, ?_, ?_, ?_⟩
    all_goals try dsimp only
    all_goals try first
      | exact accepts_sealed (r := 16) (by decide +kernel)
      | exact accepts_of (by decide +kernel)
      | exact resumes_run (r := 16) (by decide +kernel)
      | decide +kernel
      | with_reducible rfl,
   by
    refine ⟨cmdS (dramG) 16 (sealed 16 0x0302 [(16, 8, dramBase), (24, 4, 8), (28, 1, 1), (40, 4, 8)]), 16, sealed 16 0x0302 [(16, 8, dramBase), (24, 4, 8), (28, 1, 1), (40, 4, 8)], [], true, ?_, ?_, ?v10, ?_, ?_, ?_, ?_, ?_, ?_⟩
    all_goals try dsimp only
    all_goals try first
      | exact accepts_sealed (r := 16) (by decide +kernel)
      | exact accepts_of (by decide +kernel)
      | exact waits_run (r := 16) (by decide +kernel)
      | decide +kernel
      | with_reducible rfl
      | exact Or.inl (by decide +kernel)
      | exact Or.inr (by decide +kernel)⟩

theorem witness_MemoryCommandsAnswer_2 :
    (∃ (s : State) (r : Recip) (c : CmdRec) (rest : List CmdRec) (auth : Bool), let b := s.begun r c rest auth; let a := c.num 16 8; let n := c.num 24 4; let clear (wr : Bool) := 0 < n ∧ n ≤ memMax ∧ b.rangeAt c.stamp a n wr = 0 ∧ b.noTags c.stamp = false; (s.Accepts r c rest 0x0303 auth) ∧ (clear true) ∧ (c.num 28 1 = 4 ∨ c.num 28 1 = 8) ∧ (c.stray [(16, 13), (32, 8)] = false) ∧ (a % c.num 28 1 = 0) ∧ (n % c.num 28 1 = 0) ∧ (∃ m, (m = b.writeRange c.stamp a ((List.range n).map fun i => (c.sub 32 (c.num 28 1)).getD (i % c.num 28 1) 0)))) ∧
    (∃ (s : State) (r : Recip) (c : CmdRec) (rest : List CmdRec) (auth : Bool), let b := s.begun r c rest auth; let a := c.num 16 8; ∃ w e u, (s.Accepts r c rest 0x0304 auth) ∧ (w = c.num 25 1) ∧ (c.stray [(16, 10), (32, 16)] = false) ∧ (1 ≤ c.num 24 1) ∧ (c.num 24 1 ≤ 8) ∧ (w = 4 ∨ w = 8) ∧ (a % w = 0) ∧ (a < 2 ^ 44) ∧ (¬(0x04000000 ≤ a ∧ a < 0x04400000)) ∧ (b.rangeAt c.stamp a w true = 0) ∧ (b.noTags c.stamp = false) ∧ (b.deviceOf c.stamp a w true = some e) ∧ (u = b.serve c.stamp 3 e 24 (c.sub 24 2 ++ leBytes 6 0 ++ c.sub 32 16)) ∧ (u.1 = stOk ∨ u.1 = stPoison)) ∧
    (∃ (s : State) (r : Recip) (c : CmdRec) (rest : List CmdRec) (auth : Bool), let b := s.begun r c rest auth; let a := c.num 16 8; let d := c.desc 32; ∃ len x v, (s.Accepts r c rest 0x0801 auth) ∧ (len = c.num 24 8) ∧ (c.stray [(16, 32)] = false) ∧ (d.rsv = 0) ∧ (0 < len) ∧ (scrubKind a len ≠ 0) ∧ (a % (if scrubKind a len = 2 then 64 else 4) = 0) ∧ (len % (if scrubKind a len = 2 then 64 else 4) = 0) ∧ (64 ≤ d.len) ∧ (b.rangeAt c.stamp a len false = 0) ∧ (b.scrubOwned c.stamp a len = true) ∧ (b.scrubOff c.stamp a len = false) ∧ (b.noTags c.stamp = false) ∧ (b.descReady c d 64 true) ∧ (x = b.scrub c.stamp a len) ∧ (v = Config.free x.s.draw.1)) ∧
    (∃ (s : State) (r : Recip) (c : CmdRec) (rest : List CmdRec) (auth : Bool), ∃ (p : Fin 4), ∃ (i : Fin 256), ∃ h y, ((s.hostReads.filter fun h => h.port == p.val)[i.val]? = some h) ∧ (h.fetch = none) ∧ (h.payload = some c) ∧ ((s.running.find? fun y => y.cmd == c && y.wait == .payload) = some y) ∧ (s.onCore c = true)) ∧
    (∃ (s : State) (r : Recip) (c : CmdRec) (rest : List CmdRec) (auth : Bool), let a := c.num 16 8; let n := c.num 24 4; ∃ y more m, ((s.running.filter fun y => y.cmd.stamp == r.val && y.wait == .translate && s.onCore y.cmd) = y :: more) ∧ (y.cmd.opcode = 0x0303) ∧ (let a := y.cmd.num 16 8; let n := y.cmd.num 24 4; let w := y.cmd.num 28 1; let z := s.without y; (0 < n) ∧ (n ≤ memMax) ∧ (w = 4 ∨ w = 8) ∧ (a % w = 0) ∧ (n % w = 0) ∧ (y.cmd.stray [(16, 13), (32, 8)] = false) ∧ (z.rangeAt y.cmd.stamp a n true = 0) ∧ (z.noTags y.cmd.stamp = false) ∧ (m = z.writeRange y.cmd.stamp a ((List.range n).map fun i => (y.cmd.sub 32 w).getD (i % w) 0)))) :=
  ⟨by
    refine ⟨cmdS (dramG) 16 (sealed 16 0x0303 [(16, 8, dramBase), (24, 4, 16), (28, 1, 8)]), 16, sealed 16 0x0303 [(16, 8, dramBase), (24, 4, 16), (28, 1, 8)], [], true, ?_, ?_, ?_, ?_, ?_, ?_, ?v11, ?_⟩
    all_goals try dsimp only
    all_goals try first
      | exact accepts_sealed (r := 16) (by decide +kernel)
      | exact accepts_of (by decide +kernel)
      | exact resumes_run (r := 16) (by decide +kernel)
      | decide +kernel
      | with_reducible rfl,
   by
    refine ⟨cmdS (dramG) 16 (sealed 16 0x0304 [(16, 8, dramBase), (24, 1, 8), (25, 1, 8)]), 16, sealed 16 0x0304 [(16, 8, dramBase), (24, 1, 8), (25, 1, 8)], [], true, 8, dramBase, ?v12, ?_, ?_, ?_, ?_, ?_, ?_, ?_, ?_, ?_, ?_, ?_, ?_, ?_, ?_⟩
    all_goals try dsimp only
    all_goals try first
      | exact accepts_sealed (r := 16) (by decide +kernel)
      | exact accepts_of (by decide +kernel)
      | exact resumes_run (r := 16) (by decide +kernel)
      | decide +kernel
      | with_reducible rfl,
   by
    refine ⟨cmdS (dramG) 16 (sealed 16 0x0801 [(16, 8, dramBase), (24, 8, 64), (40, 4, 64)]), 16, sealed 16 0x0801 [(16, 8, dramBase), (24, 8, 64), (40, 4, 64)], [], true, 64, ?v13, ?v14, ?_, ?_, ?_, ?_, ?_, ?_, ?_, ?_, ?_, ?_, ?_, ?_, ?_, ?_, ?_, ?_⟩
    all_goals try dsimp only
    all_goals try first
      | exact accepts_sealed (r := 16) (by decide +kernel)
      | exact accepts_of (by decide +kernel)
      | exact waits_run (r := 16) (by decide +kernel)
      | decide +kernel
      | with_reducible rfl
      | exact Or.inl (by decide +kernel)
      | exact Or.inr (by decide +kernel),
   by
    refine ⟨{ runS State.reset 16 { cmd := plain 16 0x0301 [], wait := .payload } with hostReads := [{ port := 0, addr := 0, len := 1, payload := some (plain 16 0x0301 []) }] }, 16, plain 16 0x0301 [], [], false, 0, 0, { port := 0, addr := 0, len := 1, payload := some (plain 16 0x0301 []) }, { cmd := plain 16 0x0301 [], wait := .payload }, ?_, ?_, ?_, ?_, ?_⟩
    all_goals try dsimp only
    all_goals try first
      | exact accepts_sealed (r := 16) (by decide +kernel)
      | exact accepts_of (by decide +kernel)
      | exact resumes_run (r := 16) (by decide +kernel)
      | decide +kernel
      | with_reducible rfl,
   by
    refine ⟨runS dramG 16 { cmd := plain 16 0x0303 [(16, 8, dramBase), (24, 4, 16), (28, 1, 8)], wait := .translate }, 16, plain 16 0x0303 [(16, 8, dramBase), (24, 4, 16), (28, 1, 8)], [], false, { cmd := plain 16 0x0303 [(16, 8, dramBase), (24, 4, 16), (28, 1, 8)], wait := .translate }, [], ?v15, ?_, ?_, ?_, ?_, ?_, ?_, ?_, ?_, ?_, ?_, ?_⟩
    all_goals try dsimp only
    all_goals try first
      | exact accepts_sealed (r := 16) (by decide +kernel)
      | exact accepts_of (by decide +kernel)
      | exact resumes_run (r := 16) (by decide +kernel)
      | decide +kernel
      | with_reducible rfl⟩

theorem witness_PersonalityCommandsAnswer_1 :
    (∃ (s : State) (r : Recip) (c : CmdRec) (rest : List CmdRec) (auth : Bool), let z := s.begun r c rest auth; (s.Accepts r c rest 0x0401 auth) ∧ (c.stray [(16, 1), (24, 16)] = false) ∧ ((c.desc 24).rsv = 0) ∧ (0 < (c.desc 24).len) ∧ (c.num 16 1 ≤ 7) ∧ ((z.part c.stamp).persAt (c.num 16 1) = none) ∧ ((c.desc 24).space = 0) ∧ (qidKind c.qid = 0)) ∧
    (∃ (s : State) (r : Recip) (c : CmdRec) (rest : List CmdRec) (auth : Bool), let z := s.begun r c rest auth; (s.Accepts r c rest 0x0401 auth) ∧ (c.stray [(16, 1), (24, 16)] = false) ∧ ((c.desc 24).rsv = 0) ∧ (0 < (c.desc 24).len) ∧ (c.num 16 1 ≤ 7) ∧ ((z.part c.stamp).persAt (c.num 16 1) = none) ∧ (let m := z.readRange c.stamp (c.desc 24).addr ((c.desc 24).len); ((c.desc 24).space = 1) ∧ (z.rangeAt c.stamp (c.desc 24).addr ((c.desc 24).len) false = 0) ∧ (z.noTags c.stamp = false) ∧ (m.status = stOk) ∧ (m.poison = none))) ∧
    (∃ (s : State) (r : Recip) (x : Running) (data : List Byte), let z := s.without x; let c := x.cmd; (s.WaitsFor r x 0x0401 (.engine data)) ∧ (c.stray [(16, 1), (24, 16)] = false) ∧ ((c.desc 24).rsv = 0) ∧ (0 < (c.desc 24).len) ∧ (c.num 16 1 ≤ 7) ∧ ((z.part c.stamp).persAt (c.num 16 1) = none) ∧ (z.descReady c (c.desc 24) ((c.desc 24).len) false) ∧ (z.secSlot = c.stamp)) ∧
    (∃ (s : State) (r : Recip) (c : CmdRec) (rest : List CmdRec) (auth : Bool), ∃ x n mine image, (s.Resumes r x 0x0401 (n :: (mine ++ image))) ∧ (mine.length = n) ∧ (let o := loadImage x.cmd mine false (image.map (BitVec.ofNat 8)) (s.without x); (o.moved (.again (n :: (mine ++ image))) (s.without x) = true))) ∧
    (∃ (s : State) (r : Recip) (c : CmdRec) (rest : List CmdRec) (auth : Bool), ∃ (z : State) (mine : List Nat) (image : List Byte), ((z.part c.stamp).persAt (c.num 16 1) = none)) ∧
    (∃ (s : State) (r : Recip) (c : CmdRec) (rest : List CmdRec) (auth : Bool), ∃ (w : State), ∃ q m v st, (v = m.record ((w.part q).freeFrames m.ids.length)) ∧ (w.writeStore q m v = (true, st))) ∧
    (∃ (s : State) (r : Recip) (c : CmdRec) (rest : List CmdRec) (auth : Bool), let b := s.begun r c rest auth; ∃ q h v tiles mine, (s.Accepts r c rest 0x0402 auth) ∧ (q = c.stamp) ∧ (h = c.num 16 1) ∧ (c.handleBad = false) ∧ ((b.part q).persAt h = some v) ∧ (v.started = false) ∧ (b.signalled v = false) ∧ (tiles = ((b.persFrames q v).map (·.1) ++ b.persTiles q v).eraseDups) ∧ (∀ n ∈ sectorsOf tiles, (b.sector n).pstate = .brew) ∧ (mine = (tiles.filter fun p => !b.fenceWanted p))) :=
  ⟨by
    refine ⟨cmdS (partS) 0 (sealed 0 0x0401 [(16, 1, 7), (24, 8, 4096), (32, 4, 4)]), 0, sealed 0 0x0401 [(16, 1, 7), (24, 8, 4096), (32, 4, 4)], [], true, ?_, ?_, ?_, ?_, ?_, ?_, ?_, ?_⟩
    all_goals try dsimp only
    all_goals try first
      | exact accepts_sealed (r := 0) (by decide +kernel)
      | exact accepts_of (by decide +kernel)
      | exact waits_run (r := 0) (by decide +kernel)
      | decide +kernel
      | with_reducible rfl
      | exact Or.inl (by decide +kernel)
      | exact Or.inr (by decide +kernel),
   by
    refine ⟨cmdS (partS) 0 (sealed 0 0x0401 [(16, 1, 7), (24, 8, 8), (32, 4, 4), (36, 1, 1)]), 0, sealed 0 0x0401 [(16, 1, 7), (24, 8, 8), (32, 4, 4), (36, 1, 1)], [], true, ?_, ?_, ?_, ?_, ?_, ?_, ?_, ?_, ?_, ?_, ?_⟩
    all_goals try dsimp only
    all_goals try first
      | exact accepts_sealed (r := 0) (by decide +kernel)
      | exact accepts_of (by decide +kernel)
      | exact waits_run (r := 0) (by decide +kernel)
      | decide +kernel
      | with_reducible rfl
      | exact Or.inl (by decide +kernel)
      | exact Or.inr (by decide +kernel),
   by
    refine ⟨runS (partS) 0 { cmd := plain 0 0x0401 [(16, 1, 7), (24, 8, 4096), (32, 4, 4)], wait := .engine [1, 2, 3, 4] }, 0, { cmd := plain 0 0x0401 [(16, 1, 7), (24, 8, 4096), (32, 4, 4)], wait := .engine [1, 2, 3, 4] }, [1, 2, 3, 4], ?_, ?_, ?_, ?_, ?_, ?_, ?_, ?_⟩
    all_goals try dsimp only
    all_goals try first
      | exact accepts_sealed (r := 0) (by decide +kernel)
      | exact accepts_of (by decide +kernel)
      | exact waits_run (r := 0) (by decide +kernel)
      | decide +kernel
      | with_reducible rfl
      | exact Or.inl (by decide +kernel)
      | exact Or.inr (by decide +kernel),
   by
    refine ⟨runS (State.reset) 0 { cmd := plain 0 0x0401 [], wait := .again (0 :: ([] ++ [])) }, 0, plain 0 0x0401 [], [], true, { cmd := plain 0 0x0401 [], wait := .again (0 :: ([] ++ [])) }, 0, [], [], ?_, ?_, ?_⟩
    all_goals try dsimp only
    all_goals try first
      | exact accepts_sealed (r := 0) (by decide +kernel)
      | exact accepts_of (by decide +kernel)
      | exact resumes_run (r := 0) (by decide +kernel)
      | decide +kernel
      | with_reducible rfl,
   by
    refine ⟨State.reset, 0, plain 0 1 [], [], false, State.reset, [], [], ?_⟩
    all_goals try dsimp only
    all_goals try first
      | exact accepts_sealed (r := 0) (by decide +kernel)
      | exact accepts_of (by decide +kernel)
      | exact resumes_run (r := 0) (by decide +kernel)
      | decide +kernel
      | with_reducible rfl,
   by
    refine ⟨State.reset, 0, plain 0 1 [], [], false, State.reset, 0, { version := 1, holdoff := 0, pmeas := [], ctxs := [], tasks := [], sigs := [], sets := [], timers := [], eb := [] }, ?v18, State.reset, ?_, ?_⟩
    all_goals try dsimp only
    all_goals try first
      | exact accepts_sealed (r := 0) (by decide +kernel)
      | exact accepts_of (by decide +kernel)
      | exact resumes_run (r := 0) (by decide +kernel)
      | decide +kernel
      | with_reducible rfl,
   by
    refine ⟨cmdS (partS (one []) (some persV)) 0 (sealed 0 0x0402 [(16, 1, 7)]), 0, sealed 0 0x0402 [(16, 1, 7)], [], true, 0, 7, persV, ?v19, ?v20, ?_, ?_, ?_, ?_, ?_, ?_, ?_, ?_, ?_, ?_⟩
    all_goals try dsimp only
    all_goals try first
      | exact accepts_sealed (r := 0) (by decide +kernel)
      | exact accepts_of (by decide +kernel)
      | exact resumes_run (r := 0) (by decide +kernel)
      | decide +kernel
      | with_reducible rfl⟩

theorem witness_PersonalityCommandsAnswer_2 :
    (∃ (s : State) (r : Recip) (c : CmdRec) (rest : List CmdRec) (auth : Bool), ∃ x mine q h v w tiles, (w = s.without x) ∧ (q = x.cmd.stamp) ∧ (h = x.cmd.num 16 1) ∧ ((w.part q).persAt h = some v) ∧ (tiles = ((w.persFrames q v).map (·.1) ++ w.persTiles q v).eraseDups) ∧ (s.Resumes r x 0x0402 (1 :: mine)) ∧ (∀ n ∈ sectorsOf tiles, (w.sector n).pstate = .brew) ∧ (∀ p ∈ tiles, (w.tile p).fenced = true ∧ (w.tm p).migrating = false)) ∧
    (∃ (s : State) (r : Recip) (c : CmdRec) (rest : List CmdRec) (auth : Bool), ∃ x mine held q h v w, (w = s.without x) ∧ (q = x.cmd.stamp) ∧ (h = x.cmd.num 16 1) ∧ ((w.part q).persAt h = some v) ∧ (s.Resumes r x 0x0402 (2 :: mine.length :: mine ++ held)) ∧ (∀ p, p < 256 → w.ownerOf p = q → (w.tile p).clearing = false)) ∧
    (∃ (s : State) (r : Recip) (c : CmdRec) (rest : List CmdRec) (auth : Bool), let b := s.begun r c rest auth; ∃ id h p, (s.Accepts r c rest 0x0403 auth) ∧ (id = c.num 20 2) ∧ (h = c.num 18 1) ∧ (c.stray [(16, 6)] = false) ∧ (h ≤ 15) ∧ (b.ownTile c.stamp (c.num 16 2) = some p) ∧ (c.num 19 1 = 1) ∧ (id = 0) ∧ (tget none (b.tile p).pin h ≠ none)) ∧
    (∃ (s : State) (r : Recip) (c : CmdRec) (rest : List CmdRec) (auth : Bool), let b := s.begun r c rest auth; ∃ id h p, (s.Accepts r c rest 0x0403 auth) ∧ (id = c.num 20 2) ∧ (h = c.num 18 1) ∧ (c.stray [(16, 6)] = false) ∧ (h ≤ 15) ∧ (b.ownTile c.stamp (c.num 16 2) = some p) ∧ (c.num 19 1 = 0) ∧ (∃ e ∈ (b.part c.stamp).loaded, e.2.ids.contains id = true) ∧ (b.tileOff p = false) ∧ (h ≠ (b.tile p).hotSlot) ∧ (tget none (b.tile p).pin h = some id ∨ tget none (b.tile p).pin h = none ∧ (b.tile p).pin.length < 8)) ∧
    (∃ (s : State) (r : Recip) (c : CmdRec) (rest : List CmdRec) (auth : Bool), ∃ x p l, (s.Resumes r x 0x0403 (1 :: l)) ∧ ((s.without x).ownTile x.cmd.stamp (x.cmd.num 16 2) = some p) ∧ ((s.tile p).validWith (x.cmd.num 20 2) (x.cmd.num 18 1) = true)) :=
  ⟨by
    refine ⟨runS (partS (one [] { seq := .off }) (some persV)) 0 { cmd := plain 0 0x0402 [(16, 1, 7)], wait := .again (1 :: [0]) }, 0, plain 0 0x0402 [(16, 1, 7)], [], true, { cmd := plain 0 0x0402 [(16, 1, 7)], wait := .again (1 :: [0]) }, [0], 0, 7, persV, ?v21, ?v22, ?_, ?_, ?_, ?_, ?_, ?_, ?_, ?_⟩
    all_goals try dsimp only
    all_goals try first
      | exact accepts_sealed (r := 0) (by decide +kernel)
      | exact accepts_of (by decide +kernel)
      | exact resumes_run (r := 0) (by decide +kernel)
      | decide +kernel
      | with_reducible rfl,
   by
    refine ⟨runS (partS (one []) (some persV)) 0 { cmd := plain 0 0x0402 [(16, 1, 7)], wait := .again (2 :: 1 :: [0] ++ [0, 16, 0]) }, 0, plain 0 0x0402 [(16, 1, 7)], [], true, { cmd := plain 0 0x0402 [(16, 1, 7)], wait := .again (2 :: 1 :: [0] ++ [0, 16, 0]) }, [0], [0, 16, 0], 0, 7, persV, ?v23, ?_, ?_, ?_, ?_, ?_, ?_⟩
    all_goals try dsimp only
    all_goals try first
      | exact accepts_sealed (r := 0) (by decide +kernel)
      | exact accepts_of (by decide +kernel)
      | exact waits_run (r := 0) (by decide +kernel)
      | decide +kernel
      | with_reducible rfl
      | exact Or.inl (by decide +kernel)
      | exact Or.inr (by decide +kernel),
   by
    refine ⟨cmdS (partS (one [] { pin := [(15, some 1)] })) 0 (sealed 0 0x0403 [(16, 2, 0), (18, 1, 15), (19, 1, 1)]), 0, sealed 0 0x0403 [(16, 2, 0), (18, 1, 15), (19, 1, 1)], [], true, 0, 15, 0, ?_, ?_, ?_, ?_, ?_, ?_, ?_, ?_, ?_⟩
    all_goals try dsimp only
    all_goals try first
      | exact accepts_sealed (r := 0) (by decide +kernel)
      | exact accepts_of (by decide +kernel)
      | exact resumes_run (r := 0) (by decide +kernel)
      | decide +kernel
      | with_reducible rfl,
   by
    refine ⟨cmdS (partS (one []) (some persV)) 0 (sealed 0 0x0403 [(16, 2, 0), (18, 1, 15), (20, 2, 1)]), 0, sealed 0 0x0403 [(16, 2, 0), (18, 1, 15), (20, 2, 1)], [], true, 1, 15, 0, ?_, ?_, ?_, ?_, ?_, ?_, ?_, ?_, ?_, ?_, ?_⟩
    all_goals try dsimp only
    all_goals try first
      | exact accepts_sealed (r := 0) (by decide +kernel)
      | exact accepts_of (by decide +kernel)
      | exact resumes_run (r := 0) (by decide +kernel)
      | decide +kernel
      | with_reducible rfl,
   by
    refine ⟨runS (partS (one [] { hot := Vector.replicate 16 .valid, frameId := [(15, some 1)] })) 0 { cmd := plain 0 0x0403 [(16, 2, 0), (18, 1, 15), (20, 2, 1)], wait := .again (1 :: []) }, 0, plain 0 0x0403 [(16, 2, 0), (18, 1, 15), (20, 2, 1)], [], true, { cmd := plain 0 0x0403 [(16, 2, 0), (18, 1, 15), (20, 2, 1)], wait := .again (1 :: []) }, 0, [], ?_, ?_, ?_⟩
    all_goals try dsimp only
    all_goals try first
      | exact accepts_sealed (r := 0) (by decide +kernel)
      | exact accepts_of (by decide +kernel)
      | exact resumes_run (r := 0) (by decide +kernel)
      | decide +kernel
      | with_reducible rfl⟩

theorem witness_PersonalityCommandsAnswer_3 :
    (∃ (s : State) (r : Recip) (c : CmdRec) (rest : List CmdRec) (auth : Bool), let b := s.begun r c rest auth; ∃ q h v tiles, (s.Accepts r c rest 0x0404 auth) ∧ (q = c.stamp) ∧ (h = c.num 16 1) ∧ (c.handleBad = false) ∧ ((b.part q).persAt h = some v) ∧ (v.started = false) ∧ (tiles = b.persTiles q v) ∧ (∀ n ∈ sectorsOf tiles, (b.sector n).pstate = .brew)) ∧
    (∃ (s : State) (r : Recip) (c : CmdRec) (rest : List CmdRec) (auth : Bool), let b := s.begun r c rest auth; ∃ q h v, (s.Accepts r c rest 0x0405 auth) ∧ (q = c.stamp) ∧ (h = c.num 16 1) ∧ (c.handleBad = false) ∧ ((b.part q).persAt h = some v) ∧ (v.started = true) ∧ (∀ n ∈ sectorsOf (b.persTiles q v), (b.sector n).pstate = .brew)) ∧
    (∃ (s : State) (r : Recip) (c : CmdRec) (rest : List CmdRec) (auth : Bool), ∃ x n q h v w tiles, (w = s.without x) ∧ (q = x.cmd.stamp) ∧ (h = x.cmd.num 16 1) ∧ ((w.part q).persAt h = some v) ∧ (tiles = ((w.persTiles q v).filter fun p => !w.otherStarted q h p)) ∧ (s.Resumes r x 0x0405 [1, n]) ∧ (∀ t ∈ v.tasks, (w.task t).state = .cancelled)) ∧
    (∃ (s : State) (r : Recip) (c : CmdRec) (rest : List CmdRec) (auth : Bool), ∃ x n q h v w tiles, (w = s.without x) ∧ (q = x.cmd.stamp) ∧ (h = x.cmd.num 16 1) ∧ ((w.part q).persAt h = some v) ∧ (tiles = ((w.persTiles q v).filter fun p => !w.otherStarted q h p)) ∧ (s.Resumes r x 0x0405 [2, n]) ∧ (∀ p ∈ tiles, (w.tile p).fenced = true ∧ (w.tm p).migrating = false)) :=
  ⟨by
    refine ⟨cmdS (partS (one []) (some persV)) 0 (sealed 0 0x0404 [(16, 1, 7)]), 0, sealed 0 0x0404 [(16, 1, 7)], [], true, 0, 7, persV, ?v25, ?_, ?_, ?_, ?_, ?_, ?_, ?_, ?_⟩
    all_goals try dsimp only
    all_goals try first
      | exact accepts_sealed (r := 0) (by decide +kernel)
      | exact accepts_of (by decide +kernel)
      | exact resumes_run (r := 0) (by decide +kernel)
      | decide +kernel
      | with_reducible rfl,
   by
    refine ⟨cmdS (partS (one []) (some { persV with started := true })) 0 (sealed 0 0x0405 [(16, 1, 7)]), 0, sealed 0 0x0405 [(16, 1, 7)], [], true, 0, 7, { persV with started := true }, ?_, ?_, ?_, ?_, ?_, ?_, ?_⟩
    all_goals try dsimp only
    all_goals try first
      | exact accepts_sealed (r := 0) (by decide +kernel)
      | exact accepts_of (by decide +kernel)
      | exact resumes_run (r := 0) (by decide +kernel)
      | decide +kernel
      | with_reducible rfl,
   by
    refine ⟨runS (partS (one []) (some persV)) 0 { cmd := plain 0 0x0405 [(16, 1, 7)], wait := .again [1, 0] }, 0, plain 0 0x0405 [(16, 1, 7)], [], true, { cmd := plain 0 0x0405 [(16, 1, 7)], wait := .again [1, 0] }, 0, 0, 7, persV, ?v26, ?v27, ?_, ?_, ?_, ?_, ?_, ?_, ?_⟩
    all_goals try dsimp only
    all_goals try first
      | exact accepts_sealed (r := 0) (by decide +kernel)
      | exact accepts_of (by decide +kernel)
      | exact resumes_run (r := 0) (by decide +kernel)
      | decide +kernel
      | with_reducible rfl,
   by
    refine ⟨runS (partS (one [] { seq := .off }) (some persV)) 0 { cmd := plain 0 0x0405 [(16, 1, 7)], wait := .again [2, 0] }, 0, plain 0 0x0405 [(16, 1, 7)], [], true, { cmd := plain 0 0x0405 [(16, 1, 7)], wait := .again [2, 0] }, 0, 0, 7, persV, ?v28, ?v29, ?_, ?_, ?_, ?_, ?_, ?_, ?_⟩
    all_goals try dsimp only
    all_goals try first
      | exact accepts_sealed (r := 0) (by decide +kernel)
      | exact accepts_of (by decide +kernel)
      | exact resumes_run (r := 0) (by decide +kernel)
      | decide +kernel
      | with_reducible rfl⟩

theorem witness_StreamCommandsAnswer_1 :
    (∃ (s : State) (r : Recip) (c : CmdRec) (rest : List CmdRec) (auth : Bool), let b := s.begun r c rest auth; let i := c.num 16 2; let x := b.stream i; ∃ carafe, (s.Accepts r c rest 0x0501 auth) ∧ (c.openReserved = false) ∧ ((b.part c.stamp).hasStream i = true) ∧ (x.state = 0) ∧ (let e := tget 0 b.partners (c.num 22 2); let mlf := e.testBit 31 && partnerMlf e; (c.openEgress = false → c.num 24 2 ≠ 0 ∧ (mlf = true → c.num 26 2 ≠ 0)) ∧ (c.openEp = true → c.openMask ≠ 0) ∧ (c.num 21 1 < 64) ∧ (b.partnerOf (c.num 21 1) = some (c.num 22 2)) ∧ ((b.lane (c.num 21 1)).owner = c.stamp ∨ (b.lane (c.num 21 1)).owner = 16 ∧ b.laneMlf (c.num 21 1) = true) ∧ (c.num 28 2 ≠ 0 → (b.part c.stamp).hasTask (c.num 32 2) = true) ∧ (c.openEp = true → (∃ t, b.tileAtHome (edgeHome c.openSide c.openRow) = some t ∧ b.ownerOf t = c.stamp) ∧ b.portsShared c = true) ∧ (∀ t, c.openTarget = some t → (b.part c.stamp).hasStream t = true) ∧ (c.num 36 3 = 0 ∧ carafe = 0 ∨
        c.num 36 3 ≠ 0 ∧ c.num 40 8 % 4096 = 0 ∧ b.carafeAt c.stamp (c.num 40 8) (256 * c.num 36 3) = some carafe) ∧ (c.openBypass = true → c.openEp = false ∧ (c.openEgress = false → ∃ t, c.openTarget = some t ∧
        (b.stream t).egress = true ∧ (b.stream t).bypassed = true)))) ∧
    (∃ (s : State) (r : Recip) (c : CmdRec) (rest : List CmdRec) (auth : Bool), let b := s.begun r c rest auth; let i := c.num 16 2; let x := b.stream i; (s.Accepts r c rest 0x0502 auth) ∧ (c.stray [(16, 2)] = false) ∧ (c.streamBits = false) ∧ (b.streamOf c = true) ∧ (x.state = 1 ∨ x.state = 2)) ∧
    (∃ (s : State) (r : Recip) (c : CmdRec) (rest : List CmdRec) (auth : Bool), let b := s.begun r c rest auth; let i := c.num 16 2; let x := b.stream i; ∃ x n p, (s.Resumes r x 0x0502 (n :: p)) ∧ ((s.stream (x.cmd.num 16 2)).state = 0)) ∧
    (∃ (s : State) (r : Recip) (c : CmdRec) (rest : List CmdRec) (auth : Bool), let b := s.begun r c rest auth; let i := c.num 16 2; let x := b.stream i; (s.Accepts r c rest 0x0504 auth) ∧ (c.stray [(16, 4)] = false) ∧ (c.streamBits = false) ∧ (c.num 18 2 ≠ 0) ∧ (b.streamOf c = true) ∧ (x.mlf = true) ∧ (x.liveIn = true)) ∧
    (∃ (s : State) (r : Recip) (c : CmdRec) (rest : List CmdRec) (auth : Bool), let b := s.begun r c rest auth; let i := c.num 16 2; let x := b.stream i; (s.Accepts r c rest 0x0505 auth) ∧ (c.stray [(16, 3)] = false) ∧ (c.streamBits = false) ∧ (c.num 18 1 ≤ 1) ∧ (b.streamOf c = true) ∧ (x.liveIn = true)) :=
  ⟨by
    refine ⟨cmdS (partS { lineS { laneUp with ctrl := 0x00031000 } with streams := [] }) 0 (sealed 0 0x0501 [(16, 2, 5), (21, 1, 0), (22, 2, 0), (24, 2, 8), (26, 2, 8)]), 0, sealed 0 0x0501 [(16, 2, 5), (21, 1, 0), (22, 2, 0), (24, 2, 8), (26, 2, 8)], [], true, 0, ?_, ?_, ?_, ?_, ?_, ?_, ?_, ?_, ?_, ?_, ?_, ?_, ?_, ?_⟩
    all_goals try dsimp only
    all_goals try first
      | exact accepts_sealed (r := 0) (by decide +kernel)
      | exact accepts_of (by decide +kernel)
      | exact resumes_run (r := 0) (by decide +kernel)
      | decide +kernel
      | with_reducible rfl,
   by
    refine ⟨cmdS (partS { lineS laneUp {} with streams := [(5, ingress)] }) 0 (sealed 0 0x0502 [(16, 2, 5)]), 0, sealed 0 0x0502 [(16, 2, 5)], [], true, ?_, ?_, ?_, ?_, ?_⟩
    all_goals try dsimp only
    all_goals try first
      | exact accepts_sealed (r := 0) (by decide +kernel)
      | exact accepts_of (by decide +kernel)
      | exact resumes_run (r := 0) (by decide +kernel)
      | decide +kernel
      | with_reducible rfl,
   by
    refine ⟨runS (State.reset) 0 { cmd := plain 0 0x0502 [(16, 2, 5)], wait := .again (0 :: []) }, 0, plain 0 0x0502 [(16, 2, 5)], [], true, { cmd := plain 0 0x0502 [(16, 2, 5)], wait := .again (0 :: []) }, 0, [], ?_, ?_⟩
    all_goals try dsimp only
    all_goals try first
      | exact accepts_sealed (r := 0) (by decide +kernel)
      | exact accepts_of (by decide +kernel)
      | exact resumes_run (r := 0) (by decide +kernel)
      | decide +kernel
      | with_reducible rfl,
   by
    refine ⟨cmdS (partS { lineS laneUp {} with streams := [(5, ingress)] }) 0 (sealed 0 0x0504 [(16, 2, 5), (18, 2, 65535)]), 0, sealed 0 0x0504 [(16, 2, 5), (18, 2, 65535)], [], true, ?_, ?_, ?_, ?_, ?_, ?_, ?_⟩
    all_goals try dsimp only
    all_goals try first
      | exact accepts_sealed (r := 0) (by decide +kernel)
      | exact accepts_of (by decide +kernel)
      | exact resumes_run (r := 0) (by decide +kernel)
      | decide +kernel
      | with_reducible rfl,
   by
    refine ⟨cmdS (partS { lineS laneUp {} with streams := [(5, ingress)] }) 0 (sealed 0 0x0505 [(16, 2, 5)]), 0, sealed 0 0x0505 [(16, 2, 5)], [], true, ?_, ?_, ?_, ?_, ?_, ?_⟩
    all_goals try dsimp only
    all_goals try first
      | exact accepts_sealed (r := 0) (by decide +kernel)
      | exact accepts_of (by decide +kernel)
      | exact resumes_run (r := 0) (by decide +kernel)
      | decide +kernel
      | with_reducible rfl⟩

theorem witness_StreamCommandsAnswer_2 :
    (∃ (s : State) (r : Recip) (c : CmdRec) (rest : List CmdRec) (auth : Bool), let b := s.begun r c rest auth; let i := c.num 16 2; let x := b.stream i; (s.Accepts r c rest 0x0506 auth) ∧ (c.stray [(16, 3), (20, 4)] = false) ∧ (c.streamBits = false) ∧ (b.streamOf c = true) ∧ (x.liveIn = true) ∧ ((c.num 18 1 = 1) ∧ (c.num 20 4 = 0))) ∧
    (∃ (s : State) (r : Recip) (c : CmdRec) (rest : List CmdRec) (auth : Bool), let b := s.begun r c rest auth; let i := c.num 16 2; let x := b.stream i; (s.Accepts r c rest 0x0506 auth) ∧ (c.stray [(16, 3), (20, 4)] = false) ∧ (c.streamBits = false) ∧ (b.streamOf c = true) ∧ (x.liveIn = true) ∧ ((c.num 18 1 = 0) ∧ (c.num 20 4 ≠ 0))) ∧
    (∃ (s : State) (r : Recip) (c : CmdRec) (rest : List CmdRec) (auth : Bool), let b := s.begun r c rest auth; let i := c.num 16 2; let x := b.stream i; (s.Accepts r c rest 0x0507 auth) ∧ (c.stray [(16, 3)] = false) ∧ (c.streamBits = false) ∧ (c.num 18 1 ≤ 1) ∧ (b.streamOf c = true) ∧ (x.state = 2) ∧ (c.num 18 1 = 0 → x.markValid = true)) ∧
    (∃ (s : State) (r : Recip) (c : CmdRec) (rest : List CmdRec) (auth : Bool), let b := s.begun r c rest auth; let i := c.num 16 2; let x := b.stream i; ∃ d, (s.Accepts r c rest 0x0508 auth) ∧ (d = c.desc 24) ∧ (c.stray [(16, 3), (24, 16)] = false) ∧ (c.streamBits = false) ∧ (c.num 18 1 ≤ 1) ∧ (d.rsv = 0) ∧ (b.streamOf c = true) ∧ (x.state ≠ 0) ∧ ((d.len = 0))) ∧
    (∃ (s : State) (r : Recip) (c : CmdRec) (rest : List CmdRec) (auth : Bool), let b := s.begun r c rest auth; let i := c.num 16 2; let x := b.stream i; ∃ d, (s.Accepts r c rest 0x0508 auth) ∧ (d = c.desc 24) ∧ (c.stray [(16, 3), (24, 16)] = false) ∧ (c.streamBits = false) ∧ (c.num 18 1 ≤ 1) ∧ (d.rsv = 0) ∧ (b.streamOf c = true) ∧ (x.state ≠ 0) ∧ ((64 ≤ d.len) ∧ (b.descReady c d 64 true))) :=
  ⟨by
    refine ⟨cmdS (partS { lineS laneUp {} with streams := [(5, ingress)] }) 0 (sealed 0 0x0506 [(16, 2, 5), (18, 1, 1)]), 0, sealed 0 0x0506 [(16, 2, 5), (18, 1, 1)], [], true, ?_, ?_, ?_, ?_, ?_, ?_, ?_⟩
    all_goals try dsimp only
    all_goals try first
      | exact accepts_sealed (r := 0) (by decide +kernel)
      | exact accepts_of (by decide +kernel)
      | exact resumes_run (r := 0) (by decide +kernel)
      | decide +kernel
      | with_reducible rfl,
   by
    refine ⟨cmdS (partS { lineS laneUp {} with streams := [(5, ingress)] }) 0 (sealed 0 0x0506 [(16, 2, 5), (20, 4, 2 ^ 32 - 1)]), 0, sealed 0 0x0506 [(16, 2, 5), (20, 4, 2 ^ 32 - 1)], [], true, ?_, ?_, ?_, ?_, ?_, ?_, ?_⟩
    all_goals try dsimp only
    all_goals try first
      | exact accepts_sealed (r := 0) (by decide +kernel)
      | exact accepts_of (by decide +kernel)
      | exact resumes_run (r := 0) (by decide +kernel)
      | decide +kernel
      | with_reducible rfl,
   by
    refine ⟨cmdS (partS { lineS laneUp {} with streams := [(5, { ingress with ctrl := 0x40400000 })] }) 0 (sealed 0 0x0507 [(16, 2, 5), (18, 1, 1)]), 0, sealed 0 0x0507 [(16, 2, 5), (18, 1, 1)], [], true, ?_, ?_, ?_, ?_, ?_, ?_, ?_⟩
    all_goals try dsimp only
    all_goals try first
      | exact accepts_sealed (r := 0) (by decide +kernel)
      | exact accepts_of (by decide +kernel)
      | exact resumes_run (r := 0) (by decide +kernel)
      | decide +kernel
      | with_reducible rfl,
   by
    refine ⟨cmdS (partS { lineS laneUp {} with streams := [(5, ingress)] }) 0 (sealed 0 0x0508 [(16, 2, 5), (18, 1, 1)]), 0, sealed 0 0x0508 [(16, 2, 5), (18, 1, 1)], [], true, ?v30, ?_, ?_, ?_, ?_, ?_, ?_, ?_, ?_, ?_⟩
    all_goals try dsimp only
    all_goals try first
      | exact accepts_sealed (r := 0) (by decide +kernel)
      | exact accepts_of (by decide +kernel)
      | exact resumes_run (r := 0) (by decide +kernel)
      | decide +kernel
      | with_reducible rfl,
   by
    refine ⟨cmdS (partS { lineS laneUp {} with streams := [(5, ingress)] }) 0 (sealed 0 0x0508 [(16, 2, 5), (24, 8, 4096), (32, 4, 64)]), 0, sealed 0 0x0508 [(16, 2, 5), (24, 8, 4096), (32, 4, 64)], [], true, ?v31, ?_, ?_, ?_, ?_, ?_, ?_, ?_, ?_, ?_, ?_⟩
    all_goals try dsimp only
    all_goals try first
      | exact accepts_sealed (r := 0) (by decide +kernel)
      | exact accepts_of (by decide +kernel)
      | exact waits_run (r := 0) (by decide +kernel)
      | decide +kernel
      | with_reducible rfl
      | exact Or.inl (by decide +kernel)
      | exact Or.inr (by decide +kernel)⟩

theorem witness_StreamCommandsAnswer_3 :
    (∃ (s : State) (r : Recip) (c : CmdRec) (rest : List CmdRec) (auth : Bool), let b := s.begun r c rest auth; let i := c.num 16 2; (s.Accepts r c rest 0x0503 auth) ∧ (c.stray [(16, 3), (20, 28)] = false) ∧ (i ≤ 1023) ∧ ((b.part c.stamp).hasRule i = true) ∧ (let w (j : Nat) : Word := c.word (20 + 4 * j); let y := b.stream ((w 0).toNat % 8192); (c.num 18 1 = 0) ∧ (∀ j, j < 7 → w j &&& ~~~(ruleMasks.getD j 0) = 0) ∧ ((b.lane (field (w 0).toNat 16 6)).owner = c.stamp) ∧ ((w 0).getLsbD 29 = true ∨ y.owner = c.stamp ∧ y.egress = false ∧ y.state ≠ 0))) ∧
    (∃ (s : State) (r : Recip) (c : CmdRec) (rest : List CmdRec) (auth : Bool), let b := s.begun r c rest auth; let i := c.num 16 2; (s.Accepts r c rest 0x0503 auth) ∧ (c.stray [(16, 3), (20, 28)] = false) ∧ (i ≤ 1023) ∧ ((b.part c.stamp).hasRule i = true) ∧ ((c.num 18 1 = 1))) :=
  ⟨by
    refine ⟨cmdS (partS { lineS { laneUp with ctrl := 0x00031000 } with streams := [] }) 0 (sealed 0 0x0503 [(16, 2, 1023), (20, 4, 0x20000000)]), 0, sealed 0 0x0503 [(16, 2, 1023), (20, 4, 0x20000000)], [], true, ?_, ?_, ?_, ?_, ?_, ?_, ?_, ?_⟩
    all_goals try dsimp only
    all_goals try first
      | exact accepts_sealed (r := 0) (by decide +kernel)
      | exact accepts_of (by decide +kernel)
      | exact resumes_run (r := 0) (by decide +kernel)
      | decide +kernel
      | with_reducible rfl,
   by
    refine ⟨cmdS (partS) 0 (sealed 0 0x0503 [(16, 2, 1023), (18, 1, 1)]), 0, sealed 0 0x0503 [(16, 2, 1023), (18, 1, 1)], [], true, ?_, ?_, ?_, ?_, ?_⟩
    all_goals try dsimp only
    all_goals try first
      | exact accepts_sealed (r := 0) (by decide +kernel)
      | exact accepts_of (by decide +kernel)
      | exact resumes_run (r := 0) (by decide +kernel)
      | decide +kernel
      | with_reducible rfl⟩

theorem witness_TaskCommandsAnswer :
    (∃ (s : State) (r : Recip) (c : CmdRec) (rest : List CmdRec) (auth : Bool), let b := s.begun r c rest auth; let i := c.num 16 2; (s.Accepts r c rest 0x0601 auth) ∧ (c.stray [(16, 2)] = false) ∧ (c.taskBits = false) ∧ ((b.part c.stamp).hasTask i = true) ∧ ((b.task i).st.owner = c.stamp)) ∧
    (∃ (s : State) (r : Recip) (c : CmdRec) (rest : List CmdRec) (auth : Bool), let b := s.begun r c rest auth; let i := c.num 16 2; (s.Accepts r c rest 0x0602 auth) ∧ (c.stray [(16, 2)] = false) ∧ (c.taskBits = false) ∧ ((b.part c.stamp).hasTask i = true) ∧ ((b.task i).st.owner = c.stamp) ∧ ((b.task i).state ≠ .running)) ∧
    (∃ (s : State) (r : Recip) (c : CmdRec) (rest : List CmdRec) (auth : Bool), let b := s.begun r c rest auth; let i := c.num 16 2; (s.Accepts r c rest 0x0602 auth) ∧ (c.stray [(16, 2)] = false) ∧ (c.taskBits = false) ∧ ((b.part c.stamp).hasTask i = true) ∧ ((b.task i).st.owner = c.stamp) ∧ ((b.task i).state = .running)) ∧
    (∃ (s : State) (r : Recip) (c : CmdRec) (rest : List CmdRec) (auth : Bool), ∃ x n p, (s.Resumes r x 0x0602 (n :: p)) ∧ ((s.task (x.cmd.num 16 2)).state = .cancelled)) ∧
    (∃ (s : State) (r : Recip) (c : CmdRec) (rest : List CmdRec) (auth : Bool), let b := s.begun r c rest auth; let i := c.num 16 2; ∃ m n, (s.Accepts r c rest 0x0603 auth) ∧ (m = c.word 20) ∧ (n = i / 2048) ∧ (c.stray [(16, 2), (20, 4)] = false) ∧ (m ≠ 0) ∧ (c.taskBits = false) ∧ ((b.part c.stamp).hasTask i = true) ∧ ((b.task i).st.owner = c.stamp) ∧ ((b.sector n).pstate = .brew)) ∧
    (∃ (s : State) (r : Recip) (c : CmdRec) (rest : List CmdRec) (auth : Bool), let b := s.begun r c rest auth; let i := c.num 16 2; ∃ m n, (s.Accepts r c rest 0x0603 auth) ∧ (m = c.word 20) ∧ (n = i / 2048) ∧ (c.stray [(16, 2), (20, 4)] = false) ∧ (m ≠ 0) ∧ (c.taskBits = false) ∧ ((b.part c.stamp).hasTask i = true) ∧ ((b.task i).st.owner = c.stamp) ∧ ((b.sector n).pstate ≠ .brew)) ∧
    (∃ (s : State) (r : Recip) (c : CmdRec) (rest : List CmdRec) (auth : Bool), ∃ x n p, (s.Resumes r x 0x0603 (n :: p)) ∧ ((s.sector (x.cmd.num 16 2 / 2048)).pstate = .brew)) ∧
    (∃ (s : State) (r : Recip) (c : CmdRec) (rest : List CmdRec) (auth : Bool), let b := s.begun r c rest auth; let i := c.num 16 2; (s.Accepts r c rest 0x0604 auth) ∧ (c.stray [(16, 2)] = false) ∧ (c.taskBits = false) ∧ ((b.part c.stamp).hasTask i = true) ∧ ((b.task i).st.owner = c.stamp)) ∧
    (∃ (s : State) (r : Recip) (c : CmdRec) (rest : List CmdRec) (auth : Bool), s.buffer r = c :: rest ∧ opcodeKnown c.opcode = false ∧
      s.inSlice r = true ∧ s.hasSlice r = true ∧ (∀ x ∈ s.running, x.cmd.stamp = r.val → opcodeKnown x.cmd.opcode = true ∨ x.wait = .payload) ∧
      s.boot.ready = true ∧ s.boot.activate = false ∧ ¬(r.val < 16 ∧ (s.part r).state = 3) ∧ s.orderOk c = true ∧
      (s.setBuffer r rest).authenticate c = some auth) ∧
    (∃ (s : State) (r : Recip) (c : CmdRec) (rest : List CmdRec) (auth : Bool), ∃ (n : Fin 4096), ∃ x, ((s.running.filter fun x => x.cmd.stamp == r.val)[n.val]? = some x)) ∧
    (∃ (s : State) (r : Recip) (c : CmdRec) (rest : List CmdRec) (auth : Bool), ∃ (n : Fin 4096), ∃ x, ((s.running.filter fun x => x.cmd.stamp == r.val)[n.val]? = some x) ∧ (x.cmd.opcode ∉ [0x0102, 0x0103, 0x0104, 0x0204, 0x0401, 0x0402, 0x0404, 0x0405, 0x0502, 0x0603, 0x0906])) ∧
    (∃ (s : State) (r : Recip) (c : CmdRec) (rest : List CmdRec) (auth : Bool), let b := s.begun r c rest auth; (s.Starts r c rest 0x0601 auth) ∧ (b.heldBack (b.taken c auth) = true)) ∧
    (∃ (s : State) (r : Recip) (x : Running) (more : List Running), (s.running.filter fun y => y.cmd.stamp == r.val && y.cmd.opcode == 0x0601 && y.wait != .payload && s.onCore y.cmd) = x :: more ∧ x.wait = .turn ∧ (s.without x).heldBack x.cmd = false ∧ let w := s.without x; let i := x.cmd.num 16 2; x.cmd.stray [(16, 2)] = false ∧ x.cmd.taskBits = false ∧ (w.part x.cmd.stamp).hasTask i = true ∧ (w.task i).st.owner = x.cmd.stamp) :=
  ⟨by
    refine ⟨cmdS (partS { State.reset with tasks := [(16383, task0 .idle)] }) 0 (sealed 0 0x0601 [(16, 2, 16383)]), 0, sealed 0 0x0601 [(16, 2, 16383)], [], true, ?_, ?_, ?_, ?_, ?_⟩
    all_goals try dsimp only
    all_goals try first
      | exact accepts_sealed (r := 0) (by decide +kernel)
      | exact accepts_of (by decide +kernel)
      | exact resumes_run (r := 0) (by decide +kernel)
      | decide +kernel
      | with_reducible rfl,
   by
    refine ⟨cmdS (partS { State.reset with tasks := [(16383, task0 .armed)] }) 0 (sealed 0 0x0602 [(16, 2, 16383)]), 0, sealed 0 0x0602 [(16, 2, 16383)], [], true, ?_, ?_, ?_, ?_, ?_, ?_⟩
    all_goals try dsimp only
    all_goals try first
      | exact accepts_sealed (r := 0) (by decide +kernel)
      | exact accepts_of (by decide +kernel)
      | exact resumes_run (r := 0) (by decide +kernel)
      | decide +kernel
      | with_reducible rfl,
   by
    refine ⟨cmdS (partS { State.reset with tasks := [(16383, task0 .running)] }) 0 (sealed 0 0x0602 [(16, 2, 16383)]), 0, sealed 0 0x0602 [(16, 2, 16383)], [], true, ?_, ?_, ?_, ?_, ?_, ?_⟩
    all_goals try dsimp only
    all_goals try first
      | exact accepts_sealed (r := 0) (by decide +kernel)
      | exact accepts_of (by decide +kernel)
      | exact resumes_run (r := 0) (by decide +kernel)
      | decide +kernel
      | with_reducible rfl,
   by
    refine ⟨runS (partS { State.reset with tasks := [(16383, task0 .cancelled)] }) 0 { cmd := plain 0 0x0602 [(16, 2, 16383)], wait := .again (1 :: []) }, 0, plain 0 0x0602 [(16, 2, 16383)], [], true, { cmd := plain 0 0x0602 [(16, 2, 16383)], wait := .again (1 :: []) }, 1, [], ?_, ?_⟩
    all_goals try dsimp only
    all_goals try first
      | exact accepts_sealed (r := 0) (by decide +kernel)
      | exact accepts_of (by decide +kernel)
      | exact resumes_run (r := 0) (by decide +kernel)
      | decide +kernel
      | with_reducible rfl,
   by
    refine ⟨cmdS (partS { State.reset with tasks := [(16383, task0 .armed)] }) 0 (sealed 0 0x0603 [(16, 2, 16383), (20, 4, 2 ^ 31)]), 0, sealed 0 0x0603 [(16, 2, 16383), (20, 4, 2 ^ 31)], [], true, ?v32, 7, ?_, ?_, ?_, ?_, ?_, ?_, ?_, ?_, ?_⟩
    all_goals try dsimp only
    all_goals try first
      | exact accepts_sealed (r := 0) (by decide +kernel)
      | exact accepts_of (by decide +kernel)
      | exact resumes_run (r := 0) (by decide +kernel)
      | decide +kernel
      | with_reducible rfl,
   by
    refine ⟨cmdS ({ partS { State.reset with tasks := [(16383, task0 .armed)] } with sectors := [(7, { pstate := .cold })] }) 0 (sealed 0 0x0603 [(16, 2, 16383), (20, 4, 1)]), 0, sealed 0 0x0603 [(16, 2, 16383), (20, 4, 1)], [], true, ?v33, 7, ?_, ?_, ?_, ?_, ?_, ?_, ?_, ?_, ?_⟩
    all_goals try dsimp only
    all_goals try first
      | exact accepts_sealed (r := 0) (by decide +kernel)
      | exact accepts_of (by decide +kernel)
      | exact resumes_run (r := 0) (by decide +kernel)
      | decide +kernel
      | with_reducible rfl,
   by
    refine ⟨runS (partS { State.reset with tasks := [(16383, task0 .armed)] }) 0 { cmd := plain 0 0x0603 [(16, 2, 16383)], wait := .again (1 :: []) }, 0, plain 0 0x0603 [(16, 2, 16383)], [], true, { cmd := plain 0 0x0603 [(16, 2, 16383)], wait := .again (1 :: []) }, 1, [], ?_, ?_⟩
    all_goals try dsimp only
    all_goals try first
      | exact accepts_sealed (r := 0) (by decide +kernel)
      | exact accepts_of (by decide +kernel)
      | exact resumes_run (r := 0) (by decide +kernel)
      | decide +kernel
      | with_reducible rfl,
   by
    refine ⟨cmdS (partS { State.reset with tasks := [(16383, task0 .armed)] }) 0 (sealed 0 0x0604 [(16, 2, 16383)]), 0, sealed 0 0x0604 [(16, 2, 16383)], [], true, ?_, ?_, ?_, ?_, ?_⟩
    all_goals try dsimp only
    all_goals try first
      | exact accepts_sealed (r := 0) (by decide +kernel)
      | exact accepts_of (by decide +kernel)
      | exact resumes_run (r := 0) (by decide +kernel)
      | decide +kernel
      | with_reducible rfl,
   ⟨cmdS State.reset 0 (sealed 0 0xFFFF []), 0, sealed 0 0xFFFF [], [], true, rfl, by decide +kernel, by decide +kernel,
    by decide +kernel, nofun, by decide +kernel, by decide +kernel, by decide +kernel, by decide +kernel,
    authenticate_sealed (by decide +kernel) (by decide +kernel) (by decide +kernel)⟩,
   by
    refine ⟨runS State.reset 0 { cmd := plain 0 0x0602 [], wait := .again [1] }, 0, plain 0 0x0602 [], [], false, 0, { cmd := plain 0 0x0602 [], wait := .again [1] }, ?_⟩
    all_goals try dsimp only
    all_goals try first
      | exact accepts_sealed (r := 0) (by decide +kernel)
      | exact accepts_of (by decide +kernel)
      | exact resumes_run (r := 0) (by decide +kernel)
      | decide +kernel
      | with_reducible rfl,
   by
    refine ⟨runS State.reset 0 { cmd := plain 0 0x0602 [], wait := .again [1] }, 0, plain 0 0x0602 [], [], false, 0, { cmd := plain 0 0x0602 [], wait := .again [1] }, ?_, ?_⟩
    all_goals try dsimp only
    all_goals try first
      | exact accepts_sealed (r := 0) (by decide +kernel)
      | exact accepts_of (by decide +kernel)
      | exact resumes_run (r := 0) (by decide +kernel)
      | decide +kernel
      | with_reducible rfl,
   by
    refine ⟨cmdS ({ partS { State.reset with tasks := [(16383, task0 .idle)] } with running := [{ cmd := plain 0 0x0602 [(16, 2, 16383)], wait := .turn }] }) 0 (sealed 0 0x0601 [(16, 2, 16383)]), 0, sealed 0 0x0601 [(16, 2, 16383)], [], true, ?_, ?_⟩
    all_goals try dsimp only
    all_goals try first
      | exact starts_sealed (r := 0) (by decide +kernel)
      | exact accepts_of (by decide +kernel)
      | exact waits_run (r := 0) (by decide +kernel)
      | decide +kernel
      | with_reducible rfl
      | exact Or.inl (by decide +kernel)
      | exact Or.inr (by decide +kernel),
   by
    refine ⟨runS (partS { State.reset with tasks := [(16383, task0 .idle)] }) 0 { cmd := plain 0 0x0601 [(16, 2, 16383)], wait := .turn }, 0, { cmd := plain 0 0x0601 [(16, 2, 16383)], wait := .turn }, [], ?_, ?_, ?_, ?_, ?_, ?_, ?_⟩
    all_goals try dsimp only
    all_goals try first
      | exact accepts_sealed (r := 0) (by decide +kernel)
      | exact accepts_of (by decide +kernel)
      | exact waits_run (r := 0) (by decide +kernel)
      | decide +kernel
      | with_reducible rfl
      | exact Or.inl (by decide +kernel)
      | exact Or.inr (by decide +kernel)⟩

theorem witness_PartitionCommandsAnswer_1 :
    (∃ (s : State) (r : Recip) (c : CmdRec) (rest : List CmdRec) (auth : Bool), let z := s.begun r c rest auth; (s.Accepts r c rest 0x0101 auth) ∧ (c.stray [(16, 2)] = false) ∧ (c.num 16 1 ≤ 15) ∧ (c.num 17 1 ≤ 1) ∧ ((z.part (c.num 16 1)).state = 0) ∧ (z.secSlot = c.num 16 1)) ∧
    (∃ (s : State) (r : Recip) (c : CmdRec) (rest : List CmdRec) (auth : Bool), let z := s.begun r c rest auth; (s.Accepts r c rest 0x0101 auth) ∧ (c.stray [(16, 2)] = false) ∧ (c.num 16 1 ≤ 15) ∧ (c.num 17 1 ≤ 1) ∧ ((z.part (c.num 16 1)).state = 0) ∧ (z.secSlot ≠ c.num 16 1)) ∧
    (∃ (s : State) (r : Recip) (x : Running), let z := s.without x; let c := x.cmd; (s.WaitsFor r x 0x0101 (.engine [])) ∧ (c.stray [(16, 2)] = false) ∧ (c.num 16 1 ≤ 15) ∧ (c.num 17 1 ≤ 1) ∧ ((z.part (c.num 16 1)).state = 0) ∧ (z.secSlot = c.num 16 1)) ∧
    (∃ (s : State) (r : Recip) (c : CmdRec) (rest : List CmdRec) (auth : Bool), let b := s.begun r c rest auth; let k := c.num 17 1; ∃ revoke : Bool, (s.Accepts r c rest (if revoke then 0x0103 else 0x0102) auth) ∧ (firstFail (b.grantChecks c revoke) = none) ∧ ((k = 2))) ∧
    (∃ (s : State) (r : Recip) (c : CmdRec) (rest : List CmdRec) (auth : Bool), let b := s.begun r c rest auth; let k := c.num 17 1; ∃ revoke : Bool, (s.Accepts r c rest (if revoke then 0x0103 else 0x0102) auth) ∧ (firstFail (b.grantChecks c revoke) = none) ∧ ((k = 3))) ∧
    (∃ (s : State) (r : Recip) (c : CmdRec) (rest : List CmdRec) (auth : Bool), let b := s.begun r c rest auth; let k := c.num 17 1; ∃ revoke : Bool, (s.Accepts r c rest (if revoke then 0x0103 else 0x0102) auth) ∧ (firstFail (b.grantChecks c revoke) = none) ∧ ((k = 4))) ∧
    (∃ (s : State) (r : Recip) (c : CmdRec) (rest : List CmdRec) (auth : Bool), let b := s.begun r c rest auth; let k := c.num 17 1; ∃ revoke : Bool, (s.Accepts r c rest (if revoke then 0x0103 else 0x0102) auth) ∧ (firstFail (b.grantChecks c revoke) = none) ∧ ((k = 8))) :=
  ⟨by
    refine ⟨cmdS ({ State.reset with secSlot := 15 }) 16 (sealed 16 0x0101 [(16, 1, 15), (17, 1, 1)]), 16, sealed 16 0x0101 [(16, 1, 15), (17, 1, 1)], [], true, ?_, ?_, ?_, ?_, ?_, ?_⟩
    all_goals try dsimp only
    all_goals try first
      | exact accepts_sealed (r := 16) (by decide +kernel)
      | exact accepts_of (by decide +kernel)
      | exact waits_run (r := 16) (by decide +kernel)
      | decide +kernel
      | with_reducible rfl
      | exact Or.inl (by decide +kernel)
      | exact Or.inr (by decide +kernel),
   by
    refine ⟨cmdS (State.reset) 16 (sealed 16 0x0101 [(16, 1, 15), (17, 1, 1)]), 16, sealed 16 0x0101 [(16, 1, 15), (17, 1, 1)], [], true, ?_, ?_, ?_, ?_, ?_, ?_⟩
    all_goals try dsimp only
    all_goals try first
      | exact accepts_sealed (r := 16) (by decide +kernel)
      | exact accepts_of (by decide +kernel)
      | exact waits_run (r := 16) (by decide +kernel)
      | decide +kernel
      | with_reducible rfl
      | exact Or.inl (by decide +kernel)
      | exact Or.inr (by decide +kernel),
   by
    refine ⟨runS ({ State.reset with secSlot := 15 }) 16 { cmd := plain 16 0x0101 [(16, 1, 15), (17, 1, 1)], wait := .engine [] }, 16, { cmd := plain 16 0x0101 [(16, 1, 15), (17, 1, 1)], wait := .engine [] }, ?_, ?_, ?_, ?_, ?_, ?_⟩
    all_goals try dsimp only
    all_goals try first
      | exact accepts_sealed (r := 16) (by decide +kernel)
      | exact accepts_of (by decide +kernel)
      | exact waits_run (r := 16) (by decide +kernel)
      | decide +kernel
      | with_reducible rfl
      | exact Or.inl (by decide +kernel)
      | exact Or.inr (by decide +kernel),
   by
    refine ⟨cmdS (partS State.reset) 16 (sealed 16 0x0102 [(16, 1, 0), (17, 1, 2), (24, 8, 2 ^ 63)]), 16, sealed 16 0x0102 [(16, 1, 0), (17, 1, 2), (24, 8, 2 ^ 63)], [], true, false, ?_, ?_, ?_⟩
    all_goals try dsimp only
    all_goals try first
      | exact accepts_sealed (r := 16) (by decide +kernel)
      | exact accepts_of (by decide +kernel)
      | exact resumes_run (r := 16) (by decide +kernel)
      | decide +kernel
      | with_reducible rfl,
   by
    refine ⟨cmdS (partS State.reset) 16 (sealed 16 0x0102 [(16, 1, 0), (17, 1, 3), (24, 4, 98304)]), 16, sealed 16 0x0102 [(16, 1, 0), (17, 1, 3), (24, 4, 98304)], [], true, false, ?_, ?_, ?_⟩
    all_goals try dsimp only
    all_goals try first
      | exact accepts_sealed (r := 16) (by decide +kernel)
      | exact accepts_of (by decide +kernel)
      | exact resumes_run (r := 16) (by decide +kernel)
      | decide +kernel
      | with_reducible rfl,
   by
    refine ⟨cmdS (partS State.reset) 16 (sealed 16 0x0102 [(16, 1, 0), (17, 1, 4), (24, 4, 98304)]), 16, sealed 16 0x0102 [(16, 1, 0), (17, 1, 4), (24, 4, 98304)], [], true, false, ?_, ?_, ?_⟩
    all_goals try dsimp only
    all_goals try first
      | exact accepts_sealed (r := 16) (by decide +kernel)
      | exact accepts_of (by decide +kernel)
      | exact resumes_run (r := 16) (by decide +kernel)
      | decide +kernel
      | with_reducible rfl,
   by
    refine ⟨cmdS (partS State.reset) 16 (sealed 16 0x0102 [(16, 1, 0), (17, 1, 8), (24, 32, 2 ^ 9)]), 16, sealed 16 0x0102 [(16, 1, 0), (17, 1, 8), (24, 32, 2 ^ 9)], [], true, false, ?_, ?_, ?_⟩
    all_goals try dsimp only
    all_goals try first
      | exact accepts_sealed (r := 16) (by decide +kernel)
      | exact accepts_of (by decide +kernel)
      | exact resumes_run (r := 16) (by decide +kernel)
      | decide +kernel
      | with_reducible rfl⟩

theorem witness_PartitionCommandsAnswer_2 :
    (∃ (s : State) (r : Recip) (c : CmdRec) (rest : List CmdRec) (auth : Bool), let b := s.begun r c rest auth; let q := c.num 16 1; let k := c.num 17 1; let v := c.num 24 4; ∃ revoke : Bool, (s.Accepts r c rest (if revoke then 0x0103 else 0x0102) auth) ∧ (firstFail (b.grantChecks c revoke) = none) ∧ ((k = 9) ∧ (v ≠ mgmtQid) ∧ (revoke = false → q ≠ 16 ∨ b.poQueue v = true) ∧ (revoke = true → (b.queue v).owner = q))) ∧
    (∃ (s : State) (r : Recip) (c : CmdRec) (rest : List CmdRec) (auth : Bool), let b := s.begun r c rest auth; let k := c.num 17 1; ∃ revoke : Bool, (s.Accepts r c rest (if revoke then 0x0103 else 0x0102) auth) ∧ (firstFail (b.grantChecks c revoke) = none) ∧ ((10 ≤ k) ∧ (k ≤ 12))) ∧
    (∃ (s : State) (r : Recip) (c : CmdRec) (rest : List CmdRec) (auth : Bool), let b := s.begun r c rest auth; let k := c.num 17 1; ∃ free ns, (s.Accepts r c rest 0x0102 auth) ∧ (k = 1) ∧ (firstFail (b.grantChecks c false) = none) ∧ (free = (c.tileMask.filterMap b.tileOfLogical).filter (fun p => b.ownerOf p == 31)) ∧ (ns = sectorsOf (c.tileMask.filterMap b.tileOfLogical)) ∧ (∀ n ∈ ns, (b.sector n).pstate = .brew) ∧ (∀ p ∈ free, (b.tm p).migrating = false)) ∧
    (∃ (s : State) (r : Recip) (c : CmdRec) (rest : List CmdRec) (auth : Bool), let b := s.begun r c rest auth; let q := c.num 16 1; let k := c.num 17 1; ∃ mine ns, (s.Accepts r c rest 0x0103 auth) ∧ (k = 1) ∧ (firstFail (b.grantChecks c true) = none) ∧ (mine = (c.tileMask.filterMap b.tileOfLogical).filter (fun p => b.ownerOf p == q)) ∧ (ns = sectorsOf (c.tileMask.filterMap b.tileOfLogical)) ∧ (∀ n ∈ ns, (b.sector n).pstate = .brew)) ∧
    (∃ (s : State) (r : Recip) (c : CmdRec) (rest : List CmdRec) (auth : Bool), ∃ x w named, (w = s.without x) ∧ (x.cmd.num 17 1 = 1) ∧ (named = x.cmd.tileMask.filterMap w.tileOfLogical) ∧ (let free := named.filter fun p => w.ownerOf p == 31; (s.Resumes r x 0x0102 [1]) ∧ (∀ p ∈ free, (w.tile p).zres = 2 ∧ (w.tile p).zeroizing = false))) :=
  ⟨by
    refine ⟨cmdS (partS State.reset) 16 (sealed 16 0x0102 [(16, 1, 0), (17, 1, 9), (24, 4, 0x10000), (28, 2, 4096)]), 16, sealed 16 0x0102 [(16, 1, 0), (17, 1, 9), (24, 4, 0x10000), (28, 2, 4096)], [], true, false, ?_, ?_, ?_, ?_, ?_, ?_⟩
    all_goals try dsimp only
    all_goals try first
      | exact accepts_sealed (r := 16) (by decide +kernel)
      | exact accepts_of (by decide +kernel)
      | exact resumes_run (r := 16) (by decide +kernel)
      | decide +kernel
      | with_reducible rfl,
   by
    refine ⟨cmdS (partS State.reset) 16 (sealed 16 0x0102 [(16, 1, 0), (17, 1, 12), (24, 16, 2 ^ 127)]), 16, sealed 16 0x0102 [(16, 1, 0), (17, 1, 12), (24, 16, 2 ^ 127)], [], true, false, ?_, ?_, ?_, ?_⟩
    all_goals try dsimp only
    all_goals try first
      | exact accepts_sealed (r := 16) (by decide +kernel)
      | exact accepts_of (by decide +kernel)
      | exact resumes_run (r := 16) (by decide +kernel)
      | decide +kernel
      | with_reducible rfl,
   by
    refine ⟨cmdS (partS { State.reset with tileMap := [(0, { logical := 0, owner := 31 })] }) 16 (sealed 16 0x0102 [(16, 1, 0), (17, 1, 1), (24, 31, 1)]), 16, sealed 16 0x0102 [(16, 1, 0), (17, 1, 1), (24, 31, 1)], [], true, ?v34, ?v35, ?_, ?_, ?_, ?_, ?_, ?_, ?_⟩
    all_goals try dsimp only
    all_goals try first
      | exact accepts_sealed (r := 16) (by decide +kernel)
      | exact accepts_of (by decide +kernel)
      | exact resumes_run (r := 16) (by decide +kernel)
      | decide +kernel
      | with_reducible rfl,
   by
    refine ⟨cmdS (partS { State.reset with tileMap := [(0, { logical := 0, owner := 0 })] }) 16 (sealed 16 0x0103 [(16, 1, 0), (17, 1, 1), (24, 31, 1)]), 16, sealed 16 0x0103 [(16, 1, 0), (17, 1, 1), (24, 31, 1)], [], true, ?v36, ?v37, ?_, ?_, ?_, ?_, ?_, ?_⟩
    all_goals try dsimp only
    all_goals try first
      | exact accepts_sealed (r := 16) (by decide +kernel)
      | exact accepts_of (by decide +kernel)
      | exact resumes_run (r := 16) (by decide +kernel)
      | decide +kernel
      | with_reducible rfl,
   by
    refine ⟨runS (partS { State.reset with tileMap := [(0, { logical := 0, owner := 31 })], tiles := [(0, { zres := 2 })] }) 16 { cmd := plain 16 0x0102 [(16, 1, 0), (17, 1, 1), (24, 31, 1)], wait := .again [1] }, 16, plain 16 0x0102 [(16, 1, 0), (17, 1, 1), (24, 31, 1)], [], true, { cmd := plain 16 0x0102 [(16, 1, 0), (17, 1, 1), (24, 31, 1)], wait := .again [1] }, ?v38, ?v39, ?_, ?_, ?_, ?_, ?_⟩
    all_goals try dsimp only
    all_goals try first
      | exact accepts_sealed (r := 16) (by decide +kernel)
      | exact accepts_of (by decide +kernel)
      | exact resumes_run (r := 16) (by decide +kernel)
      | decide +kernel
      | with_reducible rfl⟩

theorem witness_PartitionCommandsAnswer_3 :
    (∃ (s : State) (r : Recip) (c : CmdRec) (rest : List CmdRec) (auth : Bool), ∃ x w named, (w = s.without x) ∧ (x.cmd.num 17 1 = 1) ∧ (named = x.cmd.tileMask.filterMap w.tileOfLogical) ∧ (let mine := named.filter fun p => w.ownerOf p == x.cmd.num 16 1; (s.Resumes r x 0x0103 [1]) ∧ (∀ p ∈ mine, (w.tile p).fenced = true ∧ (w.tile p).seq = .off ∧ (w.tm p).migrating = false) ∧ (∀ n ∈ sectorsOf named, (w.sector n).pstate = .brew))) ∧
    (∃ (s : State) (r : Recip) (c : CmdRec) (rest : List CmdRec) (auth : Bool), ∃ x w named, (w = s.without x) ∧ (x.cmd.num 17 1 = 1) ∧ (named = x.cmd.tileMask.filterMap w.tileOfLogical) ∧ (let mine := named.filter fun p => w.ownerOf p == x.cmd.num 16 1; (s.Resumes r x 0x0103 [2]) ∧ (∀ p ∈ mine, (w.tile p).zres = 2 ∧ (w.tile p).zeroizing = false))) ∧
    (∃ (s : State) (r : Recip) (c : CmdRec) (rest : List CmdRec) (auth : Bool), let b := s.begun r c rest auth; let k := c.num 17 1; ∃ revoke : Bool, (s.Accepts r c rest (if revoke then 0x0103 else 0x0102) auth) ∧ (firstFail (b.grantChecks c revoke) = none) ∧ ((k = 5))) ∧
    (∃ (s : State) (r : Recip) (c : CmdRec) (rest : List CmdRec) (auth : Bool), let b := s.begun r c rest auth; let k := c.num 17 1; ∃ revoke : Bool, (s.Accepts r c rest (if revoke then 0x0103 else 0x0102) auth) ∧ (firstFail (b.grantChecks c revoke) = none) ∧ ((k = 6))) ∧
    (∃ (s : State) (r : Recip) (c : CmdRec) (rest : List CmdRec) (auth : Bool), let b := s.begun r c rest auth; let k := c.num 17 1; ∃ revoke : Bool, (s.Accepts r c rest (if revoke then 0x0103 else 0x0102) auth) ∧ (firstFail (b.grantChecks c revoke) = none) ∧ ((k = 7) ∧ (∀ x, x < 64 → (b.router x).draining = false))) :=
  ⟨by
    refine ⟨runS (partS { State.reset with tileMap := [(0, { logical := 0, owner := 0 })] }) 16 { cmd := plain 16 0x0103 [(16, 1, 0), (17, 1, 1), (24, 31, 1)], wait := .again [1] }, 16, plain 16 0x0103 [(16, 1, 0), (17, 1, 1), (24, 31, 1)], [], true, { cmd := plain 16 0x0103 [(16, 1, 0), (17, 1, 1), (24, 31, 1)], wait := .again [1] }, ?v40, ?v41, ?_, ?_, ?_, ?_, ?_, ?_⟩
    all_goals try dsimp only
    all_goals try first
      | exact accepts_sealed (r := 16) (by decide +kernel)
      | exact accepts_of (by decide +kernel)
      | exact resumes_run (r := 16) (by decide +kernel)
      | decide +kernel
      | with_reducible rfl,
   by
    refine ⟨runS (partS { State.reset with tileMap := [(0, { logical := 0, owner := 0 })], tiles := [(0, { zres := 2 })] }) 16 { cmd := plain 16 0x0103 [(16, 1, 0), (17, 1, 1), (24, 31, 1)], wait := .again [2] }, 16, plain 16 0x0103 [(16, 1, 0), (17, 1, 1), (24, 31, 1)], [], true, { cmd := plain 16 0x0103 [(16, 1, 0), (17, 1, 1), (24, 31, 1)], wait := .again [2] }, ?v42, ?v43, ?_, ?_, ?_, ?_, ?_⟩
    all_goals try dsimp only
    all_goals try first
      | exact accepts_sealed (r := 16) (by decide +kernel)
      | exact accepts_of (by decide +kernel)
      | exact resumes_run (r := 16) (by decide +kernel)
      | decide +kernel
      | with_reducible rfl,
   by
    refine ⟨cmdS (partS dramG) 16 (sealed 16 0x0102 [(16, 1, 0), (17, 1, 5), (24, 2, 2 ^ 15)]), 16, sealed 16 0x0102 [(16, 1, 0), (17, 1, 5), (24, 2, 2 ^ 15)], [], true, false, ?_, ?_, ?_⟩
    all_goals try dsimp only
    all_goals try first
      | exact accepts_sealed (r := 16) (by decide +kernel)
      | exact accepts_of (by decide +kernel)
      | exact resumes_run (r := 16) (by decide +kernel)
      | decide +kernel
      | with_reducible rfl,
   by
    refine ⟨cmdS (partS State.reset) 16 (sealed 16 0x0102 [(16, 1, 0), (17, 1, 6), (24, 8, 1)]), 16, sealed 16 0x0102 [(16, 1, 0), (17, 1, 6), (24, 8, 1)], [], true, false, ?_, ?_, ?_⟩
    all_goals try dsimp only
    all_goals try first
      | exact accepts_sealed (r := 16) (by decide +kernel)
      | exact accepts_of (by decide +kernel)
      | exact resumes_run (r := 16) (by decide +kernel)
      | decide +kernel
      | with_reducible rfl,
   by
    refine ⟨cmdS (partS State.reset) 16 (sealed 16 0x0102 [(16, 1, 0), (17, 1, 7), (24, 8, 2 ^ 63)]), 16, sealed 16 0x0102 [(16, 1, 0), (17, 1, 7), (24, 8, 2 ^ 63)], [], true, false, ?_, ?_, ?_, ?_⟩
    all_goals try dsimp only
    all_goals try first
      | exact accepts_sealed (r := 16) (by decide +kernel)
      | exact accepts_of (by decide +kernel)
      | exact resumes_run (r := 16) (by decide +kernel)
      | decide +kernel
      | with_reducible rfl⟩

theorem witness_PartitionCommandsAnswer_4 :
    (∃ (s : State) (r : Recip) (c : CmdRec) (rest : List CmdRec) (auth : Bool), ∃ (revoke : Bool), ∃ x z, (s.Resumes r x (if revoke then 0x0103 else 0x0102) (1 :: z)) ∧ (x.cmd.num 17 1 = 5 ∧ s.regionsSettled (List.range 16) = true ∨ x.cmd.num 17 1 = 6 ∧ (∀ n, n < 12 → (s.mem.ctlOf n).apply = false) ∨
        x.cmd.num 17 1 = 7 ∧ ∀ n, n < 64 → (s.router n).draining = false)) ∧
    (∃ (s : State) (r : Recip) (c : CmdRec) (rest : List CmdRec) (auth : Bool), let b := s.begun r c rest auth; let q := c.num 16 1; (s.Accepts r c rest 0x0104 auth) ∧ (c.stray [(16, 1)] = false) ∧ (q ≤ 15) ∧ ((b.part q).state ≠ 0)) ∧
    (∃ (s : State) (r : Recip) (c : CmdRec) (rest : List CmdRec) (auth : Bool), ∃ x p w ps, (w = s.without x) ∧ (p = x.cmd.num 16 1) ∧ (ps = (List.range 256).filter (fun i => w.ownerOf i == p)) ∧ (s.Resumes r x 0x0104 [1]) ∧ (∀ z ∈ w.streams, z.2.owner = p → z.2.state ≠ 3) ∧ (∀ n ∈ sectorsOf ps, (w.sector n).pstate = .brew)) ∧
    (∃ (s : State) (r : Recip) (c : CmdRec) (rest : List CmdRec) (auth : Bool), ∃ x p w ps, (w = s.without x) ∧ (p = x.cmd.num 16 1) ∧ (ps = (List.range 256).filter (fun i => w.ownerOf i == p)) ∧ (s.Resumes r x 0x0104 [2]) ∧ (∀ i ∈ ps, (w.tile i).zres = 2 ∧ (w.tile i).zeroizing = false) ∧ (∀ n, n < 64 → (w.router n).draining = false)) ∧
    (∃ (s : State) (r : Recip) (c : CmdRec) (rest : List CmdRec) (auth : Bool), ∃ x p w ps, (w = s.without x) ∧ (p = x.cmd.num 16 1) ∧ (ps = (List.range 256).filter (fun i => w.ownerOf i == p)) ∧ (s.Resumes r x 0x0104 [3]) ∧ (w.destroySettled = true) ∧ (w.secSlot = p)) :=
  ⟨by
    refine ⟨runS State.reset 16 { cmd := plain 16 0x0102 [(16, 1, 0), (17, 1, 6)], wait := .again [1] }, 16, plain 16 0x0102 [(16, 1, 0), (17, 1, 6)], [], false, false, { cmd := plain 16 0x0102 [(16, 1, 0), (17, 1, 6)], wait := .again [1] }, [], ?_, ?_⟩
    all_goals try dsimp only
    all_goals try first
      | exact accepts_sealed (r := 16) (by decide +kernel)
      | exact accepts_of (by decide +kernel)
      | exact resumes_run (r := 16) (by decide +kernel)
      | decide +kernel
      | with_reducible rfl,
   by
    refine ⟨cmdS (partS) 16 (sealed 16 0x0104 []), 16, sealed 16 0x0104 [], [], true, ?_, ?_, ?_, ?_⟩
    all_goals try dsimp only
    all_goals try first
      | exact accepts_sealed (r := 16) (by decide +kernel)
      | exact accepts_of (by decide +kernel)
      | exact resumes_run (r := 16) (by decide +kernel)
      | decide +kernel
      | with_reducible rfl,
   by
    refine ⟨runS (partS { State.reset with tileMap := [(0, { logical := 0, owner := 0 })], tiles := [(0, { zres := 2 })] }) 16 { cmd := plain 16 0x0104 [], wait := .again [1] }, 16, plain 16 0x0104 [], [], true, { cmd := plain 16 0x0104 [], wait := .again [1] }, 0, ?v44, ?v45, ?_, ?_, ?_, ?_, ?_, ?_⟩
    all_goals try dsimp only
    all_goals try first
      | exact accepts_sealed (r := 16) (by decide +kernel)
      | exact accepts_of (by decide +kernel)
      | exact resumes_run (r := 16) (by decide +kernel)
      | decide +kernel
      | with_reducible rfl,
   by
    refine ⟨runS (partS { State.reset with tileMap := [(0, { logical := 0, owner := 0 })], tiles := [(0, { zres := 2 })] }) 16 { cmd := plain 16 0x0104 [], wait := .again [2] }, 16, plain 16 0x0104 [], [], true, { cmd := plain 16 0x0104 [], wait := .again [2] }, 0, ?v46, ?v47, ?_, ?_, ?_, ?_, ?_, ?_⟩
    all_goals try dsimp only
    all_goals try first
      | exact accepts_sealed (r := 16) (by decide +kernel)
      | exact accepts_of (by decide +kernel)
      | exact resumes_run (r := 16) (by decide +kernel)
      | decide +kernel
      | with_reducible rfl,
   by
    refine ⟨runS (partS { State.reset with tileMap := [(0, { logical := 0, owner := 0 })], tiles := [(0, { zres := 2 })] }) 16 { cmd := plain 16 0x0104 [], wait := .again [3] }, 16, plain 16 0x0104 [], [], true, { cmd := plain 16 0x0104 [], wait := .again [3] }, 0, ?v48, ?v49, ?_, ?_, ?_, ?_, ?_, ?_⟩
    all_goals try dsimp only
    all_goals try first
      | exact accepts_sealed (r := 16) (by decide +kernel)
      | exact accepts_of (by decide +kernel)
      | exact resumes_run (r := 16) (by decide +kernel)
      | decide +kernel
      | with_reducible rfl⟩

theorem witness_PartitionCommandsAnswer_5 :
    ∃ (s : State) (r : Recip) (c : CmdRec) (rest : List CmdRec) (auth : Bool), let b := s.begun r c rest auth; let q := c.num 16 1; let k := c.num 17 1; ∃ d, (s.Accepts r c rest 0x0105 auth) ∧ (d = c.desc 24) ∧ (c.stray [(16, 2), (24, 16)] = false) ∧ (d.rsv = 0) ∧ (q ≤ 15) ∧ (1 ≤ k) ∧ (k ≤ 12) ∧ (b.descReady c d 40 true) ∧ (40 ≤ d.len) ∧ (c.stamp = 16 ∨ c.stamp = q) ∧ ((b.part q).state ≠ 0) :=
  by
    refine ⟨cmdS (partS) 16 (sealed 16 0x0105 [(17, 1, 12), (24, 8, 4096), (32, 4, 40)]), 16, sealed 16 0x0105 [(17, 1, 12), (24, 8, 4096), (32, 4, 40)], [], true, ?v50, ?_, ?_, ?_, ?_, ?_, ?_, ?_, ?_, ?_, ?_, ?_⟩
    all_goals try dsimp only
    all_goals try first
      | exact accepts_sealed (r := 16) (by decide +kernel)
      | exact accepts_of (by decide +kernel)
      | exact waits_run (r := 16) (by decide +kernel)
      | decide +kernel
      | with_reducible rfl
      | exact Or.inl (by decide +kernel)
      | exact Or.inr (by decide +kernel)

theorem witness_SecurityCommandsAnswer_1 :
    (∃ (s : State) (r : Recip) (c : CmdRec) (rest : List CmdRec) (auth : Bool), let z := s.begun r c rest auth; (s.Accepts r c rest 0x0106 auth) ∧ (c.stray [(16, 32)] = false) ∧ ((c.desc 16).rsv = 0) ∧ ((c.desc 32).rsv = 0) ∧ (6791 ≤ (c.desc 16).len) ∧ (4678 ≤ (c.desc 32).len) ∧ (z.descReady c (c.desc 32) 4678 true) ∧ ((z.role c.stamp).session = none) ∧ (z.partBusy c.stamp = false) ∧ (z.enrolling c.stamp = false) ∧ ((c.desc 16).space = 0) ∧ (qidKind c.qid = 0)) ∧
    (∃ (s : State) (r : Recip) (c : CmdRec) (rest : List CmdRec) (auth : Bool), let z := s.begun r c rest auth; (s.Accepts r c rest 0x0106 auth) ∧ (c.stray [(16, 32)] = false) ∧ ((c.desc 16).rsv = 0) ∧ ((c.desc 32).rsv = 0) ∧ (6791 ≤ (c.desc 16).len) ∧ (4678 ≤ (c.desc 32).len) ∧ (z.descReady c (c.desc 32) 4678 true) ∧ ((z.role c.stamp).session = none) ∧ (z.partBusy c.stamp = false) ∧ (z.enrolling c.stamp = false) ∧ (let m := z.readRange c.stamp (c.desc 16).addr (6791); ((c.desc 16).space = 1) ∧ (z.rangeAt c.stamp (c.desc 16).addr (6791) false = 0) ∧ (z.noTags c.stamp = false) ∧ (m.status = stOk) ∧ (m.poison = none))) ∧
    (∃ (s : State) (r : Recip) (x : Running) (data : List Byte), let z := s.without x; let c := x.cmd; (s.WaitsFor r x 0x0106 (.engine data)) ∧ (c.stray [(16, 32)] = false) ∧ ((c.desc 16).rsv = 0) ∧ ((c.desc 32).rsv = 0) ∧ (6791 ≤ (c.desc 16).len) ∧ (4678 ≤ (c.desc 32).len) ∧ (z.descReady c (c.desc 32) 4678 true) ∧ ((z.role c.stamp).session = none) ∧ (z.partBusy c.stamp = false) ∧ (z.enrolling c.stamp = false) ∧ (z.descReady c (c.desc 16) (6791) false) ∧ (z.secSlot = c.stamp)) :=
  ⟨by
    refine ⟨openS (partS) 0 (plain 0 0x0106 [(16, 8, 4096), (24, 4, 6791), (32, 8, 16384), (40, 4, 4678)]), 0, plain 0 0x0106 [(16, 8, 4096), (24, 4, 6791), (32, 8, 16384), (40, 4, 4678)], [], false, ?_, ?_, ?_, ?_, ?_, ?_, ?_, ?_, ?_, ?_, ?_, ?_⟩
    all_goals try dsimp only
    all_goals try first
      | exact accepts_sealed (r := 0) (by decide +kernel)
      | exact accepts_of (by decide +kernel)
      | exact waits_run (r := 0) (by decide +kernel)
      | decide +kernel
      | with_reducible rfl
      | exact Or.inl (by decide +kernel)
      | exact Or.inr (by decide +kernel),
   by
    refine ⟨openS (dramG) 16 (plain 16 0x0106 [(16, 8, dramBase), (24, 4, 6791), (28, 1, 1), (32, 8, dramBase + 65536), (40, 4, 4678), (44, 1, 1)]), 16, plain 16 0x0106 [(16, 8, dramBase), (24, 4, 6791), (28, 1, 1), (32, 8, dramBase + 65536), (40, 4, 4678), (44, 1, 1)], [], false, ?_, ?_, ?_, ?_, ?_, ?_, ?_, ?_, ?_, ?_, ?_, ?_, ?_, (readRange_blank (s := (openS dramG 16 (plain 16 0x0106 [(16, 8, dramBase), (24, 4, 6791), (28, 1, 1), (32, 8, dramBase + 65536), (40, 4, 4678), (44, 1, 1)])).begun 16 (plain 16 0x0106 [(16, 8, dramBase), (24, 4, 6791), (28, 1, 1), (32, 8, dramBase + 65536), (40, 4, 4678), (44, 1, 1)]) [] false) ⟨rfl, rfl⟩ 16 ((plain 16 0x0106 [(16, 8, dramBase), (24, 4, 6791), (28, 1, 1), (32, 8, dramBase + 65536), (40, 4, 4678), (44, 1, 1)]).desc 16).addr 6791 (by decide +kernel)).1, (readRange_blank (s := (openS dramG 16 (plain 16 0x0106 [(16, 8, dramBase), (24, 4, 6791), (28, 1, 1), (32, 8, dramBase + 65536), (40, 4, 4678), (44, 1, 1)])).begun 16 (plain 16 0x0106 [(16, 8, dramBase), (24, 4, 6791), (28, 1, 1), (32, 8, dramBase + 65536), (40, 4, 4678), (44, 1, 1)]) [] false) ⟨rfl, rfl⟩ 16 ((plain 16 0x0106 [(16, 8, dramBase), (24, 4, 6791), (28, 1, 1), (32, 8, dramBase + 65536), (40, 4, 4678), (44, 1, 1)]).desc 16).addr 6791 (by decide +kernel)).2.1⟩
    all_goals try dsimp only
    all_goals try first
      | exact accepts_sealed (r := 16) (by decide +kernel)
      | exact accepts_of (by decide +kernel)
      | exact waits_run (r := 16) (by decide +kernel)
      | decide +kernel
      | with_reducible rfl
      | exact Or.inl (by decide +kernel)
      | exact Or.inr (by decide +kernel),
   by
    refine ⟨runS ({ State.reset with secSlot := 16 }) 16 { cmd := plain 16 0x0106 [(16, 8, 4096), (24, 4, 6791), (32, 8, 16384), (40, 4, 4678)], wait := .engine [1] }, 16, { cmd := plain 16 0x0106 [(16, 8, 4096), (24, 4, 6791), (32, 8, 16384), (40, 4, 4678)], wait := .engine [1] }, [1], ?_, ?_, ?_, ?_, ?_, ?_, ?_, ?_, ?_, ?_, ?_, ?_⟩
    all_goals try dsimp only
    all_goals try first
      | exact accepts_sealed (r := 16) (by decide +kernel)
      | exact accepts_of (by decide +kernel)
      | exact waits_run (r := 16) (by decide +kernel)
      | decide +kernel
      | with_reducible rfl
      | exact Or.inl (by decide +kernel)
      | exact Or.inr (by decide +kernel)⟩

theorem witness_SecurityCommandsAnswer_2 :
    (∃ (s : State) (r : Recip) (c : CmdRec) (rest : List CmdRec) (auth : Bool), let z := s.begun r c rest auth; (s.Accepts r c rest 0x0904 auth) ∧ (c.stray [(16, 32)] = false) ∧ ((c.desc 16).rsv = 0) ∧ ((c.desc 32).rsv = 0) ∧ (4726 ≤ (c.desc 16).len) ∧ (4678 ≤ (c.desc 32).len) ∧ (z.descReady c (c.desc 32) 4678 true) ∧ (z.partBusy c.stamp = false) ∧ ((c.desc 16).space = 0) ∧ (qidKind c.qid = 0)) ∧
    (∃ (s : State) (r : Recip) (c : CmdRec) (rest : List CmdRec) (auth : Bool), let z := s.begun r c rest auth; (s.Accepts r c rest 0x0904 auth) ∧ (c.stray [(16, 32)] = false) ∧ ((c.desc 16).rsv = 0) ∧ ((c.desc 32).rsv = 0) ∧ (4726 ≤ (c.desc 16).len) ∧ (4678 ≤ (c.desc 32).len) ∧ (z.descReady c (c.desc 32) 4678 true) ∧ (z.partBusy c.stamp = false) ∧ (let m := z.readRange c.stamp (c.desc 16).addr (4726); ((c.desc 16).space = 1) ∧ (z.rangeAt c.stamp (c.desc 16).addr (4726) false = 0) ∧ (z.noTags c.stamp = false) ∧ (m.status = stOk) ∧ (m.poison = none))) ∧
    (∃ (s : State) (r : Recip) (x : Running) (data : List Byte), let z := s.without x; let c := x.cmd; (s.WaitsFor r x 0x0904 (.engine data)) ∧ (c.stray [(16, 32)] = false) ∧ ((c.desc 16).rsv = 0) ∧ ((c.desc 32).rsv = 0) ∧ (4726 ≤ (c.desc 16).len) ∧ (4678 ≤ (c.desc 32).len) ∧ (z.descReady c (c.desc 32) 4678 true) ∧ (z.partBusy c.stamp = false) ∧ (z.descReady c (c.desc 16) (4726) false) ∧ (z.secSlot = c.stamp)) :=
  ⟨by
    refine ⟨cmdS (partS) 0 (sealed 0 0x0904 [(16, 8, 4096), (24, 4, 4726), (32, 8, 16384), (40, 4, 4678)]), 0, sealed 0 0x0904 [(16, 8, 4096), (24, 4, 4726), (32, 8, 16384), (40, 4, 4678)], [], true, ?_, ?_, ?_, ?_, ?_, ?_, ?_, ?_, ?_, ?_⟩
    all_goals try dsimp only
    all_goals try first
      | exact accepts_sealed (r := 0) (by decide +kernel)
      | exact accepts_of (by decide +kernel)
      | exact waits_run (r := 0) (by decide +kernel)
      | decide +kernel
      | with_reducible rfl
      | exact Or.inl (by decide +kernel)
      | exact Or.inr (by decide +kernel),
   by
    refine ⟨cmdS (dramG) 16 (sealed 16 0x0904 [(16, 8, dramBase), (24, 4, 4726), (28, 1, 1), (32, 8, dramBase + 65536), (40, 4, 4678), (44, 1, 1)]), 16, sealed 16 0x0904 [(16, 8, dramBase), (24, 4, 4726), (28, 1, 1), (32, 8, dramBase + 65536), (40, 4, 4678), (44, 1, 1)], [], true, ?_, ?_, ?_, ?_, ?_, ?_, ?_, ?_, ?_, ?_, ?_, (readRange_blank (s := (cmdS dramG 16 (sealed 16 0x0904 [(16, 8, dramBase), (24, 4, 4726), (28, 1, 1), (32, 8, dramBase + 65536), (40, 4, 4678), (44, 1, 1)])).begun 16 (sealed 16 0x0904 [(16, 8, dramBase), (24, 4, 4726), (28, 1, 1), (32, 8, dramBase + 65536), (40, 4, 4678), (44, 1, 1)]) [] true) ⟨rfl, rfl⟩ 16 ((sealed 16 0x0904 [(16, 8, dramBase), (24, 4, 4726), (28, 1, 1), (32, 8, dramBase + 65536), (40, 4, 4678), (44, 1, 1)]).desc 16).addr 4726 (by decide +kernel)).1, (readRange_blank (s := (cmdS dramG 16 (sealed 16 0x0904 [(16, 8, dramBase), (24, 4, 4726), (28, 1, 1), (32, 8, dramBase + 65536), (40, 4, 4678), (44, 1, 1)])).begun 16 (sealed 16 0x0904 [(16, 8, dramBase), (24, 4, 4726), (28, 1, 1), (32, 8, dramBase + 65536), (40, 4, 4678), (44, 1, 1)]) [] true) ⟨rfl, rfl⟩ 16 ((sealed 16 0x0904 [(16, 8, dramBase), (24, 4, 4726), (28, 1, 1), (32, 8, dramBase + 65536), (40, 4, 4678), (44, 1, 1)]).desc 16).addr 4726 (by decide +kernel)).2.1⟩
    all_goals try dsimp only
    all_goals try first
      | exact accepts_sealed (r := 16) (by decide +kernel)
      | exact accepts_of (by decide +kernel)
      | exact waits_run (r := 16) (by decide +kernel)
      | decide +kernel
      | with_reducible rfl
      | exact Or.inl (by decide +kernel)
      | exact Or.inr (by decide +kernel),
   by
    refine ⟨runS ({ State.reset with secSlot := 16 }) 16 { cmd := plain 16 0x0904 [(16, 8, 4096), (24, 4, 4726), (32, 8, 16384), (40, 4, 4678)], wait := .engine [1] }, 16, { cmd := plain 16 0x0904 [(16, 8, 4096), (24, 4, 4726), (32, 8, 16384), (40, 4, 4678)], wait := .engine [1] }, [1], ?_, ?_, ?_, ?_, ?_, ?_, ?_, ?_, ?_, ?_⟩
    all_goals try dsimp only
    all_goals try first
      | exact accepts_sealed (r := 16) (by decide +kernel)
      | exact accepts_of (by decide +kernel)
      | exact waits_run (r := 16) (by decide +kernel)
      | decide +kernel
      | with_reducible rfl
      | exact Or.inl (by decide +kernel)
      | exact Or.inr (by decide +kernel)⟩

theorem witness_SecurityCommandsAnswer_3 :
    (∃ (s : State) (r : Recip) (c : CmdRec) (rest : List CmdRec) (auth : Bool), let z := s.begun r c rest auth; (s.Accepts r c rest 0x0901 auth) ∧ ((c.desc 48).rsv = 0) ∧ (4460 ≤ (c.desc 48).len) ∧ (z.descReady c (c.desc 48) (if (c.desc 48).len < 4460 + z.certificates.length then 4460 else 4460 + z.certificates.length) true) ∧ (z.secSlot = c.stamp)) ∧
    (∃ (s : State) (r : Recip) (c : CmdRec) (rest : List CmdRec) (auth : Bool), let z := s.begun r c rest auth; (s.Accepts r c rest 0x0901 auth) ∧ ((c.desc 48).rsv = 0) ∧ (4460 ≤ (c.desc 48).len) ∧ (z.descReady c (c.desc 48) (if (c.desc 48).len < 4460 + z.certificates.length then 4460 else 4460 + z.certificates.length) true) ∧ (z.secSlot ≠ c.stamp)) ∧
    (∃ (s : State) (r : Recip) (x : Running) (p : List Nat), let z := s.without x; (p ≠ []) ∧ (s.Resumes r x 0x0901 p) ∧ ((x.cmd.desc 48).rsv = 0) ∧ (4460 ≤ (x.cmd.desc 48).len) ∧ (z.descReady x.cmd (x.cmd.desc 48) (if (x.cmd.desc 48).len < 4460 + z.certificates.length then 4460 else 4460 + z.certificates.length) true) ∧ (z.secSlot = x.cmd.stamp)) :=
  ⟨by
    refine ⟨openS ({ State.reset with secSlot := 16 }) 16 (plain 16 0x0901 [(48, 8, 4096), (56, 4, 4460)]), 16, plain 16 0x0901 [(48, 8, 4096), (56, 4, 4460)], [], false, ?_, ?_, ?_, ?_, ?_⟩
    all_goals try dsimp only
    all_goals try first
      | exact accepts_sealed (r := 16) (by decide +kernel)
      | exact accepts_of (by decide +kernel)
      | exact waits_run (r := 16) (by decide +kernel)
      | decide +kernel
      | with_reducible rfl
      | exact Or.inl (by decide +kernel),
   by
    refine ⟨openS (State.reset) 16 (plain 16 0x0901 [(48, 8, 4096), (56, 4, 4460)]), 16, plain 16 0x0901 [(48, 8, 4096), (56, 4, 4460)], [], false, ?_, ?_, ?_, ?_, ?_⟩
    all_goals try dsimp only
    all_goals try first
      | exact accepts_sealed (r := 16) (by decide +kernel)
      | exact accepts_of (by decide +kernel)
      | exact waits_run (r := 16) (by decide +kernel)
      | decide +kernel
      | with_reducible rfl
      | exact Or.inl (by decide +kernel),
   by
    refine ⟨runS ({ State.reset with secSlot := 16 }) 16 { cmd := plain 16 0x0901 [(48, 8, 4096), (56, 4, 4460)], wait := .again [1] }, 16, { cmd := plain 16 0x0901 [(48, 8, 4096), (56, 4, 4460)], wait := .again [1] }, [1], ?_, ?_, ?_, ?_, ?_, ?_⟩
    all_goals try dsimp only
    all_goals try first
      | exact accepts_sealed (r := 16) (by decide +kernel)
      | exact accepts_of (by decide +kernel)
      | exact waits_run (r := 16) (by decide +kernel)
      | decide +kernel
      | with_reducible rfl
      | exact Or.inl (by decide +kernel)⟩

theorem witness_SecurityCommandsAnswer_4 :
    (∃ (s : State) (r : Recip) (c : CmdRec) (rest : List CmdRec) (auth : Bool), let z := s.begun r c rest auth; (s.Accepts r c rest 0x0902 auth) ∧ (c.stray [(16, 3), (20, 16), (48, 16)] = false) ∧ ((c.desc 48).rsv = 0) ∧ (80 ≤ (c.desc 48).len) ∧ (c.saBad = false) ∧ ((z.lane (c.num 16 1)).owner = c.stamp) ∧ (let held := ((List.range 4).map fun a => 4 * c.num 17 1 + a).filter fun j => (tget none (z.lane (c.num 16 1)).sa j).isSome; held.length < 2 ∨ held.contains c.saIndex = true) ∧ ((c.desc 48).space = 0) ∧ (qidKind c.qid = 0)) ∧
    (∃ (s : State) (r : Recip) (c : CmdRec) (rest : List CmdRec) (auth : Bool), let z := s.begun r c rest auth; (s.Accepts r c rest 0x0902 auth) ∧ (c.stray [(16, 3), (20, 16), (48, 16)] = false) ∧ ((c.desc 48).rsv = 0) ∧ (80 ≤ (c.desc 48).len) ∧ (c.saBad = false) ∧ ((z.lane (c.num 16 1)).owner = c.stamp) ∧ (let held := ((List.range 4).map fun a => 4 * c.num 17 1 + a).filter fun j => (tget none (z.lane (c.num 16 1)).sa j).isSome; held.length < 2 ∨ held.contains c.saIndex = true) ∧ (let m := z.readRange c.stamp (c.desc 48).addr (80); ((c.desc 48).space = 1) ∧ (z.rangeAt c.stamp (c.desc 48).addr (80) false = 0) ∧ (z.noTags c.stamp = false) ∧ (m.status = stOk) ∧ (m.poison = none))) ∧
    (∃ (s : State) (r : Recip) (x : Running) (data : List Byte), let z := s.without x; let c := x.cmd; (s.WaitsFor r x 0x0902 (.engine data)) ∧ (c.stray [(16, 3), (20, 16), (48, 16)] = false) ∧ ((c.desc 48).rsv = 0) ∧ (80 ≤ (c.desc 48).len) ∧ (c.saBad = false) ∧ ((z.lane (c.num 16 1)).owner = c.stamp) ∧ (let held := ((List.range 4).map fun a => 4 * c.num 17 1 + a).filter fun j => (tget none (z.lane (c.num 16 1)).sa j).isSome; held.length < 2 ∨ held.contains c.saIndex = true) ∧ (z.descReady c (c.desc 48) (80) false) ∧ (z.secSlot = c.stamp)) :=
  ⟨by
    refine ⟨cmdS ({ dramG with lanes := [(63, { ctrl := 0x10000000 })] }) 16 (sealed 16 0x0902 [(16, 1, 63), (17, 1, 4), (18, 1, 3), (48, 8, 4096), (56, 4, 80)]), 16, sealed 16 0x0902 [(16, 1, 63), (17, 1, 4), (18, 1, 3), (48, 8, 4096), (56, 4, 80)], [], true, ?_, ?_, ?_, ?_, ?_, ?_, ?_, ?_, ?_⟩
    all_goals try dsimp only
    all_goals try first
      | exact accepts_sealed (r := 16) (by decide +kernel)
      | exact accepts_of (by decide +kernel)
      | exact waits_run (r := 16) (by decide +kernel)
      | decide +kernel
      | with_reducible rfl
      | exact Or.inl (by decide +kernel),
   by
    refine ⟨cmdS ({ dramG with lanes := [(63, { ctrl := 0x10000000 })] }) 16 (sealed 16 0x0902 [(16, 1, 63), (17, 1, 4), (18, 1, 3), (48, 8, dramBase), (56, 4, 80), (60, 1, 1)]), 16, sealed 16 0x0902 [(16, 1, 63), (17, 1, 4), (18, 1, 3), (48, 8, dramBase), (56, 4, 80), (60, 1, 1)], [], true, ?_, ?_, ?_, ?_, ?_, ?_, ?_, ?_, ?_, ?_, ?_, ?_⟩
    all_goals try dsimp only
    all_goals try first
      | exact accepts_sealed (r := 16) (by decide +kernel)
      | exact accepts_of (by decide +kernel)
      | exact waits_run (r := 16) (by decide +kernel)
      | decide +kernel
      | with_reducible rfl
      | exact Or.inl (by decide +kernel),
   by
    refine ⟨runS ({ State.reset with lanes := [(63, { ctrl := 0x10000000 })], secSlot := 16 }) 16 { cmd := plain 16 0x0902 [(16, 1, 63), (17, 1, 4), (18, 1, 3), (48, 8, 4096), (56, 4, 80)], wait := .engine [1] }, 16, { cmd := plain 16 0x0902 [(16, 1, 63), (17, 1, 4), (18, 1, 3), (48, 8, 4096), (56, 4, 80)], wait := .engine [1] }, [1], ?_, ?_, ?_, ?_, ?_, ?_, ?_, ?_, ?_⟩
    all_goals try dsimp only
    all_goals try first
      | exact accepts_sealed (r := 16) (by decide +kernel)
      | exact accepts_of (by decide +kernel)
      | exact waits_run (r := 16) (by decide +kernel)
      | decide +kernel
      | with_reducible rfl
      | exact Or.inl (by decide +kernel)⟩

theorem witness_SecurityCommandsAnswer_5 :
    (∃ (s : State) (r : Recip) (c : CmdRec) (rest : List CmdRec) (auth : Bool), let z := s.begun r c rest auth; (s.Accepts r c rest 0x0903 auth) ∧ (c.stray [(16, 3)] = false) ∧ (c.saBad = false) ∧ ((z.lane (c.num 16 1)).owner = c.stamp) ∧ (tget none (z.lane (c.num 16 1)).sa c.saIndex ≠ none) ∧ (z.secSlot = c.stamp)) ∧
    (∃ (s : State) (r : Recip) (c : CmdRec) (rest : List CmdRec) (auth : Bool), let z := s.begun r c rest auth; (s.Accepts r c rest 0x0903 auth) ∧ (c.stray [(16, 3)] = false) ∧ (c.saBad = false) ∧ ((z.lane (c.num 16 1)).owner = c.stamp) ∧ (tget none (z.lane (c.num 16 1)).sa c.saIndex ≠ none) ∧ (z.secSlot ≠ c.stamp)) ∧
    (∃ (s : State) (r : Recip) (x : Running), let z := s.without x; let c := x.cmd; (s.WaitsFor r x 0x0903 (.engine [])) ∧ (c.stray [(16, 3)] = false) ∧ (c.saBad = false) ∧ ((z.lane (c.num 16 1)).owner = c.stamp) ∧ (tget none (z.lane (c.num 16 1)).sa c.saIndex ≠ none) ∧ (z.secSlot = c.stamp)) :=
  ⟨by
    refine ⟨cmdS ({ State.reset with lanes := [(63, { ctrl := 0x10000000, sa := [(19, some { key := [], salt := [], ssci := 0 })] })], secSlot := 16 }) 16 (sealed 16 0x0903 [(16, 1, 63), (17, 1, 4), (18, 1, 3)]), 16, sealed 16 0x0903 [(16, 1, 63), (17, 1, 4), (18, 1, 3)], [], true, ?_, ?_, ?_, ?_, ?_, ?_⟩
    all_goals try dsimp only
    all_goals try first
      | exact accepts_sealed (r := 16) (by decide +kernel)
      | exact accepts_of (by decide +kernel)
      | exact waits_run (r := 16) (by decide +kernel)
      | decide +kernel
      | with_reducible rfl
      | exact Or.inl (by decide +kernel),
   by
    refine ⟨cmdS ({ State.reset with lanes := [(63, { ctrl := 0x10000000, sa := [(19, some { key := [], salt := [], ssci := 0 })] })] }) 16 (sealed 16 0x0903 [(16, 1, 63), (17, 1, 4), (18, 1, 3)]), 16, sealed 16 0x0903 [(16, 1, 63), (17, 1, 4), (18, 1, 3)], [], true, ?_, ?_, ?_, ?_, ?_, ?_⟩
    all_goals try dsimp only
    all_goals try first
      | exact accepts_sealed (r := 16) (by decide +kernel)
      | exact accepts_of (by decide +kernel)
      | exact waits_run (r := 16) (by decide +kernel)
      | decide +kernel
      | with_reducible rfl
      | exact Or.inl (by decide +kernel),
   by
    refine ⟨runS ({ State.reset with lanes := [(63, { ctrl := 0x10000000, sa := [(19, some { key := [], salt := [], ssci := 0 })] })], secSlot := 16 }) 16 { cmd := plain 16 0x0903 [(16, 1, 63), (17, 1, 4), (18, 1, 3)], wait := .engine [] }, 16, { cmd := plain 16 0x0903 [(16, 1, 63), (17, 1, 4), (18, 1, 3)], wait := .engine [] }, ?_, ?_, ?_, ?_, ?_, ?_⟩
    all_goals try dsimp only
    all_goals try first
      | exact accepts_sealed (r := 16) (by decide +kernel)
      | exact accepts_of (by decide +kernel)
      | exact waits_run (r := 16) (by decide +kernel)
      | decide +kernel
      | with_reducible rfl
      | exact Or.inl (by decide +kernel)⟩

theorem witness_SecurityCommandsAnswer_6 :
    (∃ (s : State) (r : Recip) (c : CmdRec) (rest : List CmdRec) (auth : Bool), let z := s.begun r c rest auth; (s.Accepts r c rest 0x0905 auth) ∧ (c.stray [(16, 16)] = false) ∧ ((c.desc 16).rsv = 0) ∧ (6910 ≤ (c.desc 16).len) ∧ ((c.desc 16).space = 0) ∧ (qidKind c.qid = 0)) ∧
    (∃ (s : State) (r : Recip) (c : CmdRec) (rest : List CmdRec) (auth : Bool), let z := s.begun r c rest auth; (s.Accepts r c rest 0x0905 auth) ∧ (c.stray [(16, 16)] = false) ∧ ((c.desc 16).rsv = 0) ∧ (6910 ≤ (c.desc 16).len) ∧ (let m := z.readRange c.stamp (c.desc 16).addr (6910); ((c.desc 16).space = 1) ∧ (z.rangeAt c.stamp (c.desc 16).addr (6910) false = 0) ∧ (z.noTags c.stamp = false) ∧ (m.status = stOk) ∧ (m.poison = none))) ∧
    (∃ (s : State) (r : Recip) (x : Running) (data : List Byte), let z := s.without x; let c := x.cmd; (s.WaitsFor r x 0x0905 (.engine data)) ∧ (c.stray [(16, 16)] = false) ∧ ((c.desc 16).rsv = 0) ∧ (6910 ≤ (c.desc 16).len) ∧ (z.descReady c (c.desc 16) (6910) false) ∧ (z.secSlot = 16)) :=
  ⟨by
    refine ⟨cmdS (dramG) 16 (sealed 16 0x0905 [(16, 8, 4096), (24, 4, 6910)]), 16, sealed 16 0x0905 [(16, 8, 4096), (24, 4, 6910)], [], true, ?_, ?_, ?_, ?_, ?_, ?_⟩
    all_goals try dsimp only
    all_goals try first
      | exact accepts_sealed (r := 16) (by decide +kernel)
      | exact accepts_of (by decide +kernel)
      | exact waits_run (r := 16) (by decide +kernel)
      | decide +kernel
      | with_reducible rfl
      | exact Or.inl (by decide +kernel)
      | exact Or.inr (by decide +kernel),
   by
    refine ⟨cmdS (dramG) 16 (sealed 16 0x0905 [(16, 8, dramBase), (24, 4, 6910), (28, 1, 1)]), 16, sealed 16 0x0905 [(16, 8, dramBase), (24, 4, 6910), (28, 1, 1)], [], true, ?_, ?_, ?_, ?_, ?_, ?_, ?_, (readRange_blank (s := (cmdS dramG 16 (sealed 16 0x0905 [(16, 8, dramBase), (24, 4, 6910), (28, 1, 1)])).begun 16 (sealed 16 0x0905 [(16, 8, dramBase), (24, 4, 6910), (28, 1, 1)]) [] true) ⟨rfl, rfl⟩ 16 ((sealed 16 0x0905 [(16, 8, dramBase), (24, 4, 6910), (28, 1, 1)]).desc 16).addr 6910 (by decide +kernel)).1, (readRange_blank (s := (cmdS dramG 16 (sealed 16 0x0905 [(16, 8, dramBase), (24, 4, 6910), (28, 1, 1)])).begun 16 (sealed 16 0x0905 [(16, 8, dramBase), (24, 4, 6910), (28, 1, 1)]) [] true) ⟨rfl, rfl⟩ 16 ((sealed 16 0x0905 [(16, 8, dramBase), (24, 4, 6910), (28, 1, 1)]).desc 16).addr 6910 (by decide +kernel)).2.1⟩
    all_goals try dsimp only
    all_goals try first
      | exact accepts_sealed (r := 16) (by decide +kernel)
      | exact accepts_of (by decide +kernel)
      | exact waits_run (r := 16) (by decide +kernel)
      | decide +kernel
      | with_reducible rfl
      | exact Or.inl (by decide +kernel)
      | exact Or.inr (by decide +kernel),
   by
    refine ⟨runS ({ State.reset with secSlot := 16 }) 16 { cmd := plain 16 0x0905 [(16, 8, 4096), (24, 4, 6910)], wait := .engine [1] }, 16, { cmd := plain 16 0x0905 [(16, 8, 4096), (24, 4, 6910)], wait := .engine [1] }, [1], ?_, ?_, ?_, ?_, ?_, ?_⟩
    all_goals try dsimp only
    all_goals try first
      | exact accepts_sealed (r := 16) (by decide +kernel)
      | exact accepts_of (by decide +kernel)
      | exact waits_run (r := 16) (by decide +kernel)
      | decide +kernel
      | with_reducible rfl
      | exact Or.inl (by decide +kernel)
      | exact Or.inr (by decide +kernel)⟩

theorem witness_SecurityCommandsAnswer_8 :
    ∃ (s : State) (r : Recip) (c : CmdRec) (rest : List CmdRec) (auth : Bool), ∃ x scope w ps, (w = s.without x) ∧ (ps = (List.range 256).filter (fun p => w.existing.contains (w.ownerOf p))) ∧ (s.Resumes r x 0x0905 [1, scope]) ∧ (∀ z ∈ w.streams, z.2.state ≠ 3) ∧ (∀ n ∈ sectorsOf ps, (w.sector n).pstate = .brew) :=
  by
    refine ⟨runS (partS { State.reset with tileMap := [(0, { logical := 0, owner := 0 })], tiles := [(0, { zres := 2 })] }) 16 { cmd := plain 16 0x0905 [], wait := .again [1, 3] }, 16, plain 16 0x0905 [], [], true, { cmd := plain 16 0x0905 [], wait := .again [1, 3] }, 3, ?v55, ?v56, ?_, ?_, ?_, ?_, ?_⟩
    all_goals try dsimp only
    all_goals try first
      | exact accepts_sealed (r := 16) (by decide +kernel)
      | exact accepts_of (by decide +kernel)
      | exact resumes_run (r := 16) (by decide +kernel)
      | decide +kernel
      | with_reducible rfl

theorem witness_SecurityCommandsAnswer_9 :
    ∃ (s : State) (r : Recip) (c : CmdRec) (rest : List CmdRec) (auth : Bool), ∃ x scope w ps, (w = s.without x) ∧ (ps = (List.range 256).filter (fun p => w.existing.contains (w.ownerOf p))) ∧ (s.Resumes r x 0x0905 [2, scope]) ∧ (∀ p ∈ ps, (w.tile p).zres = 2 ∧ (w.tile p).zeroizing = false) ∧ (∀ n, n < 64 → (w.router n).draining = false) :=
  by
    refine ⟨runS (partS { State.reset with tileMap := [(0, { logical := 0, owner := 0 })], tiles := [(0, { zres := 2 })] }) 16 { cmd := plain 16 0x0905 [], wait := .again [2, 3] }, 16, plain 16 0x0905 [], [], true, { cmd := plain 16 0x0905 [], wait := .again [2, 3] }, 3, ?v57, ?v58, ?_, ?_, ?_, ?_, ?_⟩
    all_goals try dsimp only
    all_goals try first
      | exact accepts_sealed (r := 16) (by decide +kernel)
      | exact accepts_of (by decide +kernel)
      | exact resumes_run (r := 16) (by decide +kernel)
      | decide +kernel
      | with_reducible rfl

theorem witness_SecurityCommandsAnswer_10 :
    ∃ (s : State) (r : Recip) (c : CmdRec) (rest : List CmdRec) (auth : Bool), ∃ x scope w ps, (w = s.without x) ∧ (ps = (List.range 256).filter (fun p => w.existing.contains (w.ownerOf p))) ∧ (s.Resumes r x 0x0905 [3, scope]) ∧ (w.destroySettled = true) ∧ (w.secSlot = 16) :=
  by
    refine ⟨runS (partS { State.reset with tileMap := [(0, { logical := 0, owner := 0 })], tiles := [(0, { zres := 2 })], secSlot := 16 }) 16 { cmd := plain 16 0x0905 [], wait := .again [3, 3] }, 16, plain 16 0x0905 [], [], true, { cmd := plain 16 0x0905 [], wait := .again [3, 3] }, 3, ?v59, ?v60, ?_, ?_, ?_, ?_, ?_⟩
    all_goals try dsimp only
    all_goals try first
      | exact accepts_sealed (r := 16) (by decide +kernel)
      | exact accepts_of (by decide +kernel)
      | exact resumes_run (r := 16) (by decide +kernel)
      | decide +kernel
      | with_reducible rfl

theorem witness_SecurityCommandsAnswer_11 :
    (∃ (s : State) (r : Recip) (c : CmdRec) (rest : List CmdRec) (auth : Bool), let z := s.begun r c rest auth; (s.Accepts r c rest 0x0906 auth) ∧ (c.stray [(16, 1), (24, 16)] = false) ∧ ((c.desc 24).rsv = 0) ∧ (0 < (c.desc 24).len) ∧ ((c.desc 24).len ≤ 67108864) ∧ (c.num 16 1 ≤ 1) ∧ (c.num 16 1 ≠ z.boot.active) ∧ (z.boot.staging = false) ∧ ((c.desc 24).space = 0) ∧ (qidKind c.qid = 0)) ∧
    (∃ (s : State) (r : Recip) (c : CmdRec) (rest : List CmdRec) (auth : Bool), let z := s.begun r c rest auth; (s.Accepts r c rest 0x0906 auth) ∧ (c.stray [(16, 1), (24, 16)] = false) ∧ ((c.desc 24).rsv = 0) ∧ (0 < (c.desc 24).len) ∧ ((c.desc 24).len ≤ 67108864) ∧ (c.num 16 1 ≤ 1) ∧ (c.num 16 1 ≠ z.boot.active) ∧ (z.boot.staging = false) ∧ (let m := z.readRange c.stamp (c.desc 24).addr ((c.desc 24).len); ((c.desc 24).space = 1) ∧ (z.rangeAt c.stamp (c.desc 24).addr ((c.desc 24).len) false = 0) ∧ (z.noTags c.stamp = false) ∧ (m.status = stOk) ∧ (m.poison = none))) ∧
    (∃ (s : State) (r : Recip) (x : Running) (data : List Byte), let z := s.without x; let c := x.cmd; (s.WaitsFor r x 0x0906 (.engine data)) ∧ (c.stray [(16, 1), (24, 16)] = false) ∧ ((c.desc 24).rsv = 0) ∧ (0 < (c.desc 24).len) ∧ ((c.desc 24).len ≤ 67108864) ∧ (c.num 16 1 ≤ 1) ∧ (c.num 16 1 ≠ z.boot.active) ∧ (z.boot.staging = false) ∧ (z.descReady c (c.desc 24) ((c.desc 24).len) false) ∧ (z.secSlot = 16)) :=
  ⟨by
    refine ⟨cmdS (dramG) 16 (sealed 16 0x0906 [(16, 1, 1), (24, 8, 4096), (32, 4, 67108864)]), 16, sealed 16 0x0906 [(16, 1, 1), (24, 8, 4096), (32, 4, 67108864)], [], true, ?_, ?_, ?_, ?_, ?_, ?_, ?_, ?_, ?_, ?_⟩
    all_goals try dsimp only
    all_goals try first
      | exact accepts_sealed (r := 16) (by decide +kernel)
      | exact accepts_of (by decide +kernel)
      | exact waits_run (r := 16) (by decide +kernel)
      | decide +kernel
      | with_reducible rfl
      | exact Or.inl (by decide +kernel),
   by
    refine ⟨cmdS (dramG) 16 (sealed 16 0x0906 [(16, 1, 1), (24, 8, dramBase), (32, 4, 64), (36, 1, 1)]), 16, sealed 16 0x0906 [(16, 1, 1), (24, 8, dramBase), (32, 4, 64), (36, 1, 1)], [], true, ?_, ?_, ?_, ?_, ?_, ?_, ?_, ?_, ?_, ?_, ?_, ?_, ?_⟩
    all_goals try dsimp only
    all_goals try first
      | exact accepts_sealed (r := 16) (by decide +kernel)
      | exact accepts_of (by decide +kernel)
      | exact waits_run (r := 16) (by decide +kernel)
      | decide +kernel
      | with_reducible rfl
      | exact Or.inl (by decide +kernel),
   by
    refine ⟨runS ({ State.reset with secSlot := 16 }) 16 { cmd := plain 16 0x0906 [(16, 1, 1), (24, 8, 4096), (32, 4, 67108864)], wait := .engine [1] }, 16, { cmd := plain 16 0x0906 [(16, 1, 1), (24, 8, 4096), (32, 4, 67108864)], wait := .engine [1] }, [1], ?_, ?_, ?_, ?_, ?_, ?_, ?_, ?_, ?_, ?_⟩
    all_goals try dsimp only
    all_goals try first
      | exact accepts_sealed (r := 16) (by decide +kernel)
      | exact accepts_of (by decide +kernel)
      | exact waits_run (r := 16) (by decide +kernel)
      | decide +kernel
      | with_reducible rfl
      | exact Or.inl (by decide +kernel)⟩

theorem witness_SecurityCommandsAnswer_12 :
    ∃ (s : State) (r : Recip) (c : CmdRec) (rest : List CmdRec) (auth : Bool), ∃ x image w i, (w = s.without x) ∧ (i = x.cmd.num 16 1) ∧ (s.Resumes r x 0x0906 (1 :: image)) :=
  by
    refine ⟨runS (State.reset) 16 { cmd := plain 16 0x0906 [(16, 1, 1)], wait := .again (1 :: List.replicate 64 0) }, 16, plain 16 0x0906 [(16, 1, 1)], [], true, { cmd := plain 16 0x0906 [(16, 1, 1)], wait := .again (1 :: List.replicate 64 0) }, List.replicate 64 0, ?v64, 1, ?_, ?_, ?_⟩
    all_goals try dsimp only
    all_goals try first
      | exact accepts_sealed (r := 16) (by decide +kernel)
      | exact accepts_of (by decide +kernel)
      | exact resumes_run (r := 16) (by decide +kernel)
      | decide +kernel
      | with_reducible rfl

theorem witness_SecurityCommandsAnswer_13 :
    ∃ (s : State) (r : Recip) (c : CmdRec) (rest : List CmdRec) (auth : Bool), ∃ x image w i, (w = s.without x) ∧ (i = x.cmd.num 16 1) ∧ (s.Resumes r x 0x0906 (2 :: image)) ∧ (∃ u, (u = w.flashWrite (slotBase i) ((image.take 64).map (BitVec.ofNat 8)))) :=
  by
    refine ⟨runS (State.reset) 16 { cmd := plain 16 0x0906 [(16, 1, 1)], wait := .again (2 :: [1]) }, 16, plain 16 0x0906 [(16, 1, 1)], [], true, { cmd := plain 16 0x0906 [(16, 1, 1)], wait := .again (2 :: [1]) }, [1], ?v65, 1, ?_, ?_, ?_, ?v66, ?_⟩
    all_goals try dsimp only
    all_goals try first
      | exact accepts_sealed (r := 16) (by decide +kernel)
      | exact accepts_of (by decide +kernel)
      | exact resumes_run (r := 16) (by decide +kernel)
      | decide +kernel
      | with_reducible rfl

theorem witness_SecurityCommandsAnswer_14 :
    ∃ (s : State) (r : Recip) (c : CmdRec) (rest : List CmdRec) (auth : Bool), let b := s.begun r c rest auth; ∃ x gen text, (s.Accepts r c rest 0x0907 auth) ∧ (c.stray [(16, 1)] = false) ∧ (c.num 16 1 ≤ 1) ∧ (c.num 16 1 = b.boot.active ∨ b.boot.staged.toList.getD (c.num 16 1) false = true) ∧ (b.controlPlace = (x, gen)) ∧ (text = leBytes 4 0x43425944 ++ leBytes 4 (gen % 2 ^ 32) ++ leBytes 1 (c.num 16 1) ++ leBytes 3 0) :=
  by
    refine ⟨cmdS (State.reset) 16 (sealed 16 0x0907 [(16, 1, 0)]), 16, sealed 16 0x0907 [(16, 1, 0)], [], true, 0, 1, ?v67, ?_, ?_, ?_, ?_, ?_, ?_⟩
    all_goals try dsimp only
    all_goals try first
      | exact accepts_sealed (r := 16) (by decide +kernel)
      | exact accepts_of (by decide +kernel)
      | exact resumes_run (r := 16) (by decide +kernel)
      | decide +kernel
      | with_reducible rfl

theorem witness_RecoveryRunsItsPhases :
    (∃ (s : State) (q : PartIx) (f : FaultRec), ((s.faults.find? fun f => f.cls == 2 && f.part == q.val) = some f)) ∧
    (∃ (s : State) (q : PartIx) (f : FaultRec), ((s.faults.find? fun f => f.cls == 2 && f.part == q.val) = some f) ∧ (
      let w := State.logFault { s with faults := s.faults.erase f } f.cls f.part
        (2 * bit f.injected + 4 * bit (s.rec_ q).isSome) f.source f.object f.detail f.addr; ∃ x, (w.rec_ q = some x))) ∧
    (∃ (s : State) (q : PartIx) (f : FaultRec), ((s.faults.find? fun f => f.cls == 2 && f.part == q.val) = some f) ∧ (
      let w := State.logFault { s with faults := s.faults.erase f } f.cls f.part
        (2 * bit f.injected + 4 * bit (s.rec_ q).isSome) f.source f.object f.detail f.addr; (w.rec_ q = none) ∧ ((w.part q).state = 1 ∨ (w.part q).state = 2))) ∧
    (∃ (s : State) (q : PartIx) (f : FaultRec), ∃ p n w, ((s.faults.find? fun f => f.cls == 3) = some f) ∧ (p = f.tile.getD 0) ∧ (n = sectorOf p) ∧ (s.ownerOf p = q.val) ∧ ((s.part q).state ≠ 0) ∧ ((s.part q).state ≠ 4) ∧ (∀ x, s.rec_ q = some x → ∀ y ∈ x.takeover, y.1 ≠ p) ∧ (w = (State.abortMove { s with faults := s.faults.erase f } n)) ∧ (w.freeSpare n = none)) ∧
    (∃ (s : State) (q : PartIx) (f : FaultRec), ∃ p n w sp, ((s.faults.find? fun f => f.cls == 3) = some f) ∧ (p = f.tile.getD 0) ∧ (n = sectorOf p) ∧ (s.ownerOf p = q.val) ∧ ((s.part q).state ≠ 0) ∧ ((s.part q).state ≠ 4) ∧ (∀ x, s.rec_ q = some x → ∀ y ∈ x.takeover, y.1 ≠ p) ∧ (w = (State.abortMove { s with faults := s.faults.erase f } n)) ∧ (w.freeSpare n = some sp)) ∧
    (∃ (s : State) (q : PartIx) (f : FaultRec), ∃ x, (s.rec_ q = some x) ∧ (x.phase = 2)) ∧
    (∃ (s : State) (q : PartIx) (f : FaultRec), ∃ x, (s.rec_ q = some x) ∧ (x.phase = 3) ∧ (x.takeover ≠ [])) ∧
    (∃ (s : State) (q : PartIx) (f : FaultRec), ∃ x, (s.rec_ q = some x) ∧ (x.phase = 3) ∧ (x.takeover = []) ∧ (s.oldTags q = false) ∧ (∀ n ∈ sectorsOf (s.tilesOf q), ((s.sector n).pstate = .steep → (s.sector n).committed = true) ∧
          ((s.sector n).pstate = .cold → (s.sector n).waking = false))) ∧
    (∃ (s : State) (q : PartIx) (f : FaultRec), ∃ x, (s.rec_ q = some x) ∧ (x.phase = 4) ∧ (x.frames ≠ []) ∧ (∃ fs, (fs = x.frames.filter (fun f => s.ownerOf f.1 == q.val && s.awake f.1)))) ∧
    (∃ (s : State) (q : PartIx) (f : FaultRec), ∃ x, (s.rec_ q = some x) ∧ (x.phase = 4) ∧ (x.frames = []) ∧ (∀ p ∈ s.tilesOf q, (s.tile p).recovering = false)) ∧
    (∃ (s : State) (q : PartIx) (f : FaultRec), ∃ x, (s.rec_ q = some x) ∧ (x.phase = 5)) ∧
    (∃ (s : State) (q : PartIx) (f : FaultRec), ∃ p w, ((s.faults.find? fun f => f.cls == 3) = some f) ∧ (p = f.tile.getD 0) ∧ (w = ({ s with faults := s.faults.erase f } : State)) ∧ (15 < s.ownerOf p)) ∧
    (∃ (s : State) (q : PartIx) (f : FaultRec), ∃ p w, ((s.faults.find? fun f => f.cls == 3) = some f) ∧ (p = f.tile.getD 0) ∧ (w = ({ s with faults := s.faults.erase f } : State)) ∧ (s.ownerOf p = q.val) ∧ ((s.part q).state = 0 ∨ (s.part q).state = 4)) ∧
    (∃ (s : State) (q : PartIx) (f : FaultRec), ∃ p w, ((s.faults.find? fun f => f.cls == 3) = some f) ∧ (p = f.tile.getD 0) ∧ (w = ({ s with faults := s.faults.erase f } : State)) ∧ (s.ownerOf p = q.val) ∧ ((s.part q).state ≠ 0) ∧ ((s.part q).state ≠ 4) ∧ (∃ x y, s.rec_ q = some x ∧ y ∈ x.takeover ∧ y.1 = p)) ∧
    (∃ (s : State) (q : PartIx) (f : FaultRec), ∃ x, (s.rec_ q = some x) ∧ (x.phase = 5) ∧ (∃ i ∈ s.tasksOf q, canonical {} s.tasks = true)) :=
  ⟨⟨{ one [] with faults := [{ cls := 2, part := 0, source := 2 }], parts := [(0, { state := 1 })] }, 0, { cls := 2, part := 0, source := 2 }, by decide +kernel⟩,
   ⟨{ one [] with faults := [{ cls := 2, part := 0, source := 2 }], recovery := [(0, some { phase := 4 })] }, 0, { cls := 2, part := 0, source := 2 }, by first | decide +kernel | (dsimp only; decide +kernel), { phase := 4 }, by first | decide +kernel | (dsimp only; decide +kernel)⟩,
   ⟨{ one [] with faults := [{ cls := 2, part := 0, source := 2 }], parts := [(0, { state := 1 })] }, 0, { cls := 2, part := 0, source := 2 }, by first | decide +kernel | (dsimp only; decide +kernel), by first | decide +kernel | (dsimp only; decide +kernel)⟩,
   ⟨{ one [] with faults := [{ cls := 3, part := 0, source := 2, tile := some 0 }], parts := [(0, { state := 1 })], sectors := [(0, { noSpare := true })], tileMap := [(0, { logical := 0, owner := 0 }), (55, { logical := 255, owner := 16 })] }, 0, { cls := 3, part := 0, source := 2, tile := some 0 }, 0, 0, State.abortMove { { one [] with faults := [{ cls := 3, part := 0, source := 2, tile := some 0 }], parts := [(0, { state := 1 })], sectors := [(0, { noSpare := true })], tileMap := [(0, { logical := 0, owner := 0 }), (55, { logical := 255, owner := 16 })] } with faults := [] } 0, by refine ⟨?_, ?_, ?_, ?_, ?_, ?_, ?_, ?_, ?_⟩ <;> first | decide +kernel | (intro x hx; change none = some x at hx; cases hx) | rfl⟩,
   ⟨{ one [] with faults := [{ cls := 3, part := 0, source := 2, tile := some 0 }], parts := [(0, { state := 1 })], sectors := [], tileMap := [(0, { logical := 0, owner := 0 }), (55, { logical := 255, owner := 16 })] }, 0, { cls := 3, part := 0, source := 2, tile := some 0 }, 0, 0, State.abortMove { { one [] with faults := [{ cls := 3, part := 0, source := 2, tile := some 0 }], parts := [(0, { state := 1 })], sectors := [], tileMap := [(0, { logical := 0, owner := 0 }), (55, { logical := 255, owner := 16 })] } with faults := [] } 0, 55, by refine ⟨?_, ?_, ?_, ?_, ?_, ?_, ?_, ?_, ?_⟩ <;> first | decide +kernel | (intro x hx; change none = some x at hx; cases hx) | rfl⟩,
   ⟨{ one [] with recovery := [(0, some { phase := 2 })] }, 0, { cls := 2, part := 0, source := 2 }, { phase := 2 }, by decide +kernel⟩,
   ⟨{ one [] with recovery := [(0, some { phase := 3, takeover := [(0, 55)] })] }, 0, { cls := 2, part := 0, source := 2 }, { phase := 3, takeover := [(0, 55)] }, by decide +kernel⟩,
   ⟨{ one [] with recovery := [(0, some { phase := 3 })] }, 0, { cls := 2, part := 0, source := 2 }, { phase := 3 }, by decide +kernel⟩,
   ⟨{ one [] with recovery := [(0, some { phase := 4, frames := [(0, 16, 1)] })] }, 0, { cls := 2, part := 0, source := 2 }, { phase := 4, frames := [(0, 16, 1)] }, by decide +kernel, by decide +kernel, by decide +kernel, [(0, 16, 1)], by decide +kernel⟩,
   ⟨{ one [] with recovery := [(0, some { phase := 4 })] }, 0, { cls := 2, part := 0, source := 2 }, { phase := 4 }, by decide +kernel⟩,
   ⟨{ one [] with recovery := [(0, some { phase := 5 })] }, 0, { cls := 2, part := 0, source := 2 }, { phase := 5 }, by decide +kernel⟩,
   ⟨{ one [] with faults := [{ cls := 3, part := 0, source := 2, tile := some 0 }], tileMap := [(0, { logical := 0, owner := 16 })], parts := [(0, { state := 0 })] }, 0, { cls := 3, part := 0, source := 2, tile := some 0 }, 0, { { one [] with faults := [{ cls := 3, part := 0, source := 2, tile := some 0 }], tileMap := [(0, { logical := 0, owner := 16 })], parts := [(0, { state := 0 })] } with faults := [] }, by first | decide +kernel | (dsimp only; decide +kernel), by first | decide +kernel | (dsimp only; decide +kernel), by decide +kernel, by first | decide +kernel | (dsimp only; decide +kernel)⟩,
   ⟨{ one [] with faults := [{ cls := 3, part := 0, source := 2, tile := some 0 }], tileMap := [(0, { logical := 0, owner := 0 })], parts := [(0, { state := 4 })] }, 0, { cls := 3, part := 0, source := 2, tile := some 0 }, 0, { { one [] with faults := [{ cls := 3, part := 0, source := 2, tile := some 0 }], tileMap := [(0, { logical := 0, owner := 0 })], parts := [(0, { state := 4 })] } with faults := [] }, by first | decide +kernel | (dsimp only; decide +kernel), by first | decide +kernel | (dsimp only; decide +kernel), by decide +kernel, by first | decide +kernel | (dsimp only; decide +kernel)⟩,
   ⟨{ one [] with faults := [{ cls := 3, part := 0, source := 2, tile := some 0 }], tileMap := [(0, { logical := 0, owner := 0 })], parts := [(0, { state := 1 })], recovery := [(0, some { phase := 3, takeover := [(0, 55)] })] }, 0, { cls := 3, part := 0, source := 2, tile := some 0 }, 0, { { one [] with faults := [{ cls := 3, part := 0, source := 2, tile := some 0 }], tileMap := [(0, { logical := 0, owner := 0 })], parts := [(0, { state := 1 })], recovery := [(0, some { phase := 3, takeover := [(0, 55)] })] } with faults := [] }, by first | decide +kernel | (dsimp only; decide +kernel), by first | decide +kernel | (dsimp only; decide +kernel), by decide +kernel, by decide +kernel, by decide +kernel, by decide +kernel, { phase := 3, takeover := [(0, 55)] }, (0, 55), by decide +kernel⟩,
   ⟨{ one [] with recovery := [(0, some { phase := 5 })], tasks := [(1, { st := { ctrl := 0 }, state := .armed })] }, 0, { cls := 2, part := 0, source := 2 }, { phase := 5 }, by decide +kernel, by decide +kernel, 1, by decide +kernel, by decide +kernel⟩⟩

theorem witness_IntegrityEnginesWork :
    (∃ s : State, (s.perc.status = 0) ∧ ((s.perc.later.find? fun e => !(s.tm e.1).migrating) = none) ∧ ((s.tm s.perc.tile).migrating = false)) ∧
    (∃ s : State, ∃ p f, (s.visits p f = false ∨ s.mem.frameCrcOk p f = true)) ∧
    (∃ s : State, (s.perc.status = 0)) ∧
    (∃ s : State, (s.perc.status = 0) ∧ (∃ i, i < 16 ∧ voteWord s.perc.copies i = 4)) ∧
    (∃ s : State, (s.perc.status = 0) ∧ (s.perc.copies[0] = s.perc.copies[1]) ∧ (s.perc.copies[1] = s.perc.copies[2])) ∧
    (∃ s : State, ∃ n : SecIx, let x := s.sector n; let sp := posOf n x.cupSpare; (s.cupEn = true) ∧ (s.boot.ready = true) ∧ (x.pstate = .brew) ∧ (x.noSpare = false) ∧ (x.cupPhase = 0) ∧ (x.cupMove = none) ∧ ((s.tile sp).zeroizing = false)) ∧
    (∃ s : State, ∃ n : SecIx, let x := s.sector n; let sp := posOf n x.cupSpare; (x.cupPhase = 1) ∧ (x.pstate = .brew) ∧ (∃ i w, (w = ((s.zeroizeTile sp).updTile sp fun t => { t with zres := 2 })) ∧ (w.candidate n = some i) ∧ (w.mayMove (posOf n i) = true))) ∧
    (∃ s : State, ∃ n : SecIx, let x := s.sector n; let sp := posOf n x.cupSpare; (x.cupPhase = 1) ∧ (x.pstate = .brew) ∧ (∃ i w, (w = ((s.zeroizeTile sp).updTile sp fun t => { t with zres := 2 })) ∧ (w.candidate n = some i) ∧ (w.mayMove (posOf n i) = false))) ∧
    (∃ s : State, ∃ n : SecIx, let x := s.sector n; ∃ p z, (x.cupMove = some (p, z)) ∧ (x.cupPhase = 0) ∧ (x.pstate = .brew) ∧ ((s.tile p).fenced = true) ∧ ((s.tile p).seq = .off) ∧ ((s.tile p).zeroizing = false) ∧ (∀ g ∈ s.grants, g.1 ≠ p) ∧ (p ≠ z)) ∧
    (∃ s : State, ∃ n : SecIx, let x := s.sector n; ∃ p z, (x.cupMove = some (p, z)) ∧ (x.cupPhase = 2) ∧ (x.pstate = .brew) ∧ ((s.tile p).fill = none) ∧ ((s.tile p).heldWrites = []) ∧ (p ≠ z)) ∧
    (∃ s : State, ∃ (a : BitVec 44), ∃ b, ((areaOf a.toNat).sram = true ∧ b < 39)) ∧
    (∃ s : State, ∃ (a : BitVec 44), ∃ b, (areaOf a.toNat = .dram ∧ a.toNat - dramBase < s.mem.capacity ∧ b < 576)) ∧
    (∃ s : State, ∃ (a : BitVec 44), ∃ b, (39 ≤ b)) ∧
    (∃ s : State, ∃ k b, (k < 3) ∧ (b < 256)) ∧
    (∃ s : State, (s.perc.status = 0) ∧ ((s.perc.later.find? fun e => !(s.tm e.1).migrating) = none) ∧ ((s.tm s.perc.tile).migrating = true)) ∧
    (∃ s : State, ∃ p f, (s.perc.status = 0) ∧ ((s.perc.later.find? fun e => !(s.tm e.1).migrating) = some (p, f))) ∧
    (∃ s : State, ∃ p f id, (s.visits p f = true) ∧ (s.mem.frameCrcOk p f = false) ∧ (16 ≤ f) ∧ (tget none (s.tile p).frameId f = some id) ∧ (s.goldenOf (s.ownerOf p) id ≠ 0)) ∧
    (∃ s : State, ∃ p f rest, (s.perc.repairs = p :: rest) ∧ ((s.tile p).fill = some f) ∧ (f.who = .percolator) ∧ (f.rowsLeft = []) ∧ (f.waits = false) ∧ (let x := f.hot.getD (f.cache.getD 0); let w : State := State.updTile { s with perc := { s.perc with repairs := rest } } p fun t => { t with fill := none }; (w.visits p x = true) ∧ (tget none (s.tile p).frameId x = some f.ctxId) ∧ (∃ z, z = f.words.foldl (fun s y => State.writeWord s (ctxBase p x + 4 * y) (f.golden256.getD y 0) false) w))) ∧
    (∃ s : State, ∃ n : SecIx, let x := s.sector n; let sp := posOf n x.cupSpare; (x.cupPhase = 1) ∧ (x.pstate = .brew) ∧ (∃ w, (w = ((s.zeroizeTile sp).updTile sp fun t => { t with zres := 2 })) ∧ (w.candidate n = none))) ∧
    (∃ s : State, ∃ (a : BitVec 44), ∃ b, (39 ≤ b ∨ (areaOf a.toNat).sram = false)) ∧
    (∃ s : State, ∃ (a : BitVec 44), ∃ b, (areaOf a.toNat ≠ .dram ∨ s.mem.capacity ≤ a.toNat - dramBase ∨ 576 ≤ b)) ∧
    (∃ s : State, ∃ k b, (3 ≤ k ∨ 256 ≤ b)) :=
  ⟨⟨one [], by decide +kernel⟩,
   ⟨one [], 64, 0, by decide +kernel⟩,
   ⟨one [], by decide +kernel⟩,
   ⟨{ one [] with perc := { copies := #v[1, 2, 4] } }, by decide +kernel⟩,
   ⟨one [], by decide +kernel⟩,
   ⟨{ one [] with boot := ready }, 0, by first | decide +kernel | (dsimp only; decide +kernel)⟩,
   ⟨{ State.reset with tileMap := [(0, { logical := 0, owner := 31 }), (55, { logical := 255, owner := 16 })], sectors := [(0, { cupPhase := 1 })] }, 0, by first | decide +kernel | (dsimp only; refine ⟨?_, ?_, ?_⟩ <;> first | rfl | decide +kernel), by first | decide +kernel | (dsimp only; refine ⟨?_, ?_, ?_⟩ <;> first | rfl | decide +kernel), 0, (State.zeroizeTile { State.reset with tileMap := [(0, { logical := 0, owner := 31 }), (55, { logical := 255, owner := 16 })], sectors := [(0, { cupPhase := 1 })] } 55).updTile 55 fun t => { t with zres := 2 }, by first | decide +kernel | (dsimp only; refine ⟨?_, ?_, ?_⟩ <;> first | rfl | decide +kernel)⟩,
   ⟨{ State.reset with tileMap := [(0, { logical := 0, owner := 0 }), (55, { logical := 255, owner := 16 })], sectors := [(0, { cupPhase := 1 })] }, 0, by first | decide +kernel | (dsimp only; refine ⟨?_, ?_, ?_⟩ <;> first | rfl | decide +kernel), by first | decide +kernel | (dsimp only; refine ⟨?_, ?_, ?_⟩ <;> first | rfl | decide +kernel), 0, (State.zeroizeTile { State.reset with tileMap := [(0, { logical := 0, owner := 0 }), (55, { logical := 255, owner := 16 })], sectors := [(0, { cupPhase := 1 })] } 55).updTile 55 fun t => { t with zres := 2 }, by first | decide +kernel | (dsimp only; refine ⟨?_, ?_, ?_⟩ <;> first | rfl | decide +kernel)⟩,
   ⟨{ { one [] with tiles := [(1, {})] } with sectors := [(0, { cupMove := some (1, 55) })] }, 0, 1, 55, by first | decide +kernel | (dsimp only; decide +kernel)⟩,
   ⟨{ one [] with sectors := [(0, { cupMove := some (1, 55), cupPhase := 2 })] }, 0, 1, 55, by first | decide +kernel | (dsimp only; decide +kernel)⟩,
   ⟨State.reset, 0, 38, by decide +kernel⟩,
   ⟨banked State.reset, BitVec.ofNat 44 dramBase, 575, by decide +kernel⟩,
   ⟨State.reset, 0, 39, by decide +kernel⟩,
   ⟨State.reset, 2, 255, by decide +kernel⟩,
   ⟨{ State.reset with tileMap := [(0, { logical := 0, owner := 0, migrating := true })] }, by decide +kernel⟩,
   ⟨{ State.reset with perc := { later := [(0, 16)] } }, 0, 16, by decide +kernel⟩,
   ⟨goldS, 0, 16, 1, by decide +kernel, frame_upset _ _ _ (by decide +kernel) (by decide +kernel), by decide +kernel⟩,
   ⟨goldS, 0, { cache := some 16, who := .percolator, ctxId := 1, words := [3] }, [], by decide +kernel, by decide +kernel, by decide +kernel, by decide +kernel, by decide +kernel, by decide +kernel, by decide +kernel, _, rfl⟩,
   ⟨{ State.reset with tileMap := (List.range 32).map fun i => (posOf 0 i, { logical := 255, owner := 16 }), sectors := [(0, { cupPhase := 1 })] }, 0, by first | decide +kernel | (dsimp only; decide +kernel), by first | decide +kernel | (dsimp only; decide +kernel), _, rfl, by first | decide +kernel | (dsimp only; decide +kernel)⟩,
   ⟨State.reset, 0, 39, by decide +kernel⟩,
   ⟨State.reset, 0, 0, by decide +kernel⟩,
   ⟨State.reset, 3, 0, by decide +kernel⟩⟩

theorem witness_SectorsSleepAndWake :
    (∃ (s : State) (n : SecIx), let x := s.sector n; ∃ v, (v = s.choose n) ∧ (v.code < x.pstate.code)) ∧
    (∃ (s : State) (n : SecIx), let x := s.sector n; ∃ v, (v = s.choose n) ∧ (x.pstate = .brew) ∧ (v ≠ .brew)) ∧
    (∃ (s : State) (n : SecIx), let x := s.sector n; ∃ v, (v = s.choose n) ∧ (x.pstate = .steep) ∧ (x.committed = false) ∧ (v = .cool ∨ v = .cold) ∧ (x.waking = false)) ∧
    (∃ (s : State) (n : SecIx), let x := s.sector n; (x.pstate = .steep) ∧ (x.entering = true) ∧ (x.committed = false) ∧ (x.waking = false) ∧ (x.wakeDue = false) ∧ (s.sectorTags n = false) ∧ (s.proxyHolds n = false)) ∧
    (∃ (s : State) (n : SecIx), let x := s.sector n; (x.committed = true) ∧ (x.goal ≠ .cold)) ∧
    (∃ (s : State) (n : SecIx), let x := s.sector n; (x.committed = true) ∧ (x.goal = .cold)) ∧
    (∃ (s : State) (n : SecIx), let x := s.sector n; (x.wakeDue = true ∨ x.inbox ≠ [] ∨ x.pstate ≠ .brew ∧ s.wordWaits n = true)) ∧
    (∃ (s : State) (n : SecIx), let x := s.sector n; (x.pstate = .steep) ∧ (x.committed = false) ∧ (x.waking = false)) ∧
    (∃ (s : State) (n : SecIx), let x := s.sector n; (x.pstate = .cool) ∧ (x.committed = false) ∧ (x.waking = false)) ∧
    (∃ (s : State) (n : SecIx), let x := s.sector n; (x.waking = true) ∧ (x.pstate = .steep)) ∧
    (∃ (s : State) (n : SecIx), let x := s.sector n; (x.inbox = [])) ∧
    (∃ (s : State) (n : SecIx), let x := s.sector n; (x.waking = true) ∧ (x.pstate = .cool)) ∧
    (∃ (s : State) (n : SecIx), let x := s.sector n; (x.waking = true) ∧ (x.pstate = .cold) ∧ (∀ p ∈ sectorTiles n, (s.tile p).fill = none ∧ (s.tile p).fillQ = [] ∧ (s.tile p).fillWait = [] ∧
        (s.tile p).zeroizing = false)) ∧
    (∃ (s : State) (n : SecIx), let x := s.sector n; (x.pstate ≠ .brew) ∧ ((s.timerDue n).isSome = true)) ∧
    (∃ (s : State) (n : SecIx), let x := s.sector n; ∃ w : Word, (w.getLsbD 0 = false ∨ x.pstate = .brew)) ∧
    (∃ (s : State) (n : SecIx), let x := s.sector n; ∃ w : Word, (w.getLsbD 0 = true) ∧ (x.pstate ≠ .brew)) :=
  ⟨⟨{ State.reset with sectors := [(0, { pstate := .cool, force := true })] }, 0, .brew, by first | decide +kernel | (dsimp only; decide +kernel)⟩,
   ⟨{ State.reset with sectors := [(0, {  })] }, 0, .cold, by first | decide +kernel | (dsimp only; decide +kernel)⟩,
   ⟨{ State.reset with sectors := [(0, { pstate := .steep })] }, 0, .cold, by first | decide +kernel | (dsimp only; decide +kernel)⟩,
   ⟨{ State.reset with sectors := [(0, { pstate := .steep, entering := true })] }, 0, by first | decide +kernel | (dsimp only; decide +kernel)⟩,
   ⟨{ State.reset with sectors := [(0, { committed := true, goal := .cool })] }, 0, by first | decide +kernel | (dsimp only; decide +kernel)⟩,
   ⟨{ State.reset with sectors := [(0, { committed := true, goal := .cold })] }, 0, by first | decide +kernel | (dsimp only; decide +kernel)⟩,
   ⟨{ State.reset with sectors := [(0, { wakeDue := true })] }, 0, by first | decide +kernel | (dsimp only; decide +kernel)⟩,
   ⟨{ State.reset with sectors := [(0, { pstate := .steep })] }, 0, by first | decide +kernel | (dsimp only; decide +kernel)⟩,
   ⟨{ State.reset with sectors := [(0, { pstate := .cool })] }, 0, by first | decide +kernel | (dsimp only; decide +kernel)⟩,
   ⟨{ State.reset with sectors := [(0, { pstate := .steep, waking := true })] }, 0, by first | decide +kernel | (dsimp only; decide +kernel)⟩,
   ⟨{ State.reset with sectors := [(0, { pstate := .steep, waking := true })] }, 0, by first | decide +kernel | (dsimp only; decide +kernel)⟩,
   ⟨{ State.reset with sectors := [(0, { pstate := .cool, waking := true })] }, 0, by first | decide +kernel | (dsimp only; decide +kernel)⟩,
   ⟨{ State.reset with sectors := [(0, { pstate := .cold, waking := true })] }, 0, by first | decide +kernel | (dsimp only; decide +kernel)⟩,
   ⟨{ State.reset with sectors := [(0, { pstate := .cold, timers := [(0, { cfg := 0x80000005 })] })] }, 0, by first | decide +kernel | (dsimp only; decide +kernel)⟩,
   ⟨{ State.reset with sectors := [(0, { pstate := .steep })] }, 0, 0, by first | decide +kernel | (dsimp only; decide +kernel)⟩,
   ⟨{ State.reset with sectors := [(0, { pstate := .steep })] }, 0, 1, by first | decide +kernel | (dsimp only; decide +kernel)⟩⟩

theorem witness_ClocksFollowTheirCeilings :
    (∃ s : State, ∃ n : SecIx, let x := s.sector n; let f := s.ceiling n; (x.pstate = .brew ∨ x.pstate = .steep) ∧ (x.committed = false) ∧ (x.clk + 25 ≤ f)) ∧
    (∃ s : State, ∃ n : SecIx, let x := s.sector n; let f := s.ceiling n; (x.pstate = .brew ∨ x.pstate = .steep) ∧ (x.committed = false) ∧ (f < x.clk)) ∧
    (∃ s : State, ∃ n : SecIx, let x := s.sector n; let f := s.ceiling n; (x.pstate = .brew ∨ x.pstate = .steep) ∧ (x.committed = false) ∧ (x.clk ≤ f) ∧ (f < x.clk + 25)) ∧
    (∃ s : State, ∃ (w : BitVec 32), (s.boot.ready = true)) ∧
    (∃ s : State, ∃ temps : List (BitVec 16), ∃ k, (k < 11) ∧ (k < temps.length)) ∧
    (∃ s : State, ∃ temps : List (BitVec 16), (s.boot.ready = false ∨ s.power.crit = true)) ∧
    (∃ s : State, ∃ temps : List (BitVec 16), (s.boot.ready = true) ∧ (s.power.crit = false)) ∧
    (∃ s : State, (∃ k, k < 11 ∧ 16 * ((s.power.tjMax : Int) + 5) ≤ tget 0 s.power.now k)) ∧
    (∃ s : State, (∀ k, k < 11 → tget 0 s.power.now k ≤ 16 * ((s.power.tjMax : Int) - 3))) ∧
    (∃ s : State, ∃ (w : BitVec 32), (s.boot.ready = true) ∧ (s.power.cap = 185000)) ∧
    (∃ s : State, ∃ (w : BitVec 32), (s.boot.ready = true) ∧ (s.power.cap ≠ 185000) ∧ (s.power.cap < w.toNat)) ∧
    (∃ s : State, ∃ (w : BitVec 32), (s.boot.ready = true) ∧ (s.power.cap ≠ 185000) ∧ (w.toNat + 2000 < s.power.cap) ∧ (s.power.under < 99)) ∧
    (∃ s : State, ∃ (w : BitVec 32), (s.boot.ready = true) ∧ (s.power.cap ≠ 185000) ∧ (w.toNat + 2000 < s.power.cap) ∧ (99 ≤ s.power.under) ∧ (s.power.p < 1600)) ∧
    (∃ s : State, ∃ (w : BitVec 32), (s.boot.ready = true) ∧ (s.power.cap ≠ 185000) ∧ (w.toNat ≤ s.power.cap) ∧ (s.power.cap ≤ w.toNat + 2000)) ∧
    (∃ s : State, ∃ temps : List (BitVec 16), let u := (List.range (min 11 temps.length)).foldl (fun s k =>
        if k < 8 then (State.sense s k (temps.getD k 0).toInt).updSector k (fun x => { x with temp := (temps.getD k 0).toInt })
        else State.sense s k (temps.getD k 0).toInt) s
      let warn := (List.range 11).any fun k => decide (16 * (u.power.tjWarn : Int) ≤ tget 0 u.power.now k)
      let v := if u.power.tjWarn ≠ 0 ∧ warn = true then pmStick u 0x10 else u
      (s.boot.ready = true) ∧ (s.power.crit = false) ∧ ∃ n, (n < 8) ∧ ((v.sector n).live = true) ∧ (16 * (v.power.tjMax : Int) ≤ (v.sector n).temp ∨ 480 < v.tdiff n)) :=
  ⟨⟨{ State.reset with sectors := [(0, { limit := 1600 })], power := { p := 1600 } }, 0, by first | decide +kernel | (dsimp only; decide +kernel)⟩,
   ⟨{ State.reset with sectors := [(0, { clk := 425 })] }, 0, by first | decide +kernel | (dsimp only; decide +kernel)⟩,
   ⟨{ State.reset with sectors := [(0, {  })] }, 0, by first | decide +kernel | (dsimp only; decide +kernel)⟩,
   ⟨{ State.reset with boot := ready }, 1000, by decide +kernel⟩,
   ⟨State.reset, [16], 0, by first | decide +kernel | (dsimp only; decide +kernel)⟩,
   ⟨State.reset, [], by first | decide +kernel | (dsimp only; decide +kernel)⟩,
   ⟨{ State.reset with boot := ready }, [0x690], by first | decide +kernel | (dsimp only; decide +kernel)⟩,
   ⟨{ State.reset with power := { now := [(10, 1760)] } }, by decide +kernel⟩,
   ⟨{ State.reset with power := { crit := true, now := [(10, 1632)] } }, by decide +kernel⟩,
   ⟨{ State.reset with boot := ready, power := { cap := 185000 } }, 0, by decide +kernel⟩,
   ⟨{ State.reset with boot := ready, power := { cap := 100000 } }, 100001, by decide +kernel⟩,
   ⟨{ State.reset with boot := ready, power := { cap := 100000, under := 98 } }, 97999, by decide +kernel⟩,
   ⟨{ State.reset with boot := ready, power := { cap := 100000, under := 99, p := 1575 } }, 97999, by decide +kernel⟩,
   ⟨{ State.reset with boot := ready, power := { cap := 100000 } }, 98000, by decide +kernel⟩,
   ⟨{ State.reset with boot := ready }, [0x7FF0], by refine ⟨?_, ?_, 0, ?_⟩ <;> decide +kernel⟩⟩

theorem witness_ResetAndBootStages :
    (∃ s : State, ∃ b : BoardIn, (s.boot.held = true) ∧ (b.rails = true) ∧ (b.rstN = true) ∧ (b.testEn = false) ∧ (b.flash = [])) ∧
    (∃ s : State, ∃ e : BootIn, (s.boot.held = false) ∧ (s.boot.ready = false) ∧ ((s.boot.status = 0) ∧ (e.fuses = true) ∧ (s.tap.instr = .idcode ∨ s.tap.instr = .bypass))) ∧
    (∃ s : State, ∃ e : BootIn, (s.boot.held = false) ∧ (s.boot.ready = false) ∧ ((s.boot.status = 1) ∧ (e.calW = true) ∧ (e.calE = true))) ∧
    (∃ s : State, ∃ e : BootIn, (s.boot.held = false) ∧ (s.boot.ready = false) ∧ ((s.boot.status = 2) ∧ (e.selfTest.val = 0) ∧ (∃ t, (t = e.badTiles.foldl (fun s p => State.failTile s p.val) s)))) ∧
    (∃ s : State, ∃ e : BootIn, (s.boot.held = false) ∧ (s.boot.ready = false) ∧ ((s.boot.status = 3) ∧ (e.flash = true) ∧ (s.tap.drives = false) ∧ (e.profile = true))) ∧
    (∃ s : State, ∃ e : BootIn, (s.boot.held = false) ∧ (s.boot.ready = false) ∧ ((s.boot.status = 0) ∧ (e.fuses = false))) ∧
    (∃ s : State, ∃ e : BootIn, (s.boot.held = false) ∧ (s.boot.ready = false) ∧ ((s.boot.status = 2) ∧ (e.selfTest.val ≠ 0))) ∧
    (∃ s : State, ∃ e : BootIn, (s.boot.held = false) ∧ (s.boot.ready = false) ∧ ((s.boot.status = 3) ∧ (e.flash = false ∨ s.tap.drives = true))) ∧
    (∃ s : State, ∃ e : BootIn, (s.boot.held = false) ∧ (s.boot.ready = false) ∧ ((s.boot.status = 3) ∧ (e.flash = true) ∧ (s.tap.drives = false) ∧ (e.profile = false))) ∧
    (∃ s : State, ∃ e : BootIn, (s.boot.held = false) ∧ (s.boot.ready = false) ∧ (∃ x, (x < 2) ∧ (s.boot.status = 4 + x))) ∧
    (∃ (s : State) (e : BootIn) (i : List Byte), s.boot.held = false ∧ s.boot.ready = false ∧ s.boot.status = 6 ∧ i = s.slotImage s.boot.active ∧ e.slot = true ∧ s.tap.drives = false) ∧
    (∃ s : State, ∃ e : BootIn, (s.boot.held = false) ∧ (s.boot.ready = false) ∧ ((s.boot.status = 7))) ∧
    (∃ s : State, ∃ e : BootIn, (s.boot.held = false) ∧ (s.boot.ready = false) ∧ ((s.boot.status = 8) ∧ (e.firmware = false))) ∧
    (∃ s : State, ∃ e : BootIn, (s.boot.held = false) ∧ (s.boot.ready = false) ∧ ((s.boot.status = 8) ∧ (e.firmware = true))) ∧
    (∃ s : State, ∃ b : BoardIn, (s.boot.held = true) ∧ (b.rails = true) ∧ (b.rstN = true) ∧ (b.testEn = false) ∧ (b.flash ≠ [])) ∧
    (∃ s : State, ∃ e : BootIn, (s.boot.held = false) ∧ (s.boot.ready = false) ∧ (∃ x, (x < 2) ∧ (s.boot.status = 4 + x) ∧ (e.slot = true) ∧ (s.tap.drives = false))) :=
  ⟨⟨State.reset, { rstN := true, rails := true, testEn := false, smb := 0x10, flash := [] }, by decide +kernel⟩,
   ⟨{ State.reset with boot := { held := false, status := 0 } }, stageIn, by first | decide +kernel | (dsimp only; decide +kernel), by first | decide +kernel | (dsimp only; decide +kernel), by first | decide +kernel | (dsimp only; decide +kernel)⟩,
   ⟨{ State.reset with boot := { held := false, status := 1 } }, stageIn, by first | decide +kernel | (dsimp only; decide +kernel), by first | decide +kernel | (dsimp only; decide +kernel), by first | decide +kernel | (dsimp only; decide +kernel)⟩,
   ⟨{ State.reset with boot := { held := false, status := 2 } }, stageIn, by first | decide +kernel | (dsimp only; decide +kernel), by first | decide +kernel | (dsimp only; decide +kernel), by first | decide +kernel | (dsimp only; decide +kernel), by first | decide +kernel | (dsimp only; decide +kernel), { State.reset with boot := { held := false, status := 2 } }, by first | decide +kernel | (dsimp only; decide +kernel)⟩,
   ⟨{ State.reset with boot := { held := false, status := 3 } }, stageIn, by first | decide +kernel | (dsimp only; decide +kernel), by first | decide +kernel | (dsimp only; decide +kernel), by first | decide +kernel | (dsimp only; decide +kernel)⟩,
   ⟨{ State.reset with boot := { held := false, status := 0 } }, { stageIn with fuses := false }, by first | decide +kernel | (dsimp only; decide +kernel), by first | decide +kernel | (dsimp only; decide +kernel), by first | decide +kernel | (dsimp only; decide +kernel)⟩,
   ⟨{ State.reset with boot := { held := false, status := 2 } }, { stageIn with selfTest := 1 }, by first | decide +kernel | (dsimp only; decide +kernel), by first | decide +kernel | (dsimp only; decide +kernel), by first | decide +kernel | (dsimp only; decide +kernel)⟩,
   ⟨{ State.reset with boot := { held := false, status := 3 } }, { stageIn with flash := false }, by first | decide +kernel | (dsimp only; decide +kernel), by first | decide +kernel | (dsimp only; decide +kernel), by first | decide +kernel | (dsimp only; decide +kernel)⟩,
   ⟨{ State.reset with boot := { held := false, status := 3 } }, { stageIn with profile := false }, by first | decide +kernel | (dsimp only; decide +kernel), by first | decide +kernel | (dsimp only; decide +kernel), by first | decide +kernel | (dsimp only; decide +kernel)⟩,
   ⟨{ State.reset with boot := { held := false, status := 5 } }, { stageIn with slot := false }, by first | decide +kernel | (dsimp only; decide +kernel), by first | decide +kernel | (dsimp only; decide +kernel), 1, by first | decide +kernel | (dsimp only; decide +kernel)⟩,
   ⟨{ State.reset with boot := { held := false, status := 6 } }, stageIn, _, by decide, by decide, by decide, rfl, by decide, by decide⟩,
   ⟨{ State.reset with boot := { held := false, status := 7 } }, stageIn, by first | decide +kernel | (dsimp only; decide +kernel), by first | decide +kernel | (dsimp only; decide +kernel), by first | decide +kernel | (dsimp only; decide +kernel)⟩,
   ⟨{ State.reset with boot := { held := false, status := 8 } }, { stageIn with firmware := false }, by first | decide +kernel | (dsimp only; decide +kernel), by first | decide +kernel | (dsimp only; decide +kernel), by first | decide +kernel | (dsimp only; decide +kernel)⟩,
   ⟨{ State.reset with boot := { held := false, status := 8 } }, stageIn, by first | decide +kernel | (dsimp only; decide +kernel), by first | decide +kernel | (dsimp only; decide +kernel), by first | decide +kernel | (dsimp only; decide +kernel)⟩,
   ⟨State.reset, { rstN := true, rails := true, testEn := false, smb := 0x10, flash := [(4096, [1, 2])] }, by decide +kernel⟩,
   ⟨{ State.reset with boot := { held := false, status := 4 } }, stageIn, by first | decide +kernel | (dsimp only; decide +kernel), by first | decide +kernel | (dsimp only; decide +kernel), 0, by first | decide +kernel | (dsimp only; decide +kernel)⟩⟩

theorem witness_TestPortAndRegisterWrites :
    (∃ s : State, ∃ bits : List Bool, (s.dbgAccess.tapOpen = false)) ∧
    (∃ s : State, ∃ bits : List Bool, (s.dbgAccess.tapOpen = true)) ∧
    (∃ s : State, ∃ (a : BitVec 48) (w : Word), (a.toNat % 4 = 0) ∧ ((s.destOf a.toNat).isSome = true) ∧ (areaOf a.toNat = .csr) ∧ (s.csrAwake a.toNat = true) ∧ ((s.csrPeek a.toNat).isSome = true)) ∧
    (∃ s : State, ∃ (a : BitVec 48) (w : Word), (a.toNat % 4 = 0) ∧ ((s.destOf a.toNat).isSome = true) ∧ (areaOf a.toNat = .csr) ∧ (s.csrAwake a.toNat = true) ∧ (s.csrPeek a.toNat = none)) ∧
    (∃ s : State, ∃ (a : BitVec 48) (w : Word), (a.toNat % 4 = 0) ∧ (∃ n : Fin 4, (s.portWidth n ≠ 0) ∧ (a.toNat < 0x80000))) ∧
    (∃ s : State, ∃ (a : BitVec 48) (w : Word), (a.toNat % 4 = 0) ∧ (s.destOf a.toNat = none)) ∧
    (∃ s : State, ∃ (a : BitVec 48) (w : Word), (a.toNat % 4 = 0) ∧ ((s.destOf a.toNat).isSome = true) ∧ (areaOf a.toNat = .csr) ∧ (s.csrAwake a.toNat = false)) :=
  ⟨⟨State.reset, [true], by first | decide +kernel | (dsimp only; decide +kernel)⟩,
   ⟨{ State.reset with dbgAccess := { tapOpen := true } }, [true], by first | decide +kernel | (dsimp only; decide +kernel)⟩,
   ⟨State.reset, 0x31000000, 1, by decide +kernel⟩,
   ⟨State.reset, 0x30000000, 1, by decide +kernel⟩,
   ⟨hostS {}, 0x7FFFC, 1, by decide +kernel, 0, by decide +kernel⟩,
   ⟨State.reset, 0xFFFFFFFFFFFC, 1, by decide +kernel⟩,
   ⟨{ State.reset with sectors := [(0, { pstate := .cool })] }, 0x31001000, 1, by decide +kernel⟩⟩

end Sys2Proof.Tests
end

section
/-!
SUPPORT. Requests from outside at a tile that another partition owns: the fence proxy of the tile's sector, the owner check
and the answer, none of which reads or writes the SRAMs; with the statement about them (O39).
-/
namespace Sys2Proof.Machine

/-! ## Requests from outside at a tile of another partition (R45, R47, R294) -/

/-- The network interfaces have nothing to put in. -/
theorem pump_of_inject_nil {s : State} (h : s.mesh.inject = []) : s.pump = s := by
  simp [State.pump, h]

@[simp] theorem raiseWake_mem (s : State) (n : Nat) : (s.raiseWake n).mem = s.mem := by
  unfold State.raiseWake
  split <;> rfl

@[simp] theorem raiseWake_readOut (s : State) (n : Nat) : (s.raiseWake n).readOut = s.readOut := by
  unfold State.raiseWake
  split <;> rfl

/-- A request from outside finds its own packet when none has arrived through the mesh. -/
theorem takeRequest_outside {s : State} (h : s.mesh.arrived = []) (r : MeshReq) (opc : Nat) :
    s.takeRequest r opc = (requestPacket r opc (((s.destOf r.addr.toNat).map (·.1)).getD 0), s) := by
  simp [State.takeRequest, h]

/-- The answer to a request from outside is shown in `readOut`, and nothing else changes. -/
theorem answer_outside {s : State} {k : Packet} (h : k.purpose = .outside) (st : Nat) (d : List Byte) (m : Nat) :
    s.answer k st d m = { s with readOut := leBytes 2 st ++ leBytes 1 (bit (m != 0)) ++ d } := by
  simp [State.answer, h]

/-- A plain address in the data or tap memory of tile `p`: its bits above the 44 of a place are 0. -/
def atTile (a p : Nat) : Prop := a < 2 ^ 44 ∧ (areaOf a = .data p ∨ areaOf a = .tap p)

theorem destOf_isSome_of_atTile {a p : Nat} (h : atTile a p) (s : State) : (s.destOf a).isSome = true := by
  obtain ⟨hlt, harea⟩ := h
  have hali : a / 2 ^ 44 = 0 := Nat.div_eq_of_lt hlt
  have hmod : a % 2 ^ 44 = a := Nat.mod_eq_of_lt hlt
  rcases harea with ha | ha <;> (simp only [State.destOf, hali, hmod, ha]; rfl)

section
variable {s : State} {k : Packet} {p : Nat} (hk : atTile k.addr p) (hop : k.opc = 1 ∨ k.opc = 2) (ho : s.ownerOf p ≠ k.part)
include hk hop ho

/-- The owner check of R47 turns away a RD or WR of another partition. -/
theorem memCheck_otherOwner : s.memCheck k = (some stWrongPartition, s) := by
  obtain ⟨hlt, harea⟩ := hk
  have hali : k.addr / 2 ^ 44 = 0 := Nat.div_eq_of_lt hlt
  have hmod : k.addr % 2 ^ 44 = k.addr := Nat.mod_eq_of_lt hlt
  have h3 : k.opc ≠ 3 := by omega
  have hknown : k.unknown = false := by rcases hop with h | h <;> simp [Packet.unknown, h]
  have hcheck : s.sramCheck k = 1 := by
    rcases harea with ha | ha <;> (simp only [State.sramCheck, hali, hmod, ha, h3, ho, false_and, or_false, if_false]; rfl)
  rcases harea with ha | ha <;> (simp only [State.memCheck, hknown, hmod, ha, hcheck]; rfl)

/-- It is answered WRONG_PARTITION, and acts nowhere. -/
theorem serveRequest_otherOwner :
    s.serveRequest k =
      some (s.answer k stWrongPartition (turnedAway k stWrongPartition).2.1 (turnedAway k stWrongPartition).2.2).pump := by
  have hmod : k.addr % 2 ^ 44 = k.addr := Nat.mod_eq_of_lt hk.1
  have hstatus : (turnedAway k stWrongPartition).1 = stWrongPartition := by
    unfold turnedAway
    split <;> rfl
  rcases hk.2 with ha | ha <;>
    simp only [State.serveRequest, hmod, ha, State.memServe, memCheck_otherOwner hk hop ho, hstatus]

end

/-- What becomes of a request from outside at a tile that another partition owns: the fence proxy holds it and raises a
wake, or answers it DOMAIN_OFF (R294); one that the proxy passes is turned away by the owner check (R45, R47). -/
def State.turnAtTile (s : State) (k : Packet) : State :=
  let x := s.proxy (portRouter k.dst) (portNumber k.dst) k
  if x = 1 then (proxySector (portRouter k.dst) (portNumber k.dst)).elim s s.raiseWake
  else if x = 2 then s.answer k stDomainOff []
  else s.answer k stWrongPartition (turnedAway k stWrongPartition).2.1 (turnedAway k stWrongPartition).2.2

theorem turnAtTile_mem {k : Packet} (h : k.purpose = .outside) (s : State) : (s.turnAtTile k).mem = s.mem := by
  simp only [State.turnAtTile, answer_outside h]
  split
  · cases proxySector (portRouter k.dst) (portNumber k.dst) with
    | some n => exact raiseWake_mem s n
    | none => rfl
  · split <;> rfl

/-- What it answers does not depend on what the memories hold. -/
theorem turnAtTile_readOut_congr {k : Packet} (h : k.purpose = .outside) (s : State) (m : Memory) :
    (State.turnAtTile { s with mem := m } k).readOut = (s.turnAtTile k).readOut := by
  have hproxy : State.proxy { s with mem := m } (portRouter k.dst) (portNumber k.dst) k
      = s.proxy (portRouter k.dst) (portNumber k.dst) k := rfl
  simp only [State.turnAtTile, answer_outside h, hproxy]
  split
  · cases proxySector (portRouter k.dst) (portNumber k.dst) with
    | some n => exact (raiseWake_readOut _ n).trans (raiseWake_readOut s n).symm
    | none => rfl
  · split <;> rfl

/-- A request from outside at a tile of another partition is held or turned away, provided that the row itself does nothing
after a request that the target's checks refuse. -/
theorem request_otherOwner {s : State} {r : MeshReq} {opc p : Nat} {f : Packet → State → State → State} {k : Packet}
    (harr : s.mesh.arrived = []) (hinj : s.mesh.inject = []) (ha : atTile r.addr.toNat p) (hop : opc = 1 ∨ opc = 2)
    (ho : s.ownerOf p ≠ r.part.val) (hk : k = requestPacket r opc (((s.destOf r.addr.toNat).map (·.1)).getD 0))
    (hf : ∀ t, (s.memCheck k).1.isSome = true → f k s t = t) : s.request r opc f = s.turnAtTile k := by
  have hat : atTile k.addr p := by rw [hk]; exact ha
  have hopc : k.opc = 1 ∨ k.opc = 2 := by rw [hk]; exact hop
  have hpart : s.ownerOf p ≠ k.part := by rw [hk]; exact ho
  have hout : k.purpose = .outside := by rw [hk]; rfl
  have hcheck := memCheck_otherOwner hat hopc hpart
  have hserve := serveRequest_otherOwner hat hopc hpart
  have hdest : (s.destOf k.addr).isNone = false := Option.isNone_eq_false_iff.mpr (destOf_isSome_of_atTile hat s)
  rw [pump_of_inject_nil (by rw [answer_outside hout]; exact hinj)] at hserve
  simp only [State.request, takeRequest_outside harr, ← hk, harr, List.any_nil, hdest, hcheck, hserve, State.turnAtTile,
    Bool.false_eq_true, or_self, if_false, Option.isNone_some, Bool.false_and, hf _ (by rw [hcheck]; rfl)]
  cases proxySector (portRouter k.dst) (portNumber k.dst) <;> rfl

/-- A MESH_WR that its target turns away conflicts with no port A. -/
theorem keepPortA_turnedAway {s0 : State} {k : Packet} (h : (s0.memCheck k).1.isSome = true) (is : List (Fin 65)) (t : State) :
    keepPortA is k s0 t = t := by
  simp [keepPortA, h]

/-- Settles O39: the fence proxy holds the request or the owner check refuses it, whatever the SRAMs hold. -/
theorem noAccessToAnotherOwnersTile : Obligations.NoAccessToAnotherOwnersTile := by
  intro s r p harr hinj hlt harea ho
  have ha : atTile r.addr.toNat p := ⟨hlt, harea⟩
  have hread (t : State) (hta : t.mesh.arrived = []) (hti : t.mesh.inject = []) (hto : t.ownerOf p ≠ r.part.val) :=
    request_otherOwner (f := fun _ _ t => t) hta hti ha (.inl rfl) hto rfl fun _ _ => rfl
  refine ⟨fun ws t h => ?_, fun t h => ?_, fun c y t t' h h' => ?_⟩
  · have hw := request_otherOwner harr hinj ha (.inr rfl) ho rfl fun t hc => keepPortA_turnedAway hc ws t
    obtain rfl : s.request r 2 (keepPortA ws) = t := Host.Outcome.next.inj h
    rw [hw]; exact turnAtTile_mem rfl s
  · obtain rfl : s.request r 1 (fun _ _ t => t) = t := Host.Outcome.next.inj h
    rw [hread s harr hinj ho]; exact turnAtTile_mem rfl s
  · obtain rfl : s.request r 1 (fun _ _ t => t) = t := Host.Outcome.next.inj h
    obtain rfl : State.request _ r 1 (fun _ _ t => t) = t' := Host.Outcome.next.inj h'
    rw [hread s harr hinj ho, hread { s with mem := { s.mem with cells := c, syn := y } } harr hinj ho]
    exact turnAtTile_readOut_congr rfl s _

end Sys2Proof.Machine
end

section
/-!
SUPPORT. The commands that move a caller's bytes: what an accepted command with an input descriptor does, the work of each
MEM_ command and of SCRUB_RANGE when its checks pass, and how one that waited goes on; with the statement about them (O49).
-/
namespace Sys2Proof.Machine

/-! ## Accepted commands, and the input a descriptor names (R345, R359) -/

/-- A row of a command's opcode ends an accepted command with what its work answers. -/
theorem exec_accepted {i : Instr} {s : State} {r : Recip} {c : CmdRec} {rest : List CmdRec} {op : Nat} {auth : Bool}
    {body : CmdRec → CmdIn → State → CmdOut} {o : CmdOut} (hrow : exec i s = .next (s.runCommand r (· == op) body))
    (h : s.Accepts r c rest op auth)
    (ho : body ((s.begun r c rest auth).taken c auth) {} (s.begun r c rest auth) = o) :
    exec i s = .next ((s.begun r c rest auth).finish ((s.begun r c rest auth).taken c auth) o) := by
  rw [hrow, runCommand_accepts h, ho]

section
variable {s : State} {c : CmdRec} {d : Desc} {n : Nat} {isWrite : Bool} (h : s.descReady c d n isWrite)
include h

theorem spaceBad_of_descReady : d.spaceBad c = false := by
  rcases h with ⟨hd, hq⟩ | ⟨hd, -, -⟩ <;> simp [Desc.spaceBad, *]

theorem descFails_of_descReady : s.descFails c d n isWrite = false := by
  rcases h with ⟨hd, -⟩ | ⟨hd, hr, -⟩ <;> simp [State.descFails, *]

theorem whenDesc_of_descReady (k : State → CmdOut) : whenDesc c d n isWrite s k = k s := by
  rcases h with ⟨hd, -⟩ | ⟨-, hr, -⟩
  · exact whenDesc_host k (by omega)
  · exact whenDesc_device k (by omega)

end

/-- A command whose work, once its descriptor can be used, is to take its input and go on with it. -/
theorem takesInput_of_withInput {i : Instr} {s : State} {r : Recip} {c : CmdRec} {rest : List CmdRec} {op : Nat} {auth : Bool}
    {d : Desc} {n : Nat} {body : CmdRec → CmdIn → State → CmdOut} {work : List Byte → State → CmdOut}
    (hrow : exec i s = .next (s.runCommand r (· == op) body)) (h : s.Accepts r c rest op auth)
    (hbody : (s.begun r c rest auth).descReady c d n false →
      body ((s.begun r c rest auth).taken c auth) {} (s.begun r c rest auth) =
        withInput ((s.begun r c rest auth).taken c auth) {} d n (s.begun r c rest auth) work) :
    s.takesInput i r c rest auth d n work := by
  refine ⟨fun hd hq => ?_, fun hd hr ht => ?_⟩
  · exact exec_accepted hrow h ((hbody (.inl ⟨hd, hq⟩)).trans (withInput_host work rfl rfl hd))
  · have hb := hbody (.inr ⟨hd, hr, ht⟩)
    refine ⟨fun hs => ?_, fun hs hp => ?_, fun hs hp => ?_⟩
    · exact exec_accepted hrow h (hb.trans (withInput_failed work rfl rfl hd rfl hs))
    · exact exec_accepted hrow h (hb.trans (withInput_poison work rfl rfl hd rfl hs hp))
    · exact exec_accepted hrow h (hb.trans (withInput_device work rfl rfl hd rfl hs hp))

/-- A range of no bytes can always be served. -/
theorem rangeAt_zero (s : State) (r a : Nat) (isWrite : Bool) : s.rangeAt r a 0 isWrite = 0 := rfl

/-! ## The work of the MEM_ commands (R376, R377) -/

/-- The range of a MEM_ command is of a length that Barista takes, translates, and can be served at once. -/
def State.rangeClear (s : State) (c : CmdRec) (isWrite : Bool) : Prop :=
  0 < c.num 24 4 ∧ c.num 24 4 ≤ memMax ∧ s.rangeAt c.stamp (c.num 16 8) (c.num 24 4) isWrite = 0 ∧ s.noTags c.stamp = false

section
variable {c : CmdRec} {i : CmdIn} {s : State}

/-- None of the checks of its length, its translation and its tags fails. -/
theorem noCheckFails_of_rangeClear {isWrite : Bool} (h : s.rangeClear c isWrite) :
    c.num 24 4 ≠ 0 ∧ ¬memMax < c.num 24 4 ∧ s.rangeAt c.stamp (c.num 16 8) (c.num 24 4) isWrite = 0 ∧
      s.noTags c.stamp = false := by
  obtain ⟨hpos, hmax, hr, ht⟩ := h
  exact ⟨by omega, by omega, hr, ht⟩

/-- MEM_WRITE of bytes that its entry carries. -/
theorem bodyMemWrite_entry (h : s.rangeClear c true) (hsrc : c.num 28 1 = 0) (hn : c.num 24 4 ≤ 32)
    (hst : c.stray [(16, 13), (32, 32)] = false) {m : Moved}
    (hm : m = s.writeRange c.stamp (c.num 16 8) ((c.sub 32 (c.num 24 4)).take (c.num 24 4))) :
    bodyMemWrite c i s = .reply m.status (resultOf [(14, 4, m.done)]) m.s := by
  subst hm
  obtain ⟨hn0, hmax, hr, ht⟩ := noCheckFails_of_rangeClear h
  have hn' : ¬32 < c.num 24 4 := by omega
  rw [bodyMemWrite, checked_none (by simp [firstFail, hsrc, hst, hn0, hmax, hr, ht, hn']), whenRange_now _ (by simp [hr])]
  simp [hsrc]

/-- MEM_WRITE of bytes that a descriptor names. -/
theorem bodyMemWrite_desc (h : s.rangeClear c true) (hsrc : c.num 28 1 = 1) (hst : c.stray [(16, 13), (32, 16)] = false)
    (hrsv : (c.desc 32).rsv = 0) (hlen : c.num 24 4 ≤ (c.desc 32).len) (hd : s.descReady c (c.desc 32) (c.num 24 4) false) :
    bodyMemWrite c i s = withInput c i (c.desc 32) (c.num 24 4) s fun data w =>
      let o := w.writeRange c.stamp (c.num 16 8) (data.take (c.num 24 4))
      .reply o.status (resultOf [(14, 4, o.done)]) o.s := by
  obtain ⟨hn0, hmax, hr, ht⟩ := noCheckFails_of_rangeClear h
  have hl0 : (c.desc 32).len ≠ 0 := by omega
  have hlen' : ¬(c.desc 32).len < c.num 24 4 := by omega
  rw [bodyMemWrite, checked_none (by
      simp [firstFail, hsrc, hst, hn0, hl0, hr, ht, hmax, hrsv, Desc.short, hlen', spaceBad_of_descReady hd,
        descFails_of_descReady hd]),
    whenRange_now _ (by simp [hr])]
  simp only [hsrc, beq_self_eq_true, if_true, whenDesc_of_descReady hd]

/-- The status of a MEM_READ: what stopped it, or poison met on the way. -/
def Moved.readStatus (m : Moved) : Nat := if m.status ≠ stOk then m.status else if m.poison.isSome then stPoison else stOk

/-- MEM_READ of up to 8 bytes into its reply. -/
theorem bodyMemRead_entry (h : s.rangeClear c false) (hdst : c.num 28 1 = 0) (hn : c.num 24 4 ≤ 8)
    (hst : c.stray [(16, 13)] = false) {m : Moved} (hm : m = s.readRange c.stamp (c.num 16 8) (c.num 24 4)) :
    bodyMemRead c i s =
      .reply m.readStatus (resultOf [(14, 4, m.done + 2 ^ 31 * bit m.poison.isSome), (18, 8, leNat m.data)]) m.s := by
  subst hm
  obtain ⟨hn0, hmax, hr, ht⟩ := noCheckFails_of_rangeClear h
  have hn' : ¬8 < c.num 24 4 := by omega
  rw [bodyMemRead, checked_none (by simp [firstFail, hdst, hst, hn0, hmax, hr, ht, hn']),
    whenRange_now _ (by simp [hr]), whenDesc_device _ (by simp [hdst, rangeAt_zero])]
  simp [hdst, Moved.readStatus]

/-- MEM_READ into the memory that a descriptor names; a write of it that fails is POISONED_DATA (R359). -/
theorem bodyMemRead_desc (h : s.rangeClear c false) (hdst : c.num 28 1 = 1) (hst : c.stray [(16, 13), (32, 16)] = false)
    (hrsv : (c.desc 32).rsv = 0) (hlen : c.num 24 4 ≤ (c.desc 32).len) (hd : s.descReady c (c.desc 32) (c.num 24 4) true)
    {m : Moved} (hm : m = s.readRange c.stamp (c.num 16 8) (c.num 24 4)) :
    bodyMemRead c i s =
      .reply (if (m.s.written c (c.desc 32) m.data).1 then m.readStatus else stPoison)
        (resultOf [(14, 4, m.done + 2 ^ 31 * bit m.poison.isSome), (18, 4, m.poison.getD 0xFFFFFFFF)])
        (m.s.written c (c.desc 32) m.data).2 := by
  subst hm
  obtain ⟨hn0, hmax, hr, ht⟩ := noCheckFails_of_rangeClear h
  have hl0 : (c.desc 32).len ≠ 0 := by omega
  have hlen' : ¬(c.desc 32).len < c.num 24 4 := by omega
  rw [bodyMemRead, checked_none (by
      simp [firstFail, hdst, hst, hn0, hr, ht, hmax, hrsv, Desc.short, hlen', spaceBad_of_descReady hd,
        descFails_of_descReady hd]),
    whenRange_now _ (by simp [hr])]
  simp only [hdst, beq_self_eq_true, if_true, whenDesc_of_descReady hd, output_written hl0, Moved.readStatus]

/-- MEM_FILL writes its pattern over the whole range. -/
theorem bodyMemFill_fills (h : s.rangeClear c true) {w : Nat} (hc : w = c.num 28 1) (hwidth : w = 4 ∨ w = 8)
    (hst : c.stray [(16, 13), (32, 8)] = false) (ha : c.num 16 8 % w = 0) (hn : c.num 24 4 % w = 0) {m : Moved}
    (hm : m = s.writeRange c.stamp (c.num 16 8) ((List.range (c.num 24 4)).map fun j => (c.sub 32 w).getD (j % w) 0)) :
    bodyMemFill c i s = .reply m.status (resultOf [(14, 4, m.done)]) m.s := by
  subst hm
  obtain ⟨hn0, hmax, hr, ht⟩ := noCheckFails_of_rangeClear h
  have hw1 : max 1 w = w := by omega
  have hknown : (w == 4 || w == 8) = true := by simpa using hwidth
  simp only [bodyMemFill, ← hc, hw1]
  rw [checked_none (by simp [-Bool.not_or, firstFail, hst, hn0, hr, ht, hmax, hknown, ha, hn]),
    whenRange_now _ (by simp [hr])]

/-- MEM_ATOMIC makes one ATOM and gives the old value, unless the request fails. -/
theorem bodyMemAtomic_serves {w e : Nat} (hc : w = c.num 25 1) (hwidth : w = 4 ∨ w = 8)
    (hst : c.stray [(16, 10), (32, 16)] = false) (hop : 1 ≤ c.num 24 1) (hop' : c.num 24 1 ≤ 8) (ha : c.num 16 8 % w = 0)
    (hlt : c.num 16 8 < 2 ^ 44) (htap : ¬(0x04000000 ≤ c.num 16 8 ∧ c.num 16 8 < 0x04400000))
    (hr : s.rangeAt c.stamp (c.num 16 8) w true = 0) (ht : s.noTags c.stamp = false)
    (hd : s.deviceOf c.stamp (c.num 16 8) w true = some e) {u : Nat × List Byte × Nat × State}
    (hu : u = s.serve c.stamp 3 e 24 (c.sub 24 2 ++ leBytes 6 0 ++ c.sub 32 16)) :
    bodyMemAtomic c i s =
      .reply u.1 (if u.1 = stOk ∨ u.1 = stPoison then resultOf [(14, 8, leNat u.2.1)] else []) u.2.2.2 := by
  subst hu
  have hw1 : max 1 w = w := by omega
  have hknown : (w == 4 || w == 8) = true := by simpa using hwidth
  have hop0 : c.num 24 1 ≠ 0 := by omega
  have hopLe : ¬8 < c.num 24 1 := by omega
  have hali : decide (2 ^ 44 ≤ c.num 16 8) = false := decide_eq_false (Nat.not_le.mpr hlt)
  have hout : (decide (0x04000000 ≤ c.num 16 8) && decide (c.num 16 8 < 0x04400000)) = false := by simpa using htap
  simp only [bodyMemAtomic, ← hc, hw1, Nat.mod_eq_of_lt hlt, hout, hali]
  rw [checked_none (by simp [-Bool.not_or, firstFail, hst, hop0, hopLe, hknown, ha, hr, ht]),
    whenRange_now _ (by simp [hr])]
  simp only [hd]

/-- An output that is written before the reply: OK and the RESULT, or POISONED_DATA when it fails (R359). -/
theorem replyWith_written {c : CmdRec} {d : Desc} {data result : List Byte} {s : State} (hl : d.len ≠ 0) :
    replyWith c d data result s =
      .reply (if (s.written c d data).1 then stOk else stPoison) (if (s.written c d data).1 then result else [])
        (s.written c d data).2 := by
  rw [← output_written hl]
  rfl

/-! ## SCRUB_RANGE (R392, R454) -/

/-- The report of a scrub that ended at `stop`, with the time it took (R392). -/
def Scrub.report (x : Scrub) (stop elapsed : Nat) : List Byte :=
  leBytes 8 x.scanned ++ leBytes 4 x.corrected ++ leBytes 4 x.fresh ++ leBytes 4 x.fresh ++ leBytes 4 x.old
    ++ leBytes 8 x.first ++ leBytes 8 x.last ++ leBytes 8 stop ++ leBytes 8 elapsed ++ leBytes 8 0

/-- The words that a range of that kind is scrubbed by: lines of DRAM, words of an SRAM. -/
def scrubUnit (kind : Nat) : Nat := if kind = 2 then 64 else 4

/-- A scrub of a range that passes its checks writes its report to its descriptor. -/
theorem bodyScrubRange_reports {a len : Nat} (hca : a = c.num 16 8) (hcl : len = c.num 24 8)
    (hst : c.stray [(16, 32)] = false) (hrsv : (c.desc 32).rsv = 0) (hpos : 0 < len) (hkind : scrubKind a len ≠ 0)
    (ha : a % scrubUnit (scrubKind a len) = 0) (hn : len % scrubUnit (scrubKind a len) = 0) (hlen : 64 ≤ (c.desc 32).len)
    (hr : s.rangeAt c.stamp a len false = 0) (howned : s.scrubOwned c.stamp a len = true)
    (hon : s.scrubOff c.stamp a len = false) (ht : s.noTags c.stamp = false) (hd : s.descReady c (c.desc 32) 64 true)
    {x : Scrub} (hx : x = s.scrub c.stamp a len) {o : Bool × State}
    (ho : o = x.s.draw.2.written c (c.desc 32) (x.report (a + len) (Config.free x.s.draw.1))) :
    bodyScrubRange c i s =
      .reply (if o.1 then stOk else stPoison) (if o.1 then resultOf [(14, 4, x.corrected), (18, 4, x.fresh)] else []) o.2 := by
  subst ho hx
  have hn0 : len ≠ 0 := by omega
  have hl0 : (c.desc 32).len ≠ 0 := by omega
  have hlen' : ¬(c.desc 32).len < 64 := by omega
  unfold scrubUnit at ha hn
  simp only [bodyScrubRange, ← hca, ← hcl]
  rw [checked_none (by
      simp [firstFail, hst, hrsv, hn0, spaceBad_of_descReady hd, hkind, ha, hn, Desc.short, hlen', hr, howned,
        descFails_of_descReady hd, hon, ht]),
    whenRange_now _ (by simp [hr]), whenDesc_of_descReady hd]
  exact replyWith_written hl0

end

/-! ## Commands that go on (R46, R339, R359) -/

@[simp] theorem hpStick_running (s : State) (n : Nat) (bits : Word) : (s.hpStick n bits).running = s.running := by
  unfold State.hpStick State.sendMsix
  simp only
  split
  · split <;> rfl
  · rfl

/-- The payload of a started command comes, or the read of it meets an error: the command goes on with what came. -/
theorem hostReadCompletion_payload {s : State} {p : Fin 4} {i : Fin 256} {h : HostRead} {c : CmdRec} {y : Running}
    (hh : (s.hostReads.filter fun h => h.port == p.val)[i.val]? = some h) (hf : h.fetch = none) (hp : h.payload = some c)
    (hy : (s.running.find? fun y => y.cmd == c && y.wait == .payload) = some y) (hc : s.onCore c = true) (data : List Byte)
    (err : Bool) {w : State}
    (hw : w = if err then State.hpStick { s with hostReads := s.hostReads.erase h } p hpPcieErr
      else { s with hostReads := s.hostReads.erase h }) :
    exec (.hostReadCompletion p i data err) s =
      .next (State.finish { w with running := s.running.erase y } c
        (bodyOf c.opcode c { payload := some (if err then none else some (padTo h.len data)) }
          { w with running := s.running.erase y })) := by
  have hrun : w.running = s.running := by
    rw [hw]
    split
    · exact hpStick_running _ _ _
    · rfl
  simp only [exec, execHostReadCompletion, hh, hf, hp, hy, hc, Bool.not_true, Bool.false_eq_true, if_false, ← hw, hrun]

/-- The oldest command that waits at translation, once its work ends it. -/
theorem requestTranslateRetry_ends {s : State} {r : Recip} {y : Running} {more : List Running} {st : Nat}
    {result : List Byte} {t : State}
    (hq : (s.running.filter fun y => y.cmd.stamp == r.val && y.wait == .translate && s.onCore y.cmd) = y :: more)
    (hbody : bodyOf y.cmd.opcode y.cmd { wait := some .translate } (s.without y) = .reply st result t) :
    exec (.requestTranslateRetry r) s = .next (s.ended y st result t) := by
  have hwait : y.wait = .translate := by
    have hmem : y ∈ y :: more := List.mem_cons_self
    simp only [← hq, List.mem_filter, Bool.and_eq_true, beq_iff_eq] at hmem
    obtain ⟨-, ⟨-, hw⟩, -⟩ := hmem
    exact hw
  have hmoved : s.firstMoved (bodyOf y.cmd.opcode) [y] = some (y, .reply st result t) := by
    rw [firstMoved_cons _ (by rw [hwait]; nofun) (by rw [hwait, hbody]; rfl), hwait, hbody]
  simp only [exec, execRequestTranslateRetry, hq, List.findSome?_cons, hmoved]
  rfl

/-- Settles O49: each command's work, from its checks to its requests, in the state in which it begins. -/
theorem memoryCommandsAnswer : Obligations.MemoryCommandsAnswer := by
  intro s r c rest auth b a n d clear
  refine ⟨fun h hcl => ⟨fun hsrc hn hst => ?_, fun hsrc hst hrsv hlen => ?_⟩,
    fun h hcl m hm => ⟨fun hdst hn hst => ?_, fun hdst hst hrsv hlen hd => ?_⟩,
    fun h hcl hw hst ha hn m hm => ?_,
    fun w e u h hw hst hop hop' hwidth ha hlt htap hr ht hd hu => ?_,
    fun len x v h hlen hst hrsv hpos hkind ha hn hl hr howned hon ht hd hx hv => ?_,
    fun p i x y data hx hf hp hy hc => ⟨?_, ?_⟩,
    fun y more m hq hop hpos hmax hwidth ha hn hst hr ht hm => ?_⟩
  · exact exec_accepted (body := bodyMemWrite) rfl h (bodyMemWrite_entry (c := b.taken c auth) hcl hsrc hn hst rfl)
  · exact takesInput_of_withInput (body := bodyMemWrite) rfl h fun hd =>
      bodyMemWrite_desc (c := b.taken c auth) hcl hsrc hst hrsv hlen hd
  · exact exec_accepted (body := bodyMemRead) rfl h (bodyMemRead_entry (c := b.taken c auth) hcl hdst hn hst hm)
  · exact exec_accepted (body := bodyMemRead) rfl h (bodyMemRead_desc (c := b.taken c auth) hcl hdst hst hrsv hlen hd hm)
  · exact exec_accepted (body := bodyMemFill) rfl h (bodyMemFill_fills (c := b.taken c auth) hcl rfl hw hst ha hn hm)
  · exact exec_accepted (body := bodyMemAtomic) rfl h
      (bodyMemAtomic_serves (c := b.taken c auth) hw hwidth hst hop hop' ha hlt htap hr ht hd hu)
  · subst hv
    exact exec_accepted (body := bodyScrubRange) rfl h
      (bodyScrubRange_reports (c := b.taken c auth) rfl hlen hst hrsv hpos hkind ha hn hl hr howned hon ht hd hx rfl)
  · exact hostReadCompletion_payload hx hf hp hy hc data false rfl
  · exact hostReadCompletion_payload hx hf hp hy hc data true rfl
  · refine requestTranslateRetry_ends hq ?_
    have hbody : bodyOf 0x0303 = bodyMemFill := rfl
    rw [hop, hbody]
    exact bodyMemFill_fills (i := { wait := some .translate }) ⟨hpos, hmax, hr, ht⟩ rfl hwidth hst ha hn hm

end Sys2Proof.Machine
end

section
/-!
SUPPORT. REGISTER_WRITE by where its address leads, and the test access port; with the statement about them (O60).
-/
namespace Sys2Proof.Machine

/-! ## REGISTER_WRITE (R38, R294, R336) -/

section
variable {s : State} {a : BitVec 48} (ha : a.toNat % 4 = 0) (w : Word)
include ha

/-- At an address that leads nowhere the write is a hole access. -/
theorem registerWrite_nowhere (h : s.destOf a.toNat = none) :
    exec (.registerWrite none a w) s = .next (s.holeAccess a.toNat) := by
  simp [exec, execRegisterWrite, ha, h]

/-- A register whose sector sleeps is written over the mesh. -/
theorem registerWrite_asleep (hd : (s.destOf a.toNat).isSome = true) (hc : areaOf a.toNat = .csr)
    (h : s.csrAwake a.toNat = false) :
    exec (.registerWrite none a w) s = .next (s.issue { part := 16, opc := 2, addr := a.toNat, src := baristaPort, len := 4
                                                        data := leBytes 4 w.toNat, purpose := .register }) := by
  have hd' := Option.isNone_eq_false_iff.mpr hd
  simp [exec, execRegisterWrite, ha, hd', hc, h]

/-- One that answers is written in place, if the address names any. -/
theorem registerWrite_awake (hd : (s.destOf a.toNat).isSome = true) (hc : areaOf a.toNat = .csr)
    (h : s.csrAwake a.toNat = true) :
    exec (.registerWrite none a w) s =
      .next (if (s.csrPeek a.toNat).isNone then s.holeAccess a.toNat else s.csrWrite a.toNat w 0xFFFFFFFF#32) := by
  have hd' := Option.isNone_eq_false_iff.mpr hd
  simp [exec, execRegisterWrite, ha, hd', hc, h]

/-- A host writes its port's registers through its BAR. -/
theorem registerWrite_bar {n : Fin 4} (hp : s.portWidth n ≠ 0) (hlt : a.toNat < 0x80000) :
    exec (.registerWrite (some n) a w) s =
      .next (s.csrWrite (0x35000000 + 0x100000 * n.val + a.toNat) w 0xFFFFFFFF#32) := by
  have hin : ¬(s.portWidth n = 0 ∨ 0x80000 ≤ a.toNat) := by omega
  simp only [exec, execRegisterWrite, ha, ne_eq, not_true_eq_false, if_false, hin]

end

/-! ## The test access port (R535) -/

/-- While debug access is closed, JTAG_PRIVATE is BYPASS. -/
theorem jtagPrivate_closed {s : State} (h : s.dbgAccess.tapOpen = false) (bits : List Bool) :
    exec (.jtagPrivate bits) s = .next (s.scanBypass bits) := by
  simp [exec, execJtagPrivate, h]

/-- While it is open, the specification gives JTAG_PRIVATE no meaning. -/
theorem jtagPrivate_open {s : State} (h : s.dbgAccess.tapOpen = true) (bits : List Bool) :
    exec (.jtagPrivate bits) s = .refused .privateTestInstruction := by
  simp [exec, execJtagPrivate, h]

/-- Settles O60: the scans are their rows' own equations; the register writes go by where the address leads. -/
theorem testPortAndRegisterWrites : Obligations.TestPortAndRegisterWrites := by
  intro s
  refine ⟨rfl, rfl, fun bits => ⟨rfl, fun h => jtagPrivate_closed h bits, fun h => jtagPrivate_open h bits⟩,
    fun pins load => ⟨rfl, rfl, rfl, rfl, rfl, rfl, rfl, rfl⟩, fun a w ha => ⟨registerWrite_nowhere ha w,
      registerWrite_asleep ha w, fun hd hc hw hp => ?_, fun hd hc hw hp => ?_, fun n => registerWrite_bar ha w⟩⟩
  · rw [registerWrite_awake ha w hd hc hw, if_neg (by simpa using Option.isSome_iff_ne_none.mp hp)]
  · rw [registerWrite_awake ha w hd hc hw, if_pos (by rw [hp]; rfl)]

end Sys2Proof.Machine
end

section
/-!
SUPPORT. The issue slots of the MAC units: what the control instructions do in theirs, which row issues which instruction, and
what falls due; with the statements about them (O21, O22).
-/
namespace Sys2Proof.Machine

/-! ## One MAC unit of a tile -/

@[simp] theorem setMac_mem (s : State) (p : Nat) (u : Fin 4) (m : Mac) : (s.setMac p u m).mem = s.mem := rfl

theorem setMac_mac_same (s : State) (p : Nat) (u : Fin 4) (m : Mac) : ((s.setMac p u m).tile p).mac[u] = m := by
  simp [State.setMac]

/-- The unit after the slot of an instruction that neither accumulates nor leaves anything to fall due (R152, R158). -/
def Mac.issued (m : Mac) : Mac := { m.slot .bubble with acc2 := m.acc1, acc1 := false }

theorem Mac.sliceMap_slices (m : Mac) (f : Fin 4 → Slice → Slice) (v : Fin 4) :
    (m.sliceMap f).slices[v] = f v m.slices[v] := by
  simp [Mac.sliceMap]

/-- The flow of the program leaves the slices alone. -/
theorem Mac.advance_slices (m : Mac) : m.advance.slices = m.slices := by
  unfold Mac.advance
  split
  · rfl
  · split
    · rfl
    · split <;> rfl

/-- Outside a repeat block the next instruction follows. -/
theorem Mac.advance_pc {m : Mac} (h : m.rep = none) : m.advance.pc = m.pc + 1 := by
  simp [Mac.advance, h]

/-! ## The control instructions (R143, R150, R155) -/

section
variable {s : State} {p : Nat} {u : Fin 4} {m : Mac} (hm : (s.tile p).mac[u] = m) (hend : m.endSlot = false)
  (hres : s.macNowReserved p u = false) (hrep : m.rep = none)
include hm hend hres hrep

theorem macIssue_jmp (h : miOp (s.macNow p u) = 0x19) (w : LinkWord) :
    s.macIssue p u w = (false, s.setMac p u { m.issued with pc := BitVec.ofNat 4 (miTarget (s.macNow p u)) }) := by
  simp only [State.macIssue, hm, hend, hres, hrep, h, miAccumulates]
  rfl

theorem macIssue_halt (h : miOp (s.macNow p u) = 0x1A) (w : LinkWord) :
    s.macIssue p u w = (false, s.setMac p u { m.issued.advance with halted := true }) := by
  simp only [State.macIssue, hm, hend, hres, hrep, h, miAccumulates]
  rfl

theorem macIssue_rept (h : miOp (s.macNow p u) = 0x18) (w : LinkWord) :
    s.macIssue p u w = (false, s.setMac p u
      (if miLen (s.macNow p u) = 0 then { m.issued with pc := m.pc + 1 }
        else if miCount (s.macNow p u) = 0 then { m.issued with pc := m.pc + 1 + BitVec.ofNat 4 (miLen (s.macNow p u)) }
        else { m.issued with
          pc := m.pc + 1
          rep := some { left := miCount (s.macNow p u), first := m.pc + 1, len := miLen (s.macNow p u), at_ := 0 } })) := by
  simp only [State.macIssue, hm, hend, hres, hrep, h, miAccumulates]
  rfl

theorem macIssue_setp (h : miOp (s.macNow p u) = 0x10) (hbad : setpBad (s.macNow p u) = false) (w : LinkWord) :
    s.macIssue p u w = (false, s.setMac p u (m.issued.sliceMap fun v l => setpSlice (s.macNow p u) v l).advance) := by
  simp only [State.macIssue, hm, hend, hres, hrep, h, miAccumulates, hbad]
  rfl

end

/-- SETP of a pointer register loads no shift, so that it is never out of range (R150). -/
theorem setpBad_of_pointer {i : Nat} {r : Fin 4} (h : miReg i = r.val) : setpBad i = false := by
  have h9 : (r.val == 9) = false := beq_eq_false_iff_ne.mpr (by omega)
  simp [setpBad, h, h9]

/-- SETP of pointer `r` loads it in the slices of its mask (R150). -/
theorem setpSlice_pointer {i : Nat} {r : Fin 4} (h : miReg i = r.val) (v : Nat) (l : Slice) :
    setpSlice i v l =
      if inMask (miSetMask i) v then { l with ap := l.ap.set r (BitVec.ofNat 9 (miValue i + v * miLane i)) } else l := by
  have hap (x : BitVec 9) : l.ap.setIfInBounds r x = l.ap.set r x := by
    ext; simp [Vector.getElem_set, Vector.getElem_setIfInBounds]
  by_cases hv : inMask (miSetMask i) v = true <;> simp [setpSlice, setpValue, h, hap, hv]

/-- What is left of an issue that only wrote its unit. -/
theorem unit_of_macIssue {s : State} {p : Nat} {u : Fin 4} {w : LinkWord} {b : Bool} {x : Mac}
    (h : s.macIssue p u w = (b, s.setMac p u x)) :
    (((s.macIssue p u w).2.tile p).mac[u]) = x ∧ (s.macIssue p u w).2.mem = s.mem := by
  rw [h]
  exact ⟨setMac_mac_same .., setMac_mem ..⟩

/-- Settles O22: each control instruction writes its unit alone. -/
theorem macControlFlow : Obligations.MacControlFlow := by
  intro s p u
  dsimp only
  intro hend hres hrep
  refine ⟨fun h => ?_, fun h => ?_, fun h => ?_, fun h r hr => ?_⟩
  · obtain ⟨hunit, hmem⟩ := unit_of_macIssue (macIssue_jmp rfl hend hres hrep h {})
    rw [hunit]
    exact ⟨rfl, rfl, rfl, hmem⟩
  · obtain ⟨hunit, hmem⟩ := unit_of_macIssue (macIssue_halt rfl hend hres hrep h {})
    rw [hunit]
    exact ⟨Mac.advance_pc hrep, rfl, Mac.advance_slices _, hmem⟩
  · obtain ⟨hunit, hmem⟩ := unit_of_macIssue (macIssue_rept rfl hend hres hrep h {})
    rw [hunit]
    refine ⟨?_, hmem, fun hl => ?_, fun hl hc => ?_, fun hl hc => ?_⟩
    · split
      · rfl
      · split <;> rfl
    · rw [if_pos hl]; exact ⟨rfl, hrep⟩
    · rw [if_neg hl, if_pos hc]; exact ⟨rfl, hrep⟩
    · rw [if_neg hl, if_neg hc]; exact ⟨rfl, rfl⟩
  · obtain ⟨hunit, hmem⟩ := unit_of_macIssue (macIssue_setp rfl hend hres hrep h (setpBad_of_pointer hr) {})
    rw [hunit]
    refine ⟨Mac.advance_pc hrep, hmem, fun v => ?_⟩
    rw [Mac.advance_slices, Mac.sliceMap_slices, setpSlice_pointer hr]
    split <;> exact ⟨rfl, rfl, rfl⟩

/-! ## The rows of the MAC instructions (R143, R144, R146, R156) -/

section
variable {s : State} {p : TileIx} {u : Fin 4}

/-- A unit that is to stop does so by the row of any instruction. -/
theorem exec_macStops (h : s.macStops p u = true) {i : Instr} {sel : Nat → Bool}
    (hrow : exec i s = .next (s.macStep p u sel)) : exec i s = .next (s.macStop p u) := by
  rw [hrow, State.macStep, if_pos h]

theorem macNop_stops (h : s.macStops p u = true) : exec (.macNop p u) s = .next (s.macStop p u) := by
  simp [exec, execMacNop, h]

theorem inWord_stops (h : s.macStops p u = true) : exec (.inWord p u) s = .next (s.macStop p u) := by
  simp [exec, execInWord, h]

/-- The source of a closed IN leaves a unit that has not been stopped before (R156). -/
theorem inWord_closed (h : s.inClosed p u = true) : exec (.inWord p u) s = .next (s.macCut p u) := by
  have hstop : s.macStops p u = false := by
    simp only [State.inClosed, Bool.and_eq_true, Bool.not_eq_true'] at h
    obtain ⟨⟨⟨⟨-, hstop⟩, -⟩, -⟩, -⟩ := h
    exact hstop
  simp [exec, execInWord, hstop, h]

section
variable (hstop : s.macStops p u = false)
include hstop

/-- A NOP, a reserved instruction or an end slot is issued by MAC_NOP. -/
theorem macNop_issues
    (hnop : ((s.tile p).mac[u]).endSlot = true ∨ s.macNowReserved p u = true ∨ miOp (s.macNow p u) = 0)
    (hcan : s.macCanIssue p u = true) : exec (.macNop p u) s = .next (s.macIssue p u {}).2 := by
  have hsel : (((s.tile p).mac[u]).endSlot || s.macNowReserved p u || miOp (s.macNow p u) == 0) = true := by
    simpa only [Bool.or_eq_true, beq_iff_eq, or_assoc] using hnop
  simp only [exec, execMacNop, hstop, hsel, hcan]
  rfl

/-- An IN moves its word and issues as one joint move. -/
theorem inWord_moves (hopen : s.inClosed p u = false) {src units : List Nat}
    (hc : s.closure p 14 [] [6 + u.val] = (src, units)) (hok : s.jointOk p src units = true) :
    exec (.inWord p u) s = .next (s.jointMove p src units) := by
  simp [exec, execInWord, hstop, hopen, State.joint, hc, hok]

/-- The row of the instruction at PC issues it; one that meets poison aborts the dispatch. -/
theorem exec_macIssues (hend : ((s.tile p).mac[u]).endSlot = false) (hres : s.macNowReserved p u = false)
    (hcan : s.macCanIssue p u = true) {i : Instr} {op : Nat} (hrow : exec i s = .next (s.macStep p u (· == op)))
    (hop : miOp (s.macNow p u) = op) :
    exec i s = .next (if (s.macIssue p u {}).1 then (s.macIssue p u {}).2.abortTile p 2 else (s.macIssue p u {}).2) := by
  simp only [hrow, State.macStep, hstop, hend, hres, hcan, hop]
  simp

end

/-! ## What falls due (R147, R152) -/

variable (hruns : s.runs p = true)
include hruns

theorem macOutEnqueue_due {w : LinkWord} (hdue : ((s.tile p).mac[u]).drainSlot.due = [.out w])
    (hroom : ((s.tile p).mac[u]).drainSlot.outq.length < 2) (hcons : s.hasConsumer p (26 + u) = true) :
    exec (.macOutEnqueue p u) s = .next (s.setMac p u { ((s.tile p).mac[u]).drainSlot with
      due := [], outq := ((s.tile p).mac[u]).drainSlot.outq ++ [w] }) := by
  simp only [exec, execMacOutEnqueue, hdue, hruns, hroom, hcons]
  rfl

theorem sttTapWrite_due {ws : List TapStore} (hdue : ((s.tile p).mac[u]).drainSlot.due = [.stt ws]) :
    exec (.sttTapWrite p u) s = .next (ws.foldl (fun (s : State) (w : TapStore) =>
      State.tapWrite s p (4 * u.val + w.slice.val) w.word.toNat w.value)
        (s.setMac p u { ((s.tile p).mac[u]).drainSlot with due := [] })) := by
  simp only [exec, execSttTapWrite, hdue, hruns]
  rfl

end

/-- Settles O21: each row issues the instruction of its opcode, or makes what is due. -/
theorem macUnitsIssueAndDeliver : Obligations.MacUnitsIssueAndDeliver := by
  refine ⟨fun s p u hstop => ⟨macNop_issues hstop, fun hopen src units hc hok => inWord_moves hstop hopen hc hok,
      fun hend hres hcan => ?_⟩,
    fun s p u => ⟨fun h => ⟨macNop_stops h, inWord_stops h, exec_macStops h rfl, exec_macStops h rfl⟩, inWord_closed⟩,
    fun s p u hruns => ⟨fun w hdue hroom hcons => macOutEnqueue_due hruns hdue hroom hcons,
      fun ws hdue => sttTapWrite_due hruns hdue⟩⟩
  have hrow {i : Instr} {op : Nat} := exec_macIssues hstop hend hres hcan (i := i) (op := op)
  exact ⟨hrow rfl, hrow rfl, hrow rfl, hrow rfl, hrow rfl, hrow rfl, hrow rfl, hrow rfl, hrow rfl, hrow rfl, hrow rfl,
    hrow rfl⟩

end Sys2Proof.Machine
end

section
/-!
SUPPORT. The arithmetic of an accumulator: clamped and wrapping steps, and stores; with the statement about them (O23).
-/
namespace Sys2Proof.Machine

/-! ## Clamping to signed bits -/

/-- The lower bound never lies above the upper one, so the order of the comparisons does not matter. -/
theorem clampS_eq (n : Nat) (v : Int) : clampS n v = max (-2 ^ (n - 1)) (min (2 ^ (n - 1) - 1) v) := by
  have hpos : (0 : Int) < 2 ^ (n - 1) := Int.pow_pos (by decide)
  unfold clampS sMin sMax
  split
  · omega
  · split <;> omega

/-- A clamp changes exactly the values out of the bounds. -/
theorem clampS_ne_self {n : Nat} {v : Int} : (clampS n v != v) = true ↔ v < -2 ^ (n - 1) ∨ 2 ^ (n - 1) - 1 < v := by
  have hpos : (0 : Int) < 2 ^ (n - 1) := Int.pow_pos (by decide)
  rw [clampS_eq, bne_iff_ne]
  omega

/-! ## WC (R153) -/

theorem moveWc_up {v : AccView} (hheld : v.wcHeld = false) (hmax : v.wc ≠ 31#6) :
    v.moveWc true = { v with wc := v.wc + 1 } := by
  simp [AccView.moveWc, hheld, hmax]

theorem moveWc_down {v : AccView} (hheld : v.wcHeld = false) (hmin : v.wc ≠ 32#6) :
    v.moveWc false = { v with wc := v.wc - 1 } := by
  simp [AccView.moveWc, hheld, hmin]

/-- Short of its limits WC counts without wrapping. -/
theorem toInt_add_one {w : BitVec 6} (h : w ≠ 31#6) : (w + 1).toInt = w.toInt + 1 := by
  revert w; decide

theorem toInt_sub_one {w : BitVec 6} (h : w ≠ 32#6) : (w - 1).toInt = w.toInt - 1 := by
  revert w; decide

/-! ## An accumulating step (R153) -/

/-- What ACC keeps of a sum (R153). -/
theorem toInt_ofInt_40 (t : Int) : (BitVec.ofInt 40 t).toInt = (t + 2 ^ 39) % 2 ^ 40 - 2 ^ 39 := by
  rw [BitVec.toInt_ofInt, Int.bmod_def]
  omega

section
variable (v : AccView) (p : Int)

theorem step_sat_acc : (v.step true p).acc.toInt = clampS 40 (v.acc.toInt + p) := by
  have hb : -2 ^ 39 ≤ clampS 40 (v.acc.toInt + p) ∧ clampS 40 (v.acc.toInt + p) ≤ 2 ^ 39 - 1 := by
    rw [clampS_eq]
    omega
  simp only [AccView.step, if_true, toInt_ofInt_40]
  omega

theorem step_sat_lostD :
    (v.step true p).lostD = true ↔ v.lostD = true ∨ v.acc.toInt + p < -2 ^ 39 ∨ 2 ^ 39 - 1 < v.acc.toInt + p := by
  simp only [AccView.step, if_true, Bool.or_eq_true, clampS_ne_self]

end

section
variable {v : AccView} {p : Int}

/-- A sum within the bounds: WC stays. -/
theorem step_wrap_inside (hlo : -2 ^ 39 ≤ v.acc.toInt + p) (hhi : v.acc.toInt + p ≤ 2 ^ 39 - 1) :
    v.step false p = { v with acc := BitVec.ofInt 40 (v.acc.toInt + p) } := by
  have htop : ¬v.acc.toInt + p > sMax 40 := Int.not_lt.mpr hhi
  have hbottom : ¬v.acc.toInt + p < sMin 40 := Int.not_lt.mpr hlo
  simp only [AccView.step, Bool.false_eq_true, if_false, if_neg htop, if_neg hbottom]

variable (hheld : v.wcHeld = false)
include hheld

/-- A sum past the top: WC moves up. -/
theorem step_wrap_top (hmax : v.wc ≠ 31#6) (h : 2 ^ 39 - 1 < v.acc.toInt + p) :
    v.step false p = { v with acc := BitVec.ofInt 40 (v.acc.toInt + p), wc := v.wc + 1 } := by
  have htop : v.acc.toInt + p > sMax 40 := h
  simp only [AccView.step, Bool.false_eq_true, if_false, if_pos htop]
  exact moveWc_up hheld hmax

/-- A sum past the bottom: WC moves down. -/
theorem step_wrap_bottom (hmin : v.wc ≠ 32#6) (h : v.acc.toInt + p < -2 ^ 39) :
    v.step false p = { v with acc := BitVec.ofInt 40 (v.acc.toInt + p), wc := v.wc - 1 } := by
  have hbottom : v.acc.toInt + p < sMin 40 := h
  have htop : ¬v.acc.toInt + p > sMax 40 := by unfold sMax; omega
  simp only [AccView.step, Bool.false_eq_true, if_false, if_neg htop, if_pos hbottom]
  exact moveWc_down hheld hmin

/-- The multiple of 2^40 that the sum loses is the step that WC takes. -/
theorem step_wrap_exact (hmax : v.wc ≠ 31#6) (hmin : v.wc ≠ 32#6) (hlo : -2 ^ 39 ≤ p) (hhi : p < 2 ^ 39) :
    (v.step false p).acc.toInt + 2 ^ 40 * (v.step false p).wc.toInt = v.acc.toInt + 2 ^ 40 * v.wc.toInt + p ∧
      (v.step false p).lostD = v.lostD := by
  have hacc : v.acc.toInt < 2 ^ 39 := v.acc.toInt_lt
  have hacc' : -2 ^ 39 ≤ v.acc.toInt := v.acc.le_toInt
  by_cases htop : 2 ^ 39 - 1 < v.acc.toInt + p
  · simp only [step_wrap_top hheld hmax htop, toInt_ofInt_40, toInt_add_one hmax, and_true]
    omega
  · by_cases hbottom : v.acc.toInt + p < -2 ^ 39
    · simp only [step_wrap_bottom hheld hmin hbottom, toInt_ofInt_40, toInt_sub_one hmin, and_true]
      omega
    · simp only [step_wrap_inside (Int.not_lt.mp hbottom) (Int.not_lt.mp htop), toInt_ofInt_40, and_true]
      omega

end

/-! ## A store (R154) -/

/-- Rounding half up by 2^k is the floor of the doubled quotient. -/
theorem roundShift_eq (x : Int) (k : Nat) : roundShift x k = if k = 0 then x else (2 * x + 2 ^ k) / 2 ^ (k + 1) := by
  unfold roundShift
  split
  · rfl
  · next hk =>
    obtain ⟨j, rfl⟩ := Nat.exists_eq_succ_of_ne_zero hk
    have h2 : (2 : Int) * x + 2 ^ (j + 1) = 2 * (x + 2 ^ j) := by omega
    have h3 : (2 : Int) ^ (j + 1 + 1) = 2 * 2 ^ (j + 1) := by omega
    rw [h2, h3, Int.mul_ediv_mul_of_pos _ _ (by decide)]
    rfl

section
variable {v : AccView} (n k : Nat)

theorem store_of_wc_zero (h : v.wc = 0) :
    v.store n k = (clampS n (roundShift v.acc.toInt k), clampS n (roundShift v.acc.toInt k) != roundShift v.acc.toInt k) := by
  simp [AccView.store, h]

theorem store_of_wc_pos (h : 0 < v.wc.toInt) : v.store n k = (2 ^ (n - 1) - 1, true) := by
  have hne : v.wc ≠ 0 := fun e => by simp [e] at h
  have hmsb : v.wc.msb = false := by rw [BitVec.msb_eq_toInt, decide_eq_false_iff_not]; omega
  rw [AccView.store, if_pos hne, hmsb]
  rfl

theorem store_of_wc_neg (h : v.wc.toInt < 0) : v.store n k = (-2 ^ (n - 1), true) := by
  have hne : v.wc ≠ 0 := fun e => by simp [e] at h
  have hmsb : v.wc.msb = true := by rw [BitVec.msb_eq_toInt, decide_eq_true_iff]; exact h
  rw [AccView.store, if_pos hne, hmsb]
  rfl

end

/-- Settles O23: a step is exact up to the clamp or to what WC counts, a store rounds half up and clamps. -/
theorem accumulatorsAndStores : Obligations.AccumulatorsAndStores := by
  refine ⟨fun v p hlo hhi => ⟨⟨?_, rfl, step_sat_lostD v p⟩,
      fun hheld hmax hmin => step_wrap_exact hheld hmax hmin hlo hhi⟩,
    fun v n k _ _ => ⟨fun hwc => ?_, store_of_wc_pos n k, store_of_wc_neg n k⟩⟩
  · rw [step_sat_acc, clampS_eq]
  · rw [store_of_wc_zero n k hwc, ← roundShift_eq]
    exact ⟨clampS_eq n _, clampS_ne_self⟩

end Sys2Proof.Machine
end

section
/-!
SUPPORT. A request from outside that its target serves: what it finds there, by the kind of its address, and the row that
brings it; with the statement about them (O37).
-/
namespace Sys2Proof.Machine

/-! ## What a target answers (R286) -/

section
variable {s : State} {k : Packet}

theorem serveRequest_csr (h : areaOf (k.addr % 2 ^ 44) = .csr) {v : Nat × List Byte × Nat × State}
    (hv : s.csrServe k = some v) :
    s.serveRequest k = some (v.2.2.2.answer k v.1 v.2.1 v.2.2.1).pump := by
  simp only [State.serveRequest, h, hv]
  rfl

theorem serveRequest_dram (h : areaOf (k.addr % 2 ^ 44) = .dram) (hc : s.memCheck k = (none, s))
    (hroom : s.localRoom k = true) :
    s.serveRequest k = some (s.dramAccept k) := by
  simp only [State.serveRequest, h, hc, hroom, if_true]

theorem serveRequest_dram_refused (h : areaOf (k.addr % 2 ^ 44) = .dram) {st : Nat} {w : State}
    (hc : s.memCheck k = (some st, w)) :
    s.serveRequest k = some (w.answer k (turnedAway k st).1 (turnedAway k st).2.1 (turnedAway k st).2.2).pump := by
  simp only [State.serveRequest, h, hc]

/-- Any other memory serves it whole. -/
theorem serveRequest_memory (hcsr : areaOf (k.addr % 2 ^ 44) ≠ .csr) (hdram : areaOf (k.addr % 2 ^ 44) ≠ .dram) :
    s.serveRequest k =
      some ((s.memServe k).2.2.2.answer k (s.memServe k).1 (s.memServe k).2.1 (s.memServe k).2.2.1).pump := by
  unfold State.serveRequest
  split
  · exact absurd ‹_› hcsr
  · exact absurd ‹_› hdram
  · rfl

end

/-! ## The rows that bring a request from outside (R141, R294) -/

section
variable {s t : State} {r : MeshReq} {opc d sub : Nat} (harr : s.mesh.arrived = [])
  (hdest : s.destOf r.addr.toNat = some (d, sub))
include harr hdest

theorem takeRequest_of_destOf : s.takeRequest r opc = (requestPacket r opc d, s) := by
  rw [takeRequest_outside harr, hdest]
  rfl

variable (hproxy : s.proxy (portRouter d) (portNumber d) (requestPacket r opc d) = 0)
  (hserve : s.serveRequest (requestPacket r opc d) = some t)
include hproxy hserve

section
variable (hgrant : (s.memCheck (requestPacket r opc d)).1 ≠ none ∨ s.granted (requestPacket r opc d) r.waited = true)
include hgrant

/-- A request that no proxy stops and that its memory grants or turns away is served. -/
theorem request_served (f : Packet → State → State → State) : s.request r opc f = f (requestPacket r opc d) s t := by
  have hwait : ((s.memCheck (requestPacket r opc d)).1.isNone && !s.granted (requestPacket r opc d) r.waited) = false := by
    rcases hgrant with h | h
    · rw [Option.isNone_eq_false_iff.mpr (Option.isSome_iff_ne_none.mpr h), Bool.false_and]
    · rw [h, Bool.not_true, Bool.and_false]
  have hproxy' : s.proxy (portRouter (requestPacket r opc d).dst) (portNumber (requestPacket r opc d).dst)
      (requestPacket r opc d) = 0 := hproxy
  simp only [State.request, takeRequest_of_destOf harr hdest, hproxy', hserve, hwait, ite_self]
  rfl

/-- The row of a bit-set or bit-clear address brings a write through it (R310). -/
theorem aliased_served (hopc : opc = 2) {i : Instr} {ali : Nat} (hrow : exec i s = .next (s.aliased r ali))
    (hali : r.addr.toNat / 2 ^ 44 = ali) : exec i s = .next t := by
  subst hopc
  rw [hrow, State.aliased, if_pos hali, request_served harr hdest hproxy hserve hgrant]

/-- The row of an ATOM brings one of its own AOP (R312). -/
theorem atom_served (hopc : opc = 3) {i : Instr} {aop : Nat} (hrow : exec i s = .next (s.atom r aop))
    (haop : (r.data.getD 0 0).toNat = aop) : exec i s = .next t := by
  subst hopc
  have hown : ((s.takeRequest r 3).1.data.getD 0 0).toNat = aop := by
    rw [takeRequest_of_destOf harr hdest]
    exact haop
  simp only [hrow, State.atom, hown, true_or, if_true, request_served harr hdest hproxy hserve hgrant]

end

/-- TAP_STEAL serves a request at the unit's own tap memory, and a unit that would issue loses its slot (R141). -/
theorem tapSteal_served {p : TileIx} {v : Fin 4} (hopc : opc = if r.data.isEmpty then 1 else 2)
    (harea : areaOf r.addr.toNat = .tap p.val) (hunit : r.addr.toNat % 0x4000 / 0x1000 = v.val) (hawake : s.awake p = true)
    (hcheck : (s.memCheck (requestPacket r opc d)).1 = none) (hgrant : s.granted (requestPacket r opc d) true = true) :
    exec (.tapSteal p v r) s = .next (t.steal p v) := by
  have hlate : s.request { r with waited := true } opc (fun _ _ s => s) = t :=
    request_served (r := { r with waited := true }) harr hdest hproxy hserve (.inr hgrant) _
  have htake : s.takeRequest { r with waited := true } opc = (requestPacket r opc d, s) :=
    takeRequest_of_destOf (r := { r with waited := true }) harr hdest
  simp only [exec, execTapSteal, ← hopc, harea, hunit, hawake, hlate, htake, hcheck, hgrant]
  simp

end

/-- Without an access of port A a mesh write keeps its words (R309). -/
theorem keepPortA_nil (k : Packet) (s0 s : State) : keepPortA [] k s0 s = s := by
  have hnone (xs : List (Nat × Nat)) : (xs.filter fun x => ([] : List (Fin 65)).any fun i => i.val == x.2) = [] :=
    List.filter_eq_nil_iff.mpr fun _ _ => Bool.false_ne_true
  simp only [keepPortA, hnone, ite_self, List.foldl_nil]

/-- Settles O37: what the target answers goes by the kind of the address; each row brings the request to it. -/
theorem targetsServeRequests : Obligations.TargetsServeRequests := by
  intro s r opc d sub
  dsimp only
  refine ⟨⟨serveRequest_memory (k := requestPacket r opc d), serveRequest_dram (k := requestPacket r opc d),
      fun st w h hc => serveRequest_dram_refused h hc, fun v h hv => serveRequest_csr h hv⟩,
    fun harr hdest hproxy t hserve => ⟨?_, fun hgrant => ?_⟩⟩
  · intro p v hopc harea hunit hawake hcheck hgrant
    have hsteal := tapSteal_served harr hdest hproxy hserve hopc harea hunit hawake hcheck hgrant
    exact ⟨fun h => hsteal.trans (by rw [State.steal, if_pos h]),
      fun h => hsteal.trans (by rw [State.steal, if_neg (by simp [h])])⟩
  · have hreq := request_served harr hdest hproxy hserve hgrant
    refine ⟨?_, fun hopc => ⟨?_, ?_, ?_, ?_⟩, fun hopc => ?_⟩
    · rintro rfl
      exact congrArg Host.Outcome.next (hreq _)
    · subst hopc
      exact fun ws => congrArg Host.Outcome.next (hreq (keepPortA ws))
    · subst hopc
      exact congrArg Host.Outcome.next ((hreq (keepPortA [])).trans (keepPortA_nil ..))
    · exact aliased_served harr hdest hproxy hserve hgrant hopc rfl
    · exact aliased_served harr hdest hproxy hserve hgrant hopc rfl
    · have hrow {i : Instr} {aop : Nat} := atom_served harr hdest hproxy hserve hgrant hopc (i := i) (aop := aop)
      exact ⟨hrow rfl, hrow rfl, hrow rfl, hrow rfl, hrow rfl, hrow rfl, hrow rfl, hrow rfl⟩

end Sys2Proof.Machine
end

section
/-!
SUPPORT. Dequeue endpoints: the rows of a ring on their way between gather row, bank and read rows, and reads of DEQ_POP;
with the statement about them (O24).
-/
namespace Sys2Proof.Machine

/-! ## What an endpoint's control word is read from (R102, R108) -/

/-- A field of the active context depends on the memories, the hot slots and which of them is active. -/
theorem ctx_congr {s t : State} {p : Nat} (hmem : t.mem = s.mem) (hhot : (t.tile p).hot = (s.tile p).hot)
    (hslot : (t.tile p).hotSlot = (s.tile p).hotSlot) (o n : Nat) : t.ctx p o n = s.ctx p o n := by
  unfold State.ctx State.format Tile.hotAt
  rw [hmem, hhot, hslot]

/-- So does a dequeue endpoint's control word. -/
theorem deqCtl_congr {s t : State} {p : Nat} (hmem : t.mem = s.mem) (hhot : (t.tile p).hot = (s.tile p).hot)
    (hslot : (t.tile p).hotSlot = (s.tile p).hotSlot) (k : Nat) : t.deqCtl p k = s.deqCtl p k := by
  simp only [State.deqCtl, State.deqRaw, ctx_congr hmem hhot hslot]

theorem setDeq_tile_same (s : State) (p : Nat) (k : Fin 4) (d : Deq) :
    (s.setDeq p k d).tile p = (s.tile p).setDeq k d := s.updTile_tile_same p _

@[simp] theorem setDeq_deqCtl (s : State) (p : Nat) (k : Fin 4) (d : Deq) (j : Nat) :
    (s.setDeq p k d).deqCtl p j = s.deqCtl p j := by
  have hmem : (s.setDeq p k d).mem = s.mem := rfl
  have htile := setDeq_tile_same s p k d
  exact deqCtl_congr hmem (by rw [htile, Tile.setDeq]) (by rw [htile, Tile.setDeq]) j

@[simp] theorem tellOwner_tile (s : State) (src q : Nat) (e : Event) (i : Nat) :
    (s.tellOwner src q e).tile i = s.tile i := by
  have htiles := congrArg State.tiles (tellOwner_frame s src q e)
  exact congrArg (tget {} · i) htiles

/-- Sticky bits of a tile change nothing else of it. -/
theorem stick_tile_same (s : State) (p : Nat) (b : BitVec 32) :
    ∃ x, (s.stick p b).tile p = { s.tile p with sticky := x } := by
  unfold State.stick
  simp only
  split
  · exact ⟨_, rfl⟩
  · exact ⟨_, (tellOwner_tile ..).trans (s.updTile_tile_same p _)⟩

@[simp] theorem stick_mem (s : State) (p : Nat) (b : BitVec 32) : (s.stick p b).mem = s.mem := by
  simpa only using congrArg State.mem (stick_frame s p b)

@[simp] theorem stick_deqCtl (s : State) (p : Nat) (b : BitVec 32) (j : Nat) : (s.stick p b).deqCtl p j = s.deqCtl p j := by
  obtain ⟨x, htile⟩ := stick_tile_same s p b
  exact deqCtl_congr (stick_mem s p b) (by rw [htile]) (by rw [htile]) j

/-! ## Rows of a ring on their way (R164, R166, R167, R309) -/

section
variable {s : State} {p : TileIx} {k : Fin 4} {d : Deq} (hd : (s.tile p).deq[k] = d)
include hd

/-- A full gather row goes to its bank when the bank grants it. -/
theorem ringRowWrite_stores (hmove : s.moving p = true) (hwant : d.wantsWrite = true)
    (hgrant : s.ringGranted p d.geom.bank k false = true) :
    exec (.ringRowWrite p ⟨k, false⟩) s =
      .next ((s.writeRing p d).setDeq p k { d with gather := [], inBank := d.inBank + d.gather.length }) := by
  simp [exec, execRingRowWrite, hd, hmove, hwant, hgrant]

/-- The oldest row of the bank region leaves it when the bank grants the read. -/
theorem ringRowRead_takes (hmove : s.moving p = true) (hwant : d.wantsRead = true)
    (hgrant : s.ringGranted p d.geom.bank k true = true) :
    exec (.ringRowRead p k) s = .next ((s.readRing p d (min 4 d.inBank)).2.setDeq p k
      { d with landing := (s.readRing p d (min 4 d.inBank)).1, inBank := d.inBank - min 4 d.inBank }) := by
  simp [exec, execRingRowRead, hd, hmove, hwant, hgrant]

/-- A row on its way lands behind the read rows, and gather-row words may follow it there. -/
theorem ringRowArrive_lands (hmove : s.moving p = true) :
    exec (.ringRowArrive p k) s =
      .next ((s.setDeq p k { d with rows := d.rows ++ d.landing, landing := [] }.straighten).deqTouch p k) := by
  simp [exec, execRingRowArrive, hd, hmove]

/-- A held geometry takes effect in an empty queue, whose next word goes to position 0 (log entry 86). -/
theorem deqGeometryApply_held {g : DeqGeom} (hheld : d.held = some g) (hempty : d.depth = 0) :
    exec (.deqGeometryApply p k) s =
      .next ((s.setDeq p k { d with geom := g, held := none, pos := 0 }).deqTouch p k) := by
  simp [exec, execDeqGeometryApply, hd, hheld, hempty]

end

/-- P_1's write of word `a` of the exchange bank comes first, and is lost with DP_CONFLICT when the row holds that word. -/
theorem ringRowWrite_portB {s s' : State} {p : TileIx} {k : Fin 4} {d : Deq} {a : Nat} (hport : s.portBWrite p = some a)
    (hs : s.joint p [] [5] = s') (hd : (s'.tile p).deq[k] = d) (hmove : s'.moving p = true) (hwant : d.wantsWrite = true)
    (hgrant : s'.ringGranted p d.geom.bank k false = true) :
    exec (.ringRowWrite p ⟨k, true⟩) s =
      .next (State.setDeq (if d.geom.bank = 0 ∧ a ∈ d.rowWords then (s'.writeRing p d).stick p dpConflict else s'.writeRing p d)
        p k { d with gather := [], inBank := d.inBank + d.gather.length }) := by
  simp [exec, execRingRowWrite, hport, hs, hd, hmove, hwant, hgrant]

/-! ## Reads of DEQ_POP (R171 to R173, R181) -/

/-- POP_FLAGS of a word: LAST, POISON and whether the read underran. -/
def LinkWord.popFlags (w : LinkWord) (under : Bool) : BitVec 32 :=
  BitVec.ofNat 32 (bit w.last + 2 * bit w.poison + 4 * bit under)

/-- The endpoint after an underrun. -/
def Deq.underrun (d : Deq) : Deq := { d with popFlags := d.popped.popFlags true, underruns := d.underruns + 1 }

/-- A head word that lies in the read rows is found there, fence or not (log entry 88). -/
theorem deqHead_of_rows {s : State} {p : Nat} {k : Fin 4} {d : Deq} (hd : (s.tile p).deq[k] = d) (h : d.rows ≠ []) :
    s.deqHead p k = (d, s) := by
  simp [State.deqHead, hd, h]

theorem Deq.depth_ne_zero_of_rows {d : Deq} (h : d.rows ≠ []) : d.depth ≠ 0 := by
  have hlen : 0 < d.rows.length := List.length_pos_iff.mpr h
  unfold Deq.depth
  omega

section
variable {s : State} {p : TileIx} {k : Fin 4} {d : Deq} (hawake : s.awake p = true) (hfence : s.cupFenced p = false)
  (hd : (s.tile p).deq[k] = d)
include hawake hfence hd

/-- A read of an empty or disabled endpoint underruns. -/
theorem deqPopRead_underruns (h : (s.deqCtl p k).en = false ∨ d.depth = 0) (waited pushed : Bool) {t : State}
    (ht : t = (s.setDeq p k d.underrun).stick p (underrunBit k)) :
    exec (.deqPopRead p k ⟨waited, pushed⟩) s = .next { (if pushed then t.joint p [(s.deqCtl p k).src] [] else t) with
      readOut := leBytes 4 d.popped.data.toNat } := by
  have hunder : (!(s.deqCtl p k).en || d.depth == 0) = true := by simpa using h
  have hpop : s.deqPop p k waited pushed =
      some (d.popped.data, if pushed then t.joint p [(t.deqCtl p k).src] [] else t) := by
    subst ht
    simp only [State.deqPop, hawake, hfence, hd, hunder]
    rfl
  have hctl : t.deqCtl p k = s.deqCtl p k := by rw [ht, stick_deqCtl, setDeq_deqCtl]
  simp only [exec, execDeqPopRead, hpop, hctl]

/-- A read that has waited 16 cycles pops the head word of the read rows (R173); under a fence nothing else moves. -/
theorem deqPopRead_pops (hen : (s.deqCtl p k).en = true) {w : LinkWord} {r : List LinkWord} (hrows : d.rows = w :: r)
    (pushed : Bool) :
    exec (.deqPopRead p k ⟨true, pushed⟩) s = .next { ((s.setDeq p k
        { (if (s.tile p).fenced then d.popHead else d.pop) with popFlags := w.popFlags false }).pushToo p k pushed) with
      readOut := leBytes 4 w.data.toNat } := by
  have hne : d.rows ≠ [] := by simp [hrows]
  have hdepth : (!(s.deqCtl p k).en || d.depth == 0) = false := by simp [hen, Deq.depth_ne_zero_of_rows hne]
  have hhead : s.deqHead p k = (d, s) := deqHead_of_rows hd hne
  have hpop : s.deqPop p k true pushed = some (w.data, (s.setDeq p k
      { (if (s.tile p).fenced then d.popHead else d.pop) with popFlags := w.popFlags false }).pushToo p k pushed) := by
    simp only [State.deqPop, hawake, hfence, hd, hdepth, hhead, hrows]
    rfl
  simp only [exec, execDeqPopRead, hpop]

end

/-- Settles O24: each row moves its words under its conditions; a read of DEQ_POP underruns, or pops the head word. -/
theorem ringsMoveRowsAndPop : Obligations.RingsMoveRowsAndPop := by
  refine ⟨fun s p k => ⟨ringRowWrite_stores rfl, fun a hport => ringRowWrite_portB hport rfl rfl, ringRowRead_takes rfl,
      ringRowArrive_lands rfl, fun g => deqGeometryApply_held rfl⟩,
    fun s p k waited pushed hawake hfence => ⟨fun h => ?_, fun w r hen hrows => ?_⟩⟩
  · exact deqPopRead_underruns hawake hfence rfl h waited pushed rfl
  · exact deqPopRead_pops hawake hfence rfl hen hrows pushed

end Sys2Proof.Machine
end

section
/-!
SUPPORT. The dispatcher's flags, timers and readiness, and the ages of READY tasks; with the statement about them (O25).
-/
namespace Sys2Proof.Machine

/-! ## Flag sets at a dispatcher in Brew (R189 to R192, R208) -/

section
variable {s : State} {t f q k : Nat}

/-- A timer's or TASK_SIGNAL's flag, or one from the task's own partition, is set. -/
theorem arriveFlag_sets (h : k = 0 ∨ (s.task t).st.owner = q) :
    s.arriveFlag t f q k = s.setFlags t (1#32 <<< (f % 32)) := by
  have hkeep : ¬(k ≠ 0 ∧ (s.task t).st.owner ≠ q) := fun ⟨hk, ho⟩ => h.elim hk ho
  rw [State.arriveFlag, if_neg hkeep]

/-- Another partition's flag for a task of dispatcher `n` is dropped there. -/
theorem arriveFlag_drops {n : Nat} (hn : t / 2048 = n) (hk : k ≠ 0) (h : (s.task t).st.owner ≠ q) :
    s.arriveFlag t f q k = s.dispatchDrop n t k := by
  rw [State.arriveFlag, if_pos ⟨hk, h⟩, hn]

end

section
variable {s : State} {n : SecIx} (hbrew : (s.sector n).pstate = .brew)
include hbrew

theorem signalFlag_brew (f : Nat × Nat × Nat × Nat) (now : State → State) : s.signalFlag n f now = now s := by
  rw [State.signalFlag, if_pos hbrew]

theorem dispatcherFlagSet_arrives {t f q k : Nat} {r : List (Nat × Nat × Nat × Nat)}
    (h : (s.sector n).flagsIn = (t, f, q, k) :: r) :
    exec (.dispatcherFlagSet n) s = .next ((s.updSector n fun x => { x with flagsIn := r }).arriveFlag t f q k) := by
  have hbrew' : ((s.updSector n fun x => { x with flagsIn := r }).sector n).pstate = .brew := by
    rw [State.updSector_sector_same]
    exact hbrew
  simp only [exec, execDispatcherFlagSet, h, signalFlag_brew hbrew']

theorem notifyArrive_arrives {x : Notify} (h : s.notifies.find? (fun x => x.task / 2048 == n.val) = some x) :
    exec (.notifyArrive n) s =
      .next (State.arriveFlag { s with notifies := s.notifies.erase x } x.task x.flag x.part 2) := by
  simp only [exec, execNotifyArrive, h, signalFlag_brew (s := { s with notifies := s.notifies.erase x }) hbrew]

theorem flagsSetWrite_sets {t : TaskIx} (ht : t.val / 2048 = n.val) (w : Word) :
    exec (.flagsSetWrite t w) s = .next (s.setFlags t w) := by
  simp only [exec, execFlagsSetWrite, ht, hbrew, if_true]

/-- A timer that is due starts again, a one-shot one without EN, and sets its target's flag. -/
theorem timerFire_due {i : Fin 16} {m : Timer} (hm : tget {} (s.sector n).timers i = m) (hdue : m.due = true) :
    exec (.timerFire n i) s = .next ((s.updSector n fun x => { x with timers := tset {} x.timers i { m with
        cfg := if m.cfg.getLsbD 30 then m.cfg else m.cfg &&& 0x7FFFFFFF#32, count := 0 } }).setFlags
      (2048 * n.val + m.tgt.toNat % 2048) (1#32 <<< (field m.tgt.toNat 16 5 % 32))) := by
  simp only [exec, execTimerFire, hm, hdue, if_true]
  rw [signalFlag_brew (by rw [State.updSector_sector_same]; exact hbrew), arriveFlag_sets (.inl rfl)]

/-- An ARMED task whose condition holds becomes READY under the dispatcher's next sequence number (R194, R197, R203). -/
theorem taskReady_readies {t : TaskIx} (ht : t.val / 2048 = n.val) (harmed : (s.task t).state = .armed)
    (hcond : s.condition t = true) :
    exec (.taskReady t) s = .next ((s.updSector n fun x => { x with seqCtr := x.seqCtr + 1 }).setTask t
      { s.task t with state := .ready, seq := (s.sector n).seqCtr, age := 0, urgent := false }) := by
  simp only [exec, execTaskReady, ht, hbrew, harmed, hcond, and_self, if_true]
  rfl

end

theorem Timer.due_iff (m : Timer) :
    m.due = true ↔ m.cfg.getLsbD 31 = true ∧ m.cfg.toNat % 65536 ≠ 0 ∧ m.cfg.toNat % 65536 ≤ m.count := by
  simp [Timer.due, and_assoc]

/-! ## The entries of a table -/

section
variable {α : Type} (d : α)

/-- A value other than the default is read from an entry. -/
theorem mem_of_tget_ne {t : Tab α} {k : Nat} (h : tget d t k ≠ d) : (k, tget d t k) ∈ t := by
  induction t with
  | nil => exact absurd rfl h
  | cons e r ih =>
    obtain ⟨j, v⟩ := e
    by_cases hj : j = k
    · simp [tget, hj]
    · rw [tget, if_neg hj] at h ⊢
      exact List.mem_cons_of_mem _ (ih h)

/-- When no key occurs twice, an entry is what its key reads. -/
theorem tget_of_mem {t : Tab α} (hn : (t.map Prod.fst).Nodup) {k : Nat} {v : α} (h : (k, v) ∈ t) : tget d t k = v := by
  induction t with
  | nil => exact absurd h List.not_mem_nil
  | cons e r ih =>
    obtain ⟨j, w⟩ := e
    obtain ⟨hj, hr⟩ := List.nodup_cons.mp hn
    rcases List.mem_cons.mp h with he | he
    · obtain ⟨rfl, rfl⟩ := Prod.mk.inj he
      simp [tget]
    · have hne : j ≠ k := fun e => hj (List.mem_map.mpr ⟨(k, v), he, e.symm⟩)
      rw [tget, if_neg hne, ih hr he]

/-- Keys above `lo` rise from it. -/
theorem pairwise_of_keysAbove {lo : Nat} {t : Tab α} (h : keysAbove lo t = true) :
    (lo :: t.map Prod.fst).Pairwise (· < ·) := by
  induction t generalizing lo with
  | nil => exact List.pairwise_singleton _ lo
  | cons e r ih =>
    simp only [keysAbove, Bool.and_eq_true, decide_eq_true_eq] at h
    obtain ⟨hlo, hr⟩ := h
    refine List.pairwise_cons.mpr ⟨fun k hk => ?_, ih hr⟩
    rcases List.mem_cons.mp hk with rfl | hk
    · exact hlo
    · exact Nat.lt_trans hlo (List.rel_of_pairwise_cons (ih hr) hk)

theorem nodup_keys_of_canonical [DecidableEq α] {t : Tab α} (h : canonical d t = true) : (t.map Prod.fst).Nodup := by
  cases t with
  | nil => exact List.nodup_nil
  | cons e r =>
    obtain ⟨hk, -⟩ := (canonical_cons d e.1 e.2 r).mp h
    exact (pairwise_of_keysAbove hk).imp Nat.ne_of_lt

end

/-! ## READY tasks and their ages (R197, R203) -/

section
variable {s : State} (hc : canonical {} s.tasks = true)
include hc

theorem mem_readyTasks {q n k : Nat} :
    k ∈ s.readyTasks q n ↔ k / 2048 = n ∧ (s.task k).state = .ready ∧ (s.task k).st.owner = q := by
  simp only [State.readyTasks, List.mem_map, List.mem_filter, Bool.and_eq_true, beq_iff_eq, Prod.exists, exists_and_right,
    exists_eq_right]
  constructor
  · rintro ⟨v, hm, ⟨hn, hr⟩, hq⟩
    have hv : s.task k = v := tget_of_mem (d := ({} : Task)) (nodup_keys_of_canonical _ hc) hm
    rw [hv]
    exact ⟨hn, hr, hq⟩
  · rintro ⟨hn, hr, hq⟩
    have hne : s.task k ≠ {} := fun h => by
      rw [h] at hr
      cases hr
    exact ⟨s.task k, mem_of_tget_ne (d := ({} : Task)) (k := k) hne, ⟨hn, hr⟩, hq⟩

theorem nodup_readyTasks (q n : Nat) : (s.readyTasks q n).Nodup :=
  (nodup_keys_of_canonical {} hc).sublist (List.filter_sublist.map _)

end

/-- The READY tasks of every partition at a dispatcher. -/
def State.readyAll (s : State) (n : Nat) : List Nat := (List.range 16).flatMap fun q => s.readyTasks q n

theorem mem_readyAll {s : State} (hc : canonical {} s.tasks = true) {n k : Nat} :
    k ∈ s.readyAll n ↔ k / 2048 = n ∧ (s.task k).state = .ready ∧ (s.task k).st.owner < 16 := by
  simp only [State.readyAll, List.mem_flatMap, List.mem_range, mem_readyTasks hc]
  constructor
  · rintro ⟨q, hlt, hn, hr, rfl⟩
    exact ⟨hn, hr, hlt⟩
  · rintro ⟨hn, hr, hlt⟩
    exact ⟨_, hlt, hn, hr, rfl⟩

/-- Each stands there once: it has one owner. -/
theorem nodup_readyAll {s : State} (hc : canonical {} s.tasks = true) (n : Nat) : (s.readyAll n).Nodup := by
  refine List.pairwise_flatMap.mpr ⟨fun q _ => nodup_readyTasks hc q n, List.nodup_range.imp fun {q q'} hne => ?_⟩
  rintro k hk _ hk' rfl
  obtain ⟨-, -, ho⟩ := (mem_readyTasks hc).mp hk
  obtain ⟨-, -, ho'⟩ := (mem_readyTasks hc).mp hk'
  exact hne (ho.symm.trans ho')

/-- The tasks of a list age by one tick, each with the URG that `u` gives its owner. -/
def State.tickTasks (s : State) (u : Nat → Nat) (ts : List Nat) : State :=
  ts.foldl (fun s t => State.updTask s t (Task.tick (u (State.task s t).st.owner))) s

/-- Aging changes the task entries alone. -/
theorem tickTasks_frame (s : State) (u : Nat → Nat) (ts : List Nat) : { s.tickTasks u ts with tasks := s.tasks } = s := by
  induction ts generalizing s with
  | nil => rfl
  | cons t ts ih => exact congrArg (fun w : State => { w with tasks := s.tasks }) (ih (s.updTask t _))

@[simp] theorem tickTasks_mem (s : State) (u : Nat → Nat) (ts : List Nat) : (s.tickTasks u ts).mem = s.mem := by
  have hmem := congrArg State.mem (tickTasks_frame s u ts)
  exact hmem

@[simp] theorem tickTasks_sector (s : State) (u : Nat → Nat) (ts : List Nat) (n : Nat) :
    (s.tickTasks u ts).sector n = s.sector n := by
  have hsectors := congrArg State.sectors (tickTasks_frame s u ts)
  exact congrArg (tget {} · n) hsectors

/-- A task that the list names once ages once. -/
theorem tickTasks_task (s : State) (u : Nat → Nat) {ts : List Nat} (hn : ts.Nodup) (k : Nat) :
    (s.tickTasks u ts).task k = if k ∈ ts then (s.task k).tick (u (s.task k).st.owner) else s.task k := by
  induction ts generalizing s with
  | nil => rfl
  | cons t ts ih =>
    obtain ⟨ht, hts⟩ := List.nodup_cons.mp hn
    have hstep := ih (s.updTask t (Task.tick (u (s.task t).st.owner))) hts
    rw [State.updTask_task] at hstep
    by_cases hk : k = t
    · subst hk
      rw [if_neg ht, if_pos rfl] at hstep
      rw [if_pos List.mem_cons_self]
      exact hstep
    · rw [if_neg hk] at hstep
      exact hstep.trans (by simp [hk])

theorem ageTick_ticks {s : State} {n : SecIx} (hbrew : (s.sector n).pstate = .brew) :
    exec (.ageTick n) s = .next ((s.updSector n fun x => { x with agePhase := 0 }).tickTasks
      (s.sector n).urgOf (s.readyAll n)) := by
  have hlist (w : State) : w.readyTasks 0 n ++ ((List.range 15).flatMap fun q => w.readyTasks (q + 1) n) = w.readyAll n := by
    rw [State.readyAll, List.range_succ_eq_map (n := 15), List.flatMap_cons, List.flatMap_map]
  simp only [exec, execAgeTick, hbrew, ne_eq, not_true_eq_false, if_false, hlist]
  rfl

/-- Settles O25: a flag set arrives by its origin, a due timer fires, a task is readied, each READY task ages once. -/
theorem flagsMakeTasksReady : Obligations.FlagsMakeTasksReady := by
  refine ⟨fun s n hbrew => ⟨fun t f q k r hin => ?_, fun x hx => ?_, fun t w ht => flagsSetWrite_sets hbrew ht w,
      fun i hen hper hcount => timerFire_due hbrew rfl ((Timer.due_iff _).mpr ⟨hen, hper, hcount⟩)⟩,
    fun s n hbrew => ⟨fun t ht harmed hcond => taskReady_readies hbrew ht harmed hcond, fun hc => ?_⟩⟩
  · have harr := dispatcherFlagSet_arrives hbrew hin
    exact ⟨fun h => harr.trans (congrArg Host.Outcome.next (arriveFlag_sets (s := s.updSector n _) h)),
      fun hk h => harr.trans (congrArg Host.Outcome.next (arriveFlag_drops (s := s.updSector n _) rfl hk h))⟩
  · have hn : x.task / 2048 = n.val := by simpa using List.find?_some hx
    have harr := notifyArrive_arrives hbrew hx
    exact ⟨fun h => harr.trans (congrArg Host.Outcome.next (arriveFlag_sets (.inr h))),
      fun h => harr.trans (congrArg Host.Outcome.next (arriveFlag_drops hn (by decide) h))⟩
  · have htask := tickTasks_task (s.updSector n fun x => { x with agePhase := 0 }) (s.sector n).urgOf (nodup_readyAll hc n)
    refine ⟨_, ageTick_ticks hbrew, by simp, by simp, fun k => ⟨fun hn hr ho => ?_, fun h => ?_⟩⟩
    · exact (htask k).trans ((if_pos ((mem_readyAll hc).mpr ⟨hn, hr, ho⟩)).trans (if_pos hr))
    · have hk : k ∉ s.readyAll n := fun hk => by
        obtain ⟨hn, hr, ho⟩ := (mem_readyAll hc).mp hk
        rcases h with h | h | h
        · exact h hn
        · exact h hr
        · omega
      exact (htask k).trans (if_neg hk)

end Sys2Proof.Machine
end

section
/-!
SUPPORT. Selections, fills ahead and the end of a dispatch; with the statement about them (O26).
-/
namespace Sys2Proof.Machine

/-! ## A selection (R197 to R200) -/

/-- A fill requested for the chosen slot changes the tiles alone. -/
theorem chooseSlot_tiles {s s1 : State} {t p h : Nat} {fill : Bool} (hc : s.chooseSlot t p = some (h, fill, s1)) :
    ∃ ts, s1 = { s with tiles := ts } := by
  unfold State.chooseSlot at hc
  simp only at hc
  split at hc
  · cases hc
    exact ⟨s.tiles, rfl⟩
  · split at hc
    · cases hc
      exact ⟨s.tiles, rfl⟩
    · obtain ⟨v, -, hv⟩ := Option.map_eq_some_iff.mp hc
      cases hv
      exact ⟨_, rfl⟩

/-- The stream of a grant may draw a free value, and changes nothing else. -/
theorem grantStream_drawn (s : State) (t : Nat) (used : Word) (f : Nat) :
    ∃ d, (s.grantStream t used f).2 = { s with drawn := d } := by
  unfold State.grantStream
  simp only
  split
  · exact ⟨s.drawn, rfl⟩
  · split
    · exact ⟨s.drawn + 1, rfl⟩
    · exact ⟨s.drawn, rfl⟩

/-- Outside a stream set it is the task's own stream (Table 06-7). -/
theorem grantStream_own {s : State} {t : Nat} (h : (s.task t).st.setTask = false) (used : Word) (f : Nat) :
    (s.grantStream t used f).1 = (s.task t).st.stream.toNat := by
  simp [State.grantStream, h]

/-- BATCH of a grant: the residue of a yielded task, else its own. -/
def Task.grantBatch (k : Task) : Nat := if k.resid = 0 then k.st.batch.toNat else k.resid.toNat

/-- The entry of a task that a selection starts on tile `i`, with what it consumes and its new LAST_FLAG (R198, R199). -/
def Task.started (k : Task) (i : Nat) (c : Word × Nat) : Task :=
  { k with state := .running, lastTile := i, grants := k.grants + 1, flags := k.flags &&& ~~~c.1, lastFlag := c.2,
           consumed := c.1, gbatch := k.grantBatch, wasUrgent := k.urgent, urgent := false }

/-- Task `t`, consuming `c`, gets tile `i` at `p`: its grant with stream `z` is on its way, the tile's request gone. -/
def State.grantTask (s : State) (t i p h : Nat) (fill : Bool) (c : Word × Nat) (z : Nat) : State :=
  let w := (((s.setTask t ((s.task t).started i c)).dropAsk (t / 2048) i).updSector (t / 2048) fun x =>
    { x with grants := x.grants + 1 }).updTile p fun x => { x with yieldSent := false }
  { w with grants := w.grants ++ [(p, { task := t % 2048, slot := h, batch := (s.task t).grantBatch, stream := z, fill := fill })] }

/-- What a selection grants is read from the state before the slot's fill and the stream's free value. -/
theorem selectTask_grants {s s1 : State} {t i p h : Nat} {fill : Bool} (hc : s.chooseSlot t p = some (h, fill, s1)) :
    ∃ ts d, s.selectTask t i p = State.grantTask { s with tiles := ts, drawn := d } t i p h fill (s.consumes t)
      (s1.grantStream t (s.consumes t).1 (s.consumes t).2).1 := by
  obtain ⟨ts, rfl⟩ := chooseSlot_tiles hc
  obtain ⟨d, hd⟩ := grantStream_drawn { s with tiles := ts } t (s.consumes t).1 (s.consumes t).2
  have hsel : s.selectTask t i p = (State.grantStream { s with tiles := ts } t (s.consumes t).1 (s.consumes t).2).2.grantTask
      t i p h fill (s.consumes t) (State.grantStream { s with tiles := ts } t (s.consumes t).1 (s.consumes t).2).1 := by
    simp only [State.selectTask, hc]
    rfl
  exact ⟨ts, d, by rw [hsel, hd]⟩

section
variable (s : State) (t i p h : Nat) (fill : Bool) (c : Word × Nat) (z : Nat)

theorem grantTask_task : (s.grantTask t i p h fill c z).task t = (s.task t).started i c :=
  s.setTask_task_same t _

theorem grantTask_ask {n : Nat} (hn : t / 2048 = n) :
    ((s.grantTask t i p h fill c z).sector n).ask = (s.sector n).ask.filter (· != i) := by
  subst hn
  have hsector : (s.grantTask t i p h fill c z).sector (t / 2048) =
      State.sector (((s.setTask t ((s.task t).started i c)).dropAsk (t / 2048) i).updSector (t / 2048) fun x =>
        { x with grants := x.grants + 1 }) (t / 2048) := rfl
  rw [hsector, State.updSector_sector_same, State.dropAsk, State.updSector_sector_same, State.setTask_sector]

end

theorem dispatchSelect_selects {s : State} {q : PartIx} {n : SecIx} (hrec : s.recovering q = false)
    (hbrew : (s.sector n).pstate = .brew) {t i p : Nat}
    (htop : s.topTask ((s.readyTasks q n).filter fun t => !(s.candidates t).isEmpty) = some t)
    (htile : s.chooseTile t = some i) (hpos : s.sectorTile n i = some p) :
    exec (.dispatchSelect q n) s = .next (s.selectTask t i p) := by
  simp [exec, execDispatchSelect, hrec, hbrew, htop, htile, hpos]

/-! ## Fills ahead (R201) -/

theorem aheadFill_requests {s : State} {q : PartIx} {n : SecIx} (hrec : s.recovering q = false)
    (hbrew : (s.sector n).pstate = .brew) {t p h : Nat} (hpre : (s.sector n).dispCtrl.getLsbD 0 = true)
    (htop : s.topTask (s.readyTasks q n) = some t) (hcand : s.candidates t = [])
    (hhas : ((s.eligibleTiles t).any fun p => decide ((s.tile p).rank (s.task t).st.ctxId.toNat < 2)) = false)
    (htile : (s.eligibleTiles t).find? (fun p => (s.tile p).fillQ.isEmpty && (s.tile p).fillWait.isEmpty &&
      !((s.tile p).fill.any (·.ahead))) = some p)
    (hslot : s.victim p = some h) :
    exec (.aheadFill q n) s = .next ((s.requestFill p (s.taskFill p t h true)).updSector n fun x =>
      { x with prefetches := x.prefetches + 1 }) := by
  simp only [exec, execAheadFill, hpre, hrec, hbrew, htop, hcand, hhas, htile, hslot]
  simp

/-! ## The end of a dispatch (R205, R206, Table 06-8) -/

section
variable {s : State} {n : SecIx} {d : Done} (hd : s.dones.find? (fun d => d.sector == n.val) = some d)
include hd

theorem dispatchDone_takes :
    exec (.dispatchDone n) s = .next (State.takeDone { s with dones := s.dones.erase d } d) := by
  simp only [exec, execDispatchDone, hd]

theorem dispatchDone_idle (h : (s.task (2048 * n.val + d.task)).state ≠ .running) :
    exec (.dispatchDone n) s = .next { s with dones := s.dones.erase d } := by
  obtain ⟨sec, tile, task, counter, code⟩ := d
  obtain rfl : sec = n.val := by simpa using List.find?_some hd
  rw [dispatchDone_takes hd]
  exact congrArg Host.Outcome.next (if_neg h)

theorem dispatchDone_running (h : (s.task (2048 * n.val + d.task)).state = .running) :
    exec (.dispatchDone n) s = .next (State.taskDone { s with dones := s.dones.erase d } (2048 * n.val + d.task) d) := by
  have hsec : d.sector = n.val := by simpa using List.find?_some hd
  rw [dispatchDone_takes hd, State.takeDone, hsec]
  exact congrArg Host.Outcome.next (if_pos h)

end

section
variable {s : State} {t : Nat} {d : Done}

theorem taskDone_complete (h : d.code = 0) : s.taskDone t d = ((((s.setTask t { s.task t with
      lastCode := 0, cancel := false, resid := 0
      state := if (s.task t).cancel then .cancelled else if (s.task t).st.oneShot then .idle else .armed }).recheck
        t).streamRecheck t).sendNotify t) := by
  simp only [State.taskDone, h, if_true]

theorem taskDone_yielded (h : d.code = 1) : s.taskDone t d = s.setTask t { s.task t with
      lastCode := 1, cancel := false, state := if (s.task t).cancel then .cancelled else .ready
      urgent := !(s.task t).cancel && (s.task t).wasUrgent, flags := (s.task t).flags ||| (s.task t).consumed
      resid := BitVec.ofNat 16 ((s.task t).gbatch - d.counter) } := by
  simp [State.taskDone, h]

theorem taskDone_poisoned (h : d.code = 2) : s.taskDone t d = (s.setTask t { s.task t with
      lastCode := 2, cancel := false, state := .idle, resid := 0 }).tellOwner (sectorPort d.sector) (s.task t).st.owner
        { code := 3, status := stPoison, object := t, data := leBytes 2 (31 * d.sector + d.tile) ++ leBytes 10 0 } := by
  simp [State.taskDone, h]

theorem taskDone_faulted (h : d.code = 3) :
    s.taskDone t d = s.setTask t { s.task t with lastCode := 3, cancel := false } := by
  simp [State.taskDone, h]

end

/-- Settles O26: the row makes the selection, the fill ahead or what the DONE's code says. -/
theorem tasksRunAndEnd : Obligations.TasksRunAndEnd := by
  refine ⟨fun s q n hrec hbrew => ⟨fun t i p h fill s1 htop htile hpos hslot hn => ?_,
      fun t p h => aheadFill_requests hrec hbrew⟩,
    fun s n d hd => ⟨dispatchDone_idle hd, fun h hcode => ?_, fun h hcode => ?_, fun h hcode ho => ?_, fun h hcode => ?_⟩⟩
  · obtain ⟨ts, e, hsel⟩ := selectTask_grants (i := i) hslot
    have htask := grantTask_task { s with tiles := ts, drawn := e } t i p h fill (s.consumes t)
      (s1.grantStream t (s.consumes t).1 (s.consumes t).2).1
    refine ⟨_, _, (dispatchSelect_selects hrec hbrew htop htile hpos).trans (congrArg Host.Outcome.next hsel), rfl,
      fun hset => ?_, ?_, ?_, ?_, ?_, grantTask_ask _ t i p h fill _ _ hn, rfl⟩
    · obtain ⟨ts, rfl⟩ := chooseSlot_tiles hslot
      exact grantStream_own (s := { s with tiles := ts }) hset _ _
    · rw [htask]; rfl
    · rw [htask]; rfl
    · rw [htask]; rfl
    · rw [htask]; rfl
  · rw [dispatchDone_running hd h, taskDone_faulted hcode]
    rfl
  · rw [dispatchDone_running hd h, taskDone_yielded hcode]
    rfl
  · have hsec : d.sector = n.val := by simpa using List.find?_some hd
    rw [dispatchDone_running hd h, taskDone_poisoned hcode, hsec]
    exact congrArg Host.Outcome.next (if_pos ho)
  · rw [dispatchDone_running hd h, taskDone_complete hcode]
    rfl

end Sys2Proof.Machine
end

section
/-!
SUPPORT. How a started command is taken up or held back, goes on in its turn, is of no known opcode or runs out of time, and
the work of the task commands; with the statement about them (O52).
-/
namespace Sys2Proof.Machine

/-! ## Taking a command up (R345, R347 to R349) -/

/-- The oldest command of a recipient in a slice of its owner is taken up by a row of its opcode when no started command of
that row can go on. -/
theorem runCommand_takesUp {s : State} {r : Recip} {c : CmdRec} {rest : List CmdRec} {sel : Nat → Bool}
    (hquiet : (s.running.filter fun x => x.cmd.stamp == r.val && sel x.cmd.opcode && x.wait != .payload && s.onCore x.cmd) = [])
    (hbuf : s.buffer r = c :: rest) (hsel : sel c.opcode = true) (hslice : s.inSlice r = true) (hserved : s.hasSlice r = true)
    (hready : s.boot.ready = true) (hstays : s.boot.activate = false) (hrec : ¬(r.val < 16 ∧ (s.part r).state = 3))
    (horder : s.orderOk c = true) (body : CmdRec → CmdIn → State → CmdOut) :
    s.runCommand r sel body = (s.setBuffer r rest).takeUp c true body := by
  simp [State.runCommand, hquiet, State.firstMoved, hbuf, hsel, hslice, hserved, hready, hstays, hrec, horder]

/-- What becomes of one that authenticates, in the state in which its work begins. -/
theorem takeUp_authentic {s : State} {r : Recip} {c : CmdRec} {rest : List CmdRec} {auth : Bool}
    (hauth : (s.setBuffer r rest).authenticate c = some auth) (body : CmdRec → CmdIn → State → CmdOut) {b : State}
    (hb : b = s.begun r c rest auth) :
    (s.setBuffer r rest).takeUp c true body =
      if !opcodeKnown c.opcode then b.reply (b.taken c auth) stUnknownOpcode []
      else if !c.roleOk then b.reply (b.taken c auth) stWrongRole []
      else if 4 ≤ c.flags ∨ c.num 3 1 ≠ 0 then b.reply (b.taken c auth) stReserved []
      else b.finish (b.taken c auth)
        (if b.heldBack (b.taken c auth) then .wait .turn b else body (b.taken c auth) {} b) := by
  rw [State.takeUp, hauth, hb]
  rfl

/-- A command that starts waits its turn while an earlier one holds it back, and else does its work (R349). -/
theorem runCommand_starts {s : State} {r : Recip} {c : CmdRec} {rest : List CmdRec} {op : Nat} {auth : Bool}
    (h : s.Starts r c rest op auth) (body : CmdRec → CmdIn → State → CmdOut) {b : State} (hb : b = s.begun r c rest auth) :
    s.runCommand r (· == op) body = b.finish (b.taken c auth)
      (if b.heldBack (b.taken c auth) then .wait .turn b else body (b.taken c auth) {} b) := by
  obtain ⟨hbuf, hop, hknown, hslice, hserved, hquiet, hready, hstays, hrec, horder, hauth, hrole, hflags, hrsv⟩ := h
  have hheader : ¬(4 ≤ c.flags ∨ c.num 3 1 ≠ 0) := by omega
  rw [runCommand_takesUp (sel := (· == op)) hquiet hbuf (beq_iff_eq.mpr hop) hslice hserved hready hstays hrec horder,
    takeUp_authentic hauth body hb, if_neg (by simp [hop, hknown]), if_neg (by simp [hrole]), if_neg hheader]

theorem exec_heldBack {i : Instr} {s : State} {r : Recip} {c : CmdRec} {rest : List CmdRec} {op : Nat} {auth : Bool}
    {body : CmdRec → CmdIn → State → CmdOut} (hrow : exec i s = .next (s.runCommand r (· == op) body))
    (h : s.Starts r c rest op auth)
    (hheld : (s.begun r c rest auth).heldBack ((s.begun r c rest auth).taken c auth) = true) :
    exec i s = .next (s.waits r c rest auth .turn (s.begun r c rest auth)) := by
  rw [hrow, runCommand_starts h body rfl, if_pos hheld]
  rfl

/-- A command that waited its turn does its work from the start when nothing holds it back any more (R349). -/
theorem exec_turn {i : Instr} {s : State} {r : Recip} {op : Nat} {body : CmdRec → CmdIn → State → CmdOut} {x : Running}
    {more : List Running} {st : Nat} {result : List Byte} {t : State}
    (hrow : exec i s = .next (s.runCommand r (· == op) body))
    (hq : (s.running.filter fun y => y.cmd.stamp == r.val && y.cmd.opcode == op && y.wait != .payload && s.onCore y.cmd) =
      x :: more)
    (hturn : x.wait = .turn) (hfree : (s.without x).heldBack x.cmd = false)
    (hbody : body x.cmd {} (s.without x) = .reply st result t) :
    exec i s = .next (s.ended x st result t) := by
  have hgo : (s.without x).goOn body x = .reply st result t := by
    simp only [State.goOn, hturn, hfree, hbody]
    rfl
  have hmoved : s.firstMoved body (x :: more) = some (x, .reply st result t) := by
    rw [State.firstMoved, ← State.without, hgo]
    rfl
  simp only [hrow, State.runCommand, hq, hmoved]
  rfl

/-- A command that waited goes on from its progress, and ends with what its work answers. -/
theorem exec_resumed {i : Instr} {s : State} {r : Recip} {op : Nat} {body : CmdRec → CmdIn → State → CmdOut} {x : Running}
    {p : List Nat} {st : Nat} {result : List Byte} {t : State}
    (hrow : exec i s = .next (s.runCommand r (· == op) body)) (h : s.Resumes r x op p)
    (hbody : body x.cmd { wait := some (.again p) } (s.without x) = .reply st result t) :
    exec i s = .next (s.ended x st result t) := by
  rw [hrow, runCommand_resumes h body (by rw [hbody]; rfl), hbody]
  rfl

/-! ## Unknown opcodes (R345, R357) -/

theorem unknownOpcode_answers {s : State} {r : Recip} {c : CmdRec} {rest : List CmdRec} {auth : Bool}
    (hbuf : s.buffer r = c :: rest) (hop : opcodeKnown c.opcode = false) (hslice : s.inSlice r = true)
    (hserved : s.hasSlice r = true)
    (hquiet : ∀ x ∈ s.running, x.cmd.stamp = r.val → opcodeKnown x.cmd.opcode = true ∨ x.wait = .payload)
    (hready : s.boot.ready = true) (hstays : s.boot.activate = false) (hrec : ¬(r.val < 16 ∧ (s.part r).state = 3))
    (horder : s.orderOk c = true) (hauth : (s.setBuffer r rest).authenticate c = some auth) :
    exec (.unknownOpcode r) s =
      .next ((s.begun r c rest auth).reply ((s.begun r c rest auth).taken c auth) stUnknownOpcode []) := by
  have hnone : (s.running.filter fun x =>
      x.cmd.stamp == r.val && !opcodeKnown x.cmd.opcode && x.wait != .payload && s.onCore x.cmd) = [] := by
    refine List.filter_eq_nil_iff.mpr fun x hx hsel => ?_
    simp only [Bool.and_eq_true, beq_iff_eq, Bool.not_eq_true', bne_iff_ne] at hsel
    obtain ⟨⟨⟨hstamp, hunknown⟩, hwait⟩, -⟩ := hsel
    rcases hquiet x hx hstamp with hk | hp
    · rw [hunknown] at hk
      cases hk
    · exact hwait hp
  simp only [exec, execUnknownOpcode,
    runCommand_takesUp (sel := fun op => !opcodeKnown op) hnone hbuf (by simp [hop]) hslice hserved hready hstays hrec horder,
    takeUp_authentic hauth _ rfl, hop]
  rfl

/-! ## Time limits (R348, R350, R357) -/

/-- The opcodes of the commands that TIMEOUT has something to undo for, or that keep sectors awake (R357, R474). -/
def undoneOpcodes : List Nat :=
  [0x0102, 0x0103, 0x0104, 0x0204, 0x0401, 0x0402, 0x0404, 0x0405, 0x0502, 0x0603, 0x0906]

section
variable {c : CmdRec} (h : c.opcode ∉ undoneOpcodes)
include h

theorem heldAwake_nil (s : State) (w : Wait) : s.heldAwake c w = [] := by
  simp only [undoneOpcodes, List.mem_cons, List.not_mem_nil, or_false, not_or] at h
  simp [State.heldAwake, h]

theorem leave_unchanged (s : State) (w : Wait) (status : Nat) : s.leave c w status = s := by
  simp only [undoneOpcodes, List.mem_cons, List.not_mem_nil, or_false, not_or] at h
  simp [State.leave, h]

end

theorem commandTimeout_cuts {s : State} {r : Recip} {n : Fin 4096} {x : Running}
    (hx : (s.running.filter fun x => x.cmd.stamp == r.val)[n.val]? = some x) :
    exec (.commandTimeout r n) s = .next (s.cut x stTimeout) := by
  simp only [exec, execCommandTimeout, hx]

/-- Any other command has nothing to undo: it leaves the started ones and is answered. -/
theorem cut_replies {s : State} {x : Running} (h : x.cmd.opcode ∉ undoneOpcodes) :
    s.cut x stTimeout = ({ s.without x with hostReads := s.hostReads.filter fun h => h.payload != some x.cmd }).reply
      x.cmd stTimeout (s.earlyResult x.cmd x.wait) := by
  simp only [State.cut, heldAwake_nil h, leave_unchanged h]
  rfl

/-! ## The work of the task commands (R207, R387, R472) -/

/-- A task that does not run is cancelled at once (R207). -/
theorem cancelTask_cancelled {s : State} {t : Nat} (h : (s.task t).state ≠ .running) :
    ((s.cancelTask t).task t).state = .cancelled := by
  unfold State.cancelTask
  simp only
  split
  · assumption
  · exact absurd ‹_› h
  · rw [State.setTask_task_same]

/-- One that runs goes on until its DONE (R207). -/
theorem cancelTask_running {s : State} {t : Nat} (h : (s.task t).state = .running) :
    ((s.cancelTask t).task t).state = .running := by
  simp only [State.cancelTask, h]
  split <;> simp [h]

section
variable {c : CmdRec} {s : State} (hbits : c.taskBits = false) (hblock : (s.part c.stamp).hasTask (c.num 16 2) = true)
  (howner : (s.task (c.num 16 2)).st.owner = c.stamp)
include hbits hblock howner

theorem bodyTaskArm_arms (hst : c.stray [(16, 2)] = false) (i : CmdIn) : bodyTaskArm c i s =
    .reply stOk (resultOf [(14, 4, ((s.armTask (c.num 16 2)).task (c.num 16 2)).status.toNat)]) (s.armTask (c.num 16 2)) := by
  rw [bodyTaskArm, checked_none (by simp [State.taskChecks, *])]

theorem bodyTaskQuery_reports (hst : c.stray [(16, 2)] = false) (i : CmdIn) : bodyTaskQuery c i s =
    .reply stOk (resultOf [(14, 4, (s.task (c.num 16 2)).status.toNat), (18, 4, (s.task (c.num 16 2)).flags.toNat),
      (22, 4, (s.task (c.num 16 2)).grants.toNat)]) s := by
  rw [bodyTaskQuery, checked_none (by simp [State.taskChecks, *])]

theorem bodyTaskCancel_ends (hst : c.stray [(16, 2)] = false) (h : (s.task (c.num 16 2)).state ≠ .running) :
    bodyTaskCancel c {} s = .reply stOk (resultOf [(14, 4, ((s.cancelTask (c.num 16 2)).task (c.num 16 2)).status.toNat)])
      (s.cancelTask (c.num 16 2)) := by
  rw [bodyTaskCancel]
  simp only [CmdIn.progress]
  rw [checked_none (by simp [State.taskChecks, *]), if_pos (cancelTask_cancelled h)]

theorem bodyTaskCancel_waits (hst : c.stray [(16, 2)] = false) (h : (s.task (c.num 16 2)).state = .running) :
    bodyTaskCancel c {} s = .wait (.again [1]) (s.cancelTask (c.num 16 2)) := by
  rw [bodyTaskCancel]
  simp only [CmdIn.progress]
  rw [checked_none (by simp [State.taskChecks, *]), if_neg (by simp [cancelTask_running h])]

section
variable (hst : c.stray [(16, 2), (20, 4)] = false) (hflags : c.word 20 ≠ 0)
include hst hflags

theorem bodyTaskSignal_sets (h : (s.sector (c.num 16 2 / 2048)).pstate = .brew) :
    bodyTaskSignal c {} s = .reply stOk
      (resultOf [(14, 4, ((s.setFlags (c.num 16 2) (c.word 20)).task (c.num 16 2)).flags.toNat)])
      (s.setFlags (c.num 16 2) (c.word 20)) := by
  rw [bodyTaskSignal]
  simp only [CmdIn.progress]
  rw [checked_none (by simpa [firstFail_none_iff, State.taskChecks, *] using hflags), if_pos (by simp [h])]

theorem bodyTaskSignal_waits (h : (s.sector (c.num 16 2 / 2048)).pstate ≠ .brew) :
    bodyTaskSignal c {} s = .wait (.again [1]) (s.updSector (c.num 16 2 / 2048) fun x => { x with
      inbox := x.inbox ++ ((List.range 32).filter (c.word 20).getLsbD).map fun f => (c.num 16 2, f, c.stamp, 0)
      wakeDue := true }) := by
  rw [bodyTaskSignal]
  simp only [CmdIn.progress]
  rw [checked_none (by simpa [firstFail_none_iff, State.taskChecks, *] using hflags), if_neg (by simp [h])]

end

end

section
variable {c : CmdRec} {s : State} (n : Nat) (p : List Nat)

/-- A cancel that waits ends when the task is CANCELLED. -/
theorem bodyTaskCancel_goesOn (h : (s.task (c.num 16 2)).state = .cancelled) :
    bodyTaskCancel c { wait := some (.again (n :: p)) } s =
      .reply stOk (resultOf [(14, 4, (s.task (c.num 16 2)).status.toNat)]) s := by
  simp only [bodyTaskCancel, CmdIn.progress, h, if_true]

/-- A signal that waits ends when its sector is in Brew. -/
theorem bodyTaskSignal_goesOn (h : (s.sector (c.num 16 2 / 2048)).pstate = .brew) :
    bodyTaskSignal c { wait := some (.again (n :: p)) } s =
      .reply stOk (resultOf [(14, 4, (s.task (c.num 16 2)).flags.toNat)]) s := by
  simp only [bodyTaskSignal, CmdIn.progress, h, beq_self_eq_true, if_true]

end

/-- Settles O52: a task command's work where it begins, in its turn and where it goes on; an unknown opcode; a time-out. -/
theorem taskCommandsAnswer : Obligations.TaskCommandsAnswer := by
  intro s r c rest auth b i
  refine ⟨fun h hst hbits hblock howner => ?_, fun h hst hbits hblock howner => ⟨fun hrun => ⟨cancelTask_cancelled hrun, ?_⟩,
      fun hrun => ?_⟩, fun h hheld => exec_heldBack (body := bodyTaskArm) rfl h hheld,
    fun x more hq hturn hfree hst hbits hblock howner => ?_,
    fun x n p h hcan => ?_, fun m n h hm hn hst hflags hbits hblock howner => ⟨fun hbrew => ?_, fun hsleep => ?_⟩,
    fun x n p h hbrew => ?_, fun h hst hbits hblock howner => ?_, unknownOpcode_answers,
    fun n x hx => ⟨commandTimeout_cuts hx, cut_replies⟩⟩
  · exact exec_accepted (body := bodyTaskArm) rfl h (bodyTaskArm_arms (c := b.taken c auth) hbits hblock howner hst {})
  · exact exec_accepted (body := bodyTaskCancel) rfl h
      (bodyTaskCancel_ends (c := b.taken c auth) hbits hblock howner hst hrun)
  · exact exec_accepted (body := bodyTaskCancel) rfl h
      (bodyTaskCancel_waits (c := b.taken c auth) hbits hblock howner hst hrun)
  · exact exec_turn (body := bodyTaskArm) rfl hq hturn hfree (bodyTaskArm_arms hbits hblock howner hst {})
  · exact exec_resumed (body := bodyTaskCancel) rfl h (bodyTaskCancel_goesOn (s := s.without x) n p hcan)
  · subst hm hn
    exact exec_accepted (body := bodyTaskSignal) rfl h
      (bodyTaskSignal_sets (c := b.taken c auth) hbits hblock howner hst hflags hbrew)
  · subst hm hn
    exact exec_accepted (body := bodyTaskSignal) rfl h
      (bodyTaskSignal_waits (c := b.taken c auth) hbits hblock howner hst hflags hsleep)
  · exact exec_resumed (body := bodyTaskSignal) rfl h (bodyTaskSignal_goesOn (s := s.without x) n p hbrew)
  · exact exec_accepted (body := bodyTaskQuery) rfl h
      (bodyTaskQuery_reports (c := b.taken c auth) hbits hblock howner hst {})

end Sys2Proof.Machine
end

section
/-!
SUPPORT. Ingress streams: what the credit engine grants, and how cells of a stream go to the Carafe and come back; with the
statements about them (O34, O35).
-/
namespace Sys2Proof.Machine

theorem stream_congr {s t : State} (h : t.streams = s.streams) (k : Nat) : t.stream k = s.stream k := by
  unfold State.stream
  rw [h]

/-! ## The credit engine (R263, R264) -/

/-- What the quota lets a stream have beyond an OUT of 0 when it is the quota that stops it: all that is left if no other
stream waits for it, one cell in the stream's turn, else nothing (R264). -/
def State.quotaShare (s : State) (k : Nat) : Nat :=
  let x := s.stream k
  let rest := s.grantable x - min x.creditRoom (-x.out).toNat
  let turn := tget 8191 s.alloc.turn x.owner
  let rivals := (s.streams.filter fun z => z.2.owner == x.owner && s.quotaBound z.2).map (·.1)
  if rivals = [k] then rest
  else if firstMin (fun z => (z + 8191 - turn) % 8192) rivals == some k then min 1 rest else 0

theorem quotaShare_le (s : State) (k : Nat) :
    s.quotaShare k ≤ s.grantable (s.stream k) - min (s.stream k).creditRoom (-(s.stream k).out).toNat := by
  unfold State.quotaShare
  simp only
  split
  · exact Nat.le_refl _
  · split
    · exact Nat.min_le_right ..
    · exact Nat.zero_le _

/-- A stream that the quota stops gets what brings OUT up to 0, and its share. -/
theorem creditEngineVisit_bound {s : State} {k : StreamIx} (hc : (s.stream k).credited = true)
    (hq : s.quotaBound (s.stream k) = true) : ∃ u : State, u.streams = s.streams ∧
      exec (.creditEngineVisit k) s = .next (u.updStream k fun x =>
        { x with crTotal := x.crTotal + min (s.stream k).creditRoom (-(s.stream k).out).toNat + s.quotaShare k }) := by
  refine ⟨if s.quotaShare k = 0 then s else
    { s with alloc := { s.alloc with turn := tset 8191 s.alloc.turn (s.stream k).owner k } }, ?_, ?_⟩
  · split <;> rfl
  · simp only [exec, execCreditEngineVisit, hc, hq]
    rfl

/-- A visit adds at most what the rule allows to CR_TOTAL, and changes nothing else of the stream. -/
theorem creditEngineVisit_adds {s t : State} {k : StreamIx} (h : exec (.creditEngineVisit k) s = .next t) :
    ∃ n ≤ s.grantable (s.stream k), t.stream k = { s.stream k with crTotal := (s.stream k).crTotal + n } := by
  by_cases hc : (s.stream k).credited = true
  · by_cases hq : s.quotaBound (s.stream k) = true
    · obtain ⟨u, hu, hvisit⟩ := creditEngineVisit_bound hc hq
      rw [hvisit] at h
      cases h
      have hdeficit : min (s.stream k).creditRoom (-(s.stream k).out).toNat ≤ s.grantable (s.stream k) :=
        Nat.le_min.mpr ⟨Nat.min_le_left .., Nat.le_trans (Nat.min_le_right ..) (Nat.le_add_right ..)⟩
      refine ⟨_, Nat.add_le_of_le_sub' hdeficit (quotaShare_le s k), ?_⟩
      rw [State.updStream_stream_same, stream_congr hu, Nat.add_assoc]
    · simp only [exec, execCreditEngineVisit, hc, hq] at h
      cases h
      exact ⟨_, Nat.le_refl _, State.updStream_stream_same ..⟩
  · simp only [exec, execCreditEngineVisit, hc] at h
    cases h
    exact ⟨0, Nat.zero_le _, rfl⟩

/-- What a visit may grant keeps the credit within CRED_LIMIT and the room, and the part of it beyond 0 within the quota. -/
theorem grantable_within {s : State} {x : Stream} {n : Nat} (h : n ≤ s.grantable x) (hpos : 0 < n) :
    x.out + n ≤ (x.credLimit : Int) ∧ ((x.wpos : Int) - x.mpos) + (x.out + n) ≤ (x.ring + x.carafe : Nat) ∧
    (0 < x.out + n → (s.usedCells x.owner + s.resvCells x.owner : Int) + (x.out + n - max 0 x.out) ≤ s.quotaOf x.owner) := by
  have hroom : n ≤ x.creditRoom := Nat.le_trans h (Nat.min_le_left ..)
  have hquota : n ≤ (-x.out).toNat + (s.quotaOf x.owner - (s.usedCells x.owner + s.resvCells x.owner)) :=
    Nat.le_trans h (Nat.min_le_right ..)
  unfold Stream.creditRoom at hroom
  split at hroom
  · omega
  · omega

/-- Settles O34: a visit adds no more than R263's terms allow. -/
theorem creditNeverExceedsItsLimits : Obligations.CreditNeverExceedsItsLimits := by
  intro s t k x y h hmore
  obtain ⟨n, hn, hy : y = { x with crTotal := x.crTotal + n }⟩ := creditEngineVisit_adds h
  have htotal : y.crTotal = x.crTotal + n := by rw [hy]
  have hout : y.out = x.out + n := by
    rw [hy]
    simp only [Stream.out]
    omega
  rw [hout]
  exact grantable_within hn (by omega)

/-! ## What the operations of the Carafe leave of the streams -/

/-- A fold keeps what each of its steps keeps. -/
theorem foldl_keeps {α β γ : Type} (p : α → γ) {f : α → β → α} (hf : ∀ a b, p (f a b) = p a) (l : List β) (a : α) :
    p (l.foldl f a) = p a :=
  List.foldlRecOn (motive := fun x => p x = p a) l f rfl fun x hx b _ => (hf x b).trans hx

@[simp] theorem raiseEvent_streams (s : State) (r : Nat) (e : Event) : (s.raiseEvent r e).streams = s.streams := by
  obtain ⟨b, h⟩ := raiseEvent_eq s r e
  rw [h]
  rfl

@[simp] theorem tellIntegrity_streams (s : State) (q source a status : Nat) :
    (s.tellIntegrity q source a status).streams = s.streams := by
  unfold State.tellIntegrity
  split
  · rfl
  · exact raiseEvent_streams ..

@[simp] theorem logFault_streams (s : State) (cls part flags source object detail addr : Nat) :
    (s.logFault cls part flags source object detail addr).streams = s.streams := by
  obtain ⟨e, ev, -, h⟩ := logFault_eq s cls part flags source object detail addr
  rw [h]

/-- A hard fault of a word is repaired, recorded or logged. -/
@[simp] theorem hardFault_streams (s : State) (a : Nat) : (s.hardFault a).streams = s.streams := by
  unfold State.hardFault
  simp only
  split
  · simp
  · split <;> simp

@[simp] theorem trackCorrected_streams (s : State) (a : Nat) : (s.trackCorrected a).streams = s.streams := by
  unfold State.trackCorrected
  simp only
  split
  · rfl
  · split <;> simp

@[simp] theorem readWord_streams (s : State) (a : Nat) : (s.readWord a).2.2.streams = s.streams := by
  unfold State.readWord
  split
  · exact trackCorrected_streams s a
  · rfl

@[simp] theorem cellWord_streams (s : State) (c i : Nat) : (s.cellWord c i).2.2.streams = s.streams := by
  unfold State.cellWord
  simp only
  split <;> simp

@[simp] theorem writeWord_streams (s : State) (a : Nat) (d : Word) (p : Bool) :
    (s.writeWord a d p).streams = s.streams := by
  simpa using congrArg State.streams (writeWord_frame s a d p)

@[simp] theorem writeWords_streams (s : State) (a : Nat) (ws : List Word) (poison : Bool) :
    (s.writeWords a ws poison).streams = s.streams := by
  unfold State.writeWords
  exact foldl_keeps State.streams (by simp) _ _

@[simp] theorem freeCells_streams (s : State) (cs : List Nat) : (s.freeCells cs).streams = s.streams := by
  unfold State.freeCells
  exact foldl_keeps State.streams (by simp) _ _

/-- A request joins those that wait for a tag, and may count in TAG_WAITS. -/
theorem issue_frame (s : State) (p : Packet) : { s.issue p with mesh := s.mesh } = s := by
  unfold State.issue
  simp only
  split <;> rfl

@[simp] theorem carafeLines_streams (s : State) (k : Nat) (mk : Nat → Packet) :
    (s.carafeLines k mk).streams = s.streams := by
  unfold State.carafeLines
  exact foldl_keeps State.streams (fun x _ => by simpa using congrArg State.streams (issue_frame x _)) _ _

@[simp] theorem carafeLines_cells (s : State) (k : Nat) (mk : Nat → Packet) : (s.carafeLines k mk).cells = s.cells := by
  unfold State.carafeLines
  exact foldl_keeps State.cells (fun x _ => by simpa using congrArg State.cells (issue_frame x _)) _ _

/-! ## A position of the Carafe -/

theorem updFar_stream (s : State) (k i : Nat) (f : FarCell → FarCell) :
    (s.updFar k i f).stream k = { s.stream k with far := (s.stream k).far.modify i f } :=
  State.updStream_stream_same ..

/-- The record of the position that changes. -/
theorem getD_modify_same {α : Type} {l : List α} {i : Nat} (h : i < l.length) (f : α → α) (d : α) :
    (l.modify i f).getD i d = f (l.getD i d) := by
  simp [h]

@[simp] theorem carafeFail_ok (s : State) (k : Nat) : s.carafeFail k stOk = s := rfl

@[simp] theorem freeCells_stream (s : State) (cs : List Nat) (i : Nat) : (s.freeCells cs).stream i = s.stream i :=
  stream_congr (freeCells_streams s cs) i

@[simp] theorem updFar_state (s : State) (k i : Nat) (f : FarCell → FarCell) :
    ((s.updFar k i f).stream k).state = (s.stream k).state := by
  rw [updFar_stream]
  rfl

@[simp] theorem streamCount_state (s : State) (k j n : Nat) :
    ((s.streamCount k j n).stream k).state = (s.stream k).state := by
  rw [State.streamCount, State.updStream_stream_same]
  rfl

@[simp] theorem advanceSpill_state (s : State) (k : Nat) :
    ((s.advanceSpill k).stream k).state = (s.stream k).state := by
  rw [State.advanceSpill, State.updStream_stream_same]
  rfl

/-- A stream that is not CLOSING stays as it is (R276). -/
theorem closeEnd_of_state {s : State} {k : Nat} (h : (s.stream k).state ≠ 3) : s.closeEnd k = s := by
  simp [State.closeEnd, h]

/-! ## Spilling (R273) -/

section
variable {s : State} {k : StreamIx} {i : Nat} (hi : ((s.stream k).far.findIdx? fun f => f.stage == 0) = some i)
  (hclosed : (s.stream k).state ≠ 0) (hclosing : (s.stream k).state ≠ 3)
  (hfree : s.spilling k ((s.stream k).spos + i) = false)
include hi hclosed hclosing hfree

/-- The staged cell is read, which leaves the streams, and its four line requests wait for their tags. -/
theorem carafeSpillWrite_requests :
    ∃ (u : State) (bad : Bool) (mk : Nat → Packet), exec (.carafeSpillWrite k) s =
      .next ((u.updFar k i fun f => { f with stage := 1, left := 4, info := { f.info with poison := bad } }).carafeLines k mk) ∧
      u.streams = s.streams := by
  simp only [exec, execCarafeSpillWrite, hi, hclosed, hclosing, hfree, or_self, if_false, Bool.false_eq_true]
  exact ⟨_, _, _, rfl,
    foldl_keeps (fun a : List Byte × Bool × State => a.2.2.streams) (fun a j => cellWord_streams a.2.2 _ j) _ _⟩

/-- The oldest staged position's write is in flight. -/
theorem carafeSpillWrite_spills :
    ∃ t, exec (.carafeSpillWrite k) s = .next t ∧
      ((t.stream k).far.getD i {}).stage = 1 ∧ ((t.stream k).far.getD i {}).left = 4 ∧
      (t.stream k).wpos = (s.stream k).wpos ∧ (t.stream k).spos = (s.stream k).spos := by
  obtain ⟨u, bad, mk, hrow, hu⟩ := carafeSpillWrite_requests hi hclosed hclosing hfree
  have hlen : i < (s.stream k).far.length := (List.findIdx?_eq_some_iff_getElem.mp hi).1
  refine ⟨_, hrow, ?_⟩
  simp only [stream_congr (carafeLines_streams ..), updFar_stream, stream_congr hu, getD_modify_same hlen, and_self]

end

/-- A write of a position that is on its way completes with OK: others are to come, or the staging cell is freed. -/
theorem carafeSpillDone_ok {s s1 : State} {k : StreamIx} {p : Packet} {n i : Nat} {f : FarCell}
    (hans : s.carafeAnswer (spillOf k) = some (p, some n, s1)) (hn : (s1.stream k).spos ≤ n)
    (hi : n - (s1.stream k).spos = i) (hf : (s1.stream k).far.getD i {} = f) (hstage : f.stage = 1)
    (hok : p.status = stOk) :
    exec (.carafeSpillDone k) s = .next (if 1 < f.left then s1.updFar k i fun f => { f with left := f.left - 1 }
      else (((s1.streamCount k 5).freeCells f.cell.toList).updFar k i fun f =>
        { f with left := 0, stage := 2, cell := none }).closeEnd k) := by
  simp only [exec, execCarafeSpillDone, hans, hi, hf, hstage, hok, Nat.not_lt.mpr hn, carafeFail_ok, ne_eq,
    not_true, or_self, if_false]
  split <;> rfl

/-- The end of a spill leaves STATE, so a stream that is not CLOSING is not closed. -/
theorem closeEnd_of_spilled {s : State} {k : Nat} (hopen : (s.stream k).state ≠ 3) (cs : List Nat) (i : Nat)
    (g : FarCell → FarCell) :
    (((s.streamCount k 5).freeCells cs).updFar k i g).closeEnd k = ((s.streamCount k 5).freeCells cs).updFar k i g :=
  closeEnd_of_state (by rwa [updFar_state, freeCells_stream, streamCount_state])

/-! ## Refilling (R273, R275) -/

section
variable {s : State} {k : StreamIx} {i : Nat} {f : FarCell}
  (hi : ((s.stream k).far.takeWhile fun f => 3 ≤ f.stage).length = i) (hf : (s.stream k).far[i]? = some f)
  (hopen : (s.stream k).state = 1 ∨ (s.stream k).state = 2) (hstage : f.stage = 2)
  (hflying : ((s.stream k).far.filter fun f => f.stage == 3).length < 16)
  (hroom : (s.stream k).spos + i - (s.stream k).mpos < (s.stream k).ring) (hquota : s.quotaLeft (s.stream k).owner = true)
include hi hf hopen hstage hflying hroom hquota

/-- A cell that shows no bytes takes the next position, and its four line requests wait for their tags. -/
theorem carafeRefillRead_requests :
    ∃ (u : State) (c : Nat) (mk : Nat → Packet), exec (.carafeRefillRead k) s =
      .next ((((u.setCell c { f.info with len := 0 }).updStream k fun x => { x with drain := true }).updFar k i fun f =>
        { f with cell := some c, stage := 3, left := 4 }).carafeLines k mk) ∧ u.streams = s.streams := by
  simp only [exec, execCarafeRefillRead, hi, hf, hopen, hstage, Nat.not_le.mpr hflying, Nat.not_le.mpr hroom, hquota]
  exact ⟨_, _, _, rfl, rfl⟩

/-- The next position's read is in flight. -/
theorem carafeRefillRead_reads :
    ∃ t, exec (.carafeRefillRead k) s = .next t ∧ (t.stream k).drain = true ∧
      ((t.stream k).far.getD i {}).stage = 3 ∧ ((t.stream k).far.getD i {}).left = 4 ∧
      ∃ n, ((t.stream k).far.getD i {}).cell = some n ∧ (tget {} t.cells n).len = 0 := by
  obtain ⟨u, c, mk, hrow, hu⟩ := carafeRefillRead_requests hi hf hopen hstage hflying hroom hquota
  have hlen : i < (s.stream k).far.length := (List.getElem?_eq_some_iff.mp hf).1
  refine ⟨_, hrow, ?_⟩
  simp only [stream_congr (carafeLines_streams ..), updFar_stream, State.updStream_stream_same, State.setCell_stream,
    stream_congr hu, getD_modify_same hlen, true_and]
  refine ⟨c, rfl, ?_⟩
  rw [carafeLines_cells, State.updFar, State.updStream_cells, State.updStream_cells, State.setCell, tget_tset_same]

end

/-- A clean line of a position goes into the cell that its refill fills, and one fewer is to come. -/
def State.refillLine (s : State) (k i j : Nat) (p : Packet) : State :=
  (s.writeWords (cellBase (((s.stream k).far.getD i {}).cell.getD 0) + 64 * j)
    (wordsOf (p.data ++ List.replicate (64 - p.data.length) 0) 16) false).updFar k i fun f => { f with left := f.left - 1 }

/-- Clean data leaves the poison of the position's record. -/
theorem refillLine_of_clean (s : State) (k i j : Nat) (p : Packet) :
    ((s.writeWords (cellBase (((s.stream k).far.getD i {}).cell.getD 0) + 64 * j)
      (wordsOf (p.data ++ List.replicate (64 - p.data.length) 0) 16) false).updFar k i fun f =>
        { f with left := f.left - 1, info := { f.info with poison := f.info.poison || false } }) = s.refillLine k i j p := by
  simp only [Bool.or_false]
  rfl

theorem refillLine_stream (s : State) (k i j : Nat) (p : Packet) : (s.refillLine k i j p).stream k =
    { s.stream k with far := (s.stream k).far.modify i fun f => { f with left := f.left - 1 } } := by
  rw [State.refillLine, updFar_stream, stream_congr (writeWords_streams ..)]

/-- The position is back: its cell gets its record, the refill counts, and SPOS passes every position that is back. -/
def State.placeRefill (s : State) (k i c : Nat) (info : Cell) : State :=
  (((s.setCell c info).streamCount k 6).updFar k i fun f => { f with stage := 4 }).advanceSpill k

@[simp] theorem placeRefill_state (s : State) (k i c : Nat) (info : Cell) :
    ((s.placeRefill k i c info).stream k).state = (s.stream k).state := by
  rw [State.placeRefill, advanceSpill_state, updFar_state, streamCount_state, State.setCell_stream]

section
variable {s s1 : State} {k : StreamIx} {p : Packet} {n i j : Nat} {f : FarCell}
  (hans : s.carafeAnswer (refillOf k) = some (p, some (n, j), s1)) (hn : (s1.stream k).spos ≤ n)
  (hi : n - (s1.stream k).spos = i) (hf : (s1.stream k).far.getD i {} = f) (hstage : f.stage = 3) (hok : p.status = stOk)
  (hclean : p.poison = 0)
include hans hn hi hf hstage hok hclean

/-- A clean line of a position that is being read comes back. -/
theorem carafeRefillDone_clean :
    exec (.carafeRefillDone k) s = .next (if 1 < f.left then s1.refillLine k i j p else
      let info := (((s1.refillLine k i j p).stream k).far.getD i {}).info
      let t := ((s1.refillLine k i j p).setCell (f.cell.getD 0) info).streamCount k 6
      let t := if info.poison then t.streamStick k ssRefillPoison else t
      ((t.updFar k i fun f => { f with stage := 4 }).advanceSpill k).closeEnd k) := by
  subst hf
  simp only [exec, execCarafeRefillDone, hans, hi, hstage, hok, Nat.not_lt.mpr hn, hclean, carafeFail_ok, bne_self_eq_false,
    refillLine_of_clean, ne_eq, not_true, or_self, if_false]
  split <;> rfl

/-- The last line of a position whose lines were all clean places its cell. -/
theorem carafeRefillDone_last (hleft : f.left = 1) (hlen : i < (s1.stream k).far.length)
    (hopen : (s1.stream k).state ≠ 3) (hall : f.info.poison = false) :
    exec (.carafeRefillDone k) s = .next ((s1.refillLine k i j p).placeRefill k i (f.cell.getD 0) f.info) := by
  have hinfo : (((s1.refillLine k i j p).stream k).far.getD i {}).info = f.info := by
    rw [refillLine_stream, getD_modify_same hlen, hf]
  have hstays : ((s1.refillLine k i j p).stream k).state ≠ 3 := by
    rw [refillLine_stream]
    exact hopen
  rw [carafeRefillDone_clean hans hn hi hf hstage hok hclean, if_neg (by omega)]
  simp only [hinfo, hall]
  exact congrArg _ (closeEnd_of_state (by rwa [← placeRefill_state] at hstays))

end

/-- Settles O35: each row of the Carafe from the lemma about it. That a refilled cell shows no bytes before its lines have
come is the model's own choice (log 28). -/
theorem carafeSpillsAndRefills : Obligations.CarafeSpillsAndRefills := by
  intro s k x
  refine ⟨?spillWrite, ?spillDone, ?refillRead, ?refillDone⟩
  case spillWrite => exact fun i => carafeSpillWrite_spills
  case spillDone =>
    intro p n s1 hans hn f hstage hok hopen
    refine ⟨fun hleft => ?_, fun hleft => ?_⟩
    · rw [carafeSpillDone_ok hans hn rfl rfl hstage hok, if_pos hleft]
    · rw [carafeSpillDone_ok hans hn rfl rfl hstage hok, if_neg (Nat.not_lt.mpr hleft), closeEnd_of_spilled hopen]
  case refillRead => exact fun f => carafeRefillRead_reads rfl
  case refillDone =>
    intro p n j s1 hans hn i f s2 hstage hok hclean
    refine ⟨fun hleft => ?_, fun hleft hlen hopen hall => ?_⟩
    · rw [carafeRefillDone_clean hans hn rfl rfl hstage hok hclean, if_pos hleft]
      rfl
    · exact carafeRefillDone_last hans hn rfl rfl hstage hok hclean hleft hlen hopen hall

end Sys2Proof.Machine
end

section
/-!
SUPPORT. The queues of a host port: doorbells and queue control, fetches, the writing of completions; with the statement
about them (O42).
-/
namespace Sys2Proof.Machine

/-! ## Doorbells (R338, R356) -/

section
variable {s : State} {x v : Nat} (hactive : (s.queue x).active = true)
include hactive

/-- An SQ_TAIL that leaves no more entries than the ring holds is taken. -/
theorem tailWrite_inRange (hlt : v < 2 * (s.queue x).sqSize)
    (hring : (v + 2 * (s.queue x).sqSize - (s.queue x).sqHead) % (2 * (s.queue x).sqSize) ≤ (s.queue x).sqSize) :
    s.tailWrite x v = s.setQueue x { s.queue x with sqTail := v } := by
  simp [State.tailWrite, hactive, hlt, hring]

theorem tailWrite_outOfRange (hout : ¬(v < 2 * (s.queue x).sqSize ∧
      (v + 2 * (s.queue x).sqSize - (s.queue x).sqHead) % (2 * (s.queue x).sqSize) ≤ (s.queue x).sqSize)) :
    s.tailWrite x v = (s.queueFault x 3).hpStick (qidHost x) hpDoorbell := by
  rw [State.tailWrite, if_neg (by simp [hactive]), if_neg hout]

/-- A CQ_HEAD that does not pass CQ_TAIL is taken. -/
theorem headWrite_inRange (hlt : v < 2 * (s.queue x).cqSize)
    (hring : ((s.queue x).cqTail + 2 * (s.queue x).cqSize - v) % (2 * (s.queue x).cqSize) ≤
      ((s.queue x).cqTail + 2 * (s.queue x).cqSize - (s.queue x).cqHead) % (2 * (s.queue x).cqSize)) :
    s.headWrite x v = s.setQueue x { s.queue x with cqHead := v } := by
  simp [State.headWrite, hactive, hlt, hring]

theorem headWrite_outOfRange (hout : ¬(v < 2 * (s.queue x).cqSize ∧
      ((s.queue x).cqTail + 2 * (s.queue x).cqSize - v) % (2 * (s.queue x).cqSize) ≤
        ((s.queue x).cqTail + 2 * (s.queue x).cqSize - (s.queue x).cqHead) % (2 * (s.queue x).cqSize))) :
    s.headWrite x v = (s.queueFault x 4).hpStick (qidHost x) hpDoorbell := by
  rw [State.headWrite, if_neg (by simp [hactive]), if_neg hout]

end

section
variable {s : State} {n : Fin 4} {m : Fin 64} (hport : s.portWidth n ≠ 0)
include hport

/-- The rows of a port that is there do what its registers do. -/
theorem sqTailWrite_present (w : Word) :
    exec (.sqTailWrite n m ⟨w, false⟩) s = .next (s.tailWrite (qidOf 0 n m) (field w.toNat 0 13)) :=
  congrArg _ (if_neg (by simpa using hport))

theorem cqHeadWrite_present (w : Word) :
    exec (.cqHeadWrite n m ⟨w, false⟩) s = .next (s.headWrite (qidOf 0 n m) (field w.toNat 0 13)) :=
  congrArg _ (if_neg (by simpa using hport))

theorem qCtrlWrite_present (w : Word) : exec (.qCtrlWrite n m w) s = .next (s.queueCtrl (qidOf 0 n m) w) :=
  congrArg _ (if_neg hport)

end

/-- A doorbell that came after EN = 0 is ignored. -/
theorem sqTailWrite_off (s : State) (n : Fin 4) (m : Fin 64) (w : Word) : exec (.sqTailWrite n m ⟨w, true⟩) s = .next s :=
  congrArg _ (if_pos (.inr rfl))

theorem cqHeadWrite_off (s : State) (n : Fin 4) (m : Fin 64) (w : Word) : exec (.cqHeadWrite n m ⟨w, true⟩) s = .next s :=
  congrArg _ (if_pos (.inr rfl))

/-! ## Queue control (R337) -/

/-- A size that Q_CTRL accepts (Table 11-4). -/
def ringSizeLegal (size : Nat) : Prop := 1 ≤ size ∧ size ≤ 4096

section
variable {s : State} {x : Nat} {w : Word}

/-- EN = 0, or any write to a queue that is ACTIVE, only stores EN and IEN. -/
theorem queueCtrl_stores (h : w.getLsbD 0 = false ∨ (s.queue x).active = true) :
    s.queueCtrl x w = s.setQueue x { s.queue x with en := w.getLsbD 0, ien := w.getLsbD 1 } := by
  rw [State.queueCtrl, if_pos (by simpa using h)]

variable (hen : w.getLsbD 0 = true) (hidle : (s.queue x).active = false)
include hen hidle

theorem queueCtrl_badSize (hsize : ¬(ringSizeLegal (s.queue x).sqSize ∧ ringSizeLegal (s.queue x).cqSize)) :
    s.queueCtrl x w =
      s.setQueue x { s.queue x with en := w.getLsbD 0, ien := w.getLsbD 1, fault := true, fcode := 1 } := by
  rw [State.queueCtrl, if_neg (by simp [hen, hidle]), if_pos]
  simp only [ringSizeLegal] at hsize
  simp
  omega

variable (hsq : ringSizeLegal (s.queue x).sqSize) (hcq : ringSizeLegal (s.queue x).cqSize)
include hsq hcq

theorem queueCtrl_unbound (howner : (s.queue x).owner = 31) :
    s.queueCtrl x w =
      s.setQueue x { s.queue x with en := w.getLsbD 0, ien := w.getLsbD 1, fault := true, fcode := 2 } := by
  obtain ⟨hs, hs'⟩ := hsq
  obtain ⟨hc, hc'⟩ := hcq
  rw [State.queueCtrl, if_neg (by simp [hen, hidle]), if_neg (by simp [*]), if_pos howner]

/-- EN = 1 opens a bound queue with its indexes at 0. -/
theorem queueCtrl_opens (howner : (s.queue x).owner ≠ 31) :
    s.queueCtrl x w = s.setQueue x { s.queue x with
      en := w.getLsbD 0, ien := w.getLsbD 1, active := true, sqHead := 0, cqTail := 0, sqTail := 0, cqHead := 0
      fault := false, fcode := 0 } := by
  obtain ⟨hs, hs'⟩ := hsq
  obtain ⟨hc, hc'⟩ := hcq
  rw [State.queueCtrl, if_neg (by simp [hen, hidle]), if_neg (by simp [*]), if_neg howner]

end

/-- Numbering an entry leaves whether it faults its queue. -/
@[simp] theorem number_faults (s : State) (x : Nat) (r : Reply) : (s.number x r).1.faults = r.faults := by
  unfold State.number
  split <;> rfl

section
variable {s : State} {n : Fin 4} {m : Fin 64} {q : Queue} (hq : q = s.queue (qidOf 0 n m))
include hq

/-- A disabled queue with nothing fetched and nothing left to write loses ACTIVE. -/
theorem queueDisableDone_closes (hactive : q.active = true) (hen : q.en = false) (hflight : q.inFlight = 0)
    (hreading : q.reading = 0) (hleft : q.fault = true ∨ q.replies = [] ∧ q.sent = []) :
    exec (.queueDisableDone n m) s =
      .next ((s.dropReplies (qidOf 0 n m)).updQueue (qidOf 0 n m) fun q => { q with active := false }) := by
  subst hq
  exact congrArg _ (if_pos (by simp [*]))

/-! ## Fetches and completions (R339, R344, R353) -/

/-- An ACTIVE queue that may fetch asks the host for its next entries. -/
theorem commandFetch_reads (hport : s.portWidth n ≠ 0) (htrain : (s.port n).training = true) (hactive : q.active = true)
    (hen : q.en = true) (hfault : q.fault = false) (hreading : q.reading = 0) (howner : q.owner < 17) {size k : Nat}
    (hsize : size = max 1 q.sqSize) (hk : k = min (min 8 ((q.sqTail + 2 * size - q.sqHead) % (2 * size)))
      (min (size - q.sqHead % size) (s.fetchRoom q.owner))) (hk0 : k ≠ 0) :
    exec (.commandFetch n m) s = .next { ((s.setFlights q.owner (s.inFlight q.owner + k)).setQueue (qidOf 0 n m)
      { q with reading := k, inFlight := q.inFlight + k }) with hostReads := s.hostReads ++
        [{ port := n, addr := q.sqBase.toNat + 64 * (q.sqHead % size), len := 64 * k
           fetch := some (qidOf 0 n m, q.owner) }] } := by
  subst hq hsize hk
  refine if_neg ?_
  simp only [hport, htrain, hactive, hen, hfault, hreading, hk0, Bool.not_true, Bool.false_eq_true, not_true_eq_false,
    false_or, ne_eq]
  omega

/-- The oldest reply at the port is written while the ring has room. -/
theorem completionWrite_writes {r : Reply} {rest : List Reply} (hsent : q.sent = r :: rest) (hactive : q.active = true)
    (hfault : q.fault = false) (hroom : q.ringUsed < q.cqSize) (err : Bool) :
    exec (.completionWrite n m err) s =
      let x := qidOf 0 n m
      let u := s.number x r
      let t : State := ({ u.2 with hostWrites := u.2.hostWrites ++
          [{ port := n, addr := q.cqBase.toNat + 32 * (q.cqTail % q.cqSize)
             bytes := u.1.packet x (bit (decide (q.cqTail < q.cqSize))) q.sqHead }] } : State).updQueue x fun q =>
        { q with sent := rest, cqTail := (q.cqTail + 1) % (2 * q.cqSize) }
      let v := if r.faults then t.queueFault x 6 else t
      .next (if err then (s.queueFault x 5).hpStick n hpPcieErr else if q.ien then v.sendMsix n m else v) := by
  subst hq
  have hopen : ¬((!(s.queue (qidOf 0 n m)).active) = true ∨ (s.queue (qidOf 0 n m)).fault = true ∨
      (s.queue (qidOf 0 n m)).cqSize ≤ (s.queue (qidOf 0 n m)).ringUsed) := by
    simpa [hactive, hfault] using hroom
  simp only [exec, execCompletionWrite, hsent, if_neg hopen]
  rw [← number_faults s (qidOf 0 n m) r]
  cases err <;> rfl

end

/-- The answer to a fetch goes to its queue. -/
theorem hostReadCompletion_fetch {s : State} {n : Fin 4} {i : Fin 256} {h : HostRead} {x r : Nat}
    (hh : (s.hostReads.filter fun h => h.port == n.val)[i.val]? = some h) (hf : h.fetch = some (x, r)) (data : List Byte)
    (err : Bool) :
    exec (.hostReadCompletion n i data err) s =
      .next (({ s with hostReads := s.hostReads.erase h } : State).fetchDone h x r data err) := by
  simp only [exec, execHostReadCompletion, hh, hf]

/-- Settles O42: each row goes by the state of its queue. One read of at most eight entries for each queue (log 51), numbers
formed as entries are written (log 52) and EN = 1 to an ACTIVE queue (log 53) are the model's own choices. -/
theorem queuesOpenFetchAndComplete : Obligations.QueuesOpenFetchAndComplete := by
  intro s n m w hport x q v
  refine ⟨fun ha hlt hring => ?_, fun ha hout => ?_, fun ha hlt hring => ?_, fun ha hout => ?_, sqTailWrite_off s n m w,
    cqHeadWrite_off s n m w, fun hen ha ho h1 h2 h3 h4 => ?_, ⟨fun h => ?_, fun hen ha hsize => ?_,
      fun hen ha hsq hcq ho => ?_⟩, queueDisableDone_closes rfl,
    fun htrain ha hen hf hr hk ho => commandFetch_reads rfl hport htrain ha hen hf hr ho rfl rfl hk,
    fun h r i data err hh hf => hostReadCompletion_fetch hh hf data err,
    fun r rest hsent ha hf hroom =>
      ⟨completionWrite_writes rfl hsent ha hf hroom false, completionWrite_writes rfl hsent ha hf hroom true⟩⟩
  · rw [sqTailWrite_present hport, tailWrite_inRange ha hlt hring]
  · rw [sqTailWrite_present hport, tailWrite_outOfRange ha hout]
    rfl
  · rw [cqHeadWrite_present hport, headWrite_inRange ha hlt hring]
  · rw [cqHeadWrite_present hport, headWrite_outOfRange ha hout]
    rfl
  · rw [qCtrlWrite_present hport, queueCtrl_opens hen ha ⟨h1, h2⟩ ⟨h3, h4⟩ ho, hen]
  · rw [qCtrlWrite_present hport, queueCtrl_stores h]
  · rw [qCtrlWrite_present hport, queueCtrl_badSize hen ha hsize]
  · rw [qCtrlWrite_present hport, queueCtrl_unbound hen ha hsq hcq ho]

end Sys2Proof.Machine
end

section
/-!
SUPPORT. The loss of a host port, and the transactions of the management port; with the statement about them (O44).
-/
namespace Sys2Proof.Machine

/-! ## The loss of a port (R340) -/

/-- A queue that is closed and has nothing left to write. -/
def Queue.cleared (q : Queue) : Prop := q.active = false ∧ q.sent = [] ∧ q.replies = []

/-- What the loss of its port does to one queue: `losePort_eq` makes `losePort` of it. -/
def State.loseQueue (s : State) (x : Nat) : State :=
  let q := s.queue x
  (s.dropReplies x).setQueue x { owner := q.owner, last := q.last, rseq := q.rseq, authFails := q.authFails
                                 inFlight := (s.running.filter fun r => r.cmd.qid == x).length }

/-- The queues and ports of a state, which the mesh and the event buffers do not touch. -/
def State.hostSide (s : State) : Tab Queue × Tab HostPort := (s.queues, s.ports)

theorem queue_congr {s t : State} (h : s.hostSide = t.hostSide) (x : Nat) : s.queue x = t.queue x :=
  congrArg (fun e : Tab Queue × Tab HostPort => tget (queueReset x) e.1 x) h

theorem port_congr {s t : State} (h : s.hostSide = t.hostSide) (n : Nat) : s.port n = t.port n :=
  congrArg (fun e : Tab Queue × Tab HostPort => tget ({} : HostPort) e.2 n) h

theorem undeliver_hostSide (s : State) (rs : List Reply) : (s.undeliver rs).hostSide = s.hostSide :=
  foldl_keeps State.hostSide (fun s r => by dsimp only; split <;> rfl) rs s

theorem closePort_hostSide (s : State) (x id : Nat) : (s.closePort x id).hostSide = s.hostSide := by
  unfold State.closePort
  split <;> rfl

theorem purge_hostSide (s : State) (id : Nat) : (s.purge id).hostSide = s.hostSide := by
  have hbufs := foldl_keeps State.hostSide (f := fun s x => State.updVc s x fun b => b.cut id) (fun _ _ => rfl)
    (s.mesh.vc.map (·.1)) s
  exact (foldl_keeps State.hostSide (fun s x => closePort_hostSide s x id) _ _).trans hbufs

theorem loseQueue_port (s : State) (x n : Nat) : (s.loseQueue x).port n = s.port n :=
  port_congr (undeliver_hostSide s _) n

/-- The queue itself is cleared and keeps its owner; every other one is as it was. -/
theorem loseQueue_same (s : State) (x : Nat) :
    ((s.loseQueue x).queue x).cleared ∧ ((s.loseQueue x).queue x).owner = (s.queue x).owner := by
  rw [State.loseQueue, State.setQueue_queue_same]
  exact ⟨⟨rfl, rfl, rfl⟩, rfl⟩

theorem loseQueue_other (s : State) {x y : Nat} (h : y ≠ x) : (s.loseQueue x).queue y = s.queue y := by
  rw [State.loseQueue, State.setQueue_queue, if_neg h, State.dropReplies, State.updQueue_queue, if_neg h]
  exact queue_congr (undeliver_hostSide s _) y

theorem loseQueue_owner (s : State) (x y : Nat) : ((s.loseQueue x).queue y).owner = (s.queue y).owner := by
  by_cases h : y = x
  · rw [h]; exact (loseQueue_same s x).2
  · rw [loseQueue_other s h]

theorem loseQueue_cleared {s : State} {y : Nat} (h : (s.queue y).cleared) (x : Nat) : ((s.loseQueue x).queue y).cleared := by
  by_cases hx : y = x
  · rw [hx]; exact (loseQueue_same s x).1
  · rwa [loseQueue_other s hx]

/-- Every queue of a list that loses its port is cleared. -/
theorem loseQueues_cleared {y : Nat} : ∀ (xs : List Nat) {s : State}, y ∈ xs ∨ (s.queue y).cleared →
    ((xs.foldl State.loseQueue s).queue y).cleared
  | [], _, h => h.resolve_left List.not_mem_nil
  | x :: xs, s, h => by
    refine loseQueues_cleared xs ?_
    rcases h with h | h
    · rcases List.mem_cons.mp h with rfl | h
      · exact .inr (loseQueue_same s y).1
      · exact .inl h
    · exact .inr (loseQueue_cleared h x)

/-- The queues of a port. -/
def ofPort (n x : Nat) : Bool := qidKind x == 0 && qidHost x == n

theorem ofPort_iff {n x : Nat} : ofPort n x = true ↔ qidKind x = 0 ∧ qidHost x = n := by
  simp [ofPort]

/-- The commands, packets and reads of a lost port vanish, which leaves queues and ports; then its queues are cleared, and its
registers but PERST_N and training reset. -/
theorem losePort_eq (s : State) (n : Nat) : ∃ u : State, u.hostSide = s.hostSide ∧
    s.losePort n = (((u.queues.map (·.1)).filter (ofPort n)).foldl State.loseQueue u).updPort n
      fun p => { perst := p.perst, training := p.training } := by
  refine ⟨_, ?_, rfl⟩
  exact (foldl_keeps State.hostSide purge_hostSide _ _).trans 
    (foldl_keeps State.hostSide (f := fun t r => t.setFlights r (t.inFlight r - 1)) (fun _ _ => rfl) _ s)

section
variable (s : State) (n : Nat)

theorem losePort_queue {e : Nat × Queue} (he : e ∈ s.queues) (hn : ofPort n e.1 = true) :
    ((s.losePort n).queue e.1).cleared ∧ ((s.losePort n).queue e.1).owner = (s.queue e.1).owner := by
  obtain ⟨u, hu, h⟩ := losePort_eq s n
  have hqueues : u.queues = s.queues := congrArg Prod.fst hu
  rw [h, State.updPort_queue, ← queue_congr hu, hqueues]
  exact ⟨loseQueues_cleared _ (.inl (List.mem_filter.mpr ⟨List.mem_map_of_mem he, hn⟩)),
    foldl_keeps (fun t => (State.queue t e.1).owner) (fun t x => loseQueue_owner t x e.1) _ u⟩

theorem losePort_port : (s.losePort n).port n = { perst := (s.port n).perst, training := (s.port n).training } := by
  obtain ⟨u, hu, h⟩ := losePort_eq s n
  rw [h, State.updPort_port_same, foldl_keeps (fun t => State.port t n) (fun t x => loseQueue_port t x n), port_congr hu]

end

/-- PERST_N and a link that goes down lose the port. -/
theorem perstAssert_loses (s : State) (n : Fin 4) :
    exec (.perstAssert n) s = .next ((s.losePort n).updPort n fun p => { p with perst := true, training := false }) := rfl

theorem hostLinkDown_loses (s : State) (n : Fin 4) : exec (.hostLinkDown n) s = .next (s.losePort n) := rfl

/-! ## The management port (R352) -/

section
variable {s : State} {a : BitVec 7} (ha : a.toNat = 0x58 + s.smbAddr) (hheld : s.boot.held = false)
include ha hheld

theorem smbHit_of_address : s.smbHit a = true := by
  simp [State.smbHit, State.smbAddress, ha, hheld]

theorem smbusStatusRead_reads : exec (.smbusStatusRead a) s = .next { s with
    readOut := leBytes 1 4 ++ leBytes 4 (s.boot.status % 65536 + 2 ^ 16 * bit s.boot.ready
      + 2 ^ 17 * bit (!(s.queue mgmtQid).sent.isEmpty) + 2 ^ 18 * min 31 (s.inFlight 16)) } := by
  simp only [exec, execSmbusStatusRead, smbHit_of_address ha hheld, if_true]

variable (hready : s.boot.ready = true)
include hready

section
variable {b : List Byte} (hlen : b.length = 64) {q : Queue} (hq : q = s.queue mgmtQid) {c : CmdRec}
  (hc : c = { qid := mgmtQid, stamp := 16, bytes := b }) {u : State}
  (hu : u = (s.setFlights 16 (s.inFlight 16 + 1)).setQueue mgmtQid { q with inFlight := q.inFlight + 1 })
include hlen hq hc hu

/-- A command of 64 bytes with a good PEC is taken while there is room, and else answered QUEUE_FULL. -/
theorem smbusCommandWrite_joins (hroom : q.inFlight < q.depth ∧ (s.buffer 16).length < 256 ∧ s.inFlight 16 < 256) :
    exec (.smbusCommandWrite a b true) s = .next (u.setBuffer 16 (s.buffer 16 ++ [c])) := by
  subst hq hc hu
  refine (if_neg ?_).trans (congrArg _ (if_neg ?_))
  · simp [smbHit_of_address ha hheld, hready, hlen]
  · simp only [Bool.or_eq_true, decide_eq_true_eq]
    omega

theorem smbusCommandWrite_full (hfull : ¬(q.inFlight < q.depth ∧ (s.buffer 16).length < 256 ∧ s.inFlight 16 < 256)) :
    exec (.smbusCommandWrite a b true) s = .next (u.reply c stQueueFull []) := by
  subst hq hc hu
  refine (if_neg ?_).trans (congrArg _ (if_pos ?_))
  · simp [smbHit_of_address ha hheld, hready, hlen]
  · simp only [Bool.or_eq_true, decide_eq_true_eq]
    omega

end

theorem smbusReplyRead_reads {r : Reply} {rest : List Reply} (hsent : (s.queue mgmtQid).sent = r :: rest)
    {u : Reply × State} (hu : u = (s.setQueue mgmtQid { s.queue mgmtQid with sent := rest }).number mgmtQid r) :
    exec (.smbusReplyRead a) s = .next { (if r.faults then u.2.queueFault mgmtQid 6 else u.2) with
      readOut := leBytes 1 32 ++ u.1.packet mgmtQid 0 0 } := by
  subst hu
  simp only [exec, execSmbusReplyRead, smbHit_of_address ha hheld, hready, hsent, Bool.not_true, Bool.false_eq_true, or_self,
    if_false]
  rw [← number_faults _ mgmtQid r]
  rfl

theorem smbusReplyRead_empty (hsent : (s.queue mgmtQid).sent = []) :
    exec (.smbusReplyRead a) s = .next { s with readOut := leBytes 1 0 } := by
  simp only [exec, execSmbusReplyRead, smbHit_of_address ha hheld, hready, hsent, Bool.not_true, Bool.false_eq_true, or_self,
    if_false]

end

/-- While a reply waits, the Alert Response Address reads as the port's own. -/
theorem smbusAlertResponse_reads {s : State} (hready : s.boot.ready = true) (hsent : (s.queue mgmtQid).sent ≠ []) :
    exec .smbusAlertResponse s = .next { s with readOut := leBytes 1 (0x58 + s.smbAddr) } := by
  have hassert : s.alertAsserted = true := by simp [State.alertAsserted, hready, hsent]
  simp only [exec, execSmbusAlertResponse, hassert, if_true, State.smbAddress]

/-- Settles O44: a lost port from what its loss does to each queue, the management port by its transactions. Numbers formed
as a reply is read (log 52) and the form of the count byte and of the answered address (log 55) are the model's own choices. -/
theorem portsSlicesAndManagement : Obligations.PortsSlicesAndManagement := by
  intro s
  refine ⟨fun n => ⟨⟨_, perstAssert_loses s n, ?assert⟩, ⟨_, hostLinkDown_loses s n, ?down⟩, rfl⟩, fun c => rfl, rfl,
    fun a ha hheld => ⟨fun hready b hlen => ⟨smbusCommandWrite_joins ha hheld hready hlen rfl rfl rfl,
        smbusCommandWrite_full ha hheld hready hlen rfl rfl rfl⟩,
      fun r rest hready hsent => smbusReplyRead_reads ha hheld hready hsent rfl,
      smbusReplyRead_empty ha hheld, smbusStatusRead_reads ha hheld⟩,
    smbusAlertResponse_reads⟩
  case assert =>
    simp only [State.updPort_port_same, State.updPort_queue, losePort_port, true_and]
    intro e he hk hh
    obtain ⟨⟨hactive, hsent, hreplies⟩, howner⟩ := losePort_queue s n he (ofPort_iff.mpr ⟨hk, hh⟩)
    exact ⟨hactive, hsent, hreplies, howner⟩
  case down =>
    simp only [losePort_port, true_and]
    exact fun e he hk hh => (losePort_queue s n he (ofPort_iff.mpr ⟨hk, hh⟩)).1

end Sys2Proof.Machine
end

section
/-!
SUPPORT. The work of the integrity and event commands; with the statement about them (O48).
-/
namespace Sys2Proof.Machine

section
variable {c : CmdRec} {s : State}

/-! ## PERCOLATOR_CONTROL and CUPPING_CONTROL (R393, R394, R449) -/

/-- The Percolator after RELOAD: its copies as ROM has them, and the pass from the start. -/
def Percolator.reloaded (w : Percolator) : Percolator :=
  { w with copies := Vector.replicate 3 0, status := 0, romPar := false, voteFail := false, tile := 0, frame := 0, later := [] }

theorem bodyPercolatorControl_answers (hst : c.stray [(16, 1)] = false) (hact : c.num 16 1 = 1 ∨ c.num 16 1 = 2)
    {w : Percolator} (hw : w = if c.num 16 1 = 1 then s.perc.reloaded else s.perc) (i : CmdIn) :
    bodyPercolatorControl c i s = .reply stOk
      (resultOf [(14, 1, w.status), (16, 4, w.silent.toNat), (20, 4, w.essential.toNat)]) { s with perc := w } := by
  subst hw
  have hknown : (c.num 16 1 == 1 || c.num 16 1 == 2) = true := by simpa using hact
  rw [bodyPercolatorControl, checked_none (by simp [-Bool.not_or, hst, hknown])]
  rfl

theorem bodyCuppingControl_sets (hact : c.num 16 1 = 1) (hst : c.stray [(16, 2), (20, 4)] = false) (hen : c.num 17 1 ≤ 1)
    (hlow : 100 ≤ c.num 20 4) (hhigh : c.num 20 4 ≤ 3600000) (i : CmdIn) :
    bodyCuppingControl c i s = .reply stOk
      (resultOf [(14, 1, c.num 17 1), (16, 4, c.num 20 4), (20, 4, s.cupTotal)])
      { s with cupEn := c.num 17 1 == 1, cupPeriod := c.num 20 4 } := by
  have hbit : bit (c.num 17 1 == 1) = c.num 17 1 := by
    obtain h | h : c.num 17 1 = 0 ∨ c.num 17 1 = 1 := by omega
    all_goals rw [h]; rfl
  have hper : c.num 20 4 ≠ 0 := by omega
  rw [bodyCuppingControl, checked_none (by
    simp [firstFail, hact, hst, hper, Nat.not_lt.mpr hen, Nat.not_lt.mpr hlow, Nat.not_lt.mpr hhigh])]
  simp only [hact, if_true, hbit]
  rfl

theorem bodyCuppingControl_reads (hact : c.num 16 1 = 2) (hst : c.stray [(16, 2)] = false) (hen : c.num 17 1 ≤ 1) (i : CmdIn) :
    bodyCuppingControl c i s =
      .reply stOk (resultOf [(14, 1, bit s.cupEn), (16, 4, s.cupPeriod), (20, 4, s.cupTotal)]) s := by
  rw [bodyCuppingControl, checked_none (by simp [firstFail, *])]
  simp [hact]

/-! ## FAULT_LOG_READ (R359, R395, R460) -/

theorem descTags_of_descReady {d : Desc} {n : Nat} {isWrite : Bool} (h : s.descReady c d n isWrite) : s.descTags c d = false := by
  rcases h with ⟨hd, -⟩ | ⟨-, -, ht⟩ <;> simp [State.descTags, *]

/-- Entries that the platform owner is given are read. -/
def State.logMarked (s : State) (r : Nat) (es : List LogEntry) : State :=
  if r = 16 then { s with logRead := es.foldl (fun t e => tset false t e.index true) s.logRead } else s

/-- The caller's next entries go to its descriptor. The first one asked for lies `dist` past the oldest held; from 2^31 on it is
one that is gone (Table 14-10). -/
theorem bodyFaultLogRead_writes {d : Desc} {n dist : Nat} (hd : d = c.desc 24) (hn : n = c.num 20 2)
    (hdist : dist = (c.num 16 4 + 2 ^ 32 - s.logOldest) % 2 ^ 32) (hst : c.stray [(16, 6), (24, 16)] = false)
    (hrsv : d.rsv = 0) (hpos : 1 ≤ n) (hmax : n ≤ 256) (hlen : 32 * n ≤ d.len) (hready : s.descReady c d (32 * n) true)
    {p : List LogEntry × Nat} (hp : p = pickLog c.stamp (s.log.reverse.drop (if dist < 2 ^ 31 then dist else 0)) n)
    {o : Bool × State} (ho : o = (s.logMarked c.stamp p.1).written c d (p.1.flatMap ((s.logMarked c.stamp p.1).logView c.stamp)))
    (i : CmdIn) :
    bodyFaultLogRead c i s = .reply (if o.1 then stOk else stPoison)
      (if o.1 then resultOf [(14, 4, p.1.length),
        (18, 4, if dist < 2 ^ 31 then (c.num 16 4 + p.2) % 2 ^ 32 else (s.logOldest + p.2) % 2 ^ 32),
        (22, 4, (s.logNext + 2 ^ 32 - 1) % 2 ^ 32)] else []) o.2 := by
  subst hd hn ho
  have hn0 : c.num 20 2 ≠ 0 := by omega
  have hl0 : (c.desc 24).len ≠ 0 := by omega
  have hmax' : ¬256 < c.num 20 2 := by omega
  have hlen' : ¬(c.desc 24).len < 32 * c.num 20 2 := by omega
  rw [bodyFaultLogRead, checked_none (by
      simp [firstFail, hst, hrsv, hn0, hmax', Desc.short, hlen', spaceBad_of_descReady hready, descFails_of_descReady hready,
        descTags_of_descReady hready]),
    whenDesc_of_descReady hready, ← replyWith_written hl0, ← hdist]
  obtain ⟨es, seen⟩ := p
  simp only [← hp]
  by_cases hpo : c.stamp = 16
  · simp only [State.logMarked, CmdRec.po, beq_iff_eq, if_pos hpo]
  · simp only [State.logMarked, CmdRec.po, beq_iff_eq, if_neg hpo]

/-! ## FAULT_INJECT (R396, Table 12-9) -/

/-- The number of the last stored bit of a word of an SRAM, or of a beat of DRAM. -/
def lastStoredBit (a : Nat) : Nat := if (areaOf (a % 2 ^ 44)).sram then 38 else 71

theorem bodyFaultInject_memory {n a : Nat} (hn : n = c.num 16 1) (hkind : n = 1 ∨ n = 2 ∨ n = 3)
    (hat : s.locate c.stamp (c.num 24 8) 1 true = .ok a)
    (hst : c.stray ([(16, 1), (24, 8)] ++ if n = 3 then [] else [(35, 1)]) = false)
    (hbit : n ≠ 3 → c.num 35 1 + (n - 1) ≤ lastStoredBit a) (hown : s.ownMemory c.stamp (a % 2 ^ 44) = true)
    (hon : s.addressOff (a % 2 ^ 44) = false) (i : CmdIn) :
    bodyFaultInject c i s = .reply stOk [] (s.injectAt n (a % 2 ^ 44) (c.num 35 1)) := by
  subst hn
  have htop : c.num 16 1 ≠ 3 → ¬lastStoredBit a - (if c.num 16 1 = 2 then 1 else 0) < c.num 35 1 := by
    intro h3
    have := hbit h3
    split <;> omega
  simp only [lastStoredBit] at htop
  simp only [bodyFaultInject, if_pos hkind, injectMemory, hat]
  rw [checked_none (by rw [hst]; simpa [firstFail_none_iff] using htop)]
  simp only [hown, hon, Bool.not_true, Bool.false_eq_true, if_false]

theorem bodyFaultInject_context {p : Nat} (hkind : c.num 16 1 = 4) (hst : c.stray [(16, 1), (32, 6)] = false)
    (hctx : c.num 34 1 ≤ 63) (hbit : c.num 35 1 ≤ 31) (hword : c.num 36 2 ≤ 255)
    (htile : s.tileOfLogical (c.num 32 2) = some p) (hown : s.ownerOf p = c.stamp) (hon : s.tileOff p = false) (i : CmdIn) :
    bodyFaultInject c i s = .reply stOk []
      (s.setMem (s.mem.flip (ctxBase p (c.num 34 1) + 4 * c.num 36 2) (c.num 35 1))) := by
  have hmine : (some p).filter (fun p => s.ownerOf p == c.stamp) = some p := Option.filter_some_pos (by simpa using hown)
  rw [bodyFaultInject, if_neg (by omega), if_pos hkind]
  simp only [htile, hmine]
  rw [checked_none (by simp [firstFail, hst, hon, Nat.not_lt.mpr hctx, Nat.not_lt.mpr hbit, Nat.not_lt.mpr hword])]

theorem bodyFaultInject_partition (hkind : c.num 16 1 = 5) (hst : c.stray [(16, 1)] = false) (i : CmdIn) :
    bodyFaultInject c i s =
      .reply stOk [] (s.raiseFault { cls := 2, part := c.stamp, source := 6, injected := true }) := by
  rw [bodyFaultInject, if_neg (by omega), if_neg (by omega), if_pos hkind, checked_none (by simp [hst])]

theorem bodyFaultInject_latch (hkind : c.num 16 1 = 6) (hst : c.stray [(16, 1), (35, 1)] = false) (i : CmdIn) :
    bodyFaultInject c i s = .reply stOk []
      { s with perc := { s.perc with
          copies := s.perc.copies.set 0 (s.perc.copies[0] ^^^ BitVec.ofNat 256 (2 ^ c.num 35 1)) } } := by
  rw [bodyFaultInject, if_neg (by omega), if_neg (by omega), if_neg (by omega), if_pos hkind, checked_none (by simp [hst])]

/-! ## EVENT_SUBSCRIBE (R404) -/

theorem tget_foldl_tset {α : Type} [DecidableEq α] (d v : α) (k : Nat) : ∀ (es : List Nat) (t : Tab α),
    tget d (es.foldl (fun t e => tset d t e v) t) k = if k ∈ es then v else tget d t k
  | [], _ => by simp
  | e :: es, t => by
    rw [List.foldl_cons, tget_foldl_tset d v k es, tget_tset]
    by_cases he : k = e <;> simp [he]

/-- The codes that EVENT_SUBSCRIBE names: one, or every one of the caller's role. -/
def CmdRec.namedEvents (c : CmdRec) : List Nat :=
  if c.num 16 2 = 0xFFFF then eventCodes.filter fun e => c.po || e != 0x50 else [c.num 16 2]

/-- The subscriptions of its role after it. -/
def CmdRec.subscribed (c : CmdRec) (b : EventBuf) : EventBuf :=
  { b with subs := c.namedEvents.foldl (fun t e => tset none t e (if c.num 18 1 = 0 then some (c.num 20 4) else none)) b.subs }

theorem mem_namedEvents (c : CmdRec) (e : Nat) : e ∈ c.namedEvents ↔ e = c.num 16 2 ∧ c.num 16 2 ≠ 0xFFFF ∨
    c.num 16 2 = 0xFFFF ∧ e ∈ eventCodes ∧ (c.stamp = 16 ∨ e ≠ 0x50) := by
  unfold CmdRec.namedEvents
  split
  case isTrue h => simp [h, CmdRec.po]
  case isFalse h => simp [h]

theorem bodyEventSubscribe_subscribes (hst : c.stray [(16, 3), (20, 4)] = false)
    (hcode : eventCodes.contains (c.num 16 2) ∨ c.num 16 2 = 0xFFFF) (hrole : c.stamp ≠ 16 → c.num 16 2 ≠ 0x50)
    (hact : c.num 18 1 ≤ 1) (howner : (s.queue (c.num 20 4)).owner = c.stamp) (i : CmdIn) :
    bodyEventSubscribe c i s = .reply stOk [] (s.setEvb c.stamp (c.subscribed (s.evb c.stamp))) := by
  have hknown : (eventCodes.contains (c.num 16 2) || c.num 16 2 == 0xFFFF) = true := by simpa using hcode
  have hallowed : (!c.po && c.num 16 2 == 0x50) = false := by simpa [CmdRec.po] using hrole
  rw [bodyEventSubscribe, checked_none (by
    simp [-Bool.not_or, -List.contains_eq_mem, firstFail, hst, hknown, hallowed, howner, Nat.not_lt.mpr hact])]
  rfl

/-! ## EVENT_ACK (R354, R405) -/

/-- A delivered event, written to its queue, that the acknowledged ESEQ covers. -/
def State.acked (s : State) (c : CmdRec) (y : EventEntry) : Bool :=
  y.delivered && !s.eventQueued c.stamp y.eseq && decide ((c.num 16 2 + 65536 - y.eseq) % 65536 ≤ 255)

theorem bodyEventAck_frees (hst : c.stray [(16, 2)] = false) {kept : List EventEntry}
    (hkept : kept = (s.evb c.stamp).entries.filter fun y => !s.acked c y) (i : CmdIn) :
    bodyEventAck c i s = .reply stOk (resultOf [(14, 2, (s.evb c.stamp).entries.length - kept.length)])
      ((s.setEvb c.stamp { s.evb c.stamp with entries := kept }).tellOverflow c.stamp) := by
  subst hkept
  rw [bodyEventAck, checked_none (by simp [hst])]
  simp only [State.acked, Bool.and_right_comm]

end

/-- Settles O48: each command's work where it begins. That RELOAD puts the copies back, kept as differences, within its row
(log 72) is the model's own choice. -/
theorem integrityCommandsAnswer : Obligations.IntegrityCommandsAnswer := by
  intro s r c rest auth b
  refine ⟨fun h hst hact => ?percolator, fun h hact hst hen hper => ?cupSet, fun h hact hst hen => ?cupRead,
    fun d n dist h hd hn hdist hst hrsv hpos hmax hlen hready => ?log,
    fun n a h hn hkind hat hst hbit hown hon => ?memory,
    fun p h hkind hst hctx hbit hword htile hown hon => ?context, fun h hkind hst => ?partition,
    fun h hkind hst => ?latch, fun code h hc hst hcode hrole hact howner => ?subscribe, fun h hst => ?ack⟩
  case percolator =>
    exact exec_accepted (body := bodyPercolatorControl) rfl h
      (bodyPercolatorControl_answers (c := b.taken c auth) hst hact rfl {})
  case cupSet =>
    exact exec_accepted (body := bodyCuppingControl) rfl h
      (bodyCuppingControl_sets (c := b.taken c auth) hact hst hen hper.1 hper.2 {})
  case cupRead =>
    exact exec_accepted (body := bodyCuppingControl) rfl h
      (bodyCuppingControl_reads (c := b.taken c auth) hact hst hen {})
  case log =>
    exact exec_accepted (body := bodyFaultLogRead) rfl h
      (bodyFaultLogRead_writes (c := b.taken c auth) hd hn hdist hst hrsv hpos hmax hlen hready rfl rfl {})
  case memory =>
    exact exec_accepted (body := bodyFaultInject) rfl h
      (bodyFaultInject_memory (c := b.taken c auth) hn hkind hat hst hbit hown hon {})
  case context =>
    exact exec_accepted (body := bodyFaultInject) rfl h
      (bodyFaultInject_context (c := b.taken c auth) hkind hst hctx hbit hword htile hown hon {})
  case partition =>
    exact exec_accepted (body := bodyFaultInject) rfl h (bodyFaultInject_partition (c := b.taken c auth) hkind hst {})
  case latch =>
    exact exec_accepted (body := bodyFaultInject) rfl h (bodyFaultInject_latch (c := b.taken c auth) hkind hst {})
  case subscribe =>
    subst hc
    refine ⟨b.setEvb c.stamp (c.subscribed (b.evb c.stamp)), exec_accepted (body := bodyEventSubscribe) rfl h
      (bodyEventSubscribe_subscribes (c := b.taken c auth) hst hcode hrole hact howner {}), ?_⟩
    simp only [State.setEvb_evb_same]
    refine ⟨trivial, rfl, fun e => ?_⟩
    simp only [CmdRec.subscribed, tget_foldl_tset, mem_namedEvents]
  case ack =>
    exact exec_accepted (body := bodyEventAck) rfl h (bodyEventAck_frees (c := b.taken c auth) hst rfl {})

end Sys2Proof.Machine
end

section
/-!
SUPPORT. One step of the block: the front command, one cycle of the clocks when none waits, and the state after reset; and
why the canonical form of the memories is not an invariant of every state; with the statements about them (O1, O2, O3, O5).
-/
namespace Sys2Proof.Machine

/-- Settles O1: the step is defined so. -/
theorem stepRunsTheFrontCommand : Obligations.StepRunsTheFrontCommand := fun _ _ _ => rfl

/-! ## The state after reset (R488) -/

theorem queueReset_en (x : Nat) : (queueReset x).en = false := by
  unfold queueReset
  split <;> rfl

/-- Settles O5: every table is empty, so that each reader answers its reset value. -/
theorem resetIsCanonicalAndBlank : Obligations.ResetIsCanonicalAndBlank :=
  ⟨rfl, rfl, wf_reset, rfl, fun _ => ⟨rfl, rfl, rfl⟩, rfl, fun _ => rfl, fun _ => rfl, queueReset_en⟩

/-! ## One cycle of the clocks -/

/-- A table mapped by a function that keeps the default reads as the mapped values. -/
theorem tget_map {α : Type} (d : α) (f : α → α) (hd : f d = d) (t : Tab α) (k : Nat) :
    tget d (t.map fun e => (e.1, f e.2)) k = f (tget d t k) := by
  induction t with
  | nil => exact hd.symm
  | cons e r ih =>
    obtain ⟨j, v⟩ := e
    simp only [List.map_cons, tget, ih]
    split <;> rfl

/-- A table in which the keys below `m` are set, each to its own value. -/
theorem tget_foldl_range_tset {α : Type} [DecidableEq α] (d : α) (v : Nat → α) (t : Tab α) (m k : Nat) :
    tget d ((List.range m).foldl (fun u n => tset d u n (v n)) t) k = if k < m then v k else tget d t k := by
  induction m with
  | zero => simp
  | succ m ih =>
    rw [List.range_succ, List.foldl_append, List.foldl_cons, List.foldl_nil, tget_tset, ih]
    by_cases hk : k = m
    · simp [hk]
    · have hlt : k < m + 1 ↔ k < m := by omega
      simp only [hk, hlt, if_false]

theorem Router.tick_eq (r : Router) :
    r.tick = { r with drainCycles := r.drainCycles + (if r.draining then 1 else 0) } := by
  unfold Router.tick
  split <;> rfl

theorem Sector.tick_eq (x : Sector) :
    x.tick = { x with agePhase := if x.pstate = .brew ∧ x.agePhase ≠ 1023 then x.agePhase + 1 else x.agePhase } := by
  unfold Sector.tick
  split <;> rfl

/-- A sector after a cycle that ends its microsecond or not. -/
def Sector.cycled (x : Sector) (us : Prop) [Decidable us] : Sector := if us then x.tick.usTick else x.tick

theorem Sector.cycled_eq (x : Sector) (us : Prop) [Decidable us] :
    x.cycled us = { x with
      agePhase := if x.pstate = .brew ∧ x.agePhase ≠ 1023 then x.agePhase + 1 else x.agePhase
      timers := if us then x.timers.map fun e => (e.1, e.2.tick) else x.timers } := by
  unfold Sector.cycled
  rw [Sector.tick_eq]
  split <;> rfl

theorem tick_router (s : State) (r : Nat) : s.tick.router r = (s.router r).tick :=
  tget_map ({} : Router) Router.tick rfl s.mesh.routers r

theorem tick_sector (s : State) {n : Nat} (h : n < 8) : s.tick.sector n = (s.sector n).cycled (s.usPhase + 1 = usCycles) :=
  (tget_foldl_range_tset ({} : Sector) (fun n => (s.sector n).cycled (s.usPhase + 1 = usCycles)) s.sectors 8 n).trans (if_pos h)

/-- Settles O2: a step on an empty queue is a tick, which is read off field by field. -/
theorem idleStepCountsOneCycle : Obligations.IdleStepCountsOneCycle := by
  intro s hp
  refine ⟨s.tick, by rw [step, hp], rfl, rfl, rfl, fun r => ?router, fun n hn => ?sector⟩
  case router => rw [tick_router, Router.tick_eq]
  case sector => rw [tick_sector s hn, Sector.cycled_eq]

/-! ## The memories' form over a time-out of DRAM_DESCRIBE (R357) -/

/-- DRAM_DESCRIBE of the platform owner, which waits for its channels. It is silent: its port has gone (R340). -/
def describing : Running := { cmd := { qid := 0, stamp := 16, bytes := [0x04#8, 0x02#8], silent := true }, wait := .again [1] }

/-- That command runs, and `old` are the lines that DRAM held before it. -/
def describingOver (old : Tab (Option DramLine)) : State :=
  { running := [describing], mem := { before := some { capacity := 0, desc := [], lines := old, states := [] } } }

/-- At its time limit DRAM gets back the lines it held before, whatever their form: here a line listed as absent. -/
theorem commandTimeout_restores_lines :
    ∃ t, step { describingOver [(0, none)] with pending := [.commandTimeout 16 0] } = .next t ∧ t.mem.lines = [(0, none)] :=
  ⟨(describingOver [(0, none)]).cut describing stTimeout, rfl, by decide +kernel⟩

/-- Refutes O3: the canonical form asks nothing of the lines noted by a running DRAM_DESCRIBE, which its time-out makes the
lines of DRAM again; the statement is about every state, also about one in which those are out of the form. -/
theorem not_memoryStaysCanonical : ¬ Obligations.MemoryStaysCanonical := by
  intro h
  obtain ⟨t, hstep, hlines⟩ := commandTimeout_restores_lines
  obtain ⟨-, -, hcanonical⟩ := (Memory.wf_iff t.mem).mp (h _ t rfl hstep)
  rw [hlines] at hcanonical
  exact absurd hcanonical (by decide)

end Sys2Proof.Machine
end


section
/-!
SUPPORT. What keeps the fuses: every operation of the model leaves them as they were but the fuse programmer of the boot, which
raises the two counters and writes a slot that was blank; with the statement about them (O4). The frame lemmas stand in the order
of the definitions they speak of.
-/
namespace Sys2Proof.Machine

/-! ## Frames -/

theorem foldl_fuses {β : Type} {f : State → β → State} (hf : ∀ s b, (f s b).fuses = s.fuses) (l : List β) (s : State) :
    (l.foldl f s).fuses = s.fuses := foldl_keeps State.fuses hf l s

theorem foldl_snd_fuses {α β : Type} {f : α × State → β → α × State} (hf : ∀ a t b, (f (a, t) b).2.fuses = t.fuses)
    (l : List β) (p : α × State) : (l.foldl f p).2.fuses = p.2.fuses :=
  foldl_keeps (fun p : α × State => p.2.fuses) (fun p => hf p.1 p.2) l p

theorem foldl_moved_fuses {β : Type} {f : Moved → β → Moved} (hf : ∀ m b, (f m b).s.fuses = m.s.fuses) (l : List β)
    (m : Moved) : (l.foldl f m).s.fuses = m.s.fuses := foldl_keeps (fun m : Moved => m.s.fuses) hf l m

theorem foldl_scrub_fuses {β : Type} {f : Scrub → β → Scrub} (hf : ∀ x b, (f x b).s.fuses = x.s.fuses) (l : List β)
    (x : Scrub) : (l.foldl f x).s.fuses = x.s.fuses := foldl_keeps (fun x : Scrub => x.s.fuses) hf l x

theorem foldl_third_fuses {α β γ : Type} {f : α × β × State → γ → α × β × State}
    (hf : ∀ a b t c, (f (a, b, t) c).2.2.fuses = t.fuses) (l : List γ) (p : α × β × State) :
    (l.foldl f p).2.2.fuses = p.2.2.fuses :=
  foldl_keeps (fun p : α × β × State => p.2.2.fuses) (fun p => hf p.1 p.2.1 p.2.2) l p

/-- The state beside an answer, when the answer is taken apart. -/
theorem snd_fuses {α : Type} {p : α × State} {a : α} {t : State} (h : p = (a, t)) : t.fuses = p.2.fuses := by rw [h]

theorem third_fuses {α β : Type} {p : α × β × State} {a : α} {b : β} {t : State} (h : p = (a, b, t)) :
    t.fuses = p.2.2.fuses := by rw [h]

theorem ite_fuses (c : Prop) [Decidable c] (s t : State) : (if c then s else t).fuses = if c then s.fuses else t.fuses :=
  apply_ite State.fuses c s t

/-- `t` has the fuses of `s`: a predicate, so that the two states are compared as they are written and not evaluated. -/
def State.KeepsFuses (s t : State) : Prop := t.fuses = s.fuses

theorem State.KeepsFuses.ite {c : Prop} [Decidable c] {s t u : State} (ht : s.KeepsFuses t) (hu : s.KeepsFuses u) :
    s.KeepsFuses (if c then t else u) := by
  split
  · exact ht
  · exact hu

theorem State.KeepsFuses.foldl {β : Type} {f : State → β → State} (hf : ∀ (s : State) b, s.KeepsFuses (f s b)) (l : List β)
    (s : State) : s.KeepsFuses (l.foldl f s) := foldl_fuses hf l s

theorem ite_snd {α β : Type} (c : Prop) [Decidable c] (p q : α × β) : (if c then p else q).2 = if c then p.2 else q.2 :=
  apply_ite Prod.snd c p q

/-- The state in which a command's work ends or waits. -/
def CmdOut.state : CmdOut → State
  | .reply _ _ s | .wait _ s | .host _ _ s => s

@[simp] theorem state_reply (st : Nat) (r : List Byte) (s : State) : (CmdOut.reply st r s).state = s := rfl
@[simp] theorem state_wait (w : Wait) (s : State) : (CmdOut.wait w s).state = s := rfl
@[simp] theorem state_host (a n : Nat) (s : State) : (CmdOut.host a n s).state = s := rfl

theorem ite_state (c : Prop) [Decidable c] (o u : CmdOut) : (if c then o else u).state = if c then o.state else u.state :=
  apply_ite CmdOut.state c o u

/-- The state after a row: where it answers none, the one before it. -/
def State.after (s : State) : Host.Outcome State Fault Refusal → State
  | .next t => t
  | _ => s

@[simp] theorem after_next (s t : State) : s.after (.next t) = t := rfl
@[simp] theorem after_fault (s : State) (r : Fault) : s.after (.fault r) = s := rfl
@[simp] theorem after_refused (s : State) (r : Refusal) : s.after (.refused r) = s := rfl

theorem elim_fuses {α : Type} {s t : State} {g : α → State} {o : Option α} {a : α} (ho : (o.elim t g).fuses = s.fuses)
    (h : o = some a) : (g a).fuses = s.fuses := by rw [← ho, h, Option.elim_some]

theorem State.KeepsFuses.trans {s t u : State} (ht : s.KeepsFuses t) (hu : t.KeepsFuses u) : s.KeepsFuses u := Eq.trans hu ht

/-! ### Frames of the named operations (Machine/Ops.lean) -/

@[simp] theorem State.raiseEvent_fuses (s : State) (r : ℕ) (e : Event) : (s.raiseEvent r e).fuses = s.fuses := by
  simp only [State.raiseEvent, ite_fuses, State.setEvb_fuses, ite_self]

@[simp] theorem State.enqueue_fuses (s : State) (k : Packet) : (s.enqueue k).fuses = s.fuses := rfl

@[simp] theorem State.sendEvent_fuses (s : State) (src r : ℕ) (e : Event) : (s.sendEvent src r e).fuses = s.fuses := by
  simp only [State.sendEvent, State.enqueue_fuses]

@[simp] theorem State.tellOwner_fuses (s : State) (src q : ℕ) (e : Event) : (s.tellOwner src q e).fuses = s.fuses := by
  simp only [State.tellOwner, ite_fuses, State.sendEvent_fuses, ite_self]

@[simp] theorem State.logFault_fuses (s : State) (cls part flags source object detail addr : ℕ) :
    (s.logFault cls part flags source object detail addr).fuses = s.fuses := by
  simp only [State.logFault, ite_fuses, State.raiseEvent_fuses, ite_self]

@[simp] theorem State.sysFault_fuses (s : State) (source object detail addr part : ℕ) :
    (s.sysFault source object detail addr part).fuses = s.fuses := by
  simp only [State.sysFault, State.logFault_fuses]

@[simp] theorem State.holeAccess_fuses (s : State) (addr status : ℕ) : (s.holeAccess addr status).fuses = s.fuses := by
  simp only [State.holeAccess, State.sysFault_fuses]

@[simp] theorem State.configRefused_fuses (s : State) (offset : ℕ) : (s.configRefused offset).fuses = s.fuses := by
  simp only [State.configRefused, State.sysFault_fuses]

@[simp] theorem State.stick_fuses (s : State) (p : ℕ) (bits : BitVec 32) : (s.stick p bits).fuses = s.fuses := by
  simp only [State.stick, ite_fuses, State.tellOwner_fuses, State.updTile_fuses, ite_self]

@[simp] theorem State.stickMac_fuses (s : State) (p : ℕ) (lost sat unit : BitVec 32) :
    (s.stickMac p lost sat unit).fuses = s.fuses := by
  simp only [State.stickMac, State.updTile_fuses, ite_fuses, State.tellOwner_fuses, ite_self]

@[simp] theorem State.draw_fuses (s : State) : (s.draw).2.fuses = s.fuses := rfl

/-! ### Frames of the SRAMs (Machine/Sram.lean) -/

@[simp] theorem State.tellIntegrity_fuses (s : State) (q source a status : ℕ) :
    (s.tellIntegrity q source a status).fuses = s.fuses := by
  simp only [State.tellIntegrity, ite_fuses, State.raiseEvent_fuses, ite_self]

@[simp] theorem State.unreqUncorr_fuses (s : State) (q finder a : ℕ) : (s.unreqUncorr q finder a).fuses = s.fuses := by
  simp only [State.unreqUncorr, State.tellIntegrity_fuses, State.logFault_fuses]

@[simp] theorem State.hardFault_fuses (s : State) (a : ℕ) : (s.hardFault a).fuses = s.fuses := by
  unfold State.hardFault
  dsimp only
  repeat' split
  all_goals simp only [State.setTracker_fuses, State.setMem_fuses, State.tellIntegrity_fuses, State.logFault_fuses,
    State.raiseFault_fuses]

@[simp] theorem State.trackCorrected_fuses (s : State) (a : ℕ) : (s.trackCorrected a).fuses = s.fuses := by
  simp only [State.trackCorrected, State.setTracker_fuses, ite_fuses, State.setMem_fuses, State.hardFault_fuses, ite_self]

@[simp] theorem State.trackWrite_fuses (s : State) (a : ℕ) : (s.trackWrite a).fuses = s.fuses := by
  simp only [State.trackWrite, ite_fuses, State.setTracker_fuses, ite_self]

@[simp] theorem State.readWord_fuses (s : State) (a : ℕ) : (s.readWord a).2.2.fuses = s.fuses := by
  unfold State.readWord
  split <;> simp only [State.trackCorrected_fuses]

@[simp] theorem State.writeWord_fuses (s : State) (a : ℕ) (d : Word) (poison : Bool) :
    (s.writeWord a d poison).fuses = s.fuses := by
  simp only [State.writeWord, State.trackWrite_fuses, State.setMem_fuses]

@[simp] theorem State.modifyWord_fuses (s : State) (a : ℕ) (f : Word → Word) (poison : Bool) :
    (s.modifyWord a f poison).2.fuses = s.fuses := by
  unfold State.modifyWord
  split <;> simp only [State.unreqUncorr_fuses, State.setMem_fuses, State.writeWord_fuses, State.trackCorrected_fuses]

/-! ### Frames of the mesh (Machine/Mesh.lean) -/

@[simp] theorem State.sysOpen_fuses (s : State) (object : ℕ) : (s.sysOpen object).fuses = s.fuses := by
  simp only [State.sysOpen, State.draw_fuses, State.sysFault_fuses]

@[simp] theorem State.closePort_fuses (s : State) (x id : ℕ) : (s.closePort x id).fuses = s.fuses := by
  simp only [State.closePort, ite_fuses, State.setPortVc_fuses, ite_self]

@[simp] theorem State.purge_fuses (s : State) (id : ℕ) : (s.purge id).fuses = s.fuses := by
  simp -implicitDefEqProofs only [State.purge, State.updVc_fuses, State.closePort_fuses, foldl_fuses, implies_true]

@[simp] theorem State.purgeOn_fuses (s : State) (k : Packet) (r a fuel : Nat) : (s.purgeOn k r a fuel).fuses = s.fuses := by
  induction fuel generalizing s r a with
  | zero => rw [State.purgeOn]
  | succ n ih =>
    rw [State.purgeOn]
    split
    · rw [ih, State.updVc_fuses]
    · rw [State.closePort_fuses, State.updVc_fuses]

@[simp] theorem State.answer_fuses (s : State) (req : Packet) (status : ℕ) (data : List Byte) (poison : ℕ) :
    (s.answer req status data poison).fuses = s.fuses := by
  simp only [State.answer, ite_fuses, ite_self]

@[simp] theorem State.linkLost_fuses (s : State) (r port : ℕ) (k : Packet) (fault : LinkFault) :
    (s.linkLost r port k fault).fuses = s.fuses := by
  simp -implicitDefEqProofs only [State.linkLost, State.setRtSticky_fuses, ite_fuses, State.raiseFault_fuses,
    State.sysFault_fuses, foldl_fuses, implies_true, ite_self]

@[simp] theorem State.linkPoison_fuses (s : State) (r port : ℕ) (k : Packet) : (s.linkPoison r port k).fuses = s.fuses := by
  simp only [State.linkPoison, State.setRtSticky_fuses, ite_fuses, State.sysFault_fuses, State.raiseFault_fuses, ite_self]

@[simp] theorem State.arriveFlit_fuses (s : State) (r a : Nat) (f : Flit) (fault : LinkFault) :
    (s.arriveFlit r a f fault).fuses = s.fuses := by
  simp only [State.arriveFlit, ite_fuses, State.updVc_fuses, State.linkLost_fuses, State.purgeOn_fuses, State.setRtSticky_fuses,
    State.answer_fuses, State.linkPoison_fuses, ite_self]

@[simp] theorem State.pumpOne_fuses (s : State) (id fuel : Nat) : (s.pumpOne id fuel).fuses = s.fuses := by
  induction fuel generalizing s with
  | zero => rw [State.pumpOne]
  | succ n ih =>
    rw [State.pumpOne]
    split
    · rfl
    · dsimp only
      rw [ite_fuses, ih, State.arriveFlit_fuses, ite_self]

@[simp] theorem State.pump_fuses (s : State) : s.pump.fuses = s.fuses := foldl_fuses (fun t _ => t.pumpOne_fuses ..) _ s

@[simp] theorem State.issue_fuses (s : State) (k : Packet) : (s.issue k).fuses = s.fuses := by
  simp only [State.issue, State.enqueue_fuses, ite_fuses, ite_self]

@[simp] theorem execTagGrant_fuses (q : Recip) (s : State) : (s.after (execTagGrant q s)).fuses = s.fuses := by
  unfold execTagGrant
  repeat' split
  all_goals simp only [State.holeAccess_fuses, State.draw_fuses, State.pump_fuses, after_next]

@[simp] theorem State.deliver_fuses (s : State) (r o : ℕ) (k : Packet) (answered : Bool) :
    (s.deliver r o k answered).fuses = s.fuses := by
  simp only [State.deliver, ite_fuses, State.holeAccess_fuses, State.answer_fuses, State.setRtSticky_fuses, ite_self]

@[simp] theorem State.leaveFlit_fuses (s : State) (r o : ℕ) (f : Flit) (fault : LinkFault) (answer : Bool) :
    (s.leaveFlit r o f fault answer).fuses = s.fuses := by
  simp only [State.leaveFlit, ite_fuses, State.linkLost_fuses, State.linkPoison_fuses, State.setPortVc_fuses,
    State.deliver_fuses, ite_self]

@[simp] theorem State.moveFlit_fuses (s : State) (r o a x : Nat) (flips : List (Fin 274)) :
    (s.moveFlit r o a x flips).fuses = s.fuses := by
  unfold State.moveFlit
  split
  · rfl
  · dsimp only
    split
    · rw [State.arriveFlit_fuses, State.updRouter_fuses, State.updVc_fuses]
    · rw [State.leaveFlit_fuses, State.updRouter_fuses, State.updVc_fuses]

@[simp] theorem execMeshFlitForward_fuses (r : Fin 64) (o : Fin 8) (flips : List (Fin 274)) (s : State) :
    (s.after (execMeshFlitForward r o flips s)).fuses = s.fuses := by
  unfold execMeshFlitForward
  dsimp only
  repeat' split
  all_goals simp only [State.updVc_fuses, State.updSector_fuses, State.pump_fuses, State.moveFlit_fuses, after_next]

@[simp] theorem execProxyPassHeld_fuses (r : Fin 64) (a : Fin 8) (v : Fin 34) (s : State) :
    (s.after (execProxyPassHeld r a v s)).fuses = s.fuses := by
  unfold execProxyPassHeld
  dsimp only
  split <;> simp only [ite_fuses, State.updVc_fuses, ite_self, after_next]

@[simp] theorem execMeshCreditReturn_fuses (r : Fin 64) (a : Fin 8) (v : Fin 34) (s : State) :
    (s.after (execMeshCreditReturn r a v s)).fuses = s.fuses := by
  simp only [execMeshCreditReturn, ite_fuses, State.pump_fuses, State.updVc_fuses, ite_self, after_next]

@[simp] theorem State.takeRequest_fuses (s : State) (r : MeshReq) (opc : ℕ) : (s.takeRequest r opc).2.fuses = s.fuses := by
  unfold State.takeRequest
  split <;> rfl

@[simp] theorem execRtCtrlApply_fuses (r : Fin 64) (s : State) : (s.after (execRtCtrlApply r s)).fuses = s.fuses := by
  simp only [execRtCtrlApply, ite_fuses, State.updRouter_fuses, ite_self, after_next]

@[simp] theorem execRouterReopen_fuses (r : Fin 64) (s : State) : (s.after (execRouterReopen r s)).fuses = s.fuses := by
  unfold execRouterReopen
  dsimp only
  split
  · rw [after_next]
  · rw [after_next, State.pump_fuses, ite_fuses, State.sysOpen_fuses, State.updRouter_fuses, ite_self]

@[simp] theorem execSystemRequestReissue_fuses (s : State) : (s.after (execSystemRequestReissue s)).fuses = s.fuses := by
  unfold execSystemRequestReissue
  split <;> simp only [State.issue_fuses, after_next]

/-! ### Frames of main memory (Machine/Dram.lean) -/

@[simp] theorem State.dcStick_fuses (s : State) (c : ℕ) (bits : BitVec 32) : (s.dcStick c bits).fuses = s.fuses := by
  simp only [State.dcStick, State.updCtl_fuses, ite_fuses, State.sysFault_fuses, ite_self]

@[simp] theorem State.dramError_fuses (s : State) (p : Place) (a : ℕ) : (s.dramError p a).fuses = s.fuses := by
  simp only [State.dramError, State.tellOwner_fuses]

@[simp] theorem State.writeBackLine_fuses (s : State) (a : ℕ) : (s.writeBackLine a).fuses = s.fuses := by
  unfold State.writeBackLine
  split <;> simp only [State.setLine_fuses]

@[simp] theorem State.trackLine_fuses (s : State) (p : Place) (a : ℕ) : (s.trackLine p a).fuses = s.fuses := by
  simp only [State.trackLine, State.setTracker_fuses, ite_fuses, State.writeBackLine_fuses, State.tellIntegrity_fuses,
    State.logFault_fuses, ite_self]

@[simp] theorem State.untrackLine_fuses (s : State) (p : Place) (a : ℕ) : (s.untrackLine p a).fuses = s.fuses := by
  simp only [State.untrackLine, ite_fuses, State.setTracker_fuses, ite_self]

@[simp] theorem State.sealFail_fuses (s : State) (p : Place) (a : ℕ) : (s.sealFail p a).fuses = s.fuses := by
  simp only [State.sealFail, State.updCtl_fuses, State.dramError_fuses, State.dcStick_fuses]

@[simp] theorem State.dramRead_fuses (s : State) (p : Place) (a corr : ℕ) (bad : Bool) :
    (s.dramRead p a corr bad).fuses = s.fuses := by
  simp only [State.dramRead, ite_fuses, State.dcStick_fuses, State.updCtl_fuses, State.dramError_fuses, State.trackLine_fuses,
    ite_self]

@[simp] theorem State.metaFetch_fuses (s : State) (c x : ℕ) : (s.metaFetch c x).2.fuses = s.fuses := by
  simp only [State.metaFetch, State.dramRead_fuses]

@[simp] theorem State.metaStore_fuses (s : State) (c x : ℕ) (d : List Byte) : (s.metaStore c x d).fuses = s.fuses := by
  simp only [State.metaStore, State.setLine_fuses]

@[simp] theorem State.setCounter_fuses (s : State) (c x : ℕ) (l : CounterLine) : (s.setCounter c x l).fuses = s.fuses := by
  simp only [State.setCounter, ite_fuses, State.updCtl_fuses, ite_self]

@[simp] theorem State.useCounter_fuses (s : State) (c x : ℕ) : (s.useCounter c x).fuses = s.fuses := by
  simp only [State.useCounter, State.updCtl_fuses]

@[simp] theorem State.useMac_fuses (s : State) (c x : ℕ) : (s.useMac c x).fuses = s.fuses := by
  simp only [State.useMac, State.updCtl_fuses]

@[simp] theorem State.storeLine_fuses (s : State) (c x : ℕ) (l : CounterLine) : (s.storeLine c x l).fuses = s.fuses := by
  simp only [State.storeLine, State.updCtl_fuses]

@[simp] theorem State.reMac_fuses (s : State) (c b v i : Nat) (old new : Nat × Nat) :
    (s.reMac c b v i old new).fuses = s.fuses := by
  unfold State.reMac
  dsimp only
  split
  · split
    · simp only [State.dramRead_fuses]
    · split
      · split <;> simp only [State.updCtl_fuses, State.dramRead_fuses]
      · split
        · next h => split <;> simp only [State.metaStore_fuses, snd_fuses h, State.metaFetch_fuses, State.dramRead_fuses]
        · next h => simp only [snd_fuses h, State.metaFetch_fuses, State.dramRead_fuses]
  · split
    · next h => split <;> simp only [State.metaStore_fuses, snd_fuses h, State.metaFetch_fuses]
    · next h => simp only [snd_fuses h, State.metaFetch_fuses]

@[simp] theorem State.rollOver_fuses (s : State) (c x : ℕ) : (s.rollOver c x).fuses = s.fuses := by
  unfold State.rollOver
  split
  · rfl
  · simp -implicitDefEqProofs only [State.setCounter_fuses, foldl_fuses, ite_fuses, State.reMac_fuses, ite_self, implies_true]

@[simp] theorem State.verify_fuses (s : State) (c x : ℕ) (d : List Byte) : (s.verify c x d).fuses = s.fuses := by
  simp only [State.verify, State.useCounter_fuses, ite_fuses, State.storeLine_fuses, State.updCtl_fuses, ite_self]

@[simp] theorem State.writeBack_fuses (s : State) (c x : ℕ) : (s.writeBack c x).fuses = s.fuses := by
  unfold State.writeBack
  dsimp only
  repeat' split
  all_goals simp only [State.updCtl_fuses, State.useCounter_fuses, State.setCounter_fuses, State.metaStore_fuses]

@[simp] theorem State.metaDo_fuses (s : State) (c : ℕ) (a : MetaOp) : (s.metaDo c a).2.fuses = s.fuses := by
  cases a with
  | fetch x =>
    simp only [State.metaDo]
    split
    · next h => simp only [State.verify_fuses, snd_fuses h, State.metaFetch_fuses]
    · next h => simp only [snd_fuses h, State.metaFetch_fuses]
  | evict x => exact State.writeBack_fuses ..
  | fetchMac x =>
    simp only [State.metaDo]
    split
    · next h => simp only [State.updCtl_fuses, snd_fuses h, State.metaFetch_fuses]
    · next h => simp only [snd_fuses h, State.metaFetch_fuses]
  | putMac x =>
    simp only [State.metaDo]
    split <;> simp only [State.updCtl_fuses, State.metaStore_fuses]
  | rollover x => exact State.rollOver_fuses ..

@[simp] theorem State.dropOut_fuses (s : State) (c b : ℕ) : (s.dropOut c b).fuses = s.fuses := by
  unfold State.dropOut
  split <;> simp only [State.updCtl_fuses]

@[simp] theorem State.metaStep_fuses (s : State) (p : Place) (o : MetaOp) : (s.metaStep p o).2.fuses = s.fuses := by
  unfold State.metaStep
  dsimp only
  split
  · next h => split <;> simp only [State.dropOut_fuses, snd_fuses h, State.metaDo_fuses]
  · exact State.metaDo_fuses ..

@[simp] theorem State.metaAll_fuses (p : Place) (write : Bool) : ∀ (n : Nat) (s : State), (s.metaAll p write n).2.fuses = s.fuses
  | 0, _ => rfl
  | n + 1, s => by
    unfold State.metaAll
    split
    · rfl
    · split
      · next h => simp only [snd_fuses h, State.metaStep_fuses]
      · next h => simp only [State.metaAll_fuses p write n, snd_fuses h, State.metaStep_fuses]

@[simp] theorem State.touchLine_fuses (s : State) (p : Place) : (s.touchLine p).fuses = s.fuses := by
  simp only [State.touchLine, State.useMac_fuses, State.useCounter_fuses]

@[simp] theorem State.lineRead_fuses (s : State) (a : ℕ) : (s.lineRead a).2.2.fuses = s.fuses := by
  unfold State.lineRead
  dsimp only
  split
  · exact State.dramRead_fuses ..
  · split
    · next h => simp only [snd_fuses h, State.metaAll_fuses]
    · next h => simp only [ite_snd, ite_fuses, State.touchLine_fuses, State.dramRead_fuses, State.sealFail_fuses, snd_fuses h,
      State.metaAll_fuses, ite_self]

@[simp] theorem State.lineStore_fuses (s : State) (a : ℕ) (data : List Byte) (poison : Bool) :
    (s.lineStore a data poison).2.fuses = s.fuses := by
  unfold State.lineStore
  dsimp only
  split
  · simp only [State.untrackLine_fuses, State.setLine_fuses]
  · split
    · next h => simp only [snd_fuses h, State.metaAll_fuses]
    · next h => split <;> simp only [State.untrackLine_fuses, State.setLine_fuses, State.touchLine_fuses, State.updCtl_fuses,
      State.setCounter_fuses, State.sealFail_fuses, snd_fuses h, State.metaAll_fuses]

@[simp] theorem State.lineModify_fuses (s : State) (a : ℕ) (f : List Byte → List Byte) (poison : Bool) :
    (s.lineModify a f poison).2.fuses = s.fuses := by
  unfold State.lineModify
  dsimp only
  split
  · next h => split <;> simp only [ite_fuses, State.unreqUncorr_fuses, State.setLine_fuses, ite_self, third_fuses h,
    State.lineRead_fuses]
  · next h => simp only [State.lineStore_fuses, third_fuses h, State.lineRead_fuses]

@[simp] theorem State.dramBytes_fuses (s : State) (a n : ℕ) : (s.dramBytes a n).2.fuses = s.fuses := by
  simp -implicitDefEqProofs only [State.dramBytes, ite_fuses, State.lineRead_fuses, foldl_snd_fuses, implies_true, ite_snd,
    ite_self]

@[simp] theorem State.linePut_fuses (s : State) (a ali : ℕ) (data : List Byte) (bad : ℕ → Bool) (l : ℕ) :
    (s.linePut a ali data bad l).2.fuses = s.fuses := by
  unfold State.linePut
  dsimp only
  split <;> simp only [State.lineStore_fuses, State.lineModify_fuses]

@[simp] theorem State.dramPut_fuses (s : State) (a ali : ℕ) (data : List Byte) (bad : ℕ → Bool) :
    (s.dramPut a ali data bad).2.fuses = s.fuses := by
  simp -implicitDefEqProofs only [State.dramPut, ite_fuses, State.linePut_fuses, foldl_snd_fuses, implies_true, ite_snd, ite_self]

@[simp] theorem State.dramAtom_fuses (s : State) (a : Nat) (d : List Byte) : (s.dramAtom a d).2.2.2.fuses = s.fuses := by
  unfold State.dramAtom
  dsimp only
  split
  · simp only [State.lineRead_fuses]
  · split <;> simp only [State.lineStore_fuses, State.lineRead_fuses]

@[simp] theorem State.dramServe_fuses (s : State) (k : Packet) : (s.dramServe k).2.2.2.fuses = s.fuses := by
  simp only [State.dramServe, ite_fuses, State.dramBytes_fuses, State.dramPut_fuses, State.dramAtom_fuses, ite_snd, ite_self]

@[simp] theorem State.dramAccept_fuses (s : State) (k : Packet) : (s.dramAccept k).fuses = s.fuses := by
  unfold State.dramAccept
  split
  · rw [State.pump_fuses, State.answer_fuses]
  · dsimp only
    rw [foldl_fuses fun _ _ => State.updCtl_fuses .., State.setMem_fuses]

@[simp] theorem State.useBank_fuses (s : State) (p : Place) (t : ℕ) : (s.useBank p t).fuses = s.fuses := by
  simp only [State.useBank, State.updCtl_fuses]

@[simp] theorem State.partDone_fuses (s : State) (x : DramPart) : (s.partDone x).fuses = s.fuses := by
  unfold State.partDone
  split
  · rfl
  · simp only [ite_fuses, State.setMem_fuses, State.pump_fuses, State.answer_fuses, ite_self]

@[simp] theorem State.partServe_fuses (s : State) (c : Nat) (r : DramReq) : (s.partServe c r).fuses = s.fuses := by
  unfold State.partServe
  dsimp only
  split_ifs
  · simp only [State.updCtl_fuses]
  · simp only [State.updCtl_fuses, State.lineRead_fuses]
  · rw [State.partDone_fuses]
  · rw [State.partDone_fuses]
  · rw [State.partDone_fuses, State.linePut_fuses]
  · rw [State.partDone_fuses, State.dramAtom_fuses]

@[simp] theorem State.slotMeta_fuses (s : State) (c q : ℕ) (o : MetaOp) (r : Option DramReq) :
    (s.slotMeta c q o r).fuses = s.fuses := by
  unfold State.slotMeta
  dsimp only
  repeat' split
  all_goals simp only [State.metaDo_fuses, State.dropOut_fuses, State.metaStep_fuses, State.updCtl_fuses, snd_fuses ‹_ = (_, _)›]

@[simp] theorem State.slotServe_fuses (s : State) (c q : Nat) (read isMeta : Bool) (t : Nat) :
    (s.slotServe c q read isMeta t).fuses = s.fuses := by
  refine State.KeepsFuses.ite (Eq.refl _) ?_
  unfold State.KeepsFuses
  split
  · rw [State.useBank_fuses, State.slotMeta_fuses]
  · split
    · rfl
    · rw [State.useBank_fuses, State.partServe_fuses, State.updCtl_fuses]

@[simp] theorem State.slotNext_fuses (s : State) (c : ℕ) : (s.slotNext c).fuses = s.fuses := by
  simp only [State.slotNext, State.updCtl_fuses]

@[simp] theorem execDramSlot_fuses (c : Fin 12) (s : State) : (s.after (execDramSlot c s)).fuses = s.fuses := by
  unfold execDramSlot
  dsimp only
  split
  · rw [after_next]
  · split
    · rw [after_next, State.slotNext_fuses]
    · rw [after_next, State.slotServe_fuses, State.slotNext_fuses]

@[simp] theorem execDramReadData_fuses (c : Fin 12) (s : State) : (s.after (execDramReadData c s)).fuses = s.fuses := by
  unfold execDramReadData
  split
  · rw [after_next]
  · rw [after_next, State.partDone_fuses, State.updCtl_fuses]

@[simp] theorem execDramRefresh_fuses (c : Fin 12) (s : State) : (s.after (execDramRefresh c s)).fuses = s.fuses := by
  simp -implicitDefEqProofs only [execDramRefresh, ite_fuses, State.updCtl_fuses, ite_self, after_next]

@[simp] theorem execDcApplyWrite_fuses (c : Fin 12) (s : State) : (s.after (execDcApplyWrite c s)).fuses = s.fuses := by
  simp only [execDcApplyWrite, State.updCtl_fuses, after_next]

@[simp] theorem execSlotTableApply_fuses (c : Fin 12) (s : State) : (s.after (execSlotTableApply c s)).fuses = s.fuses := by
  unfold execSlotTableApply
  dsimp only
  repeat' split
  all_goals simp only [State.dcStick_fuses, State.updCtl_fuses, after_next]

@[simp] theorem execBankOwnerWrite_fuses (c : Fin 12) (b : Fin 16) (w : Word) (s : State) :
    (s.after (execBankOwnerWrite c b w s)).fuses = s.fuses := by
  simp only [execBankOwnerWrite, State.updCtl_fuses, after_next]

@[simp] theorem State.forgetLines_fuses (s : State) (c b lo : ℕ) : (s.forgetLines c b lo).fuses = s.fuses := by
  simp only [State.forgetLines, State.setMem_fuses]

@[simp] theorem State.applyOwner_fuses (s : State) (c b : ℕ) (w : BitVec 32) : (s.applyOwner c b w).fuses = s.fuses := by
  simp only [State.applyOwner, ite_fuses, State.forgetLines_fuses, State.updCtl_fuses, ite_self]

@[simp] theorem execBankOwnerApply_fuses (c : Fin 12) (b : Fin 16) (s : State) :
    (s.after (execBankOwnerApply c b s)).fuses = s.fuses := by
  unfold execBankOwnerApply
  split <;> simp only [ite_fuses, State.applyOwner_fuses, ite_self, after_next]

@[simp] theorem State.initRegion_fuses (s : State) (c b : ℕ) : (s.initRegion c b).fuses = s.fuses := by
  simp only [State.initRegion, State.forgetLines_fuses, State.updCtl_fuses]

@[simp] theorem execSealedInit_fuses (c : Fin 12) (b : Fin 16) (s : State) :
    (s.after (execSealedInit c b s)).fuses = s.fuses := by
  simp only [execSealedInit, ite_fuses, State.initRegion_fuses, ite_self, after_next]

@[simp] theorem execSealedInitDone_fuses (c : Fin 12) (b : Fin 16) (s : State) :
    (s.after (execSealedInitDone c b s)).fuses = s.fuses := by
  simp only [execSealedInitDone, ite_fuses, State.updCtl_fuses, ite_self, after_next]

@[simp] theorem execDramCalibrationDone_fuses (c : Fin 12) (ok : Bool) (s : State) :
    (s.after (execDramCalibrationDone c ok s)).fuses = s.fuses := by
  unfold execDramCalibrationDone
  split <;> simp only [ite_fuses, State.updCtl_fuses, State.dcStick_fuses, State.setMem_fuses, ite_self, after_next]

/-! ### Frames of links and dequeue endpoints (Machine/Channels.lean) -/

@[simp] theorem State.send_fuses (s : State) (l : ℕ) (w : LinkWord) : (s.send l w).fuses = s.fuses := by
  simp only [State.send, State.updLink_fuses]

@[simp] theorem State.take_fuses (s : State) (l : ℕ) : (s.take l).fuses = s.fuses := by
  simp only [State.take, State.updLink_fuses]

@[simp] theorem execLinkWordArrive_fuses (l : LinkIx) (s : State) : (s.after (execLinkWordArrive l s)).fuses = s.fuses := by
  simp only [execLinkWordArrive, ite_fuses, State.updLink_fuses, ite_self, after_next]

@[simp] theorem execLinkCreditReturn_fuses (l : LinkIx) (s : State) : (s.after (execLinkCreditReturn l s)).fuses = s.fuses := by
  simp only [execLinkCreditReturn, ite_fuses, State.updLink_fuses, ite_self, after_next]

@[simp] theorem execBoundaryWriteSync_fuses (l : LinkIx) (s : State) : (s.after (execBoundaryWriteSync l s)).fuses = s.fuses := by
  simp only [execBoundaryWriteSync, ite_fuses, State.updLink_fuses, ite_self, after_next]

@[simp] theorem execBoundaryCreditSync_fuses (l : LinkIx) (s : State) :
    (s.after (execBoundaryCreditSync l s)).fuses = s.fuses := by
  simp only [execBoundaryCreditSync, ite_fuses, State.updLink_fuses, ite_self, after_next]

@[simp] theorem State.setDeq_fuses (s : State) (p : ℕ) (k : Fin 4) (d : Deq) : (s.setDeq p k d).fuses = s.fuses := by
  simp only [State.setDeq, State.updTile_fuses]

@[simp] theorem State.sendFlag_fuses (s : State) (t flag part kind : ℕ) : (s.sendFlag t flag part kind).fuses = s.fuses := by
  simp only [State.sendFlag, State.updSector_fuses]

@[simp] theorem State.deqSwitch_fuses (s : State) (p : ℕ) (k : Fin 4) : (s.deqSwitch p k).fuses = s.fuses := by
  simp only [State.deqSwitch, State.setDeq_fuses]

@[simp] theorem State.deqTouch_fuses (s : State) (p : ℕ) (k : Fin 4) : (s.deqTouch p k).fuses = s.fuses := by
  unfold State.deqTouch
  dsimp only
  repeat' split
  all_goals simp only [State.setDeq_fuses, State.sendFlag_fuses]

@[simp] theorem State.writeRing_fuses (s : State) (p : ℕ) (d : Deq) : (s.writeRing p d).fuses = s.fuses := by
  simp -implicitDefEqProofs only [State.writeRing, State.writeWord_fuses, foldl_fuses, implies_true]

@[simp] theorem State.readRing_fuses (s : State) (p : ℕ) (d : Deq) (n : ℕ) : (s.readRing p d n).2.fuses = s.fuses := by
  simp -implicitDefEqProofs only [State.readRing, State.readWord_fuses, foldl_snd_fuses, implies_true]

@[simp] theorem execRingRowRead_fuses (p : TileIx) (k : Fin 4) (s : State) :
    (s.after (execRingRowRead p k s)).fuses = s.fuses := by
  unfold execRingRowRead
  dsimp only
  split <;> simp only [State.readRing_fuses, State.setDeq_fuses, after_next]

@[simp] theorem execRingRowArrive_fuses (p : TileIx) (k : Fin 4) (s : State) :
    (s.after (execRingRowArrive p k s)).fuses = s.fuses := by
  unfold execRingRowArrive
  split <;> simp only [State.deqTouch_fuses, State.setDeq_fuses, after_next]

@[simp] theorem execDeqGeometryApply_fuses (p : TileIx) (k : Fin 4) (s : State) :
    (s.after (execDeqGeometryApply p k s)).fuses = s.fuses := by
  unfold execDeqGeometryApply
  dsimp only
  repeat' split
  all_goals simp only [State.deqTouch_fuses, State.setDeq_fuses, after_next]

/-! ### Frames of the crossbar (Machine/Xbar.lean) -/

@[simp] theorem State.tapRead_fuses (s : State) (p slice w : ℕ) : (s.tapRead p slice w).2.2.fuses = s.fuses := by
  simp only [State.tapRead, State.readWord_fuses]

@[simp] theorem State.tapWrite_fuses (s : State) (p slice w : ℕ) (v : BitVec 16) : (s.tapWrite p slice w v).fuses = s.fuses := by
  simp only [State.tapWrite, State.modifyWord_fuses]

@[simp] theorem State.setMac_fuses (s : State) (p : ℕ) (u : Fin 4) (m : Mac) : (s.setMac p u m).fuses = s.fuses := by
  simp only [State.setMac, State.updTile_fuses]

@[simp] theorem State.macProducts_fuses (s : State) (p : Nat) (u : Fin 4) (i : Nat) :
    (s.macProducts p u i).2.2.fuses = s.fuses  := by
  unfold State.macProducts
  refine foldl_third_fuses (fun ps bad t v => ?_) _ _
  dsimp only
  split_ifs <;> simp only [State.tapWrite_fuses, State.tapRead_fuses]

@[simp] theorem State.inStore_fuses (s : State) (p : ℕ) (u : Fin 4) (i : ℕ) (w : Word) : (s.inStore p u i w).fuses = s.fuses := by
  simp -implicitDefEqProofs only [State.inStore, ite_fuses, State.tapWrite_fuses, foldl_fuses, implies_true, ite_self]

@[simp] theorem State.macIssue_fuses (s : State) (p : Nat) (u : Fin 4) (w : LinkWord) : (s.macIssue p u w).2.fuses = s.fuses := by
  unfold State.macIssue
  dsimp only
  split
  · rw [State.setMac_fuses]
  split
  · rw [State.stick_fuses, State.setMac_fuses]
  split
  · rw [State.stick_fuses, State.setMac_fuses]
  split
  · rw [State.stickMac_fuses, State.setMac_fuses, State.macProducts_fuses]
  split
  · rw [State.setMac_fuses, ite_fuses, State.inStore_fuses, ite_self]
  · rw [State.stickMac_fuses, State.setMac_fuses]
  · rw [State.stickMac_fuses, State.setMac_fuses]
  · rw [State.stickMac_fuses, State.setMac_fuses]
  · rw [ite_fuses, State.stick_fuses, State.setMac_fuses, ite_self]
  all_goals rw [State.setMac_fuses]

@[simp] theorem State.portAccess_fuses (s : State) (p : ℕ) (k : Fin 2) (a : ℕ) (aw : LinkWord) (dw : LinkWord) :
    (s.portAccess p k a aw dw).fuses = s.fuses := by
  simp only [State.portAccess, ite_fuses, State.updTile_fuses, State.stick_fuses, State.readWord_fuses, State.modifyWord_fuses,
    State.writeWord_fuses, ite_self]

@[simp] theorem State.sendDone_fuses (s : State) (p code : ℕ) : (s.sendDone p code).fuses = s.fuses := by
  simp only [State.sendDone, State.updTile_fuses]

@[simp] theorem State.abortTile_fuses (s : State) (p code : ℕ) : (s.abortTile p code).fuses = s.fuses := by
  simp only [State.abortTile, State.updTile_fuses, ite_fuses, State.logFault_fuses, State.sendDone_fuses, ite_self]

@[simp] theorem State.popSources_fuses (s : State) (p : ℕ) (src : List ℕ) : (s.popSources p src).fuses = s.fuses := by
  unfold State.popSources
  split <;> simp -implicitDefEqProofs only [ite_fuses, State.take_fuses, State.updTile_fuses, foldl_fuses, implies_true, ite_self]

@[simp] theorem State.fillConsumers_fuses (s0 : State) (p : Nat) (src : List Nat) (s : State) :
    (s0.fillConsumers p src s).fuses = s.fuses := by
  unfold State.fillConsumers
  dsimp only
  rw [foldl_fuses fun _ _ => State.deqTouch_fuses .., State.updTile_fuses]
  split
  · refine foldl_fuses (fun t j => ?_) _ _
    rw [ite_fuses]
    split
    · split
      · rw [State.send_fuses]
      · rfl
    · rfl
  · rfl

@[simp] theorem State.countBatch_fuses (s0 : State) (p : Nat) (src : List Nat) (s : State) :
    (s0.countBatch p src s).fuses = s.fuses := by
  simp only [State.countBatch, ite_fuses, State.updTile_fuses, ite_self]

@[simp] theorem State.unitsAct_fuses (s0 : State) (p : Nat) (units : List Nat) (s : State) :
    (s0.unitsAct p units s).2.fuses = s.fuses := by
  unfold State.unitsAct
  dsimp only
  rw [foldl_snd_fuses, foldl_fuses, ite_fuses, State.stick_fuses, ite_self]
  · intro t k
    rw [ite_fuses, State.portAccess_fuses, ite_self]
  · intro bad t u
    dsimp only
    rw [ite_snd, ite_fuses, State.macIssue_fuses, ite_self]

@[simp] theorem State.jointMove_fuses (s : State) (p : Nat) (src units : List Nat) :
    (s.jointMove p src units).fuses = s.fuses  := by
  simp only [State.jointMove, ite_fuses, State.abortTile_fuses, State.updTile_fuses, State.fillConsumers_fuses,
    State.popSources_fuses, State.countBatch_fuses, State.unitsAct_fuses, State.stick_fuses, ite_self]

@[simp] theorem State.joint_fuses (s : State) (p : Nat) (src units : List Nat) : (s.joint p src units).fuses = s.fuses := by
  simp only [State.joint, ite_fuses, State.jointMove_fuses, ite_self]

/-! ### Frames of tiles (Machine/Tile.lean) -/

@[simp] theorem execCrossbarWordMove_fuses (p : TileIx) (src : BitVec 6) (s : State) :
    (s.after (execCrossbarWordMove p src s)).fuses = s.fuses := by
  simp only [execCrossbarWordMove, State.joint_fuses, after_next]

@[simp] theorem State.aluStep_fuses (s : State) (p : TileIx) (n : Fin 4) (op : ℕ) : (s.aluStep p n op).fuses = s.fuses := by
  simp only [State.aluStep, ite_fuses, State.joint_fuses, ite_self]

@[simp] theorem execAluNop_fuses (p : TileIx) (n : Fin 4) (s : State) : (s.after (execAluNop p n s)).fuses = s.fuses := by
  simp only [execAluNop, ite_fuses, State.stick_fuses, ite_self, after_next]

@[simp] theorem execAluMov_fuses (p : TileIx) (n : Fin 4) (s : State) : (s.after (execAluMov p n s)).fuses = s.fuses := by
  simp only [execAluMov, State.aluStep_fuses, after_next]

@[simp] theorem execAluAdd_fuses (p : TileIx) (n : Fin 4) (s : State) : (s.after (execAluAdd p n s)).fuses = s.fuses := by
  simp only [execAluAdd, State.aluStep_fuses, after_next]

@[simp] theorem execAluSub_fuses (p : TileIx) (n : Fin 4) (s : State) : (s.after (execAluSub p n s)).fuses = s.fuses := by
  simp only [execAluSub, State.aluStep_fuses, after_next]

@[simp] theorem execAluAdds_fuses (p : TileIx) (n : Fin 4) (s : State) : (s.after (execAluAdds p n s)).fuses = s.fuses := by
  simp only [execAluAdds, State.aluStep_fuses, after_next]

@[simp] theorem execAluSubs_fuses (p : TileIx) (n : Fin 4) (s : State) : (s.after (execAluSubs p n s)).fuses = s.fuses := by
  simp only [execAluSubs, State.aluStep_fuses, after_next]

@[simp] theorem execAluAnd_fuses (p : TileIx) (n : Fin 4) (s : State) : (s.after (execAluAnd p n s)).fuses = s.fuses := by
  simp only [execAluAnd, State.aluStep_fuses, after_next]

@[simp] theorem execAluOr_fuses (p : TileIx) (n : Fin 4) (s : State) : (s.after (execAluOr p n s)).fuses = s.fuses := by
  simp only [execAluOr, State.aluStep_fuses, after_next]

@[simp] theorem execAluXor_fuses (p : TileIx) (n : Fin 4) (s : State) : (s.after (execAluXor p n s)).fuses = s.fuses := by
  simp only [execAluXor, State.aluStep_fuses, after_next]

@[simp] theorem execAluAndn_fuses (p : TileIx) (n : Fin 4) (s : State) : (s.after (execAluAndn p n s)).fuses = s.fuses := by
  simp only [execAluAndn, State.aluStep_fuses, after_next]

@[simp] theorem execAluSll_fuses (p : TileIx) (n : Fin 4) (s : State) : (s.after (execAluSll p n s)).fuses = s.fuses := by
  simp only [execAluSll, State.aluStep_fuses, after_next]

@[simp] theorem execAluSrl_fuses (p : TileIx) (n : Fin 4) (s : State) : (s.after (execAluSrl p n s)).fuses = s.fuses := by
  simp only [execAluSrl, State.aluStep_fuses, after_next]

@[simp] theorem execAluRol_fuses (p : TileIx) (n : Fin 4) (s : State) : (s.after (execAluRol p n s)).fuses = s.fuses := by
  simp only [execAluRol, State.aluStep_fuses, after_next]

@[simp] theorem execAluRor_fuses (p : TileIx) (n : Fin 4) (s : State) : (s.after (execAluRor p n s)).fuses = s.fuses := by
  simp only [execAluRor, State.aluStep_fuses, after_next]

@[simp] theorem execAluCmp_fuses (p : TileIx) (n : Fin 4) (s : State) : (s.after (execAluCmp p n s)).fuses = s.fuses := by
  simp only [execAluCmp, State.aluStep_fuses, after_next]

@[simp] theorem execAluCsel_fuses (p : TileIx) (n : Fin 4) (s : State) : (s.after (execAluCsel p n s)).fuses = s.fuses := by
  simp only [execAluCsel, State.aluStep_fuses, after_next]

@[simp] theorem execAluMin_fuses (p : TileIx) (n : Fin 4) (s : State) : (s.after (execAluMin p n s)).fuses = s.fuses := by
  simp only [execAluMin, State.aluStep_fuses, after_next]

@[simp] theorem execAluMax_fuses (p : TileIx) (n : Fin 4) (s : State) : (s.after (execAluMax p n s)).fuses = s.fuses := by
  simp only [execAluMax, State.aluStep_fuses, after_next]

@[simp] theorem execAluPopcnt_fuses (p : TileIx) (n : Fin 4) (s : State) : (s.after (execAluPopcnt p n s)).fuses = s.fuses := by
  simp only [execAluPopcnt, State.aluStep_fuses, after_next]

@[simp] theorem execAluShuf_fuses (p : TileIx) (n : Fin 4) (s : State) : (s.after (execAluShuf p n s)).fuses = s.fuses := by
  simp only [execAluShuf, State.aluStep_fuses, after_next]

@[simp] theorem execAluCrc32_fuses (p : TileIx) (n : Fin 4) (s : State) : (s.after (execAluCrc32 p n s)).fuses = s.fuses := by
  simp only [execAluCrc32, State.aluStep_fuses, after_next]

@[simp] theorem execAluGfmul_fuses (p : TileIx) (n : Fin 4) (s : State) : (s.after (execAluGfmul p n s)).fuses = s.fuses := by
  simp only [execAluGfmul, State.aluStep_fuses, after_next]

@[simp] theorem execAluCrcapp_fuses (p : TileIx) (n : Fin 4) (s : State) : (s.after (execAluCrcapp p n s)).fuses = s.fuses := by
  simp only [execAluCrcapp, State.aluStep_fuses, after_next]

@[simp] theorem State.setAlu_fuses (s : State) (p : ℕ) (n : Fin 4) (a : Alu) : (s.setAlu p n a).fuses = s.fuses := by
  simp only [State.setAlu, State.updTile_fuses]

@[simp] theorem execCrcappAppend_fuses (p : TileIx) (n : Fin 4) (s : State) :
    (s.after (execCrcappAppend p n s)).fuses = s.fuses := by
  simp only [execCrcappAppend, ite_fuses, State.setAlu_fuses, ite_self, after_next]

@[simp] theorem execAluResultReady_fuses (p : TileIx) (n : Fin 4) (s : State) :
    (s.after (execAluResultReady p n s)).fuses = s.fuses := by
  unfold execAluResultReady
  dsimp only
  split <;> simp only [ite_fuses, State.setAlu_fuses, ite_self, after_next]

@[simp] theorem State.portStep_fuses (s : State) (p : TileIx) (k : Fin 2) (mode : ℕ) : (s.portStep p k mode).fuses = s.fuses := by
  simp only [State.portStep, ite_fuses, State.joint_fuses, ite_self]

@[simp] theorem State.portBoth_fuses (s : State) (p : TileIx) (k : Fin 2) (mode : ℕ) : (s.portBoth p k mode).fuses = s.fuses := by
  simp only [State.portBoth, ite_fuses, State.jointMove_fuses, State.portStep_fuses, ite_self]

@[simp] theorem execPortRead_fuses (p : TileIx) (k : Fin 2) (s : State) : (s.after (execPortRead p k s)).fuses = s.fuses := by
  simp only [execPortRead, State.portStep_fuses, after_next]

@[simp] theorem execPortWrite_fuses (p : TileIx) (k : Fin 2) (both : Bool) (s : State) :
    (s.after (execPortWrite p k both s)).fuses = s.fuses := by
  simp only [execPortWrite, ite_fuses, State.portBoth_fuses, State.portStep_fuses, ite_self, after_next]

@[simp] theorem execGenRead_fuses (p : TileIx) (k : Fin 2) (s : State) : (s.after (execGenRead p k s)).fuses = s.fuses := by
  simp only [execGenRead, State.portStep_fuses, after_next]

@[simp] theorem execGenWrite_fuses (p : TileIx) (k : Fin 2) (both : Bool) (s : State) :
    (s.after (execGenWrite p k both s)).fuses = s.fuses := by
  simp only [execGenWrite, ite_fuses, State.portBoth_fuses, State.portStep_fuses, ite_self, after_next]

@[simp] theorem execPortSet_fuses (p : TileIx) (k : Fin 2) (s : State) : (s.after (execPortSet p k s)).fuses = s.fuses := by
  simp only [execPortSet, State.portStep_fuses, after_next]

@[simp] theorem execPortClear_fuses (p : TileIx) (k : Fin 2) (s : State) : (s.after (execPortClear p k s)).fuses = s.fuses := by
  simp only [execPortClear, State.portStep_fuses, after_next]

@[simp] theorem execPortReadReturn_fuses (p : TileIx) (k : Fin 2) (s : State) :
    (s.after (execPortReadReturn p k s)).fuses = s.fuses := by
  unfold execPortReadReturn
  dsimp only
  split <;> simp only [ite_fuses, State.updTile_fuses, ite_self, after_next]

@[simp] theorem execRingRowWrite_fuses (p : TileIx) (r : RingRow) (s : State) :
    (s.after (execRingRowWrite p r s)).fuses = s.fuses := by
  unfold execRingRowWrite
  dsimp only
  repeat' split
  all_goals simp only [State.joint_fuses, State.writeRing_fuses, State.stick_fuses, State.setDeq_fuses, after_next]

@[simp] theorem State.macStop_fuses (s : State) (p : ℕ) (u : Fin 4) : (s.macStop p u).fuses = s.fuses := by
  simp only [State.macStop, State.setMac_fuses]

@[simp] theorem State.macStep_fuses (s : State) (p : TileIx) (u : Fin 4) (sel : ℕ → Bool) :
    (s.macStep p u sel).fuses = s.fuses := by
  simp only [State.macStep, ite_fuses, State.macStop_fuses, State.macIssue_fuses, State.abortTile_fuses, ite_self]

@[simp] theorem execMacNop_fuses (p : TileIx) (u : Fin 4) (s : State) : (s.after (execMacNop p u s)).fuses = s.fuses := by
  simp only [execMacNop, ite_fuses, State.macStop_fuses, State.macIssue_fuses, ite_self, after_next]

@[simp] theorem execMacMul_fuses (p : TileIx) (u : Fin 4) (s : State) : (s.after (execMacMul p u s)).fuses = s.fuses := by
  simp only [execMacMul, State.macStep_fuses, after_next]

@[simp] theorem execMack_fuses (p : TileIx) (u : Fin 4) (s : State) : (s.after (execMack p u s)).fuses = s.fuses := by
  simp only [execMack, State.macStep_fuses, after_next]

@[simp] theorem execFird_fuses (p : TileIx) (u : Fin 4) (s : State) : (s.after (execFird p u s)).fuses = s.fuses := by
  simp only [execFird, State.macStep_fuses, after_next]

@[simp] theorem execMaxa_fuses (p : TileIx) (u : Fin 4) (s : State) : (s.after (execMaxa p u s)).fuses = s.fuses := by
  simp only [execMaxa, State.macStep_fuses, after_next]

@[simp] theorem execLda_fuses (p : TileIx) (u : Fin 4) (s : State) : (s.after (execLda p u s)).fuses = s.fuses := by
  simp only [execLda, State.macStep_fuses, after_next]

@[simp] theorem State.macCut_fuses (s : State) (p : ℕ) (u : Fin 4) : (s.macCut p u).fuses = s.fuses := by
  simp only [State.macCut, State.stickMac_fuses, State.macStop_fuses]

@[simp] theorem execInWord_fuses (p : TileIx) (u : Fin 4) (s : State) : (s.after (execInWord p u s)).fuses = s.fuses := by
  simp only [execInWord, ite_fuses, State.macStop_fuses, State.macCut_fuses, State.joint_fuses, ite_self, after_next]

@[simp] theorem execOutWord_fuses (p : TileIx) (u : Fin 4) (s : State) : (s.after (execOutWord p u s)).fuses = s.fuses := by
  simp only [execOutWord, State.macStep_fuses, after_next]

@[simp] theorem execMacOutEnqueue_fuses (p : TileIx) (u : Fin 4) (s : State) :
    (s.after (execMacOutEnqueue p u s)).fuses = s.fuses := by
  unfold execMacOutEnqueue
  dsimp only
  split <;> simp only [ite_fuses, State.setMac_fuses, ite_self, after_next]

@[simp] theorem execStt_fuses (p : TileIx) (u : Fin 4) (s : State) : (s.after (execStt p u s)).fuses = s.fuses := by
  simp only [execStt, State.macStep_fuses, after_next]

@[simp] theorem execSttTapWrite_fuses (p : TileIx) (u : Fin 4) (s : State) :
    (s.after (execSttTapWrite p u s)).fuses = s.fuses := by
  unfold execSttTapWrite
  dsimp only
  split <;> simp -implicitDefEqProofs only [ite_fuses, State.tapWrite_fuses, State.setMac_fuses, foldl_fuses, implies_true,
    ite_self, after_next]

@[simp] theorem execNorm_fuses (p : TileIx) (u : Fin 4) (s : State) : (s.after (execNorm p u s)).fuses = s.fuses := by
  simp only [execNorm, State.macStep_fuses, after_next]

@[simp] theorem execSetp_fuses (p : TileIx) (u : Fin 4) (s : State) : (s.after (execSetp p u s)).fuses = s.fuses := by
  simp only [execSetp, State.macStep_fuses, after_next]

@[simp] theorem execRept_fuses (p : TileIx) (u : Fin 4) (s : State) : (s.after (execRept p u s)).fuses = s.fuses := by
  simp only [execRept, State.macStep_fuses, after_next]

@[simp] theorem execJmp_fuses (p : TileIx) (u : Fin 4) (s : State) : (s.after (execJmp p u s)).fuses = s.fuses := by
  simp only [execJmp, State.macStep_fuses, after_next]

@[simp] theorem execHaltUnit_fuses (p : TileIx) (u : Fin 4) (s : State) : (s.after (execHaltUnit p u s)).fuses = s.fuses := by
  simp only [execHaltUnit, State.macStep_fuses, after_next]

@[simp] theorem State.deqHead_fuses (s : State) (p : ℕ) (k : Fin 4) : (s.deqHead p k).2.fuses = s.fuses := by
  simp only [State.deqHead, ite_fuses, State.readRing_fuses, ite_snd, ite_self]

@[simp] theorem State.pushToo_fuses (s : State) (p : Nat) (k : Fin 4) (pushed : Bool) :
    (s.pushToo p k pushed).fuses = s.fuses  := by
  simp only [State.pushToo, State.deqTouch_fuses, ite_fuses, State.joint_fuses, ite_self]

theorem State.deqPop_fuses (s : State) (p : Nat) (k : Fin 4) (waited pushed : Bool) :
    ((s.deqPop p k waited pushed).elim s (·.2)).fuses = s.fuses := by
  unfold State.deqPop
  dsimp only
  split
  · rw [Option.elim_none]
  · split
    · rw [Option.elim_some, ite_fuses, State.joint_fuses, State.stick_fuses, State.setDeq_fuses, ite_self]
    · split
      · rw [Option.elim_none]
      · split
        · rw [Option.elim_none]
        · rw [Option.elim_some, State.pushToo_fuses, State.setDeq_fuses, State.deqHead_fuses]

@[simp] theorem execDeqPopRead_fuses (p : TileIx) (k : Fin 4) (r : PopRead) (s : State) :
    (s.after (execDeqPopRead p k r s)).fuses = s.fuses := by
  unfold execDeqPopRead
  split
  · rw [after_next]
  · next h =>
    rw [after_next]
    exact elim_fuses (g := Prod.snd) (s.deqPop_fuses ..) h

/-! ### Frames of contexts (Machine/Contexts.lean) -/

@[simp] theorem State.writeWords_fuses (s : State) (a : ℕ) (ws : List Word) (poison : Bool) :
    (s.writeWords a ws poison).fuses = s.fuses := by
  simp -implicitDefEqProofs only [State.writeWords, State.writeWord_fuses, foldl_fuses, implies_true]

@[simp] theorem State.copyFrame_fuses (s : State) (p c h : ℕ) : (s.copyFrame p c h).2.fuses = s.fuses := by
  simp -implicitDefEqProofs only [State.copyFrame, State.readWord_fuses, State.writeWord_fuses, foldl_snd_fuses, implies_true]

@[simp] theorem State.switchTo_fuses (s : State) (p : ℕ) (g : Grant) : (s.switchTo p g).fuses = s.fuses := by
  simp -implicitDefEqProofs only [State.switchTo, State.updTile_fuses, State.stick_fuses, ite_fuses, State.deqSwitch_fuses,
    foldl_fuses, implies_true, ite_self]

@[simp] theorem execGetWork_fuses (p : TileIx) (s : State) : (s.after (execGetWork p s)).fuses = s.fuses := by
  simp only [execGetWork, ite_fuses, State.updSector_fuses, ite_self, after_next]

@[simp] theorem State.declineGrant_fuses (s : State) (p : ℕ) (g : Grant) (code : ℕ) :
    (s.declineGrant p g code).fuses = s.fuses := rfl

@[simp] theorem execGrant_fuses (p : TileIx) (s : State) : (s.after (execGrant p s)).fuses = s.fuses := by
  unfold execGrant
  dsimp only
  repeat' split
  all_goals simp only [State.declineGrant_fuses, State.updTile_fuses, State.switchTo_fuses, after_next]

@[simp] theorem execTileDrained_fuses (p : TileIx) (s : State) : (s.after (execTileDrained p s)).fuses = s.fuses := by
  unfold execTileDrained
  split <;> simp only [State.updTile_fuses, State.sendDone_fuses, State.stickMac_fuses, after_next]

@[simp] theorem State.withdrawAsk_fuses (s : State) (p : ℕ) : (s.withdrawAsk p).fuses = s.fuses := by
  simp only [State.withdrawAsk, State.updSector_fuses]

@[simp] theorem execTileAbort_fuses (p : TileIx) (s : State) : (s.after (execTileAbort p s)).fuses = s.fuses := by
  unfold execTileAbort
  split <;> simp only [State.abortTile_fuses, after_next]

@[simp] theorem State.acceptYield_fuses (s : State) (p : ℕ) : (s.acceptYield p).fuses = s.fuses := by
  simp only [State.acceptYield, State.updTile_fuses]

@[simp] theorem State.withdrawYield_fuses (s : State) (p : ℕ) : (s.withdrawYield p).fuses = s.fuses := by
  simp only [State.withdrawYield, State.updTile_fuses, State.stickMac_fuses, State.updSector_fuses]

@[simp] theorem execYieldRequest_fuses (p : TileIx) (s : State) : (s.after (execYieldRequest p s)).fuses = s.fuses := by
  unfold execYieldRequest
  dsimp only
  repeat' split
  all_goals simp only [State.updTile_fuses, State.acceptYield_fuses, State.withdrawYield_fuses, after_next]

@[simp] theorem execYieldAccept_fuses (p : TileIx) (s : State) : (s.after (execYieldAccept p s)).fuses = s.fuses := by
  simp only [execYieldAccept, ite_fuses, State.acceptYield_fuses, ite_self, after_next]

@[simp] theorem execHoldoffExpire_fuses (p : TileIx) (s : State) : (s.after (execHoldoffExpire p s)).fuses = s.fuses := by
  simp only [execHoldoffExpire, ite_fuses, State.acceptYield_fuses, State.withdrawYield_fuses, ite_self, after_next]

@[simp] theorem State.requestFill_fuses (s : State) (p : ℕ) (f : Fill) : (s.requestFill p f).fuses = s.fuses := by
  simp only [State.requestFill, State.updTile_fuses]

@[simp] theorem State.refill_fuses (s : State) (p f id : ℕ) (who : FillWho) : (s.refill p f id who).fuses = s.fuses := by
  simp only [State.refill, State.requestFill_fuses]

@[simp] theorem execFillRequest_fuses (p : TileIx) (s : State) : (s.after (execFillRequest p s)).fuses = s.fuses := by
  unfold execFillRequest
  dsimp only
  split <;> simp only [ite_fuses, State.updTile_fuses, ite_self, after_next]

@[simp] theorem State.requestRows_fuses (s : State) (p a num : ℕ) : (s.requestRows p a num).fuses = s.fuses := by
  simp -implicitDefEqProofs only [State.requestRows, State.issue_fuses, foldl_fuses, implies_true]

@[simp] theorem State.setHot_fuses (s : State) (p h : ℕ) (v : HotState) : (s.setHot p h v).fuses = s.fuses := by
  simp only [State.setHot, State.updTile_fuses]

@[simp] theorem State.failFill_fuses (s : State) (p : ℕ) (f : Fill) : (s.failFill p f).fuses = s.fuses := by
  unfold State.failFill
  split <;> simp only [ite_fuses, State.updTile_fuses, State.setHot_fuses, State.raiseFault_fuses, ite_self]

@[simp] theorem State.startStore_fuses (s : State) (p : ℕ) (f : Fill) (a : ℕ) : (s.startStore p f a).fuses = s.fuses := by
  simp only [State.startStore, State.updTile_fuses, ite_fuses, State.failFill_fuses, State.requestRows_fuses, ite_self]

@[simp] theorem execFillStart_fuses (p : TileIx) (s : State) : (s.after (execFillStart p s)).fuses = s.fuses := by
  unfold execFillStart
  dsimp only
  repeat' split
  all_goals simp only [State.startStore_fuses, State.updTile_fuses, after_next]

@[simp] theorem State.finishFill_fuses (s : State) (p : ℕ) (f : Fill) : (s.finishFill p f).fuses = s.fuses := by
  simp -implicitDefEqProofs only [State.finishFill, State.updTile_fuses, ite_fuses, State.switchTo_fuses, ite_self]

@[simp] theorem State.repairFill_fuses (s : State) (p : ℕ) (f : Fill) : (s.repairFill p f).fuses = s.fuses := by
  simp only [State.repairFill, State.updTile_fuses, State.startStore_fuses]

@[simp] theorem execCacheFillComplete_fuses (p : TileIx) (s : State) : (s.after (execCacheFillComplete p s)).fuses = s.fuses := by
  unfold execCacheFillComplete
  dsimp only
  repeat' split
  all_goals simp only [State.copyFrame_fuses, State.finishFill_fuses, State.repairFill_fuses, State.writeWords_fuses, after_next]

@[simp] theorem execStoreFillResponse_fuses (p : TileIx) (s : State) : (s.after (execStoreFillResponse p s)).fuses = s.fuses := by
  unfold execStoreFillResponse
  dsimp only
  repeat' split
  all_goals simp -implicitDefEqProofs only [State.failFill_fuses, State.updTile_fuses, State.writeWords_fuses,
    State.finishFill_fuses, foldl_fuses, implies_true, after_next]

@[simp] theorem State.putWords_fuses (s : State) (a ali : ℕ) (data : List Byte) (poison : ℕ) :
    (s.putWords a ali data poison).2.fuses = s.fuses := by
  simp -implicitDefEqProofs only [State.putWords, ite_fuses, State.writeWord_fuses, State.modifyWord_fuses, foldl_snd_fuses,
    implies_true, ite_snd, ite_self]

@[simp] theorem State.ctxWrite_fuses (s : State) (p a : ℕ) (data : List Byte) (poison : ℕ) :
    (s.ctxWrite p a data poison).fuses = s.fuses := by
  simp only [State.ctxWrite, State.putWords_fuses, State.updTile_fuses]

@[simp] theorem execCacheFrameWriteResume_fuses (p : TileIx) (s : State) :
    (s.after (execCacheFrameWriteResume p s)).fuses = s.fuses := by
  unfold execCacheFrameWriteResume
  dsimp only
  repeat' split
  all_goals simp only [State.updTile_fuses, State.ctxWrite_fuses, after_next]

@[simp] theorem State.wakeDeqs_fuses (s : State) (p : ℕ) : (s.wakeDeqs p).fuses = s.fuses := by
  simp -implicitDefEqProofs only [State.wakeDeqs, State.updTile_fuses, State.deqTouch_fuses, foldl_fuses, implies_true]

@[simp] theorem State.recountLinks_fuses (s : State) (p : ℕ) : (s.recountLinks p).fuses = s.fuses := by
  unfold State.recountLinks
  dsimp only
  split <;> simp -implicitDefEqProofs only [State.updLink_fuses, foldl_fuses, implies_true]

@[simp] theorem State.releaseFence_fuses (s : State) (p : ℕ) : (s.releaseFence p).fuses = s.fuses := by
  simp only [State.releaseFence, State.updTile_fuses, State.wakeDeqs_fuses, State.recountLinks_fuses]

@[simp] theorem State.setCupFence_fuses (s : State) (p : ℕ) (v : Bool) : (s.setCupFence p v).fuses = s.fuses := by
  simp only [State.setCupFence, ite_fuses, State.updSector_fuses, ite_self]

@[simp] theorem State.requestFence_fuses (s : State) (p : ℕ) : (s.requestFence p).fuses = s.fuses := by
  simp only [State.requestFence, State.updTile_fuses, State.setCupFence_fuses]

@[simp] theorem State.dropFence_fuses (s : State) (p : ℕ) : (s.dropFence p).fuses = s.fuses := by
  simp only [State.dropFence, ite_fuses, State.setCupFence_fuses, State.updTile_fuses, State.releaseFence_fuses, ite_self]

@[simp] theorem execCtxCtrlFenceWrite_fuses (p : TileIx) (v : Bool) (s : State) :
    (s.after (execCtxCtrlFenceWrite p v s)).fuses = s.fuses := by
  simp only [execCtxCtrlFenceWrite, ite_fuses, State.requestFence_fuses, State.dropFence_fuses, ite_self, after_next]

@[simp] theorem State.applyFence_fuses (s : State) (p : ℕ) : (s.applyFence p).fuses = s.fuses := by
  simp only [State.applyFence, State.updTile_fuses, State.withdrawAsk_fuses]

@[simp] theorem execFenceApply_fuses (p : TileIx) (s : State) : (s.after (execFenceApply p s)).fuses = s.fuses := by
  simp only [execFenceApply, ite_fuses, State.applyFence_fuses, ite_self, after_next]

@[simp] theorem State.zeroizeTile_fuses (s : State) (p : ℕ) : (s.zeroizeTile p).fuses = s.fuses := by
  unfold State.zeroizeTile
  dsimp only
  split <;> simp -implicitDefEqProofs only [State.setMem_fuses, State.updTile_fuses, State.updLink_fuses, foldl_fuses,
    implies_true]

@[simp] theorem execCtxCtrlZeroize_fuses (p : TileIx) (s : State) : (s.after (execCtxCtrlZeroize p s)).fuses = s.fuses := by
  simp only [execCtxCtrlZeroize, ite_fuses, State.updTile_fuses, State.zeroizeTile_fuses, State.configRefused_fuses, ite_self,
    after_next]

@[simp] theorem State.coldRefill_fuses (s : State) (p : ℕ) : (s.coldRefill p).fuses = s.fuses := by
  simp -implicitDefEqProofs only [State.coldRefill, ite_fuses, State.refill_fuses, State.updSector_fuses, foldl_fuses,
    implies_true, ite_self]

@[simp] theorem execZeroizeComplete_fuses (p : TileIx) (s : State) : (s.after (execZeroizeComplete p s)).fuses = s.fuses := by
  unfold execZeroizeComplete
  dsimp only
  repeat' split
  all_goals simp only [State.coldRefill_fuses, State.updTile_fuses, State.raiseFault_fuses, after_next]

/-! ### Frames of the dispatcher (Machine/Dispatcher.lean) -/

@[simp] theorem State.putImage_fuses (s : State) (t : ℕ) (x : TaskStatic) : (s.putImage t x).fuses = s.fuses := by
  simp only [State.putImage, State.writeWords_fuses]

@[simp] theorem State.takeImage_fuses (s : State) (t : ℕ) : (s.takeImage t).2.fuses = s.fuses := by
  unfold State.takeImage
  generalize imageBase t = a
  generalize hr : List.foldl _ _ _ = r
  obtain ⟨ws, bad, u⟩ := r
  exact (third_fuses hr).trans (foldl_third_fuses (fun ws bad u i => State.readWord_fuses u _) _ _)

@[simp] theorem State.setStatic_fuses (s : State) (t : ℕ) (x : TaskStatic) : (s.setStatic t x).fuses = s.fuses := by
  simp only [State.setStatic, State.updTask_fuses, ite_fuses, State.putImage_fuses, ite_self]

@[simp] theorem State.checkMode_fuses (s : State) (t : ℕ) : (s.checkMode t).fuses = s.fuses := by
  simp only [State.checkMode, ite_fuses, State.configRefused_fuses, ite_self]

@[simp] theorem State.setFlags_fuses (s : State) (t : ℕ) (w : Word) : (s.setFlags t w).fuses = s.fuses := by
  simp only [State.setFlags, State.updTask_fuses]

@[simp] theorem State.dispatchDrop_fuses (s : State) (n t kind : ℕ) : (s.dispatchDrop n t kind).fuses = s.fuses := by
  simp only [State.dispatchDrop, State.sysFault_fuses, State.updSector_fuses]

theorem State.signalFlag_fuses {now : State → State} (hnow : ∀ t, (now t).fuses = t.fuses) (s : State) (n : Nat) (f : Nat × Nat
    × Nat × Nat) :
    (s.signalFlag n f now).fuses = s.fuses := by
  rw [State.signalFlag, ite_fuses, hnow, State.updSector_fuses, ite_self]

@[simp] theorem State.arriveFlag_fuses (s : State) (t flag part kind : ℕ) : (s.arriveFlag t flag part kind).fuses = s.fuses := by
  simp only [State.arriveFlag, ite_fuses, State.dispatchDrop_fuses, State.setFlags_fuses, ite_self]

@[simp] theorem execDispatcherFlagSet_fuses (n : SecIx) (s : State) : (s.after (execDispatcherFlagSet n s)).fuses = s.fuses := by
  unfold execDispatcherFlagSet
  split
  · rw [after_next]
  · rw [after_next, State.signalFlag_fuses fun u => u.arriveFlag_fuses .., State.updSector_fuses]

@[simp] theorem execFlagsSetWrite_fuses (t : TaskIx) (w : Word) (s : State) :
    (s.after (execFlagsSetWrite t w s)).fuses = s.fuses := by
  simp only [execFlagsSetWrite, ite_fuses, State.setFlags_fuses, ite_self, after_next]

@[simp] theorem execTaskReady_fuses (t : TaskIx) (s : State) : (s.after (execTaskReady t s)).fuses = s.fuses := by
  unfold execTaskReady
  dsimp only
  split <;> simp only [State.updSector_fuses, State.updTask_fuses, after_next]

theorem State.chooseSlot_fuses {s u : State} {t p h : Nat} {w : Bool} (hc : s.chooseSlot t p = some (h, w, u)) : u.fuses =
    s.fuses := by
  unfold State.chooseSlot at hc
  dsimp only at hc
  split at hc
  · cases hc; rfl
  · split at hc
    · cases hc; rfl
    · obtain ⟨v, -, he⟩ := Option.map_eq_some_iff.mp hc
      cases he
      rw [State.requestFill_fuses]

@[simp] theorem State.grantStream_fuses (s : State) (t : ℕ) (used : Word) (f : ℕ) :
    (s.grantStream t used f).2.fuses = s.fuses := by
  simp only [State.grantStream, ite_fuses, State.draw_fuses, ite_snd, ite_self]

@[simp] theorem State.dropAsk_fuses (s : State) (n i : ℕ) : (s.dropAsk n i).fuses = s.fuses := by
  simp only [State.dropAsk, State.updSector_fuses]

@[simp] theorem State.selectTask_fuses (s : State) (t i p : Nat) : (s.selectTask t i p).fuses = s.fuses := by
  unfold State.selectTask
  split
  · rfl
  · next h =>
    rw [← State.chooseSlot_fuses h]
    simp only [State.updTile_fuses, State.updSector_fuses, State.dropAsk_fuses, State.setTask_fuses, State.grantStream_fuses]

@[simp] theorem execDispatchSelect_fuses (q : PartIx) (n : SecIx) (s : State) :
    (s.after (execDispatchSelect q n s)).fuses = s.fuses := by
  unfold execDispatchSelect
  dsimp only
  split
  · rw [after_next]
  split
  · rw [after_next]
  split
  · rw [after_next]
  split
  · rw [after_next, State.selectTask_fuses]
  · rw [after_next]

@[simp] theorem execAheadFill_fuses (q : PartIx) (n : SecIx) (s : State) : (s.after (execAheadFill q n s)).fuses = s.fuses := by
  unfold execAheadFill
  dsimp only
  repeat' split
  all_goals simp only [State.updSector_fuses, State.requestFill_fuses, after_next]

@[simp] theorem State.recheck_fuses (s : State) (t : ℕ) : (s.recheck t).fuses = s.fuses := by
  unfold State.recheck
  refine foldl_fuses (fun u i => ?_) _ _
  split
  · rfl
  · exact foldl_fuses (fun v k => by simp only [ite_fuses, State.arriveFlag_fuses, ite_self]) _ u

@[simp] theorem State.streamRecheck_fuses (s : State) (t : ℕ) : (s.streamRecheck t).fuses = s.fuses := by
  simp -implicitDefEqProofs only [State.streamRecheck, State.sendFlag_fuses, foldl_fuses, implies_true]

@[simp] theorem State.sendNotify_fuses (s : State) (t : ℕ) : (s.sendNotify t).fuses = s.fuses := by
  simp only [State.sendNotify, ite_fuses, State.arriveFlag_fuses, ite_self]

@[simp] theorem State.taskDone_fuses (s : State) (t : ℕ) (d : Done) : (s.taskDone t d).fuses = s.fuses := by
  unfold State.taskDone
  simp only [ite_fuses, State.sendNotify_fuses, State.streamRecheck_fuses, State.recheck_fuses, State.setTask_fuses,
    State.tellOwner_fuses, ite_self]

@[simp] theorem State.takeDone_fuses (s : State) (d : Done) : (s.takeDone d).fuses = s.fuses := by
  simp only [State.takeDone, ite_fuses, State.taskDone_fuses, ite_self]

@[simp] theorem execDispatchDone_fuses (n : SecIx) (s : State) : (s.after (execDispatchDone n s)).fuses = s.fuses := by
  unfold execDispatchDone
  split <;> simp only [State.takeDone_fuses, after_next]

@[simp] theorem execNotifyArrive_fuses (n : SecIx) (s : State) : (s.after (execNotifyArrive n s)).fuses = s.fuses := by
  unfold execNotifyArrive
  split
  · rw [after_next]
  · rw [after_next, State.signalFlag_fuses fun u => u.arriveFlag_fuses ..]

@[simp] theorem execTimerFire_fuses (n : SecIx) (t : Fin 16) (s : State) : (s.after (execTimerFire n t s)).fuses = s.fuses := by
  unfold execTimerFire
  dsimp only
  split
  · rw [after_next, State.signalFlag_fuses fun u => u.arriveFlag_fuses .., State.updSector_fuses]
  · rw [after_next]

@[simp] theorem execAgeTick_fuses (n : SecIx) (s : State) : (s.after (execAgeTick n s)).fuses = s.fuses := by
  unfold execAgeTick
  dsimp only
  split <;> simp -implicitDefEqProofs only [State.updSector_fuses, State.updTask_fuses, foldl_fuses, implies_true, after_next]

/-! ### Frames of accesses (Machine/Access.lean) -/

@[simp] theorem State.sramBytes_fuses (s : State) (a n : ℕ) : (s.sramBytes a n).2.fuses = s.fuses := by
  simp -implicitDefEqProofs only [State.sramBytes, ite_fuses, State.readWord_fuses, foldl_snd_fuses, implies_true, ite_snd,
    ite_self]

@[simp] theorem State.cellBytes_fuses (s : State) (a n : ℕ) : (s.cellBytes a n).2.fuses = s.fuses := by
  simp only [State.cellBytes, State.sramBytes_fuses, ite_fuses, ite_self]

@[simp] theorem State.cellPut_fuses (s : State) (a ali : ℕ) (data : List Byte) (poison : ℕ) :
    (s.cellPut a ali data poison).2.fuses = s.fuses := by
  simp only [State.cellPut, State.putWords_fuses]

@[simp] theorem State.sramAtom_fuses (s : State) (a : ℕ) (d : List Byte) : (s.sramAtom a d).2.2.2.fuses = s.fuses := by
  unfold State.sramAtom
  dsimp only
  repeat' split
  all_goals simp only [State.cellBytes_fuses, State.sramBytes_fuses, State.putWords_fuses]

@[simp] theorem State.ctxPut_fuses (s : State) (p a : ℕ) (k : Packet) : (s.ctxPut p a k).fuses = s.fuses := by
  simp only [State.ctxPut, ite_fuses, State.updTile_fuses, State.ctxWrite_fuses, ite_self]

@[simp] theorem State.sramAct_fuses (s : State) (k : Packet) : (s.sramAct k).2.2.2.fuses = s.fuses := by
  unfold State.sramAct
  dsimp only
  repeat' split
  all_goals simp only [State.cellBytes_fuses, State.sramBytes_fuses, State.cellPut_fuses, State.ctxPut_fuses,
    State.putWords_fuses, State.sramAtom_fuses]

@[simp] theorem State.memCheck_fuses (s : State) (k : Packet) : (s.memCheck k).2.fuses = s.fuses := by
  simp only [State.memCheck, ite_fuses, State.holeAccess_fuses, ite_snd, ite_self]

@[simp] theorem State.memServe_fuses (s : State) (k : Packet) : (s.memServe k).2.2.2.fuses = s.fuses := by
  unfold State.memServe
  split
  · next h => simp only [snd_fuses h, State.memCheck_fuses]
  · next h => split <;> simp only [State.dramServe_fuses, State.sramAct_fuses, snd_fuses h, State.memCheck_fuses]

/-! ### Frames of lanes and streams (Machine/LineBase.lean) -/

@[simp] theorem State.laneEvent_fuses (s : State) (l : ℕ) (bits : BitVec 32) (share : List ℕ) :
    (s.laneEvent l bits share).fuses = s.fuses := by
  simp -implicitDefEqProofs only [State.laneEvent, State.sendEvent_fuses, ite_fuses, foldl_fuses, implies_true, ite_self]

@[simp] theorem State.laneStick_fuses (s : State) (l : ℕ) (bits : BitVec 32) (share : List ℕ) :
    (s.laneStick l bits share).fuses = s.fuses := by
  simp only [State.laneStick, State.updLane_fuses, ite_fuses, State.laneEvent_fuses, ite_self]

@[simp] theorem State.laneCount_fuses (s : State) (l j n : ℕ) : (s.laneCount l j n).fuses = s.fuses := by
  simp only [State.laneCount, State.updLane_fuses]

@[simp] theorem State.rxCount_fuses (s : State) (l j : ℕ) : (s.rxCount l j).fuses = s.fuses := by
  simp only [State.rxCount, State.laneCount_fuses, ite_fuses, State.laneStick_fuses, ite_self]

@[simp] theorem State.txAbort_fuses (s : State) (l q : ℕ) : (s.txAbort l q).fuses = s.fuses := by
  simp only [State.txAbort, State.laneStick_fuses, State.laneCount_fuses]

@[simp] theorem State.streamEvent_fuses (s : State) (k : ℕ) (bits : BitVec 32) (kind gap : ℕ) :
    (s.streamEvent k bits kind gap).fuses = s.fuses := by
  simp only [State.streamEvent, State.tellOwner_fuses]

@[simp] theorem State.streamStick_fuses (s : State) (k : ℕ) (bits : BitVec 32) : (s.streamStick k bits).fuses = s.fuses := by
  simp only [State.streamStick, State.updStream_fuses, ite_fuses, State.streamEvent_fuses, ite_self]

@[simp] theorem State.streamCount_fuses (s : State) (k j n : ℕ) : (s.streamCount k j n).fuses = s.fuses := by
  simp only [State.streamCount, State.updStream_fuses]

@[simp] theorem State.freeCell_fuses (s : State) (last : Option ℕ) : (s.freeCell last).2.fuses = s.fuses := by
  simp only [State.freeCell, State.draw_fuses]

@[simp] theorem State.freeCells_fuses (s : State) (cs : List ℕ) : (s.freeCells cs).fuses = s.fuses := by
  simp -implicitDefEqProofs only [State.freeCells, State.setCell_fuses, foldl_fuses, implies_true]

@[simp] theorem State.fillCell_fuses (s : State) (c : ℕ) (bs : List Byte) (poison : Bool) :
    (s.fillCell c bs poison).fuses = s.fuses := by
  simp only [State.fillCell, State.writeWords_fuses]

@[simp] theorem State.raiseStreamFlag_fuses (s : State) (k : ℕ) : (s.raiseStreamFlag k).fuses = s.fuses := by
  simp only [State.raiseStreamFlag, State.sendFlag_fuses]

@[simp] theorem State.streamTouch_fuses (s : State) (k before : ℕ) : (s.streamTouch k before).fuses = s.fuses := by
  simp only [State.streamTouch, ite_fuses, State.raiseStreamFlag_fuses, ite_self]

@[simp] theorem State.release_fuses (s : State) (k t : ℕ) : (s.release k t).fuses = s.fuses := by
  simp only [State.release, State.freeCells_fuses, State.setStream_fuses]

@[simp] theorem State.autoMark_fuses (s : State) (k : ℕ) : (s.autoMark k).fuses = s.fuses := by
  simp only [State.autoMark, ite_fuses, State.release_fuses, ite_self]

@[simp] theorem State.readTo_fuses (s : State) (k t : ℕ) : (s.readTo k t).fuses = s.fuses := by
  simp only [State.readTo, State.autoMark_fuses, State.updStream_fuses]

@[simp] theorem State.placeCell_fuses (s : State) (k : ℕ) (info : Cell) (bs : List Byte) :
    (s.placeCell k info bs).fuses = s.fuses := by
  simp only [State.placeCell, State.freeCell_fuses, State.fillCell_fuses, State.setCell_fuses, ite_fuses, State.setStream_fuses,
    ite_self]

@[simp] theorem State.showPacket_fuses (s : State) (k n before : ℕ) : (s.showPacket k n before).fuses = s.fuses := by
  simp only [State.showPacket, State.streamCount_fuses, State.updStream_fuses, State.streamTouch_fuses]

@[simp] theorem State.placePacket_fuses (s : State) (k : ℕ) (base : Cell) (bs : List Byte) (bad : Bool) :
    (s.placePacket k base bs bad).fuses = s.fuses := by
  simp -implicitDefEqProofs only [State.placePacket, State.showPacket_fuses, State.placeCell_fuses, foldl_fuses, implies_true]

theorem State.yieldOne_fuses {s t : State} {k : Nat} (h : s.yieldOne k = some t) : t.fuses = s.fuses := by
  unfold State.yieldOne at h
  dsimp only at h
  split at h
  · split at h
    · rw [← Option.some.inj h]
      simp only [ite_fuses, State.streamStick_fuses, State.updStream_fuses, State.streamCount_fuses, State.release_fuses,
        ite_self]
    · cases h
  · cases h

@[simp] theorem State.yieldRoom_fuses (k : Nat) : ∀ (n : Nat) (s : State), (s.yieldRoom k n).2.fuses = s.fuses
  | 0, _ => rfl
  | n + 1, s => by
    unfold State.yieldRoom
    split
    · rfl
    · split
      · next h => exact (State.yieldRoom_fuses k n _).trans (State.yieldOne_fuses h)
      · rfl

@[simp] theorem State.placeCells_fuses (k : Nat) : ∀ (cs : List (Cell × List Byte)) (s : State), (s.placeCells k cs).2.fuses =
    s.fuses
  | [], _ => rfl
  | c :: r, s => by
    simp only [State.placeCells, ite_snd, ite_fuses, State.placeCells_fuses k r, State.placeCell_fuses,
      State.yieldRoom_fuses, ite_self]

@[simp] theorem State.unplace_fuses (s : State) (k w : ℕ) : (s.unplace k w).fuses = s.fuses := by
  simp only [State.unplace, State.setStream_fuses, State.freeCells_fuses]

@[simp] theorem State.placeOrDrop_fuses (s : State) (k : Nat) (base : Cell) (bs : List Byte) :
    (s.placeOrDrop k base bs).fuses = s.fuses := by
  unfold State.placeOrDrop
  simp only [ite_fuses, State.showPacket_fuses, State.streamStick_fuses, State.streamCount_fuses, State.unplace_fuses,
    State.placeCells_fuses, ite_self]

/-! ### Frames of lanes (Machine/Lanes.lean) -/

@[simp] theorem State.updTime_fuses (s : State) (f : TimeUnit → TimeUnit) : (s.updTime f).fuses = s.fuses := rfl

@[simp] theorem execTimeNsRead_fuses (s : State) : (s.after (execTimeNsRead s)).fuses = s.fuses := by
  simp only [execTimeNsRead, State.updTime_fuses, after_next]

@[simp] theorem execTimeAdjWrite_fuses (w : Word) (s : State) : (s.after (execTimeAdjWrite w s)).fuses = s.fuses := by
  simp only [execTimeAdjWrite, State.updTime_fuses, after_next]

@[simp] theorem execLoadSecHiWrite_fuses (w : Word) (s : State) : (s.after (execLoadSecHiWrite w s)).fuses = s.fuses := by
  simp only [execLoadSecHiWrite, State.updTime_fuses, after_next]

@[simp] theorem execPpsEdge_fuses (s : State) : (s.after (execPpsEdge s)).fuses = s.fuses := by
  simp only [execPpsEdge, State.raiseEvent_fuses, State.updTime_fuses, after_next]

@[simp] theorem execPpsStatusRead_fuses (s : State) : (s.after (execPpsStatusRead s)).fuses = s.fuses := by
  simp only [execPpsStatusRead, State.updTime_fuses, after_next]

@[simp] theorem execTimePllLock_fuses (s : State) : (s.after (execTimePllLock s)).fuses = s.fuses := by
  simp only [execTimePllLock, State.updTime_fuses, after_next]

@[simp] theorem execTimePllLoss_fuses (s : State) : (s.after (execTimePllLoss s)).fuses = s.fuses := by
  simp only [execTimePllLoss, State.updTime_fuses, after_next]

@[simp] theorem State.abortTx_fuses (s : State) (l : ℕ) : (s.abortTx l).fuses = s.fuses := by
  unfold State.abortTx
  repeat' split
  all_goals simp only [State.updLane_fuses, State.updStream_fuses, State.txAbort_fuses]

@[simp] theorem State.leaveUp_fuses (s : State) (l st cause : ℕ) (bits : BitVec 32) :
    (s.leaveUp l st cause bits).fuses = s.fuses := by
  simp only [State.leaveUp, State.abortTx_fuses, State.laneEvent_fuses, State.updLane_fuses]

@[simp] theorem State.settleLane_fuses (s : State) (l : ℕ) (restart : Bool) : (s.settleLane l restart).fuses = s.fuses := by
  simp only [State.settleLane, ite_fuses, State.leaveUp_fuses, State.updLane_fuses, State.laneStick_fuses, ite_self]

@[simp] theorem State.setLaneCtrl_fuses (s : State) (l : ℕ) (w : Word) : (s.setLaneCtrl l w).fuses = s.fuses := by
  simp only [State.setLaneCtrl, State.settleLane_fuses, State.updLane_fuses]

@[simp] theorem execLaneCtrlWrite_fuses (l : LaneIx) (w : Word) (s : State) :
    (s.after (execLaneCtrlWrite l w s)).fuses = s.fuses := by
  simp only [execLaneCtrlWrite, State.setLaneCtrl_fuses, after_next]

@[simp] theorem execLaneSignalPresent_fuses (l : LaneIx) (s : State) : (s.after (execLaneSignalPresent l s)).fuses = s.fuses := by
  simp only [execLaneSignalPresent, ite_fuses, State.updLane_fuses, ite_self, after_next]

@[simp] theorem State.restartLane_fuses (s : State) (l : ℕ) : (s.restartLane l).fuses = s.fuses := by
  simp only [State.restartLane, ite_fuses, State.updLane_fuses, State.laneStick_fuses, ite_self]

@[simp] theorem execLaneSignalLost_fuses (l : LaneIx) (s : State) : (s.after (execLaneSignalLost l s)).fuses = s.fuses := by
  simp only [execLaneSignalLost, ite_fuses, State.restartLane_fuses, State.leaveUp_fuses, ite_self, after_next]

@[simp] theorem execLaneLocked_fuses (l : LaneIx) (s : State) : (s.after (execLaneLocked l s)).fuses = s.fuses := by
  simp only [execLaneLocked, ite_fuses, State.updLane_fuses, ite_self, after_next]

@[simp] theorem State.startTx_fuses (s : State) (l : ℕ) (f : TxFrame) : (s.startTx l f).fuses = s.fuses := by
  simp only [State.startTx, State.updLane_fuses]

@[simp] theorem State.startPfc_fuses (s : State) (l : ℕ) : (s.startPfc l).fuses = s.fuses := by
  simp only [State.startPfc, ite_fuses, State.laneCount_fuses, State.updLane_fuses, State.startTx_fuses, ite_self]

@[simp] theorem State.enterUp_fuses (s : State) (l : ℕ) : (s.enterUp l).fuses = s.fuses := by
  simp only [State.enterUp, State.updLane_fuses, State.startPfc_fuses, State.laneEvent_fuses]

@[simp] theorem State.adapt_fuses (s : State) (l : ℕ) : (s.adapt l).fuses = s.fuses := by
  simp -implicitDefEqProofs only [State.adapt, State.draw_fuses, State.updLane_fuses]

@[simp] theorem execLaneUp_fuses (l : LaneIx) (s : State) : (s.after (execLaneUp l s)).fuses = s.fuses := by
  simp only [execLaneUp, ite_fuses, State.enterUp_fuses, State.adapt_fuses, ite_self, after_next]

@[simp] theorem execCdrLoss_fuses (l : LaneIx) (s : State) : (s.after (execCdrLoss l s)).fuses = s.fuses := by
  simp only [execCdrLoss, ite_fuses, State.leaveUp_fuses, ite_self, after_next]

@[simp] theorem execAlignLoss_fuses (l : LaneIx) (s : State) : (s.after (execAlignLoss l s)).fuses = s.fuses := by
  simp only [execAlignLoss, ite_fuses, State.leaveUp_fuses, ite_self, after_next]

@[simp] theorem execHiBer_fuses (l : LaneIx) (s : State) : (s.after (execHiBer l s)).fuses = s.fuses := by
  simp only [execHiBer, ite_fuses, State.leaveUp_fuses, ite_self, after_next]

@[simp] theorem execRemoteFault_fuses (l : LaneIx) (s : State) : (s.after (execRemoteFault l s)).fuses = s.fuses := by
  simp only [execRemoteFault, ite_fuses, State.updLane_fuses, State.leaveUp_fuses, ite_self, after_next]

@[simp] theorem execRemoteFaultEnd_fuses (l : LaneIx) (s : State) : (s.after (execRemoteFaultEnd l s)).fuses = s.fuses := by
  simp only [execRemoteFaultEnd, ite_fuses, State.enterUp_fuses, ite_self, after_next]

@[simp] theorem execEqLimit_fuses (l : LaneIx) (e : Fin 10) (up : Bool) (s : State) :
    (s.after (execEqLimit l e up s)).fuses = s.fuses := by
  simp only [execEqLimit, ite_fuses, State.laneStick_fuses, State.setLane_fuses, ite_self, after_next]

@[simp] theorem execFecCodeword_fuses (l : LaneIx) (ok : Bool) (s : State) :
    (s.after (execFecCodeword l ok s)).fuses = s.fuses := by
  simp only [execFecCodeword, ite_fuses, State.laneCount_fuses, State.laneStick_fuses, ite_self, after_next]

@[simp] theorem State.creditRecord_fuses (s : State) (l k total : ℕ) : (s.creditRecord l k total).fuses = s.fuses := by
  simp only [State.creditRecord, ite_fuses, State.streamTouch_fuses, State.updStream_fuses, State.laneCount_fuses, ite_self]

@[simp] theorem State.seqGap_fuses (s : State) (l k d : ℕ) : (s.seqGap l k d).fuses = s.fuses := by
  simp only [State.seqGap, State.laneStick_fuses, State.laneCount_fuses, State.updStream_fuses, State.streamEvent_fuses]

@[simp] theorem State.controlRecord_fuses (s : State) (l v : ℕ) : (s.controlRecord l v).fuses = s.fuses := by
  simp only [State.controlRecord, ite_fuses, State.seqGap_fuses, State.laneCount_fuses, State.streamEvent_fuses, ite_self]

@[simp] theorem State.chargeFrame_fuses (s : State) (k c : ℕ) : (s.chargeFrame k c).fuses = s.fuses := by
  simp only [State.chargeFrame, State.updStream_fuses, ite_fuses, State.streamStick_fuses, State.streamCount_fuses, ite_self]

@[simp] theorem State.dataFrame_fuses (s : State) (l : ℕ) (h : MlfHeader) (payload : List Byte) :
    (s.dataFrame l h payload).fuses = s.fuses := by
  simp only [State.dataFrame, ite_fuses, State.rxCount_fuses, State.seqGap_fuses, State.chargeFrame_fuses,
    State.placePacket_fuses, ite_self]

@[simp] theorem State.brokenData_fuses (s : State) (l : ℕ) (f : RxFrame) (payload : List Byte) (h : MlfHeader) :
    (s.brokenData l f payload h).fuses = s.fuses := by
  unfold State.brokenData
  dsimp only
  repeat' split
  all_goals simp only [State.seqGap_fuses, State.updStream_fuses, State.streamStick_fuses, State.placePacket_fuses,
    State.chargeFrame_fuses]

@[simp] theorem State.mlfFrame_fuses (s : State) (l : ℕ) (f : RxFrame) : (s.mlfFrame l f).2.fuses = s.fuses := by
  simp -implicitDefEqProofs only [State.mlfFrame, ite_fuses, State.brokenData_fuses, State.rxCount_fuses, State.updLane_fuses,
    State.creditRecord_fuses, State.dataFrame_fuses, State.controlRecord_fuses, foldl_fuses, implies_true, ite_snd, ite_self]

@[simp] theorem execMlfDataRx_fuses (l : LaneIx) (f : RxFrame) (s : State) : (s.after (execMlfDataRx l f s)).fuses = s.fuses := by
  simp only [execMlfDataRx, ite_fuses, State.mlfFrame_fuses, ite_self, after_next]

@[simp] theorem execMlfCreditRx_fuses (l : LaneIx) (f : RxFrame) (s : State) :
    (s.after (execMlfCreditRx l f s)).fuses = s.fuses := by
  simp only [execMlfCreditRx, ite_fuses, State.mlfFrame_fuses, ite_self, after_next]

@[simp] theorem execMlfControlRx_fuses (l : LaneIx) (f : RxFrame) (s : State) :
    (s.after (execMlfControlRx l f s)).fuses = s.fuses := by
  simp only [execMlfControlRx, ite_fuses, State.mlfFrame_fuses, ite_self, after_next]

@[simp] theorem State.etherFrame_fuses (s : State) (l : Nat) (b : List Byte) : (s.etherFrame l b).fuses = s.fuses := by
  unfold State.etherFrame
  dsimp only
  split
  · exact State.rxCount_fuses ..
  · simp only [ite_fuses, State.placeOrDrop_fuses, State.rxCount_fuses, ite_self]

@[simp] theorem State.etherRx_fuses (s : State) (l : ℕ) (f : RxFrame) : (s.etherRx l f).fuses = s.fuses := by
  simp only [State.etherRx, ite_fuses, State.rxCount_fuses, State.updLane_fuses, State.etherFrame_fuses, ite_self]

@[simp] theorem execEthFrameRx_fuses (l : LaneIx) (f : RxFrame) (s : State) :
    (s.after (execEthFrameRx l f s)).fuses = s.fuses := by
  simp only [execEthFrameRx, ite_fuses, State.etherRx_fuses, ite_self, after_next]

@[simp] theorem State.pfcRx_fuses (s : State) (l : ℕ) (f : RxFrame) (b : List Byte) : (s.pfcRx l f b).fuses = s.fuses := by
  simp only [State.pfcRx, ite_fuses, State.rxCount_fuses, State.updLane_fuses, ite_self]

@[simp] theorem execPfcFrameRx_fuses (l : LaneIx) (f : RxFrame) (s : State) :
    (s.after (execPfcFrameRx l f s)).fuses = s.fuses := by
  unfold execPfcFrameRx
  split <;> simp only [ite_fuses, State.pfcRx_fuses, ite_self, after_next]

@[simp] theorem State.controlRx_fuses (s : State) (l : ℕ) (f : RxFrame) : (s.controlRx l f).fuses = s.fuses := by
  simp only [State.controlRx, State.rxCount_fuses]

@[simp] theorem execPauseFrameRx_fuses (l : LaneIx) (f : RxFrame) (s : State) :
    (s.after (execPauseFrameRx l f s)).fuses = s.fuses := by
  simp only [execPauseFrameRx, ite_fuses, State.controlRx_fuses, ite_self, after_next]

@[simp] theorem execPfcPauseExpire_fuses (l : LaneIx) (c : Fin 8) (s : State) :
    (s.after (execPfcPauseExpire l c s)).fuses = s.fuses := by
  simp only [execPfcPauseExpire, State.updLane_fuses, after_next]

@[simp] theorem State.duePfc_fuses (s : State) (l c : ℕ) : (s.duePfc l c).fuses = s.fuses := by
  simp only [State.duePfc, State.startPfc_fuses, State.updLane_fuses]

@[simp] theorem execPfcXoffTx_fuses (l : LaneIx) (c : Fin 8) (s : State) : (s.after (execPfcXoffTx l c s)).fuses = s.fuses := by
  simp only [execPfcXoffTx, ite_fuses, State.duePfc_fuses, State.updLane_fuses, ite_self, after_next]

@[simp] theorem execPfcRepeatTx_fuses (l : LaneIx) (c : Fin 8) (s : State) :
    (s.after (execPfcRepeatTx l c s)).fuses = s.fuses := by
  simp only [execPfcRepeatTx, ite_fuses, State.duePfc_fuses, ite_self, after_next]

@[simp] theorem execPfcXonTx_fuses (l : LaneIx) (c : Fin 8) (s : State) : (s.after (execPfcXonTx l c s)).fuses = s.fuses := by
  simp only [execPfcXonTx, ite_fuses, State.duePfc_fuses, State.updLane_fuses, ite_self, after_next]

@[simp] theorem State.creditSent_fuses (s : State) (k : ℕ) : (s.creditSent k).fuses = s.fuses := by
  simp only [State.creditSent, State.updStream_fuses]

@[simp] theorem State.takeCredit_fuses (s : State) (l : ℕ) : (s.takeCredit l).2.fuses = s.fuses := by
  simp only [State.takeCredit, ite_fuses, State.draw_fuses, State.creditSent_fuses, ite_snd, ite_self]

@[simp] theorem State.mlfBytes_fuses (s : State) (l type stream seq : ℕ) (rsp : Bool) (payload : List Byte) :
    (s.mlfBytes l type stream seq rsp payload).2.fuses = s.fuses := by
  simp only [State.mlfBytes, State.takeCredit_fuses]

@[simp] theorem State.spendPn_fuses (s : State) (l : ℕ) : (s.spendPn l).fuses = s.fuses := by
  unfold State.spendPn
  dsimp only
  split <;> simp only [ite_fuses, State.updLane_fuses, State.laneStick_fuses, ite_self]

@[simp] theorem State.sendFrame_fuses (s : State) (l : ℕ) (f : TxFrame) : (s.sendFrame l f).fuses = s.fuses := by
  simp only [State.sendFrame, State.spendPn_fuses, State.startTx_fuses]

@[simp] theorem State.sendControl_fuses (s : State) (l : ℕ) : (s.sendControl l).fuses = s.fuses := by
  simp only [State.sendControl, State.updLane_fuses, State.mlfBytes_fuses, State.sendFrame_fuses]

@[simp] theorem execHeartbeatTx_fuses (l : LaneIx) (s : State) : (s.after (execHeartbeatTx l s)).fuses = s.fuses := by
  simp only [execHeartbeatTx, ite_fuses, State.sendControl_fuses, ite_self, after_next]

@[simp] theorem State.sendCredit_fuses (s : State) (l : ℕ) (ks : List ℕ) : (s.sendCredit l ks).fuses = s.fuses := by
  simp -implicitDefEqProofs only [State.sendCredit, State.creditSent_fuses, State.mlfBytes_fuses, State.sendFrame_fuses,
    foldl_fuses, implies_true]

@[simp] theorem execCreditFrameTx_fuses (l : LaneIx) (s : State) : (s.after (execCreditFrameTx l s)).fuses = s.fuses := by
  simp only [execCreditFrameTx, ite_fuses, State.sendCredit_fuses, ite_self, after_next]

@[simp] theorem execCreditRepeat_fuses (k : StreamIx) (s : State) : (s.after (execCreditRepeat k s)).fuses = s.fuses := by
  simp only [execCreditRepeat, ite_fuses, State.sendCredit_fuses, ite_self, after_next]

@[simp] theorem execSeqSyncTx_fuses (k : StreamIx) (s : State) : (s.after (execSeqSyncTx k s)).fuses = s.fuses := by
  unfold execSeqSyncTx
  dsimp only
  split <;> simp only [ite_fuses, State.updStream_fuses, State.updLane_fuses, State.sendControl_fuses, ite_self, after_next]

@[simp] theorem execPartnerSilent_fuses (l : LaneIx) (s : State) : (s.after (execPartnerSilent l s)).fuses = s.fuses := by
  simp only [execPartnerSilent, ite_fuses, State.laneStick_fuses, ite_self, after_next]

@[simp] theorem State.sendData_fuses (s : State) (l src : ℕ) (r : Ready) : (s.sendData l src r).fuses = s.fuses := by
  simp only [State.sendData, ite_fuses, State.updLane_fuses, State.updStream_fuses, State.tellOwner_fuses, State.mlfBytes_fuses,
    State.sendFrame_fuses, ite_self]

@[simp] theorem execDataFrameTx_fuses (l : LaneIx) (s : State) : (s.after (execDataFrameTx l s)).fuses = s.fuses := by
  unfold execDataFrameTx
  dsimp only
  repeat' split
  all_goals simp only [State.startPfc_fuses, State.sendControl_fuses, State.sendData_fuses, after_next]

/-! ### Frames of streams and the Carafe (Machine/Streams.lean) -/

@[simp] theorem State.cellWord_fuses (s : State) (c i : ℕ) : (s.cellWord c i).2.2.fuses = s.fuses := by
  simp only [State.cellWord, State.readWord_fuses, ite_fuses, ite_self]

@[simp] theorem State.injectWord_fuses (s : State) (k : ℕ) (j : Inject) : (s.injectWord k j).2.fuses = s.fuses := by
  simp only [State.injectWord, ite_fuses, State.cellWord_fuses, ite_snd, ite_self]

@[simp] theorem State.injectRead_fuses (s : State) (k fuel : Nat) : (s.injectRead k fuel).fuses = s.fuses := by
  induction fuel generalizing s with
  | zero => rw [State.injectRead]
  | succ n ih =>
    rw [State.injectRead]
    split
    · rfl
    · rw [ite_fuses, ih, State.readTo_fuses, State.readTo_fuses, State.setStream_fuses, ite_self]

@[simp] theorem State.injectRun_fuses (s : State) (k i fuel : Nat) : (s.injectRun k i fuel).fuses = s.fuses := by
  induction fuel generalizing s with
  | zero => rw [State.injectRun]
  | succ n ih =>
    rw [State.injectRun]
    dsimp only
    split
    · rfl
    · split
      · rfl
      · split
        · rw [State.updStream_fuses, State.send_fuses, State.injectWord_fuses]
        · rw [ih, State.updStream_fuses, State.send_fuses, State.injectWord_fuses]

@[simp] theorem State.injectAll_fuses (s : State) (k : Nat) : (s.injectAll k).fuses = s.fuses := by
  rw [State.injectAll, State.injectRead_fuses, foldl_fuses fun t i => t.injectRun_fuses ..]

@[simp] theorem State.injectStart_fuses (s : State) (k : ℕ) : (s.injectStart k).fuses = s.fuses := by
  unfold State.injectStart
  split <;> simp only [ite_fuses, State.updStream_fuses, ite_self]

@[simp] theorem execEdgeInjectPacket_fuses (k : StreamIx) (s : State) : (s.after (execEdgeInjectPacket k s)).fuses = s.fuses := by
  unfold execEdgeInjectPacket
  dsimp only
  split
  · rw [after_next]
  · rw [after_next, State.injectAll_fuses, State.injectStart_fuses]

@[simp] theorem State.countEdge_fuses (s : State) (e : ℕ) : (s.countEdge e).fuses = s.fuses := by
  simp only [State.countEdge]

@[simp] theorem State.bindPacket_fuses (s : State) (e : ℕ) (a : Asm) : (s.bindPacket e a).fuses = s.fuses := by
  unfold State.bindPacket
  dsimp only
  split <;> simp only [ite_fuses, State.countEdge_fuses, State.txAbort_fuses, State.streamEvent_fuses, State.laneCount_fuses,
    ite_self]

@[simp] theorem State.gather_fuses (s : State) (e fuel : Nat) : (s.gather e fuel).fuses = s.fuses := by
  induction fuel generalizing s with
  | zero => rw [State.gather]
  | succ n ih =>
    rw [State.gather]
    dsimp only
    generalize (if s.linkReads _ then (s.link _).held else []) = ws
    split
    · rfl
    · split
      · rfl
      · split
        · rw [State.bindPacket_fuses, State.take_fuses]
        · rw [ih]
          exact s.take_fuses (edgeOut (e / 64) (e % 64 / 4) (e % 4))

@[simp] theorem execEdgeEgressPacket_fuses (e : Fin 128) (s : State) : (s.after (execEdgeEgressPacket e s)).fuses = s.fuses := by
  rw [execEdgeEgressPacket, after_next, State.gather_fuses]

@[simp] theorem State.packetBytes_fuses (s : State) (k a b : Nat) : (s.packetBytes k a b).2.2.fuses = s.fuses := by
  unfold State.packetBytes
  refine foldl_third_fuses (fun bs bad t i => ?_) _ _
  exact foldl_third_fuses (fun ws p u j => u.cellWord_fuses ..) _ _

@[simp] theorem State.bypDiscard_fuses (s : State) (k t e : ℕ) : (s.bypDiscard k t e).fuses = s.fuses := by
  simp only [State.bypDiscard, State.readTo_fuses, State.txAbort_fuses]

@[simp] theorem execBypassFrame_fuses (k : StreamIx) (s : State) : (s.after (execBypassFrame k s)).fuses = s.fuses := by
  unfold execBypassFrame
  dsimp only
  split
  · split
    · rw [after_next]
    · split
      · rw [after_next, State.bypDiscard_fuses, State.packetBytes_fuses]
      · rw [after_next, State.updLane_fuses, State.updStream_fuses, State.packetBytes_fuses]
  · rw [after_next]

@[simp] theorem execCreditEngineVisit_fuses (k : StreamIx) (s : State) :
    (s.after (execCreditEngineVisit k s)).fuses = s.fuses := by
  unfold execCreditEngineVisit
  dsimp only
  repeat' split
  all_goals simp only [State.updStream_fuses, after_next]

@[simp] theorem State.updFar_fuses (s : State) (k i : ℕ) (f : FarCell → FarCell) : (s.updFar k i f).fuses = s.fuses := by
  simp only [State.updFar, State.updStream_fuses]

@[simp] theorem State.carafeLines_fuses (s : State) (k : ℕ) (mk : ℕ → Packet) : (s.carafeLines k mk).fuses = s.fuses := by
  simp -implicitDefEqProofs only [State.carafeLines, State.issue_fuses, foldl_fuses, implies_true]

@[simp] theorem execCarafeSpillWrite_fuses (k : StreamIx) (s : State) : (s.after (execCarafeSpillWrite k s)).fuses = s.fuses := by
  unfold execCarafeSpillWrite
  dsimp only
  split
  · rw [after_next]
  · split
    · rw [after_next]
    · rw [after_next, State.carafeLines_fuses, State.updFar_fuses, foldl_third_fuses fun ws p u j => u.cellWord_fuses ..]

@[simp] theorem State.carafeFail_fuses (s : State) (k status : ℕ) : (s.carafeFail k status).fuses = s.fuses := by
  simp only [State.carafeFail, ite_fuses, State.raiseFault_fuses, ite_self]

@[simp] theorem State.dropBypass_fuses (s : State) (k : ℕ) : (s.dropBypass k).fuses = s.fuses := by
  simp -implicitDefEqProofs only [State.dropBypass, ite_fuses, State.updStream_fuses, State.updLane_fuses, foldl_fuses,
    implies_true, ite_self]

@[simp] theorem State.forgetWire_fuses (s : State) (k : ℕ) : (s.forgetWire k).fuses = s.fuses := by
  simp -implicitDefEqProofs only [State.forgetWire, State.updStream_fuses, State.updLane_fuses, foldl_fuses, implies_true]

@[simp] theorem State.dropReady_fuses (s : State) (k : ℕ) : (s.dropReady k).fuses = s.fuses := by
  unfold State.dropReady
  refine (foldl_fuses (fun t _ => State.txAbort_fuses ..) _ _).trans ?_
  refine (foldl_fuses (fun t r => ?_) _ _).trans (State.updLane_fuses ..)
  split <;> rfl

@[simp] theorem State.closeEnd_fuses (s : State) (k : ℕ) : (s.closeEnd k).fuses = s.fuses := by
  simp only [State.closeEnd, ite_fuses, State.dropReady_fuses, State.freeCells_fuses, State.forgetWire_fuses,
    State.dropBypass_fuses, State.updLane_fuses, State.updStream_fuses, ite_self]

@[simp] theorem State.closeStream_fuses (s : State) (k : ℕ) : (s.closeStream k).fuses = s.fuses := by
  simp only [State.closeStream, State.closeEnd_fuses, State.updStream_fuses]

theorem State.carafeAnswer_fuses {α : Type} {s t : State} {sel : Purpose → Option α} {p : Packet} {a : Option α} (h :
    s.carafeAnswer sel = some (p, a, t)) : t.fuses = s.fuses := by
  unfold State.carafeAnswer at h
  split at h <;> cases h
  rfl

@[simp] theorem execCarafeSpillDone_fuses (k : StreamIx) (s : State) : (s.after (execCarafeSpillDone k s)).fuses = s.fuses := by
  unfold execCarafeSpillDone
  split
  · rw [after_next]
  · next h => rw [after_next, State.carafeAnswer_fuses h]
  · next h =>
    rw [← State.carafeAnswer_fuses h]
    dsimp only
    split
    · rw [after_next]
    · split
      · rw [after_next, State.updFar_fuses, State.carafeFail_fuses]
      · rw [after_next, State.closeEnd_fuses, State.updFar_fuses, State.freeCells_fuses, State.streamCount_fuses,
        State.carafeFail_fuses]

@[simp] theorem execCarafeRefillRead_fuses (k : StreamIx) (s : State) : (s.after (execCarafeRefillRead k s)).fuses = s.fuses := by
  unfold execCarafeRefillRead
  dsimp only
  repeat' split
  all_goals simp only [State.freeCell_fuses, State.setCell_fuses, State.updStream_fuses, State.updFar_fuses,
    State.carafeLines_fuses, after_next]

@[simp] theorem State.advanceSpill_fuses (s : State) (k : ℕ) : (s.advanceSpill k).fuses = s.fuses := by
  simp only [State.advanceSpill, State.updStream_fuses]

@[simp] theorem execCarafeRefillDone_fuses (k : StreamIx) (s : State) : (s.after (execCarafeRefillDone k s)).fuses = s.fuses := by
  unfold execCarafeRefillDone
  split
  · rw [after_next]
  · next h => rw [after_next, State.carafeAnswer_fuses h]
  · next h =>
    rw [← State.carafeAnswer_fuses h]
    dsimp only
    split
    · rw [after_next]
    · split
      · simp only [after_next, State.updFar_fuses, State.writeWords_fuses, State.carafeFail_fuses]
      · simp only [after_next, State.closeEnd_fuses, State.advanceSpill_fuses, State.updFar_fuses, ite_fuses,
        State.streamStick_fuses, State.streamCount_fuses, State.setCell_fuses, State.writeWords_fuses, State.carafeFail_fuses,
        ite_self]

@[simp] theorem State.restartCarafe_fuses (s : State) (q : ℕ) : (s.restartCarafe q).fuses = s.fuses := by
  simp -implicitDefEqProofs only [State.restartCarafe, State.closeEnd_fuses, State.freeCells_fuses, State.updStream_fuses,
    foldl_fuses, implies_true]

@[simp] theorem State.stopStream_fuses (s : State) (k : ℕ) : (s.stopStream k).fuses = s.fuses := by
  simp only [State.stopStream, ite_fuses, State.dropBypass_fuses, State.setStream_fuses, ite_self]

@[simp] theorem State.replay_fuses (s : State) (k t : ℕ) : (s.replay k t).fuses = s.fuses := by
  simp only [State.replay, State.setStream_fuses, ite_fuses, State.forgetWire_fuses, State.raiseStreamFlag_fuses, ite_self]

/-! ### Frames of the command transport (Machine/Transport.lean) -/

@[simp] theorem State.sendMsix_fuses (s : State) (n v : ℕ) : (s.sendMsix n v).fuses = s.fuses := by
  simp only [State.sendMsix, ite_fuses, State.updPort_fuses, ite_self]

@[simp] theorem State.hpStick_fuses (s : State) (n : ℕ) (bits : Word) : (s.hpStick n bits).fuses = s.fuses := by
  simp only [State.hpStick, State.updPort_fuses, ite_fuses, State.sendMsix_fuses, ite_self]

@[simp] theorem State.queueFault_fuses (s : State) (x code : ℕ) : (s.queueFault x code).fuses = s.fuses := by
  simp only [State.queueFault, State.updQueue_fuses]

@[simp] theorem State.tailWrite_fuses (s : State) (x t : ℕ) : (s.tailWrite x t).fuses = s.fuses := by
  simp only [State.tailWrite, ite_fuses, State.setQueue_fuses, State.hpStick_fuses, State.queueFault_fuses, ite_self]

@[simp] theorem State.headWrite_fuses (s : State) (x h : ℕ) : (s.headWrite x h).fuses = s.fuses := by
  simp only [State.headWrite, ite_fuses, State.setQueue_fuses, State.hpStick_fuses, State.queueFault_fuses, ite_self]

@[simp] theorem State.queueCtrl_fuses (s : State) (x : ℕ) (w : Word) : (s.queueCtrl x w).fuses = s.fuses := by
  simp only [State.queueCtrl, ite_fuses, State.setQueue_fuses, ite_self]

@[simp] theorem execSqTailWrite_fuses (n : Fin 4) (m : Fin 64) (b : Doorbell) (s : State) :
    (s.after (execSqTailWrite n m b s)).fuses = s.fuses := by
  simp only [execSqTailWrite, ite_fuses, State.tailWrite_fuses, ite_self, after_next]

@[simp] theorem execCqHeadWrite_fuses (n : Fin 4) (m : Fin 64) (b : Doorbell) (s : State) :
    (s.after (execCqHeadWrite n m b s)).fuses = s.fuses := by
  simp only [execCqHeadWrite, ite_fuses, State.headWrite_fuses, ite_self, after_next]

@[simp] theorem execQCtrlWrite_fuses (n : Fin 4) (m : Fin 64) (w : Word) (s : State) :
    (s.after (execQCtrlWrite n m w s)).fuses = s.fuses := by
  simp only [execQCtrlWrite, ite_fuses, State.queueCtrl_fuses, ite_self, after_next]

@[simp] theorem State.undeliver_fuses (s : State) (rs : List Reply) : (s.undeliver rs).fuses = s.fuses := by
  simp -implicitDefEqProofs only [State.undeliver, ite_fuses, State.setEvb_fuses, foldl_fuses, implies_true, ite_self]

@[simp] theorem State.dropReplies_fuses (s : State) (x : ℕ) : (s.dropReplies x).fuses = s.fuses := by
  simp only [State.dropReplies, State.updQueue_fuses, State.undeliver_fuses]

@[simp] theorem execQueueDisableDone_fuses (n : Fin 4) (m : Fin 64) (s : State) :
    (s.after (execQueueDisableDone n m s)).fuses = s.fuses := by
  simp only [execQueueDisableDone, ite_fuses, State.updQueue_fuses, State.dropReplies_fuses, ite_self, after_next]

@[simp] theorem State.takeRseq_fuses (s : State) (x r : ℕ) : (s.takeRseq x r).2.fuses = s.fuses := by
  simp only [State.takeRseq, ite_fuses, State.draw_fuses, State.setQueue_fuses, ite_snd, ite_self]

@[simp] theorem State.number_fuses (s : State) (x : ℕ) (r : Reply) : (s.number x r).2.fuses = s.fuses := by
  unfold State.number
  split <;> simp only [State.takeRseq_fuses]

@[simp] theorem State.sendReply_fuses (s : State) (x : ℕ) (r : Reply) : (s.sendReply x r).fuses = s.fuses := by
  simp only [State.sendReply, ite_fuses, State.updQueue_fuses, State.issue_fuses, ite_self]

@[simp] theorem State.landFlight_fuses (s : State) (c : CmdRec) : (s.landFlight c).fuses = s.fuses := by
  simp only [State.landFlight, State.updQueue_fuses, State.setFlights_fuses]

@[simp] theorem State.reply_fuses (s : State) (c : CmdRec) (status : ℕ) (result : List Byte) (faults : Bool) (number : Option ℕ)
    :
    (s.reply c status result faults number).fuses = s.fuses := by
  simp only [State.reply, State.landFlight_fuses, ite_fuses, State.sendReply_fuses, ite_self]

@[simp] theorem execCommandFetch_fuses (n : Fin 4) (m : Fin 64) (s : State) :
    (s.after (execCommandFetch n m s)).fuses = s.fuses := by
  unfold execCommandFetch
  dsimp only
  split <;> simp only [State.setQueue_fuses, State.setFlights_fuses, after_next]

@[simp] theorem State.fetchDone_fuses (s : State) (h : HostRead) (x r : ℕ) (data : List Byte) (err : Bool) :
    (s.fetchDone h x r data err).fuses = s.fuses := by
  unfold State.fetchDone
  repeat' split
  all_goals simp -implicitDefEqProofs only [State.hpStick_fuses, State.queueFault_fuses, State.setQueue_fuses,
    State.setFlights_fuses, State.reply_fuses, State.issue_fuses, foldl_fuses, implies_true]

@[simp] theorem execMeshCmd_fuses (s : State) : (s.after (execMeshCmd s)).fuses = s.fuses := by
  unfold execMeshCmd
  split
  · rw [after_next]
  · dsimp only
    split_ifs <;> simp only [after_next, State.pump_fuses, State.answer_fuses, State.reply_fuses, State.setBuffer_fuses,
      State.setQueue_fuses, State.setFlights_fuses]

@[simp] theorem execMeshEvt_fuses (r : MeshReq) (s : State) : (s.after (execMeshEvt r s)).fuses = s.fuses := by
  unfold execMeshEvt
  dsimp only
  split_ifs
  · rw [after_next, State.pump_fuses, State.answer_fuses, State.takeRequest_fuses]
  · rw [after_next]
  · rw [after_next, State.pump_fuses, State.answer_fuses, State.raiseEvent_fuses, State.takeRequest_fuses]

@[simp] theorem execMeshRpl_fuses (s : State) : (s.after (execMeshRpl s)).fuses = s.fuses := by
  unfold execMeshRpl
  split
  · rw [after_next]
  · rw [after_next, State.pump_fuses, State.answer_fuses, State.updQueue_fuses]

@[simp] theorem execMeshResponse_fuses (s : State) : (s.after (execMeshResponse s)).fuses = s.fuses := by
  unfold execMeshResponse
  dsimp only
  repeat' split
  all_goals simp only [State.issue_fuses, State.hpStick_fuses, after_next]

@[simp] theorem execCompletionWrite_fuses (n : Fin 4) (m : Fin 64) (err : Bool) (s : State) :
    (s.after (execCompletionWrite n m err s)).fuses = s.fuses := by
  unfold execCompletionWrite
  dsimp only
  repeat' split
  all_goals simp only [State.hpStick_fuses, State.queueFault_fuses, State.number_fuses, State.updQueue_fuses,
    State.sendMsix_fuses, after_next]

@[simp] theorem State.losePort_fuses (s : State) (n : ℕ) : (s.losePort n).fuses = s.fuses := by
  simp -implicitDefEqProofs only [State.losePort, State.setFlights_fuses, State.purge_fuses, State.setQueue_fuses,
    State.dropReplies_fuses, State.updPort_fuses, foldl_fuses, implies_true]

@[simp] theorem execPerstAssert_fuses (n : Fin 4) (s : State) : (s.after (execPerstAssert n s)).fuses = s.fuses := by
  simp only [execPerstAssert, State.updPort_fuses, State.losePort_fuses, after_next]

@[simp] theorem execHostLinkDown_fuses (n : Fin 4) (s : State) : (s.after (execHostLinkDown n s)).fuses = s.fuses := by
  simp only [execHostLinkDown, State.losePort_fuses, after_next]

@[simp] theorem execPerstDeassert_fuses (n : Fin 4) (s : State) : (s.after (execPerstDeassert n s)).fuses = s.fuses := by
  simp only [execPerstDeassert, State.updPort_fuses, after_next]

@[simp] theorem execBaristaSliceEnd_fuses (c : Fin 4) (s : State) : (s.after (execBaristaSliceEnd c s)).fuses = s.fuses := by
  simp only [execBaristaSliceEnd, after_next]

@[simp] theorem execEventDeliver_fuses (r : Recip) (s : State) : (s.after (execEventDeliver r s)).fuses = s.fuses := by
  unfold execEventDeliver
  dsimp only
  split <;> simp only [State.setEvb_fuses, State.sendReply_fuses, after_next]

@[simp] theorem State.mlfRx_fuses (s : State) (l : ℕ) (f : RxFrame) : (s.mlfRx l f).fuses = s.fuses := by
  unfold State.mlfRx
  dsimp only
  repeat' split
  all_goals simp -implicitDefEqProofs only [State.mlfFrame_fuses, State.rxCount_fuses, State.updQueue_fuses,
    State.issue_fuses, foldl_fuses, implies_true, snd_fuses ‹_ = (_, _)›]

@[simp] theorem execMlfCommandRx_fuses (l : LaneIx) (f : RxFrame) (s : State) :
    (s.after (execMlfCommandRx l f s)).fuses = s.fuses := by
  simp only [execMlfCommandRx, ite_fuses, State.mlfRx_fuses, ite_self, after_next]

@[simp] theorem State.frameRx_fuses (s : State) (l : ℕ) (f : RxFrame) : (s.frameRx l f).fuses = s.fuses := by
  unfold State.frameRx
  repeat' split
  all_goals simp only [State.pfcRx_fuses, State.controlRx_fuses, State.etherRx_fuses, State.mlfRx_fuses]

@[simp] theorem State.frameSent_fuses (s : State) (l : ℕ) (f : TxFrame) : (s.frameSent l f).fuses = s.fuses := by
  unfold State.frameSent
  repeat' split
  all_goals simp only [State.laneCount_fuses, State.updLane_fuses, State.streamCount_fuses, State.readTo_fuses,
    State.updStream_fuses]

@[simp] theorem execFrameSentWhole_fuses (l : LaneIx) (s : State) : (s.after (execFrameSentWhole l s)).fuses = s.fuses := by
  unfold execFrameSentWhole
  dsimp only
  split
  · rfl
  · simp only [after_next, ite_fuses, State.frameRx_fuses, State.frameSent_fuses, ite_self]

@[simp] theorem execInbandReplyTx_fuses (q : Fin 192) (s : State) : (s.after (execInbandReplyTx q s)).fuses = s.fuses := by
  unfold execInbandReplyTx
  dsimp only
  repeat' split
  all_goals simp -implicitDefEqProofs only [State.sendControl_fuses, State.updQueue_fuses, State.number_fuses,
    State.mlfBytes_fuses, State.queueFault_fuses, State.sendFrame_fuses, foldl_snd_fuses, implies_true, after_next]

@[simp] theorem execSmbusCommandWrite_fuses (a : BitVec 7) (data : List Byte) (pec : Bool) (s : State) :
    (s.after (execSmbusCommandWrite a data pec s)).fuses = s.fuses := by
  unfold execSmbusCommandWrite
  split <;> simp only [ite_fuses, State.setQueue_fuses, State.setFlights_fuses, State.reply_fuses, State.setBuffer_fuses,
    ite_self, after_next]

@[simp] theorem execSmbusReplyRead_fuses (a : BitVec 7) (s : State) : (s.after (execSmbusReplyRead a s)).fuses = s.fuses := by
  unfold execSmbusReplyRead
  dsimp only
  repeat' split
  all_goals simp only [State.number_fuses, State.updQueue_fuses, State.queueFault_fuses, after_next]

@[simp] theorem execSmbusStatusRead_fuses (a : BitVec 7) (s : State) : (s.after (execSmbusStatusRead a s)).fuses = s.fuses := by
  simp only [execSmbusStatusRead, after_next]

@[simp] theorem execSmbusClockTimeout_fuses (s : State) : (s.after (execSmbusClockTimeout s)).fuses = s.fuses := by
  simp only [execSmbusClockTimeout, after_next]

@[simp] theorem execSmbusAlertResponse_fuses (s : State) : (s.after (execSmbusAlertResponse s)).fuses = s.fuses := by
  simp only [execSmbusAlertResponse, after_next]

/-! ### Frames of power and clocks (Machine/Power.lean) -/

@[simp] theorem execSectorPowerChoose_fuses (n : SecIx) (s : State) : (s.after (execSectorPowerChoose n s)).fuses = s.fuses := by
  simp only [execSectorPowerChoose, State.updSector_fuses, ite_fuses, ite_self, after_next]

@[simp] theorem execPointOfNoReturn_fuses (n : SecIx) (s : State) : (s.after (execPointOfNoReturn n s)).fuses = s.fuses := by
  simp only [execPointOfNoReturn, ite_fuses, State.updSector_fuses, ite_self, after_next]

@[simp] theorem execSleepStateReached_fuses (n : SecIx) (s : State) : (s.after (execSleepStateReached n s)).fuses = s.fuses := by
  unfold execSleepStateReached
  dsimp only
  split <;> simp -implicitDefEqProofs only [ite_fuses, State.updSector_fuses, State.updTile_fuses, State.setMem_fuses,
    State.withdrawAsk_fuses, foldl_fuses, implies_true, ite_self, after_next]

@[simp] theorem State.startWake_fuses (s : State) (n : ℕ) : (s.startWake n).fuses = s.fuses := by
  unfold State.startWake
  dsimp only
  repeat' split
  all_goals simp -implicitDefEqProofs only [State.updSector_fuses, State.updTile_fuses, State.setMem_fuses, foldl_fuses,
    implies_true]

@[simp] theorem execWakeRequest_fuses (n : SecIx) (s : State) : (s.after (execWakeRequest n s)).fuses = s.fuses := by
  simp only [execWakeRequest, ite_fuses, State.startWake_fuses, ite_self, after_next]

@[simp] theorem State.recountBorder_fuses (s : State) (n : ℕ) : (s.recountBorder n).fuses = s.fuses := by
  simp -implicitDefEqProofs only [State.recountBorder, State.updLink_fuses, foldl_fuses, implies_true]

@[simp] theorem State.reachBrew_fuses (s : State) (n : ℕ) : (s.reachBrew n).fuses = s.fuses := by
  simp -implicitDefEqProofs only [State.reachBrew, State.updSector_fuses, State.arriveFlag_fuses, State.recountBorder_fuses,
    foldl_fuses, implies_true]

@[simp] theorem execSteepWakeDone_fuses (n : SecIx) (s : State) : (s.after (execSteepWakeDone n s)).fuses = s.fuses := by
  simp only [execSteepWakeDone, ite_fuses, State.reachBrew_fuses, ite_self, after_next]

@[simp] theorem pmStick_fuses (s : State) (bits : BitVec 32) : (pmStick s bits).fuses = s.fuses := rfl

@[simp] theorem State.wakeFence_fuses (s : State) (p : ℕ) : (s.wakeFence p).fuses = s.fuses := by
  simp only [State.wakeFence, ite_fuses, State.applyFence_fuses, State.releaseFence_fuses, ite_self]

@[simp] theorem execDeepWakeDone_fuses (n : SecIx) (late : Bool) (s : State) :
    (s.after (execDeepWakeDone n late s)).fuses = s.fuses := by
  unfold execDeepWakeDone
  dsimp only
  split <;> simp -implicitDefEqProofs only [ite_fuses, State.wakeFence_fuses, State.reachBrew_fuses, pmStick_fuses, foldl_fuses,
    implies_true, ite_self, after_next]

@[simp] theorem execTimerWake_fuses (n : SecIx) (s : State) : (s.after (execTimerWake n s)).fuses = s.fuses := by
  simp only [execTimerWake, ite_fuses, State.startWake_fuses, State.updSector_fuses, ite_self, after_next]

@[simp] theorem State.raiseWake_fuses (s : State) (n : ℕ) : (s.raiseWake n).fuses = s.fuses := by
  simp only [State.raiseWake, ite_fuses, State.updSector_fuses, ite_self]

@[simp] theorem State.wakeSteep_fuses (s : State) (n : ℕ) : (s.wakeSteep n).fuses = s.fuses := by
  simp only [State.wakeSteep, ite_fuses, State.raiseWake_fuses, ite_self]

@[simp] theorem State.forceAwake_fuses (s : State) (n : ℕ) (v : Bool) : (s.forceAwake n v).fuses = s.fuses := by
  simp only [State.forceAwake, State.updSector_fuses, ite_fuses, State.raiseWake_fuses, ite_self]

@[simp] theorem execSecForceWrite_fuses (n : SecIx) (w : Word) (s : State) :
    (s.after (execSecForceWrite n w s)).fuses = s.fuses := by
  simp only [execSecForceWrite, State.forceAwake_fuses, after_next]

@[simp] theorem execClockStep_fuses (n : SecIx) (s : State) : (s.after (execClockStep n s)).fuses = s.fuses := by
  simp only [execClockStep, State.updSector_fuses, ite_fuses, ite_self, after_next]

@[simp] theorem State.sense_fuses (s : State) (k : ℕ) (v : ℤ) : (s.sense k v).fuses = s.fuses := rfl

@[simp] theorem execPowerCapUpdate_fuses (watts : BitVec 32) (sectors : List (BitVec 32)) (s : State) :
    (s.after (execPowerCapUpdate watts sectors s)).fuses = s.fuses := by
  simp -implicitDefEqProofs only [execPowerCapUpdate, State.sense_fuses, pmStick_fuses, foldl_fuses, implies_true, after_next]

theorem State.thermal_fuses (s0 s : State) (n : Nat) : (State.thermal s0 s n).fuses = s.fuses := by
  unfold State.thermal
  simp only [ite_fuses, pmStick_fuses, State.updSector_fuses, ite_self]

@[simp] theorem execThermalUpdate_fuses (temps : List (BitVec 16)) (s : State) :
    (s.after (execThermalUpdate temps s)).fuses = s.fuses := by
  unfold execThermalUpdate
  simp -implicitDefEqProofs only [after_next, ite_fuses, foldl_fuses, State.thermal_fuses, pmStick_fuses, State.updSector_fuses,
    State.sense_fuses, ite_self, implies_true]

@[simp] theorem execCriticalAlarm_fuses (s : State) : (s.after (execCriticalAlarm s)).fuses = s.fuses := by
  unfold execCriticalAlarm
  dsimp only
  split <;> simp -implicitDefEqProofs only [pmStick_fuses, State.updSector_fuses, foldl_fuses, implies_true, after_next]

@[simp] theorem execCriticalClear_fuses (s : State) : (s.after (execCriticalClear s)).fuses = s.fuses := by
  simp only [execCriticalClear, ite_fuses, ite_self, after_next]

/-! ### Frames of boot images (Machine/BootImage.lean) -/

@[simp] theorem State.flashWrite_fuses (s : State) (a : ℕ) (b : List Byte) : (s.flashWrite a b).fuses = s.fuses := by
  simp -implicitDefEqProofs only [State.flashWrite]

@[simp] theorem State.flashErase_fuses (s : State) (a n : ℕ) : (s.flashErase a n).fuses = s.fuses := rfl

/-! ### Frames of reset and boot (Machine/Boot.lean) -/

@[simp] theorem State.drawKey_fuses (s : State) : (s.drawKey).2.fuses = s.fuses := rfl

@[simp] theorem State.random_fuses (s : State) (n : ℕ) : (s.random n).2.fuses = s.fuses := by
  simp only [State.random, State.draw_fuses]

@[simp] theorem State.deviceReset_fuses (s : State) : (s.deviceReset).fuses = s.fuses := by
  simp -implicitDefEqProofs only [State.deviceReset]

@[simp] theorem execDeviceReset_fuses (s : State) : (s.after (execDeviceReset s)).fuses = s.fuses := by
  simp only [execDeviceReset, State.deviceReset_fuses, after_next]

@[simp] theorem execSupplyMonitorTrip_fuses (s : State) : (s.after (execSupplyMonitorTrip s)).fuses = s.fuses := by
  simp only [execSupplyMonitorTrip, State.deviceReset_fuses, after_next]

@[simp] theorem execResetRelease_fuses (b : BoardIn) (s : State) : (s.after (execResetRelease b s)).fuses = s.fuses := by
  unfold execResetRelease
  split <;> simp -implicitDefEqProofs only [State.flashWrite_fuses, foldl_fuses, implies_true, after_next]

@[simp] theorem State.updBoot_fuses (s : State) (f : Boot → Boot) : (s.updBoot f).fuses = s.fuses := rfl

@[simp] theorem State.bootHalt_fuses (s : State) (code : ℕ) : (s.bootHalt code).fuses = s.fuses := by
  simp only [State.bootHalt, State.updBoot_fuses]

@[simp] theorem State.failTile_fuses (s : State) (p : ℕ) : (s.failTile p).fuses = s.fuses := by
  simp only [State.failTile, ite_fuses, State.setTm_fuses, State.updSector_fuses, ite_self]

@[simp] theorem State.failLanes_fuses (s : State) (lo : ℕ) : (s.failLanes lo).fuses = s.fuses := by
  simp -implicitDefEqProofs only [State.failLanes, State.laneStick_fuses, State.updLane_fuses, foldl_fuses, implies_true]

@[simp] theorem State.slotFails_fuses (s : State) (x r : ℕ) : (s.slotFails x r).fuses = s.fuses := by
  simp only [State.slotFails, State.updBoot_fuses, ite_fuses, State.bootHalt_fuses, ite_self]

@[simp] theorem State.loadSections_fuses (s : State) (b : List Byte) (d : List (List Byte)) :
    (s.loadSections b d).fuses = s.fuses := by
  simp -implicitDefEqProofs only [State.loadSections, State.setMem_fuses, State.updBoot_fuses, State.updPort_fuses, foldl_fuses,
    implies_true]

@[simp] theorem State.laneTable_fuses (s : State) (r : List Byte) : (s.laneTable r).fuses = s.fuses := by
  simp only [State.laneTable, State.updLane_fuses]

@[simp] theorem State.bootComplete_fuses (s : State) : (s.bootComplete).fuses = s.fuses := by
  simp -implicitDefEqProofs only [State.bootComplete, State.random_fuses, State.drawKey_fuses, State.setMem_fuses,
    State.updBoot_fuses, State.laneTable_fuses, State.updSector_fuses, foldl_fuses, implies_true]

@[simp] theorem State.setTap_fuses (s : State) (t : Tap) (out : List Byte) : (s.setTap t out).fuses = s.fuses := rfl

@[simp] theorem execTapReset_fuses (s : State) : (s.after (execTapReset s)).fuses = s.fuses := by
  simp only [execTapReset, after_next]

@[simp] theorem State.scanBypass_fuses (s : State) (bits : List Bool) : (s.scanBypass bits).fuses = s.fuses := by
  simp only [State.scanBypass, State.setTap_fuses]

@[simp] theorem execJtagBypass_fuses (bits : List Bool) (s : State) : (s.after (execJtagBypass bits s)).fuses = s.fuses := by
  simp only [execJtagBypass, State.scanBypass_fuses, after_next]

@[simp] theorem execJtagIdcode_fuses (s : State) : (s.after (execJtagIdcode s)).fuses = s.fuses := by
  simp only [execJtagIdcode, State.setTap_fuses, after_next]

@[simp] theorem State.scanBoundary_fuses (s : State) (i : TapInstr) (pins : List Bool) (load : List Bool) :
    (s.scanBoundary i pins load).fuses = s.fuses := by
  simp only [State.scanBoundary, State.setTap_fuses]

@[simp] theorem execJtagSamplePreload_fuses (pins : List Bool) (load : List Bool) (s : State) :
    (s.after (execJtagSamplePreload pins load s)).fuses = s.fuses := by
  simp only [execJtagSamplePreload, State.scanBoundary_fuses, after_next]

@[simp] theorem execJtagExtest_fuses (pins : List Bool) (load : List Bool) (s : State) :
    (s.after (execJtagExtest pins load s)).fuses = s.fuses := by
  simp only [execJtagExtest, State.scanBoundary_fuses, after_next]

@[simp] theorem execJtagExtestPulse_fuses (pins : List Bool) (load : List Bool) (s : State) :
    (s.after (execJtagExtestPulse pins load s)).fuses = s.fuses := by
  simp only [execJtagExtestPulse, State.scanBoundary_fuses, after_next]

@[simp] theorem execJtagExtestTrain_fuses (pins : List Bool) (load : List Bool) (s : State) :
    (s.after (execJtagExtestTrain pins load s)).fuses = s.fuses := by
  simp only [execJtagExtestTrain, State.scanBoundary_fuses, after_next]

@[simp] theorem execJtagPrivate_fuses (bits : List Bool) (s : State) : (s.after (execJtagPrivate bits s)).fuses = s.fuses := by
  unfold execJtagPrivate
  split <;> rfl

@[simp] theorem execSecureSlotEnd_fuses (s : State) : (s.after (execSecureSlotEnd s)).fuses = s.fuses := by
  simp only [execSecureSlotEnd, after_next]

/-! ### Frames of how commands run (Machine/CmdBase.lean) -/

theorem whenSlot_fuses {b : Nat} {d : List Byte} {s : State} {k : State → CmdOut} (hk : ∀ t, (k t).state.fuses = t.fuses) :
    (whenSlot b d s k).state.fuses = s.fuses := by
  unfold whenSlot
  split
  · exact hk s
  · rfl

@[simp] theorem State.authFail_fuses (s : State) (c : CmdRec) : (s.authFail c).fuses = s.fuses := by
  simp only [State.authFail, ite_fuses, State.setQueue_fuses, State.sysFault_fuses, State.reply_fuses, ite_self]

@[simp] theorem State.finish_fuses (s : State) (c : CmdRec) (o : CmdOut) : (s.finish c o).fuses = o.state.fuses := by
  cases o with
  | reply st r t => simp only [State.finish, State.reply_fuses, state_reply]
  | wait w t => rfl
  | host a n t => rfl

theorem goOn_fuses {body : CmdRec → CmdIn → State → CmdOut} (hb : ∀ c i s, (body c i s).state.fuses = s.fuses) (s : State) (r :
    Running) :
    (s.goOn body r).state.fuses = s.fuses := by
  simp only [State.goOn, ite_state, ite_fuses, state_wait, hb, ite_self]

theorem firstMoved_fuses {body : CmdRec → CmdIn → State → CmdOut} (hb : ∀ c i s, (body c i s).state.fuses = s.fuses) (s : State)
    {rs : List Running} {y : Running × CmdOut} (h : s.firstMoved body rs = some y) : y.2.state.fuses = s.fuses := by
  induction rs with
  | nil => exact absurd h (by simp [State.firstMoved])
  | cons r rs ih =>
    unfold State.firstMoved at h
    dsimp only at h
    split at h
    · obtain rfl := Option.some.inj h
      exact goOn_fuses hb _ r
    · exact ih h

theorem takeUp_fuses {body : CmdRec → CmdIn → State → CmdOut} (hb : ∀ c i s, (body c i s).state.fuses = s.fuses) (s : State) (c
    : CmdRec) (served : Bool) :
    (s.takeUp c served body).fuses = s.fuses := by
  unfold State.takeUp
  split
  · exact State.authFail_fuses ..
  · dsimp only
    split_ifs <;> simp only [State.reply_fuses, State.finish_fuses, state_wait, hb, State.setQueue_fuses]

theorem runCommand_fuses {body : CmdRec → CmdIn → State → CmdOut} (hb : ∀ c i s, (body c i s).state.fuses = s.fuses) (s : State)
    (r : Nat) (sel : Nat → Bool) :
    (s.runCommand r sel body).fuses = s.fuses := by
  unfold State.runCommand
  dsimp only
  split
  · next h => exact (State.finish_fuses ..).trans (firstMoved_fuses hb s h)
  · split
    · rfl
    · rw [ite_fuses, takeUp_fuses hb, State.setBuffer_fuses, ite_self]

theorem checked_fuses {cs : List (Bool × Nat)} {s : State} {k : State → CmdOut} (hk : ∀ t, (k t).state.fuses = t.fuses) :
    (checked cs s k).state.fuses = s.fuses := by
  unfold checked
  split
  · rfl
  · exact hk s

@[simp] theorem State.wakeRange_fuses (s : State) (r a n : Nat) (isWrite : Bool) :
    (s.wakeRange r a n isWrite).fuses = s.fuses := by
  unfold State.wakeRange
  refine foldl_fuses (fun t p => ?_) _ _
  split
  · split <;> simp only [State.wakeSteep_fuses]
  · rfl

theorem whenRange_fuses {c : CmdRec} {a n : Nat} {w : Bool} {s : State} {k : State → CmdOut} (hk : ∀ t, (k t).state.fuses =
    t.fuses) :
    (whenRange c a n w s k).state.fuses = s.fuses := by
  unfold whenRange
  split
  · exact State.wakeRange_fuses ..
  · exact hk s

theorem whenDesc_fuses {c : CmdRec} {d : Desc} {n : Nat} {w : Bool} {s : State} {k : State → CmdOut} (hk : ∀ t, (k
    t).state.fuses = t.fuses) :
    (whenDesc c d n w s k).state.fuses = s.fuses := by
  unfold whenDesc
  split
  · exact whenRange_fuses hk
  · exact hk s

@[simp] theorem State.serve_fuses (s : State) (r opc a n : ℕ) (data : List Byte) :
    (s.serve r opc a n data).2.2.2.fuses = s.fuses := by
  unfold State.serve
  split <;> simp only [ite_fuses, State.memServe_fuses, State.raiseWake_fuses, ite_snd, ite_self]

@[simp] theorem State.readRange_fuses (s : State) (r a n : Nat) : (s.readRange r a n).s.fuses = s.fuses := by
  refine foldl_moved_fuses (fun m p => ?_) _ _
  dsimp only
  split_ifs
  · rfl
  · split
    · rfl
    · split <;> simp only [State.serve_fuses]

@[simp] theorem State.writeRange_fuses (s : State) (r a : Nat) (data : List Byte) : (s.writeRange r a data).s.fuses = s.fuses := by
  refine foldl_moved_fuses (fun m p => ?_) _ _
  dsimp only
  split_ifs
  · rfl
  · split
    · rfl
    · split <;> simp only [State.serve_fuses]

theorem withInput_fuses {c : CmdRec} {i : CmdIn} {d : Desc} {n : Nat} {s : State} {k : List Byte → State → CmdOut} (hk : ∀ b t,
    (k b t).state.fuses = t.fuses) :
    (withInput c i d n s k).state.fuses = s.fuses := by
  unfold withInput
  split
  · exact hk _ s
  · exact hk _ s
  · rfl
  · dsimp only
    split_ifs
    · rfl
    · exact State.readRange_fuses ..
    · exact State.readRange_fuses ..
    · exact (hk _ _).trans (State.readRange_fuses ..)

@[simp] theorem State.output_fuses (s : State) (c : CmdRec) (d : Desc) (data : List Byte) :
    (s.output c d data).2.fuses = s.fuses := by
  simp only [State.output, ite_fuses, State.draw_fuses, State.hpStick_fuses, State.writeRange_fuses, ite_snd, ite_self]

@[simp] theorem replyWith_fuses (c : CmdRec) (d : Desc) (data result : List Byte) (s : State) :
    (replyWith c d data result s).state.fuses = s.fuses := by
  simp only [replyWith, State.output_fuses, state_reply]

/-! ### Frames of commands about the device (Machine/CmdSystem.lean) -/

@[simp] theorem bodyNop_fuses (c : CmdRec) (x : CmdIn) (s : State) :
    (bodyNop c x s).state.fuses = s.fuses := checked_fuses fun _ => rfl

@[simp] theorem bodyIdentify_fuses (c : CmdRec) (x : CmdIn) (s : State) :
    (bodyIdentify c x s).state.fuses = s.fuses := checked_fuses fun _ => rfl

@[simp] theorem bodyGetStatus_fuses (c : CmdRec) (x : CmdIn) (s : State) :
    (bodyGetStatus c x s).state.fuses = s.fuses := checked_fuses fun _ => rfl

@[simp] theorem bodyReadTelemetry_fuses (c : CmdRec) (x : CmdIn) (s : State) :
    (bodyReadTelemetry c x s).state.fuses = s.fuses := by
  unfold bodyReadTelemetry
  refine checked_fuses fun _ => ?_
  simp only [state_reply]

@[simp] theorem bodyEnvSet_fuses (c : CmdRec) (x : CmdIn) (s : State) : (bodyEnvSet c x s).state.fuses = s.fuses := by
  unfold bodyEnvSet
  refine checked_fuses fun _ => ?_
  simp only [state_reply]

@[simp] theorem bodyTimeSet_fuses (c : CmdRec) (x : CmdIn) (s : State) : (bodyTimeSet c x s).state.fuses = s.fuses := by
  unfold bodyTimeSet
  refine checked_fuses fun _ => ?_
  simp only [ite_fuses, State.updTime_fuses, ite_self, state_reply]

@[simp] theorem State.setPfcTh_fuses (s : State) (l c : ℕ) (w : Word) : (s.setPfcTh l c w).fuses = s.fuses := by
  simp only [State.setPfcTh, State.updLane_fuses, ite_fuses, State.laneStick_fuses, ite_self]

@[simp] theorem State.lanePage0_fuses (s : State) (c : CmdRec) (l : ℕ) : (s.lanePage0 c l).fuses = s.fuses := by
  simp only [State.lanePage0, State.updLane_fuses, State.setLaneCtrl_fuses]

@[simp] theorem State.lanePage_fuses (s : State) (c : CmdRec) (l page : ℕ) : (s.lanePage c l page).fuses = s.fuses := by
  simp -implicitDefEqProofs only [State.lanePage, ite_fuses, State.updLane_fuses, State.setPfcTh_fuses, foldl_fuses,
    implies_true, ite_self]

@[simp] theorem bodyLaneConfig_fuses (c : CmdRec) (x : CmdIn) (s : State) : (bodyLaneConfig c x s).state.fuses = s.fuses := by
  simp only [bodyLaneConfig, checked_fuses, ite_fuses, State.lanePage0_fuses, State.lanePage_fuses, ite_self, state_reply,
    implies_true]

@[simp] theorem bodyLaneState_fuses (c : CmdRec) (x : CmdIn) (s : State) : (bodyLaneState c x s).state.fuses = s.fuses := by
  unfold bodyLaneState
  refine checked_fuses fun _ => ?_
  split <;> simp only [whenDesc_fuses, ite_fuses, State.updLane_fuses, replyWith_fuses, ite_self, implies_true]

@[simp] theorem bodyPartnerDefine_fuses (c : CmdRec) (x : CmdIn) (s : State) :
    (bodyPartnerDefine c x s).state.fuses = s.fuses := by
  unfold bodyPartnerDefine
  refine checked_fuses fun _ => ?_
  split <;> simp -implicitDefEqProofs only [ite_fuses, State.updLane_fuses, foldl_fuses, implies_true, ite_self, state_reply]

@[simp] theorem State.startCalibration_fuses (s : State) (b : List Byte) : (s.startCalibration b).fuses = s.fuses := by
  simp -implicitDefEqProofs only [State.startCalibration, State.setMem_fuses, State.updCtl_fuses, foldl_fuses, implies_true]

@[simp] theorem State.undoCalibration_fuses (s : State) : (s.undoCalibration).fuses = s.fuses := by
  unfold State.undoCalibration
  dsimp only
  split <;> simp -implicitDefEqProofs only [State.setMem_fuses, State.updCtl_fuses, foldl_fuses, implies_true]

@[simp] theorem bodyDramDescribe_fuses (c : CmdRec) (i : CmdIn) (s : State) : (bodyDramDescribe c i s).state.fuses = s.fuses := by
  unfold bodyDramDescribe
  split
  · refine checked_fuses fun _ => whenDesc_fuses fun _ => withInput_fuses fun _ _ => ?_
    simp only [ite_state, ite_fuses, state_reply, state_wait, State.startCalibration_fuses, ite_self]
  · split <;> rfl

@[simp] theorem bodyAgingSet_fuses (c : CmdRec) (x : CmdIn) (s : State) : (bodyAgingSet c x s).state.fuses = s.fuses := by
  simp -implicitDefEqProofs only [bodyAgingSet, checked_fuses, State.updSector_fuses, foldl_fuses, implies_true, state_reply]

@[simp] theorem bodyLatencyToleranceSet_fuses (c : CmdRec) (x : CmdIn) (s : State) :
    (bodyLatencyToleranceSet c x s).state.fuses = s.fuses := by
  unfold bodyLatencyToleranceSet
  refine checked_fuses fun _ => ?_
  simp only [State.updPart_fuses, state_reply]

@[simp] theorem bodyPowerQuery_fuses (c : CmdRec) (x : CmdIn) (s : State) : (bodyPowerQuery c x s).state.fuses = s.fuses := by
  simp only [bodyPowerQuery, checked_fuses, ite_fuses, State.draw_fuses, ite_self, ite_state, state_reply, implies_true]

@[simp] theorem bodyPowerCapSet_fuses (c : CmdRec) (x : CmdIn) (s : State) : (bodyPowerCapSet c x s).state.fuses = s.fuses := by
  unfold bodyPowerCapSet
  refine checked_fuses fun _ => ?_
  simp only [state_reply]

@[simp] theorem bodyPercolatorControl_fuses (c : CmdRec) (x : CmdIn) (s : State) :
    (bodyPercolatorControl c x s).state.fuses = s.fuses := by
  unfold bodyPercolatorControl
  refine checked_fuses fun _ => ?_
  split <;> simp only [state_reply]

@[simp] theorem bodyCuppingControl_fuses (c : CmdRec) (x : CmdIn) (s : State) :
    (bodyCuppingControl c x s).state.fuses = s.fuses := by
  simp only [bodyCuppingControl, checked_fuses, ite_fuses, ite_self, state_reply, implies_true]

@[simp] theorem bodyFaultLogRead_fuses (c : CmdRec) (i : CmdIn) (s : State) : (bodyFaultLogRead c i s).state.fuses = s.fuses := by
  unfold bodyFaultLogRead
  refine checked_fuses fun _ => whenDesc_fuses fun t => ?_
  extract_lets dist start
  generalize pickLog _ _ _ = p
  obtain ⟨es, seen⟩ := p
  refine (replyWith_fuses ..).trans ?_
  split <;> rfl

@[simp] theorem State.flipLine_fuses (s : State) (a b : ℕ) : (s.flipLine a b).fuses = s.fuses := by
  simp only [State.flipLine, State.setLine_fuses]

@[simp] theorem State.injectAt_fuses (s : State) (kind a b : ℕ) : (s.injectAt kind a b).fuses = s.fuses := by
  unfold State.injectAt
  dsimp only
  split <;> simp -implicitDefEqProofs only [ite_fuses, State.setLine_fuses, State.flipLine_fuses, State.setMem_fuses,
    foldl_fuses, implies_true, ite_self]

@[simp] theorem injectMemory_fuses (c : CmdRec) (s : State) : (injectMemory c s).state.fuses = s.fuses := by
  unfold injectMemory
  refine checked_fuses fun t => ?_
  split
  · rfl
  · rfl
  · simp only [ite_state, ite_fuses, state_reply, State.injectAt_fuses, ite_self]

@[simp] theorem bodyFaultInject_fuses (c : CmdRec) (i : CmdIn) (s : State) : (bodyFaultInject c i s).state.fuses = s.fuses := by
  unfold bodyFaultInject
  dsimp only
  split_ifs
  · exact injectMemory_fuses ..
  · refine checked_fuses fun t => ?_
    split <;> rfl
  · exact checked_fuses fun t => rfl
  · exact checked_fuses fun t => rfl
  · rfl

@[simp] theorem bodyEventSubscribe_fuses (c : CmdRec) (x : CmdIn) (s : State) :
    (bodyEventSubscribe c x s).state.fuses = s.fuses := by
  simp -implicitDefEqProofs only [bodyEventSubscribe, checked_fuses, State.setEvb_fuses, implies_true, state_reply]

@[simp] theorem State.tellOverflow_fuses (s : State) (r : ℕ) : (s.tellOverflow r).fuses = s.fuses := by
  simp only [State.tellOverflow, ite_fuses, State.raiseEvent_fuses, State.setEvb_fuses, ite_self]

@[simp] theorem bodyEventAck_fuses (c : CmdRec) (x : CmdIn) (s : State) : (bodyEventAck c x s).state.fuses = s.fuses := by
  simp only [bodyEventAck, checked_fuses, State.tellOverflow_fuses, State.setEvb_fuses, state_reply, implies_true]

/-! ### Frames of memory commands (Machine/CmdMemory.lean) -/

@[simp] theorem bodyMemWrite_fuses (c : CmdRec) (i : CmdIn) (s : State) : (bodyMemWrite c i s).state.fuses = s.fuses := by
  unfold bodyMemWrite
  refine checked_fuses fun _ => whenRange_fuses fun _ => ?_
  split
  · exact whenDesc_fuses fun _ => withInput_fuses fun _ _ => State.writeRange_fuses ..
  · exact State.writeRange_fuses ..

@[simp] theorem bodyMemRead_fuses (c : CmdRec) (x : CmdIn) (s : State) : (bodyMemRead c x s).state.fuses = s.fuses := by
  unfold bodyMemRead
  refine checked_fuses fun _ => ?_
  split <;> simp only [whenRange_fuses, whenDesc_fuses, State.readRange_fuses, State.output_fuses, state_reply, implies_true]

@[simp] theorem bodyMemFill_fuses (c : CmdRec) (x : CmdIn) (s : State) : (bodyMemFill c x s).state.fuses = s.fuses := by
  unfold bodyMemFill
  refine checked_fuses fun _ => ?_
  simp only [whenRange_fuses, State.writeRange_fuses, state_reply, implies_true]

@[simp] theorem bodyMemAtomic_fuses (c : CmdRec) (i : CmdIn) (s : State) : (bodyMemAtomic c i s).state.fuses = s.fuses := by
  unfold bodyMemAtomic
  refine checked_fuses fun _ => whenRange_fuses fun _ => ?_
  split
  · rfl
  · exact State.serve_fuses ..

theorem Scrub.word_fuses (x : Scrub) (q la w : Nat) : (x.word q la w).s.fuses = x.s.fuses := by
  unfold Scrub.word
  dsimp only
  split <;> simp only [Scrub.uncorr, State.setMem_fuses, State.trackCorrected_fuses, State.unreqUncorr_fuses]

theorem Scrub.line_fuses (x : Scrub) (la w : Nat) : (x.line la w).s.fuses = x.s.fuses := by
  unfold Scrub.line
  dsimp only
  split
  · rfl
  · split_ifs <;> simp only [Scrub.uncorr, State.setLine_fuses, State.dramRead_fuses, State.unreqUncorr_fuses,
    State.writeBackLine_fuses]

theorem State.scrub_fuses (s : State) (r a n : Nat) : (s.scrub r a n).s.fuses = s.fuses := by
  unfold State.scrub
  refine foldl_scrub_fuses (fun x p => ?_) _ _
  split
  · rfl
  · split
    · exact foldl_scrub_fuses (fun x i => Scrub.line_fuses ..) _ x
    · split
      · exact foldl_scrub_fuses (fun x i => Scrub.word_fuses ..) _ x
      · rfl
    · exact foldl_scrub_fuses (fun x i => Scrub.word_fuses ..) _ x

@[simp] theorem bodyScrubRange_fuses (c : CmdRec) (i : CmdIn) (s : State) : (bodyScrubRange c i s).state.fuses = s.fuses := by
  unfold bodyScrubRange
  refine checked_fuses fun _ => whenRange_fuses fun _ => whenDesc_fuses fun t => ?_
  exact (replyWith_fuses ..).trans (State.scrub_fuses ..)

/-! ### Frames of personality and graph commands (Machine/CmdPers.lean) -/

theorem withSectors_fuses {ns p : List Nat} {s : State} {k : State → CmdOut} (hk : ∀ t, (k t).state.fuses = t.fuses) :
    (withSectors ns p s k).state.fuses = s.fuses := by
  unfold withSectors
  split
  · exact hk s
  · exact foldl_fuses (fun t n => by simp only [ite_fuses, State.forceAwake_fuses, ite_self]) ns s

@[simp] theorem State.unforce_fuses (s : State) (ns : List ℕ) : (s.unforce ns).fuses = s.fuses := by
  simp -implicitDefEqProofs only [State.unforce, State.forceAwake_fuses, foldl_fuses, implies_true]

@[simp] theorem State.fenceAll_fuses (s : State) (ps : List ℕ) : (s.fenceAll ps).fuses = s.fuses := by
  simp -implicitDefEqProofs only [State.fenceAll, ite_fuses, State.requestFence_fuses, foldl_fuses, implies_true, ite_self]

@[simp] theorem State.unfenceAll_fuses (s : State) (ps : List ℕ) : (s.unfenceAll ps).fuses = s.fuses := by
  simp -implicitDefEqProofs only [State.unfenceAll, State.dropFence_fuses, foldl_fuses, implies_true]

@[simp] theorem State.unfenceLogicals_fuses (s : State) (ls : List ℕ) : (s.unfenceLogicals ls).fuses = s.fuses := by
  simp only [State.unfenceLogicals, State.unfenceAll_fuses]

@[simp] theorem State.setPers_fuses (s : State) (q h : ℕ) (v : Option Pers) : (s.setPers q h v).fuses = s.fuses := by
  simp only [State.setPers, State.updPart_fuses]

@[simp] theorem State.writeStore_fuses (s : State) (q : ℕ) (m : PersImage) (v : Pers) :
    (s.writeStore q m v).2.fuses = s.fuses := by
  simp -implicitDefEqProofs only [State.writeStore, State.dramPut_fuses, foldl_snd_fuses, implies_true]

@[simp] theorem State.writeCache_fuses (s : State) (q : ℕ) (m : PersImage) : (s.writeCache q m).fuses = s.fuses := by
  refine foldl_fuses (fun t c => ?_) _ _
  split
  · rfl
  · simp only [ite_fuses, State.updTile_fuses, State.writeWords_fuses, ite_self]

@[simp] theorem State.writeTables_fuses (s : State) (q : ℕ) (m : PersImage) (v : Pers) :
    (s.writeTables q m v).fuses = s.fuses := by
  simp -implicitDefEqProofs only [State.writeTables, State.checkMode_fuses, State.setStatic_fuses, State.updTask_fuses,
    State.updSector_fuses, foldl_fuses, implies_true]

@[simp] theorem State.loadPers_fuses (s : State) (q h : Nat) (m : PersImage) (mine : List Nat) :
    (s.loadPers q h m mine).state.fuses = s.fuses := by
  unfold State.loadPers
  dsimp only
  split <;> simp only [state_reply, State.unfenceLogicals_fuses, State.setPers_fuses, State.writeTables_fuses,
    State.writeCache_fuses, State.writeStore_fuses]

@[simp] theorem loadImage_fuses (c : CmdRec) (mine : List Nat) (first : Bool) (b : List Byte) (s : State) :
    (loadImage c mine first b s).state.fuses = s.fuses := by
  unfold loadImage
  dsimp only
  split
  · exact State.unfenceLogicals_fuses ..
  · split
    · exact State.unfenceLogicals_fuses ..
    · split
      · exact State.unfenceLogicals_fuses ..
      · simp -implicitDefEqProofs only [ite_state, state_wait, State.loadPers_fuses, foldl_fuses, State.raiseWake_fuses,
        ite_fuses, State.fenceAll_fuses, ite_self, implies_true]

@[simp] theorem bodyPersLoad_fuses (c : CmdRec) (i : CmdIn) (s : State) : (bodyPersLoad c i s).state.fuses = s.fuses := by
  unfold bodyPersLoad
  split
  · exact loadImage_fuses ..
  · exact checked_fuses fun _ => whenDesc_fuses fun _ => withInput_fuses fun _ _ => whenSlot_fuses fun _ => loadImage_fuses ..

@[simp] theorem State.dropTables_fuses (s : State) (q : ℕ) (v : Pers) : (s.dropTables q v).fuses = s.fuses := by
  simp -implicitDefEqProofs only [State.dropTables, State.updTask_fuses, State.updSector_fuses, ite_fuses, State.updTile_fuses,
    foldl_fuses, implies_true, ite_self]

@[simp] theorem State.requestClear_fuses (s : State) (p f : ℕ) : (s.requestClear p f).fuses = s.fuses := by
  simp only [State.requestClear, State.requestFill_fuses]

@[simp] theorem State.unloadNow_fuses (s : State) (q h : ℕ) : (s.unloadNow q h).fuses = s.fuses := by
  unfold State.unloadNow
  dsimp only
  split <;> simp -implicitDefEqProofs only [State.writeWords_fuses, State.updTile_fuses, State.setPers_fuses,
    State.dropTables_fuses, foldl_fuses, implies_true]

@[simp] theorem bodyPersUnload_fuses (c : CmdRec) (i : CmdIn) (s : State) : (bodyPersUnload c i s).state.fuses = s.fuses := by
  unfold bodyPersUnload
  dsimp only
  repeat' split
  all_goals simp -implicitDefEqProofs only [ite_fuses, State.unforce_fuses, State.unfenceLogicals_fuses, State.setPers_fuses,
    State.dropTables_fuses, withSectors_fuses, State.requestClear_fuses, checked_fuses, State.fenceAll_fuses, foldl_fuses,
    implies_true, ite_self, ite_state, state_reply, state_wait]

@[simp] theorem bodyCtxPin_fuses (c : CmdRec) (i : CmdIn) (s : State) : (bodyCtxPin c i s).state.fuses = s.fuses := by
  unfold bodyCtxPin
  split <;> simp only [ite_fuses, checked_fuses, State.updTile_fuses, State.requestFill_fuses, ite_self, ite_state, state_reply,
    state_wait, implies_true]

@[simp] theorem State.armTask_fuses (s : State) (t : ℕ) : (s.armTask t).fuses = s.fuses := by
  simp only [State.armTask, State.updTask_fuses]

@[simp] theorem State.cancelTask_fuses (s : State) (t : ℕ) : (s.cancelTask t).fuses = s.fuses := by
  unfold State.cancelTask
  dsimp only
  repeat' split
  all_goals simp only [State.updTask_fuses, State.updTile_fuses, State.setTask_fuses]

@[simp] theorem State.enableTimers_fuses (s : State) (v : Pers) (on : Bool) : (s.enableTimers v on).fuses = s.fuses := by
  simp -implicitDefEqProofs only [State.enableTimers, State.updSector_fuses, foldl_fuses, implies_true]

@[simp] theorem bodyGraphStart_fuses (c : CmdRec) (i : CmdIn) (s : State) : (bodyGraphStart c i s).state.fuses = s.fuses := by
  unfold bodyGraphStart
  dsimp only
  split
  · split <;> rfl
  · refine checked_fuses fun _ => withSectors_fuses fun t => ?_
    simp -implicitDefEqProofs only [state_reply, State.unforce_fuses, State.setPers_fuses, State.enableTimers_fuses,
      foldl_fuses, State.armTask_fuses, State.unfenceAll_fuses, implies_true]

@[simp] theorem State.dropAsm_fuses (s : State) (e : ℕ) : (s.dropAsm e).fuses = s.fuses := by
  simp -implicitDefEqProofs only [State.dropAsm, State.txAbort_fuses, foldl_fuses, implies_true]

@[simp] theorem State.dropWords_fuses (s : State) (p : ℕ) : (s.dropWords p).fuses = s.fuses := by
  unfold State.dropWords
  dsimp only
  split <;> simp -implicitDefEqProofs only [State.updTile_fuses, State.updLink_fuses, State.dropAsm_fuses, foldl_fuses,
    implies_true]

@[simp] theorem State.stopGraph_fuses (s : State) (q : ℕ) (v : Pers) : (s.stopGraph q v).2.fuses = s.fuses := by
  simp -implicitDefEqProofs only [State.stopGraph, State.stopStream_fuses, State.enableTimers_fuses, State.cancelTask_fuses,
    foldl_fuses, implies_true]

@[simp] theorem bodyGraphStop_fuses (c : CmdRec) (i : CmdIn) (s : State) : (bodyGraphStop c i s).state.fuses = s.fuses := by
  unfold bodyGraphStop
  dsimp only
  repeat' split
  all_goals simp -implicitDefEqProofs only [State.fenceAll_fuses, State.setPers_fuses, State.dropWords_fuses,
    State.unforce_fuses, checked_fuses, withSectors_fuses, State.stopGraph_fuses, foldl_fuses, implies_true, state_reply,
    state_wait]

/-! ### Frames of stream and task commands (Machine/CmdStream.lean) -/

@[simp] theorem bodyStreamOpen_fuses (c : CmdRec) (i : CmdIn) (s : State) : (bodyStreamOpen c i s).state.fuses = s.fuses := by
  unfold bodyStreamOpen
  exact checked_fuses fun t => State.setStream_fuses ..

@[simp] theorem bodyStreamClose_fuses (c : CmdRec) (i : CmdIn) (s : State) : (bodyStreamClose c i s).state.fuses = s.fuses := by
  unfold bodyStreamClose
  split <;> simp only [checked_fuses, State.closeStream_fuses, ite_self, ite_state, state_reply, state_wait, implies_true]

@[simp] theorem bodyStreamCreditSet_fuses (c : CmdRec) (x : CmdIn) (s : State) :
    (bodyStreamCreditSet c x s).state.fuses = s.fuses := by
  unfold bodyStreamCreditSet
  refine checked_fuses fun _ => ?_
  simp only [State.updStream_fuses, state_reply]

@[simp] theorem bodyMarkSet_fuses (c : CmdRec) (x : CmdIn) (s : State) : (bodyMarkSet c x s).state.fuses = s.fuses := by
  simp only [bodyMarkSet, checked_fuses, ite_fuses, State.release_fuses, State.updStream_fuses, ite_self, state_reply,
    implies_true]

@[simp] theorem bodyMarkAdvance_fuses (c : CmdRec) (x : CmdIn) (s : State) : (bodyMarkAdvance c x s).state.fuses = s.fuses := by
  simp only [bodyMarkAdvance, checked_fuses, State.release_fuses, state_reply, implies_true]

@[simp] theorem bodyStreamReplay_fuses (c : CmdRec) (x : CmdIn) (s : State) : (bodyStreamReplay c x s).state.fuses = s.fuses := by
  simp only [bodyStreamReplay, checked_fuses, State.replay_fuses, state_reply, implies_true]

@[simp] theorem bodyStreamStats_fuses (c : CmdRec) (x : CmdIn) (s : State) : (bodyStreamStats c x s).state.fuses = s.fuses := by
  simp only [bodyStreamStats, checked_fuses, whenDesc_fuses, ite_fuses, State.updStream_fuses, replyWith_fuses, ite_self,
    implies_true]

@[simp] theorem State.setRule_fuses (s : State) (r i : ℕ) (w : Word) : (s.setRule r i w).fuses = s.fuses := by
  simp only [State.setRule]

@[simp] theorem bodyStreamClassify_fuses (c : CmdRec) (x : CmdIn) (s : State) :
    (bodyStreamClassify c x s).state.fuses = s.fuses := by
  simp -implicitDefEqProofs only [bodyStreamClassify, checked_fuses, ite_fuses, State.setRule_fuses, foldl_fuses, implies_true,
    ite_self, state_reply]

@[simp] theorem bodyTaskArm_fuses (c : CmdRec) (x : CmdIn) (s : State) : (bodyTaskArm c x s).state.fuses = s.fuses := by
  simp only [bodyTaskArm, checked_fuses, State.armTask_fuses, state_reply, implies_true]

@[simp] theorem bodyTaskCancel_fuses (c : CmdRec) (i : CmdIn) (s : State) : (bodyTaskCancel c i s).state.fuses = s.fuses := by
  unfold bodyTaskCancel
  split <;> simp only [checked_fuses, State.cancelTask_fuses, ite_self, ite_state, state_reply, state_wait, implies_true]

@[simp] theorem bodyTaskSignal_fuses (c : CmdRec) (i : CmdIn) (s : State) : (bodyTaskSignal c i s).state.fuses = s.fuses := by
  unfold bodyTaskSignal
  split <;> simp only [ite_fuses, checked_fuses, State.setFlags_fuses, State.updSector_fuses, ite_self, ite_state, state_reply,
    state_wait, implies_true]

@[simp] theorem bodyTaskQuery_fuses (c : CmdRec) (x : CmdIn) (s : State) :
    (bodyTaskQuery c x s).state.fuses = s.fuses := checked_fuses fun _ => rfl

/-! ### Frames of commands that end early (Machine/CmdEnd.lean) -/

@[simp] theorem State.dropClears_fuses (s : State) (q : ℕ) : (s.dropClears q).fuses = s.fuses := by
  simp -implicitDefEqProofs only [State.dropClears, ite_fuses, State.updTile_fuses, foldl_fuses, implies_true, ite_self]

@[simp] theorem State.undoClears_fuses (s : State) (xs : List (ℕ × ℕ × ℕ)) : (s.undoClears xs).fuses = s.fuses := by
  simp -implicitDefEqProofs only [State.undoClears, ite_fuses, State.refill_fuses, foldl_fuses, implies_true, ite_self]

@[simp] theorem State.undoSignal_fuses (s : State) (c : CmdRec) : (s.undoSignal c).fuses = s.fuses := by
  simp only [State.undoSignal, State.updSector_fuses]

@[simp] theorem State.writeBank_fuses (s : State) (b : ℕ) (w : BitVec 32) : (s.writeBank b w).fuses = s.fuses := by
  simp -implicitDefEqProofs only [State.writeBank, ite_fuses, State.updCtl_fuses, foldl_fuses, implies_true, ite_self]

@[simp] theorem State.undoRegions_fuses (s : State) (before : List ℕ) : (s.undoRegions before).fuses = s.fuses := by
  simp -implicitDefEqProofs only [State.undoRegions, ite_fuses, State.writeBank_fuses, foldl_fuses, implies_true, ite_self]

@[simp] theorem State.undoDramSlots_fuses (s : State) (before : List ℕ) : (s.undoDramSlots before).fuses = s.fuses := by
  simp -implicitDefEqProofs only [State.undoDramSlots, ite_fuses, State.updCtl_fuses, foldl_fuses, implies_true, ite_self]

@[simp] theorem State.undoMeshSlots_fuses (s : State) (before : List ℕ) : (s.undoMeshSlots before).fuses = s.fuses := by
  simp -implicitDefEqProofs only [State.undoMeshSlots, ite_fuses, State.updRouter_fuses, foldl_fuses, implies_true, ite_self]

@[simp] theorem State.undoGrant_fuses (s : State) (c : CmdRec) (progress : List ℕ) :
    (s.undoGrant c progress).fuses = s.fuses := by
  simp only [State.undoGrant, ite_fuses, State.undoRegions_fuses, State.undoDramSlots_fuses, State.undoMeshSlots_fuses, ite_self]

@[simp] theorem State.leave_fuses (s : State) (c : CmdRec) (w : Wait) (status : ℕ) : (s.leave c w status).fuses = s.fuses := by
  unfold State.leave
  dsimp only
  repeat' split
  all_goals simp only [State.unfenceLogicals_fuses, State.dropClears_fuses, State.unloadNow_fuses, State.undoClears_fuses,
    State.updStream_fuses, State.undoSignal_fuses, State.undoCalibration_fuses, State.undoGrant_fuses, State.setPers_fuses,
    State.stopGraph_fuses]

@[simp] theorem State.cut_fuses (s : State) (r : Running) (status : ℕ) : (s.cut r status).fuses = s.fuses := by
  simp only [State.cut, State.unforce_fuses, State.leave_fuses, State.reply_fuses]

@[simp] theorem State.takeCmd_fuses (s : State) (k : Packet) : (s.takeCmd k).fuses = s.fuses := by
  simp only [State.takeCmd, State.purge_fuses]

@[simp] theorem State.discardCommands_fuses (s : State) (q status : ℕ) : (s.discardCommands q status).fuses = s.fuses := by
  simp -implicitDefEqProofs only [State.discardCommands, State.cut_fuses, State.reply_fuses, State.setBuffer_fuses,
    State.takeCmd_fuses, foldl_fuses, implies_true]

/-! ### Frames of partition commands (Machine/CmdPart.lean) -/

@[simp] theorem bodyPartCreate_fuses (c : CmdRec) (x : CmdIn) (s : State) : (bodyPartCreate c x s).state.fuses = s.fuses := by
  unfold bodyPartCreate
  refine checked_fuses fun _ => ?_
  simp -implicitDefEqProofs only [whenSlot_fuses, State.drawKey_fuses, State.random_fuses, State.updSector_fuses,
    State.setRole_fuses, State.setPart_fuses, State.setEvb_fuses, foldl_fuses, implies_true, state_reply]

@[simp] theorem State.startZero_fuses (s : State) (p : ℕ) : (s.startZero p).fuses = s.fuses := by
  simp only [State.startZero, State.updTile_fuses, State.zeroizeTile_fuses]

@[simp] theorem State.wiped_fuses (s : State) (ps : List ℕ) : (s.wiped ps).2.fuses = s.fuses := by
  simp -implicitDefEqProofs only [State.wiped, ite_fuses, State.startZero_fuses, foldl_fuses, implies_true, ite_self]

@[simp] theorem State.setTileOwner_fuses (s : State) (ps : List ℕ) (q : ℕ) : (s.setTileOwner ps q).fuses = s.fuses := by
  simp -implicitDefEqProofs only [State.setTileOwner, State.setTm_fuses, foldl_fuses, implies_true]

@[simp] theorem grantTiles_fuses (c : CmdRec) (i : CmdIn) (s : State) : (grantTiles c i s).state.fuses = s.fuses := by
  unfold grantTiles
  split <;> simp -implicitDefEqProofs only [withSectors_fuses, ite_fuses, State.startZero_fuses, State.wiped_fuses,
    State.unforce_fuses, State.setTileOwner_fuses, foldl_fuses, implies_true, ite_self, ite_state, state_reply, state_wait]

@[simp] theorem revokeTiles_fuses (c : CmdRec) (i : CmdIn) (s : State) : (revokeTiles c i s).state.fuses = s.fuses := by
  unfold revokeTiles
  split <;> simp -implicitDefEqProofs only [withSectors_fuses, State.fenceAll_fuses, ite_fuses, State.startZero_fuses,
    State.wiped_fuses, State.unforce_fuses, State.setTileOwner_fuses, foldl_fuses, implies_true, ite_self, ite_state,
    state_reply, state_wait]

@[simp] theorem State.bindLane_fuses (s : State) (l q : ℕ) : (s.bindLane l q).fuses = s.fuses := by
  simp only [State.bindLane, State.setLaneCtrl_fuses]

@[simp] theorem State.unbindLane_fuses (s : State) (q l : ℕ) : (s.unbindLane q l).fuses = s.fuses := by
  simp -implicitDefEqProofs only [State.unbindLane, State.updLane_fuses, State.bindLane_fuses, ite_fuses, State.setRule_fuses,
    foldl_fuses, implies_true, ite_self]

@[simp] theorem State.writeRegions_fuses (s : State) (q : ℕ) (bs : List ℕ) : (s.writeRegions q bs).fuses = s.fuses := by
  simp -implicitDefEqProofs only [State.writeRegions, State.writeBank_fuses, foldl_fuses, implies_true]

@[simp] theorem grantRegions_fuses (c : CmdRec) (i : CmdIn) (revoke : Bool) (s : State) :
    (grantRegions c i revoke s).state.fuses = s.fuses := by
  simp -implicitDefEqProofs only [grantRegions, ite_fuses, State.writeBank_fuses, State.writeRegions_fuses, foldl_fuses,
    implies_true, ite_self, ite_state, state_reply, state_wait]

@[simp] theorem grantDramSlots_fuses (c : CmdRec) (i : CmdIn) (revoke : Bool) (s : State) :
    (grantDramSlots c i revoke s).state.fuses = s.fuses := by
  simp -implicitDefEqProofs only [grantDramSlots, ite_fuses, State.updCtl_fuses, foldl_fuses, implies_true, ite_self, ite_state,
    state_reply, state_wait]

@[simp] theorem grantMeshSlots_fuses (c : CmdRec) (i : CmdIn) (revoke : Bool) (s : State) :
    (grantMeshSlots c i revoke s).state.fuses = s.fuses := by
  simp -implicitDefEqProofs only [grantMeshSlots, ite_fuses, State.updRouter_fuses, foldl_fuses, implies_true, ite_self,
    ite_state, state_reply, state_wait]

@[simp] theorem State.grantSlices_fuses (s : State) (c : CmdRec) (revoke : Bool) : (s.grantSlices c revoke).fuses = s.fuses := by
  simp -implicitDefEqProofs only [State.grantSlices, ite_fuses, State.cut_fuses, foldl_fuses, implies_true, ite_self]

@[simp] theorem State.grantNow_fuses (s : State) (c : CmdRec) (revoke : Bool) : (s.grantNow c revoke).state.fuses = s.fuses := by
  simp -implicitDefEqProofs only [State.grantNow, ite_fuses, State.unbindLane_fuses, State.bindLane_fuses,
    State.grantSlices_fuses, State.hpStick_fuses, State.updQueue_fuses, State.updPart_fuses, foldl_fuses, implies_true,
    ite_self, ite_state, state_reply]

@[simp] theorem grantOrRevoke_fuses (revoke : Bool) (c : CmdRec) (i : CmdIn) (s : State) :
    (grantOrRevoke revoke c i s).state.fuses = s.fuses := by
  unfold grantOrRevoke
  dsimp only
  repeat' split
  all_goals simp only [revokeTiles_fuses, grantTiles_fuses, grantRegions_fuses, grantDramSlots_fuses, grantMeshSlots_fuses,
    State.grantNow_fuses, checked_fuses, implies_true]

@[simp] theorem bodyPartGrant_fuses (c : CmdRec) (i : CmdIn) (s : State) : (bodyPartGrant c i s).state.fuses = s.fuses := by
  simp only [bodyPartGrant, grantOrRevoke_fuses]

@[simp] theorem bodyPartRevoke_fuses (c : CmdRec) (i : CmdIn) (s : State) : (bodyPartRevoke c i s).state.fuses = s.fuses := by
  simp only [bodyPartRevoke, grantOrRevoke_fuses]

@[simp] theorem State.abortMove_fuses (s : State) (n : ℕ) : (s.abortMove n).fuses = s.fuses := by
  unfold State.abortMove
  dsimp only
  split <;> simp only [ite_fuses, State.updTile_fuses, State.setTm_fuses, State.updSector_fuses, State.dropFence_fuses, ite_self]

@[simp] theorem State.abortMovesOf_fuses (s : State) (q : ℕ) : (s.abortMovesOf q).fuses = s.fuses := by
  simp -implicitDefEqProofs only [State.abortMovesOf, ite_fuses, State.abortMove_fuses, foldl_fuses, implies_true, ite_self]

@[simp] theorem State.dropLost_fuses (s : State) (q status : ℕ) : (s.dropLost q status).fuses = s.fuses := by
  simp -implicitDefEqProofs only [State.dropLost, ite_fuses, State.issue_fuses, State.reply_fuses, foldl_fuses, implies_true,
    ite_self]

@[simp] theorem State.quiesce_fuses (s : State) (q status : ℕ) : (s.quiesce q status).fuses = s.fuses := by
  simp -implicitDefEqProofs only [State.quiesce, State.abortMovesOf_fuses, State.applyFence_fuses, State.abortTile_fuses,
    State.updTile_fuses, State.dropLost_fuses, foldl_fuses, implies_true]

@[simp] theorem State.destroyStart_fuses (s : State) (q : ℕ) : (s.destroyStart q).fuses = s.fuses := by
  simp -implicitDefEqProofs only [State.destroyStart, State.discardCommands_fuses, State.quiesce_fuses, State.takeDone_fuses,
    State.restartCarafe_fuses, State.closeStream_fuses, State.unloadNow_fuses, foldl_fuses, implies_true]

theorem unbindLanes_fuses (q : ℕ) (ls : List Nat) (s : State) :
    (ls.foldl (fun s l => State.unbindLane s q l) s).fuses = s.fuses := by
  induction ls generalizing s with
  | nil => rfl
  | cons l ls ih => rw [List.foldl_cons, ih, State.unbindLane_fuses]

@[simp] theorem State.destroyEnd_fuses (s : State) (q : ℕ) : (s.destroyEnd q).fuses = s.fuses := by
  unfold State.destroyEnd
  extract_lets s1 s2 s3 all s4 s5 s6 m alloc mem s7 s8 old s9
  have h1 : s1.fuses = s.fuses := unbindLanes_fuses q _ s
  have h2 : s2.fuses = s1.fuses := foldl_fuses (fun t b => State.writeBank_fuses ..) _ s1
  have h3 : s3.fuses = s2.fuses := foldl_fuses (fun t x => State.updCtl_fuses ..) _ s2
  clear_value s3
  have h4 : s4.fuses = s3.fuses := 
    foldl_fuses (fun t r => State.updRouter_fuses t r _) (List.range 64) s3
  clear_value s4
  have h5 : s5.fuses = s4.fuses := rfl
  have h6 : s6.fuses = s5.fuses := foldl_fuses (fun t n => State.updSector_fuses ..) _ s5
  clear_value s6
  have h8 : s8.fuses = s6.fuses := (State.setRole_fuses ..).trans (State.setEvb_fuses ..)
  have h9 : s9.fuses = s8.fuses := foldl_fuses (fun t r => by rw [ite_fuses, State.setRule_fuses, ite_self]) _ s8
  rw [State.setPart_fuses, h9, h8, h6, h5, h4, h3, h2, h1]

@[simp] theorem bodyPartDestroy_fuses (c : CmdRec) (i : CmdIn) (s : State) : (bodyPartDestroy c i s).state.fuses = s.fuses := by
  unfold bodyPartDestroy
  extract_lets q ps ns
  split
  · refine checked_fuses fun _ => ?_
    simp only [state_wait, State.destroyStart_fuses, State.updPart_fuses]
  · split
    · rfl
    · exact withSectors_fuses fun t => foldl_fuses State.startZero_fuses _ t
  · simp only [ite_state, ite_fuses, state_wait, State.destroyEnd_fuses, State.unforce_fuses, State.setTileOwner_fuses,
    State.wiped_fuses, ite_self]
  · simp only [ite_state, ite_fuses, state_reply, state_wait, State.setPart_fuses, State.discardCommands_fuses, ite_self]

@[simp] theorem bodyPartQuery_fuses (c : CmdRec) (x : CmdIn) (s : State) : (bodyPartQuery c x s).state.fuses = s.fuses := by
  unfold bodyPartQuery
  refine checked_fuses fun _ => ?_
  simp only [whenDesc_fuses, replyWith_fuses, implies_true]

/-! ### Frames of security commands (Machine/CmdSecurity.lean) -/

@[simp] theorem State.installSession_fuses (s : State) (r : ℕ) (x : Role) : (s.installSession r x).fuses = s.fuses := by
  simp only [State.installSession, State.setRole_fuses]

@[simp] theorem State.keyExchange_fuses (s : State) (format r : ℕ) (req ephEc ephKem extra : List Byte) :
    (s.keyExchange format r req ephEc ephKem extra).2.fuses = s.fuses := by
  simp only [State.keyExchange, State.random_fuses, State.draw_fuses]

@[simp] theorem bodyOwnerEnroll_fuses (c : CmdRec) (i : CmdIn) (s : State) : (bodyOwnerEnroll c i s).state.fuses = s.fuses := by
  unfold bodyOwnerEnroll
  refine checked_fuses fun _ => whenDesc_fuses fun _ => whenDesc_fuses fun _ => withInput_fuses fun _ _ =>
    whenSlot_fuses fun _ => ?_
  simp only [ite_state, ite_fuses, state_reply, State.updPart_fuses, State.installSession_fuses, State.output_fuses,
    State.keyExchange_fuses, ite_self]

@[simp] theorem bodySessionRekey_fuses (c : CmdRec) (i : CmdIn) (s : State) : (bodySessionRekey c i s).state.fuses = s.fuses := by
  unfold bodySessionRekey
  refine checked_fuses fun _ => whenDesc_fuses fun _ => whenDesc_fuses fun _ => withInput_fuses fun _ _ =>
    whenSlot_fuses fun _ => ?_
  dsimp only
  split
  · rfl
  · simp only [ite_state, ite_fuses, state_reply, State.installSession_fuses, State.output_fuses, State.keyExchange_fuses,
    ite_self]

@[simp] theorem attestWrite_fuses (c : CmdRec) (body : List Byte) (s : State) : (attestWrite c body s).state.fuses = s.fuses := by
  simp only [attestWrite, ite_fuses, State.wakeRange_fuses, State.draw_fuses, replyWith_fuses, ite_self, ite_state, state_wait]

@[simp] theorem bodyAttest_fuses (c : CmdRec) (i : CmdIn) (s : State) : (bodyAttest c i s).state.fuses = s.fuses := by
  unfold bodyAttest
  split <;> simp only [checked_fuses, attestWrite_fuses, implies_true]

@[simp] theorem bodyKeyLoad_fuses (c : CmdRec) (i : CmdIn) (s : State) : (bodyKeyLoad c i s).state.fuses = s.fuses := by
  unfold bodyKeyLoad
  refine checked_fuses fun _ => whenDesc_fuses fun _ => withInput_fuses fun _ _ => whenSlot_fuses fun _ => ?_
  split
  · rfl
  · split <;> rfl

@[simp] theorem bodyKeyDestroy_fuses (c : CmdRec) (i : CmdIn) (s : State) : (bodyKeyDestroy c i s).state.fuses = s.fuses :=
  checked_fuses fun _ => whenSlot_fuses fun _ => rfl

@[simp] theorem State.unlockStart_fuses (s : State) : (s.unlockStart).fuses = s.fuses := by
  simp -implicitDefEqProofs only [State.unlockStart, State.cut_fuses, State.destroyStart_fuses, State.updPart_fuses,
    foldl_fuses, implies_true]

@[simp] theorem State.unlockEnd_fuses (s : State) (scope : ℕ) : (s.unlockEnd scope).fuses = s.fuses := by
  simp -implicitDefEqProofs only [State.unlockEnd, State.setPart_fuses, State.drawKey_fuses, State.setMem_fuses,
    State.updLane_fuses, State.setRole_fuses, foldl_fuses, implies_true]

@[simp] theorem bodyDebugUnlock_fuses (c : CmdRec) (i : CmdIn) (s : State) : (bodyDebugUnlock c i s).state.fuses = s.fuses := by
  unfold bodyDebugUnlock
  dsimp only
  split
  · refine checked_fuses fun _ => whenDesc_fuses fun _ => withInput_fuses fun _ _ => whenSlot_fuses fun _ => ?_
    split <;> simp only [state_reply, state_wait, State.unlockStart_fuses]
  · split
    · rfl
    · exact withSectors_fuses fun t => foldl_fuses State.startZero_fuses _ t
  · split
    · exact State.wiped_fuses ..
    · refine (foldl_fuses (fun t q => State.destroyEnd_fuses ..) _ _).trans ?_
      simp only [State.unforce_fuses, State.setTileOwner_fuses, State.wiped_fuses]
  · split
    · exact State.unlockEnd_fuses ..
    · rfl

@[simp] theorem bodyFwUpdateStage_fuses (c : CmdRec) (i : CmdIn) (s : State) :
    (bodyFwUpdateStage c i s).state.fuses = s.fuses  := by
  unfold bodyFwUpdateStage
  dsimp only
  split
  · refine checked_fuses fun _ => whenDesc_fuses fun _ => withInput_fuses fun _ _ => whenSlot_fuses fun _ => ?_
    split <;> simp only [state_reply, state_wait, State.flashErase_fuses, State.updBoot_fuses]
  · simp only [state_wait, State.flashWrite_fuses]
  · simp only [state_reply, State.updBoot_fuses, State.flashWrite_fuses]

@[simp] theorem bodyFwActivate_fuses (c : CmdRec) (x : CmdIn) (s : State) : (bodyFwActivate c x s).state.fuses = s.fuses := by
  unfold bodyFwActivate
  refine checked_fuses fun t => ?_
  dsimp only
  split
  · simp only [state_reply, State.flashWrite_fuses, State.draw_fuses, State.flashErase_fuses]
  · simp -implicitDefEqProofs only [state_reply, State.updBoot_fuses, foldl_fuses, State.discardCommands_fuses,
    State.flashWrite_fuses, State.draw_fuses, State.flashErase_fuses, implies_true]

/-! ### Frames of commands that wait (Machine/Commands.lean) -/

theorem bodies_fuses : ∀ b ∈ bodies, ∀ c i s, (b.2 c i s).state.fuses = s.fuses := by
  simp only [bodies, List.forall_mem_append, List.forall_mem_cons, List.not_mem_nil, false_implies, implies_true, and_true,
    bodyNop_fuses, bodyIdentify_fuses, bodyGetStatus_fuses, bodyReadTelemetry_fuses, bodyPartCreate_fuses, bodyPartGrant_fuses,
    bodyPartRevoke_fuses, bodyPartDestroy_fuses, bodyPartQuery_fuses, bodyOwnerEnroll_fuses, bodyLaneConfig_fuses,
    bodyLaneState_fuses, bodyPartnerDefine_fuses, bodyDramDescribe_fuses, bodyEnvSet_fuses, bodyTimeSet_fuses,
    bodyMemWrite_fuses, bodyMemRead_fuses, bodyMemFill_fuses, bodyMemAtomic_fuses, bodyPersLoad_fuses, bodyPersUnload_fuses,
    bodyCtxPin_fuses, bodyGraphStart_fuses, bodyGraphStop_fuses, bodyStreamOpen_fuses, bodyStreamClose_fuses,
    bodyStreamClassify_fuses, bodyStreamCreditSet_fuses, bodyMarkSet_fuses, bodyMarkAdvance_fuses, bodyStreamReplay_fuses,
    bodyStreamStats_fuses, bodyTaskArm_fuses, bodyTaskCancel_fuses, bodyTaskSignal_fuses, bodyTaskQuery_fuses,
    bodyAgingSet_fuses, bodyLatencyToleranceSet_fuses, bodyPowerQuery_fuses, bodyPowerCapSet_fuses, bodyScrubRange_fuses,
    bodyPercolatorControl_fuses, bodyCuppingControl_fuses, bodyFaultLogRead_fuses, bodyFaultInject_fuses, bodyAttest_fuses,
    bodyKeyLoad_fuses, bodyKeyDestroy_fuses, bodySessionRekey_fuses, bodyDebugUnlock_fuses, bodyFwUpdateStage_fuses,
    bodyFwActivate_fuses, bodyEventSubscribe_fuses, bodyEventAck_fuses]

theorem bodyOf_fuses (op : Nat) (c : CmdRec) (i : CmdIn) (s : State) : (bodyOf op c i s).state.fuses = s.fuses := by
  unfold bodyOf
  cases h : bodies.find? fun b => b.1 == op with
  | none => rfl
  | some b => exact bodies_fuses b (List.mem_of_find?_eq_some h) c i s

@[simp] theorem execHostReadCompletion_fuses (n : Fin 4) (i : Fin 256) (data : List Byte) (err : Bool) (s : State) :
    (s.after (execHostReadCompletion n i data err s)).fuses = s.fuses := by
  unfold execHostReadCompletion
  split
  · rfl
  · dsimp only
    split
    · exact State.fetchDone_fuses ..
    · split
      · rfl
      · split
        · rfl
        · rw [after_next, State.finish_fuses, bodyOf_fuses]
          split <;> simp only [State.hpStick_fuses]
    · rfl

@[simp] theorem execCommandTimeout_fuses (r : Recip) (i : Fin 4096) (s : State) :
    (s.after (execCommandTimeout r i s)).fuses = s.fuses := by
  unfold execCommandTimeout
  split <;> simp only [State.cut_fuses, after_next]

/-! ### Frames of recovery (Machine/Recovery.lean) -/

@[simp] theorem State.cancelFills_fuses (s : State) (p : ℕ) : (s.cancelFills p).fuses = s.fuses := by
  simp -implicitDefEqProofs only [State.cancelFills, State.updTile_fuses]

@[simp] theorem State.quietTasks_fuses (s : State) (q : ℕ) : (s.quietTasks q).fuses = s.fuses := by
  simp -implicitDefEqProofs only [State.quietTasks, State.updTask_fuses, foldl_fuses, implies_true]

@[simp] theorem State.faultEvent_fuses (s : State) (q index source object commands : ℕ) :
    (s.faultEvent q index source object commands).fuses = s.fuses := by
  simp only [State.faultEvent, State.raiseEvent_fuses]

@[simp] theorem State.startRecovery_fuses (s : State) (q : ℕ) (f : FaultRec) (index : ℕ) :
    (s.startRecovery q f index).fuses = s.fuses := by
  simp -implicitDefEqProofs only [State.startRecovery, State.abortMovesOf_fuses, State.updPart_fuses,
    State.discardCommands_fuses, State.restartCarafe_fuses, State.quiesce_fuses, State.quietTasks_fuses,
    State.cancelFills_fuses, State.stopStream_fuses, State.wakeSteep_fuses, State.faultEvent_fuses, State.setRec_fuses,
    foldl_fuses, implies_true]

@[simp] theorem State.takeFault_fuses (s : State) (f : FaultRec) (detail : ℕ) : (s.takeFault f detail).fuses = s.fuses := by
  unfold State.takeFault
  dsimp only
  split <;> simp only [State.logFault_fuses, State.setRec_fuses, ite_fuses, State.startRecovery_fuses, ite_self]

@[simp] theorem execPartitionFault_fuses (q : PartIx) (s : State) : (s.after (execPartitionFault q s)).fuses = s.fuses := by
  unfold execPartitionFault
  split <;> simp only [State.takeFault_fuses, after_next]

@[simp] theorem State.retire_fuses (s : State) (p : ℕ) : (s.retire p).fuses = s.fuses := by
  simp only [State.retire, State.updSector_fuses, State.setTm_fuses]

@[simp] theorem State.keepFill_fuses (s : State) (p : ℕ) (run : Option Fill) : (s.keepFill p run).fuses = s.fuses := by
  unfold State.keepFill
  split <;> simp only [State.updTile_fuses]

@[simp] theorem execTileFault_fuses (s : State) : (s.after (execTileFault s)).fuses = s.fuses := by
  unfold execTileFault
  dsimp only
  repeat' split
  all_goals simp only [State.logFault_fuses, State.retire_fuses, State.takeFault_fuses, State.abortMove_fuses,
    State.keepFill_fuses, State.updSector_fuses, State.setRec_fuses, after_next]

@[simp] theorem State.takeOver_fuses (s : State) (q p sp : ℕ) : (s.takeOver q p sp).fuses = s.fuses := by
  simp only [State.takeOver, State.retire_fuses, State.setTm_fuses, State.updTile_fuses, State.updSector_fuses,
    State.setRec_fuses]

@[simp] theorem State.takeOverStep_fuses (s : State) (q : ℕ) (x : ℕ × ℕ) : (s.takeOverStep q x).fuses = s.fuses := by
  simp only [State.takeOverStep, ite_fuses, State.takeOver_fuses, State.setRec_fuses, State.updSector_fuses, State.retire_fuses,
    State.startZero_fuses, ite_self]

@[simp] theorem State.dropHeld_fuses (s : State) (p : ℕ) : (s.dropHeld p).fuses = s.fuses := by
  unfold State.dropHeld
  dsimp only
  split <;> simp -implicitDefEqProofs only [State.dropWords_fuses, State.updLink_fuses, foldl_fuses, implies_true]

@[simp] theorem State.restoreTasks_fuses (s : State) (q : ℕ) : (s.restoreTasks q).fuses = s.fuses := by
  unfold State.restoreTasks
  refine foldl_fuses (fun u t => ?_) _ _
  split
  · next h => rw [State.updTask_fuses, snd_fuses h, State.takeImage_fuses]
  · next h => rw [snd_fuses h, State.takeImage_fuses]

@[simp] theorem execRecoveryCheck_fuses (q : PartIx) (s : State) : (s.after (execRecoveryCheck q s)).fuses = s.fuses := by
  unfold execRecoveryCheck
  dsimp only
  split
  · rfl
  · split_ifs
    · exact (State.setRec_fuses ..).trans (foldl_fuses (fun t p => State.dropHeld_fuses ..) _ s)
    · rfl
    · exact foldl_fuses (fun t x => State.takeOverStep_fuses ..) _ s
    · exact foldl_fuses (fun t n => State.wakeSteep_fuses ..) _ s
    · exact (State.setRec_fuses ..).trans (State.restoreTasks_fuses ..)

@[simp] theorem execRecoveryRefill_fuses (q : PartIx) (s : State) : (s.after (execRecoveryRefill q s)).fuses = s.fuses := by
  unfold execRecoveryRefill
  repeat' split
  all_goals simp -implicitDefEqProofs only [State.refill_fuses, State.setRec_fuses, State.wakeSteep_fuses, foldl_fuses,
    implies_true, after_next]

@[simp] theorem execRecoveryResume_fuses (q : PartIx) (s : State) : (s.after (execRecoveryResume q s)).fuses = s.fuses := by
  unfold execRecoveryResume
  repeat' split
  all_goals simp -implicitDefEqProofs only [State.updTask_fuses, State.updPart_fuses, State.setRec_fuses, State.dropFence_fuses,
    State.draw_fuses, State.logFault_fuses, State.raiseEvent_fuses, foldl_fuses, implies_true, after_next]

/-! ### Frames of integrity (Machine/Integrity.lean) -/

/-- The 32 bytes of DRAM at an address, without their poison: what `State.mapEntry` reads where the entry lies. -/
def State.entryAt (s : State) (a : Nat) : List Byte × State :=
  let (bs, s) := s.dramBytes a 32
  (bs.map (·.1), s)

theorem mapEntry_eq_entryAt (s : State) (q id : Nat) : ∃ a, s.mapEntry q id = s.entryAt a := ⟨_, rfl⟩

@[simp] theorem State.mapEntry_fuses (s : State) (q id : ℕ) : (s.mapEntry q id).2.fuses = s.fuses := by
  obtain ⟨a, h⟩ := mapEntry_eq_entryAt s q id
  rw [h, State.entryAt, State.dramBytes_fuses]

@[simp] theorem State.goldenBad_fuses (s : State) (p f id : ℕ) : (s.goldenBad p f id).fuses = s.fuses := by
  simp only [State.goldenBad, State.raiseFault_fuses]

@[simp] theorem State.frameUpset_fuses (s : State) (p f : ℕ) : (s.frameUpset p f).fuses = s.fuses := by
  unfold State.frameUpset
  extract_lets q ws
  split
  · exact State.goldenBad_fuses ..
  · refine State.KeepsFuses.ite (State.goldenBad_fuses ..) ?_
    split
    next map t h =>
    have ht : t.fuses = s.fuses := by
      split at h
      · exact (snd_fuses h).trans (State.mapEntry_fuses ..)
      · exact (snd_fuses h).trans rfl
    exact .ite ((State.raiseFault_fuses ..).trans ht) ((State.requestFill_fuses ..).trans ht)

@[simp] theorem State.visit_fuses (s : State) (p f : ℕ) : (s.visit p f).fuses = s.fuses := by
  simp only [State.visit, ite_fuses, State.frameUpset_fuses, ite_self]

@[simp] theorem execPercolatorFrameCheck_fuses (s : State) : (s.after (execPercolatorFrameCheck s)).fuses = s.fuses := by
  unfold execPercolatorFrameCheck
  dsimp only
  split
  · rfl
  · split
    · exact State.visit_fuses ..
    · split
      · rfl
      · exact State.visit_fuses ..

@[simp] theorem State.rewrite_fuses (s : State) (p : ℕ) (f : Fill) : (s.rewrite p f).fuses = s.fuses := by
  simp -implicitDefEqProofs only [State.rewrite, State.updTile_fuses, ite_fuses, State.writeWord_fuses, foldl_fuses,
    implies_true, ite_self]

@[simp] theorem execPercolatorRepair_fuses (s : State) : (s.after (execPercolatorRepair s)).fuses = s.fuses := by
  unfold execPercolatorRepair
  dsimp only
  repeat' split
  all_goals simp only [State.rewrite_fuses, after_next]

@[simp] theorem execPercolatorLatchVote_fuses (rom : Bool) (s : State) :
    (s.after (execPercolatorLatchVote rom s)).fuses = s.fuses := by
  unfold execPercolatorLatchVote
  dsimp only
  repeat' split
  all_goals simp -implicitDefEqProofs only [ite_fuses, State.sysFault_fuses, foldl_fuses, implies_true, ite_self, after_next]

@[simp] theorem execCuppingStep_fuses (n : SecIx) (s : State) : (s.after (execCuppingStep n s)).fuses = s.fuses := by
  unfold execCuppingStep
  dsimp only
  split <;> simp only [State.updSector_fuses, after_next]

@[simp] theorem State.askMove_fuses (s : State) (n p sp : ℕ) : (s.askMove n p sp).fuses = s.fuses := by
  simp only [State.askMove, ite_fuses, State.requestFence_fuses, State.updSector_fuses, ite_self]

@[simp] theorem execSpareTestDone_fuses (n : SecIx) (ok : Bool) (s : State) :
    (s.after (execSpareTestDone n ok s)).fuses = s.fuses := by
  unfold execSpareTestDone
  dsimp only
  repeat' split
  all_goals simp only [State.sysFault_fuses, State.updSector_fuses, State.retire_fuses, State.updTile_fuses,
    State.zeroizeTile_fuses, State.askMove_fuses, after_next]

@[simp] theorem execCuppingMigration_fuses (n : SecIx) (s : State) : (s.after (execCuppingMigration n s)).fuses = s.fuses := by
  unfold execCuppingMigration
  dsimp only
  repeat' split
  all_goals simp only [State.setTm_fuses, State.updSector_fuses, after_next]

@[simp] theorem State.copyTile_fuses (s : State) (p sp : ℕ) : (s.copyTile p sp).fuses = s.fuses := by
  simp -implicitDefEqProofs only [State.copyTile, State.setMem_fuses, State.readWord_fuses, State.writeWord_fuses, ite_fuses,
    State.unreqUncorr_fuses, foldl_fuses, implies_true, ite_self]

@[simp] theorem execMigrationDone_fuses (n : SecIx) (s : State) : (s.after (execMigrationDone n s)).fuses = s.fuses := by
  unfold execMigrationDone
  dsimp only
  repeat' split
  all_goals simp only [State.copyTile_fuses, State.updTile_fuses, State.setTm_fuses, State.draw_fuses, State.updSector_fuses,
    State.dropFence_fuses, after_next]

@[simp] theorem execUpset_fuses (u : UpsetAt) (s : State) : (s.after (execUpset u s)).fuses = s.fuses := by
  unfold execUpset
  repeat' split
  all_goals simp only [State.setMem_fuses, State.flipLine_fuses, after_next, after_fault]

/-! ### Frames of registers of a sector (Machine/CsrSector.lean) -/

@[simp] theorem State.setTileReg_fuses (s : State) (p o : ℕ) (v : Word) : (s.setTileReg p o v).fuses = s.fuses := by
  simp only [State.setTileReg, ite_fuses, State.updTile_fuses, ite_self]

@[simp] theorem State.startZeroize_fuses (s : State) (p : ℕ) : (s.startZeroize p).fuses = s.fuses := by
  simp only [State.startZeroize, ite_fuses, State.updTile_fuses, State.zeroizeTile_fuses, State.configRefused_fuses, ite_self]

@[simp] theorem State.setCtxReg_fuses (s : State) (p o : ℕ) (v n : Word) : (s.setCtxReg p o v n).fuses = s.fuses := by
  simp only [State.setCtxReg, ite_fuses, State.requestFence_fuses, State.dropFence_fuses, State.startZeroize_fuses, ite_self]

@[simp] theorem State.setMacReg_fuses (s : State) (p o : ℕ) (v : Word) : (s.setMacReg p o v).fuses = s.fuses := by
  simp only [State.setMacReg, ite_fuses, State.updTile_fuses, ite_self]

@[simp] theorem State.setTaskReg_fuses (s : State) (t o : ℕ) (v n : Word) : (s.setTaskReg t o v n).fuses = s.fuses := by
  simp only [State.setTaskReg, ite_fuses, State.updTask_fuses, State.setFlags_fuses, State.setStatic_fuses,
    State.checkMode_fuses, State.configRefused_fuses, ite_self]

@[simp] theorem State.setSecReg_fuses (s : State) (n o : ℕ) (w : Word) : (s.setSecReg n o w).fuses = s.fuses := by
  simp only [State.setSecReg, ite_fuses, State.updSector_fuses, State.configRefused_fuses, State.forceAwake_fuses, ite_self]

@[simp] theorem State.setSectorReg_fuses (s : State) (n o : ℕ) (v w : Word) : (s.setSectorReg n o v w).fuses = s.fuses := by
  unfold State.setSectorReg
  split <;> simp only [State.setSecReg_fuses, State.setTaskReg_fuses, State.updSector_fuses, State.setTileReg_fuses,
    State.setCtxReg_fuses, State.setMacReg_fuses]

/-! ### Frames of registers of the lanes (Machine/CsrLine.lean) -/

@[simp] theorem State.setLaneReg_fuses (s : State) (l o : ℕ) (v w : Word) : (s.setLaneReg l o v w).fuses = s.fuses := by
  simp only [State.setLaneReg, ite_fuses, State.setLaneCtrl_fuses, State.setPfcTh_fuses, State.updLane_fuses, ite_self]

@[simp] theorem State.setPartnerWord_fuses (s : State) (p i : ℕ) (w : Word) : (s.setPartnerWord p i w).fuses = s.fuses := rfl

@[simp] theorem State.setRuleWord_fuses (s : State) (r i : ℕ) (w : Word) : (s.setRuleWord r i w).fuses = s.fuses := by
  simp only [State.setRuleWord, ite_fuses, State.setRule_fuses, ite_self]

@[simp] theorem State.setLineReg_fuses (s : State) (o : ℕ) (v w : Word) : (s.setLineReg o v w).fuses = s.fuses := by
  simp only [State.setLineReg, ite_fuses, State.updStream_fuses, State.setPartnerWord_fuses, State.setRuleWord_fuses, ite_self]

/-! ### Frames of registers of the mesh (Machine/CsrMesh.lean) -/

@[simp] theorem State.applyRouter_fuses (s : State) (r : ℕ) : (s.applyRouter r).fuses = s.fuses := by
  simp only [State.applyRouter, ite_fuses, State.updRouter_fuses, ite_self]

@[simp] theorem State.setRouterReg_fuses (s : State) (r o : ℕ) (v w : Word) : (s.setRouterReg r o v w).fuses = s.fuses := by
  simp only [State.setRouterReg, ite_fuses, State.configRefused_fuses, State.updRouter_fuses, State.applyRouter_fuses, ite_self]

@[simp] theorem State.setMeshReg_fuses (s : State) (o : ℕ) (w : Word) : (s.setMeshReg o w).fuses = s.fuses := by
  simp only [State.setMeshReg, ite_fuses, ite_self]

@[simp] theorem State.writeOwner_fuses (s : State) (c b : ℕ) (w : Word) : (s.writeOwner c b w).fuses = s.fuses := by
  simp only [State.writeOwner, State.updCtl_fuses]

@[simp] theorem State.setDramReg_fuses (s : State) (c o : ℕ) (v w : Word) : (s.setDramReg c o v w).fuses = s.fuses := by
  simp only [State.setDramReg, ite_fuses, State.updCtl_fuses, State.writeOwner_fuses, ite_self]

/-! ### Frames of registers of a host port (Machine/CsrHost.lean) -/

@[simp] theorem State.setMsixWord_fuses (s : State) (n v i : ℕ) (w : Word) : (s.setMsixWord n v i w).fuses = s.fuses := by
  simp only [State.setMsixWord, State.updPort_fuses, ite_fuses, State.sendMsix_fuses, ite_self]

@[simp] theorem State.setHostReg_fuses (s : State) (n o : Nat) (v w : Word) : (s.setHostReg n o v w).fuses = s.fuses :=
  show s.KeepsFuses (s.setHostReg n o v w) from
  .ite (State.updPort_fuses ..) <| .ite (State.updPort_fuses ..) <|
    .ite (.ite (State.queueCtrl_fuses ..) (State.updQueue_fuses ..)) <|
    .ite (State.setMsixWord_fuses ..) <|
    .ite (.ite (State.tailWrite_fuses ..) <| .ite (State.headWrite_fuses ..) rfl) rfl

/-! ### Frames of registers of the device (Machine/CsrSystem.lean) -/

@[simp] theorem State.setSliceReg_fuses (s : State) (o : ℕ) (w : Word) : (s.setSliceReg o w).fuses = s.fuses := by
  simp -implicitDefEqProofs only [State.setSliceReg]

@[simp] theorem State.setPowerReg_fuses (s : State) (o : ℕ) (v : Word) : (s.setPowerReg o v).fuses = s.fuses := by
  simp only [State.setPowerReg, ite_fuses, ite_self]

@[simp] theorem State.setIntegrityReg_fuses (s : State) (o : ℕ) (w : Word) : (s.setIntegrityReg o w).fuses = s.fuses := by
  simp only [State.setIntegrityReg, ite_fuses, State.configRefused_fuses, ite_self]

@[simp] theorem State.setTableReg_fuses (s : State) (o : ℕ) (w : Word) : (s.setTableReg o w).fuses = s.fuses := by
  simp only [State.setTableReg, ite_fuses, State.setTm_fuses, State.requestFence_fuses, State.configRefused_fuses, ite_self]

/-! ### Frames of the register space (Machine/Csr.lean) -/

theorem State.csrRead_fuses (s : State) (a : Nat) : ((s.csrRead a).elim s (·.2)).fuses = s.fuses := by
  obtain ⟨g, hg⟩ : ∃ g, g = State.csrRead := ⟨_, rfl⟩
  rw [← hg]
  delta State.csrRead at hg
  subst hg
  beta_reduce
  generalize deqPopAt a = o
  generalize s.csrPeek a = w
  rcases o with _ | ⟨p, k⟩
  · rcases w with _ | _ | w
    · rfl
    · rfl
    · dsimp only
      rw [Option.elim_some, ite_fuses, State.updTime_fuses, ite_self]
  · exact State.deqPop_fuses ..

@[simp] theorem State.csrWrite_fuses (s : State) (a : Nat) (v m : Word) : (s.csrWrite a v m).fuses = s.fuses :=
  show s.KeepsFuses (s.csrWrite a v m) from
  .ite (.ite (State.setSliceReg_fuses ..) rfl) <| .ite (.ite (State.setSectorReg_fuses ..) rfl) <|
    .ite (.ite (State.setLaneReg_fuses ..) rfl) <| .ite (.ite (State.setDramReg_fuses ..) rfl) <|
    .ite (.ite (State.setRouterReg_fuses ..) <| .ite (State.setMeshReg_fuses ..) rfl) <|
    .ite (.ite (State.setHostReg_fuses ..) rfl) <| .ite (State.setLineReg_fuses ..) <|
    .ite (State.setPowerReg_fuses ..) <| .ite (State.setIntegrityReg_fuses ..) <|
    .ite (State.updTime_fuses ..) <| .ite (State.setTableReg_fuses ..) rfl

@[simp] theorem execRegisterWrite_fuses (bar : Option (Fin 4)) (a : BitVec 48) (w : Word) (s : State) :
    (s.after (execRegisterWrite bar a w s)).fuses = s.fuses := by
  unfold execRegisterWrite
  dsimp only
  split
  · rfl
  · split
    · rw [after_next, ite_fuses, State.csrWrite_fuses, ite_self]
    · split
      · exact State.holeAccess_fuses ..
      · split
        · rfl
        · split
          · rw [after_next, State.issue_fuses]
          · rw [after_next, ite_fuses, State.holeAccess_fuses, State.csrWrite_fuses, ite_self]

/-! ### Frames of targets of the mesh (Machine/Targets.lean) -/

@[simp] theorem State.csrCheck_fuses (s : State) (k : Packet) : (s.csrCheck k).2.fuses = s.fuses := by
  simp only [State.csrCheck, ite_fuses, State.holeAccess_fuses, ite_snd, ite_self]

/-- Reading a list of registers, over the read `g` of one: `State.csrReads` with its read left open. -/
def readsBy (g : State → Nat → Option (Word × State)) (s : State) : List Nat → Option (List Byte × State)
  | [] => some ([], s)
  | a :: r =>
    match g s a with
    | none => none
    | some (w, s) => (readsBy g s r).map fun x => (leBytes 4 w.toNat ++ x.1, x.2)

theorem State.csrReads_eq : State.csrReads = readsBy State.csrRead := by
  delta State.csrReads readsBy
  rfl

theorem readsBy_fuses {g : State → Nat → Option (Word × State)} (hg : ∀ s a, ((g s a).elim s (·.2)).fuses = s.fuses) (s : State)
    (as : List Nat) :
    ((readsBy g s as).elim s (·.2)).fuses = s.fuses := by
  induction as generalizing s with
  | nil => rw [readsBy, Option.elim_some]
  | cons a r ih =>
    rw [readsBy]
    split
    · rw [Option.elim_none]
    · next u hr =>
      have hu : u.fuses = s.fuses := elim_fuses (hg s a) hr
      cases hx : readsBy g u r with
      | none => rw [Option.map_none, Option.elim_none]
      | some x => exact (elim_fuses (ih u) hx).trans hu

theorem State.csrReads_fuses (s : State) (as : List Nat) : ((s.csrReads as).elim s (·.2)).fuses = s.fuses := by
  rw [State.csrReads_eq]
  exact readsBy_fuses State.csrRead_fuses s as

@[simp] theorem State.csrPut_fuses (s : State) (k : Packet) (a : ℕ) : (s.csrPut k a).fuses = s.fuses := by
  simp only [State.csrPut, State.csrWrite_fuses]

theorem State.csrServe_fuses (s : State) (k : Packet) : ((s.csrServe k).elim s (·.2.2.2)).fuses = s.fuses := by
  obtain ⟨g, hg⟩ : ∃ g, g = State.csrServe := ⟨_, rfl⟩
  rw [← hg]
  delta State.csrServe at hg
  subst hg
  beta_reduce
  change s.KeepsFuses _
  have hc := s.csrCheck_fuses k
  generalize s.csrCheck k = c at hc
  obtain ⟨_ | st, u⟩ := c
  · dsimp only
    split
    · cases hx : u.csrReads (wordsAt k.addr k.len) with
      | none => rw [Option.map_none, Option.elim_none]; rfl
      | some x =>
        rw [Option.map_some, Option.elim_some]
        dsimp only
        exact (elim_fuses (u.csrReads_fuses _) hx).trans hc
    · split
      · rw [Option.elim_some]
        exact hc
      · rw [Option.elim_some]
        dsimp only
        have hp (v : State) (a : Nat) : v.KeepsFuses (v.csrPut k a) := State.csrPut_fuses v k a
        exact State.KeepsFuses.trans hc (State.KeepsFuses.foldl hp _ _)
  · dsimp only
    rw [Option.elim_some]
    exact hc

theorem State.serveRequest_fuses (s : State) (k : Packet) : ((s.serveRequest k).elim s id).fuses = s.fuses := by
  unfold State.serveRequest
  generalize areaOf (k.addr % 2 ^ 44) = area
  split
  · cases hx : s.csrServe k with
    | none => rw [Option.map_none, Option.elim_none]
    | some x =>
      rw [Option.map_some, Option.elim_some]
      exact ((State.pump_fuses _).trans (State.answer_fuses ..)).trans (elim_fuses (g := fun x => x.2.2.2)
        (s.csrServe_fuses k) hx)
  · have hc := s.memCheck_fuses k
    generalize s.memCheck k = c at hc
    obtain ⟨_ | st, u⟩ := c
    · dsimp only
      split
      · rw [Option.elim_some]
        exact (u.dramAccept_fuses k).trans hc
      · rw [Option.elim_none]
    · dsimp only
      rw [Option.elim_some, id, State.pump_fuses, State.answer_fuses]
      exact hc
  · rw [Option.elim_some]
    dsimp only [id]
    rw [State.pump_fuses, State.answer_fuses, State.memServe_fuses]

theorem State.request_fuses {f : Packet → State → State → State} (hf : ∀ k t u, (f k t u).fuses = u.fuses) (s : State) (r :
    MeshReq) (opc : Nat) :
    (s.request r opc f).fuses = s.fuses := by
  have ht := s.takeRequest_fuses r opc
  unfold State.request
  generalize s.takeRequest r opc = x at ht
  obtain ⟨k, s1⟩ := x
  dsimp only at ht ⊢
  generalize hp : @ite ℕ (s.mesh.arrived.any _ ∨ (s.destOf k.addr).isNone) _ 0 (s.proxy _ _ k) = proxy
  split
  · split
    · rw [State.raiseWake_fuses]
    · rfl
  · split
    · rw [State.answer_fuses, ht]
    · split
      · rfl
      · split
        · next h => rw [hf, ← ht]; exact elim_fuses (s1.serveRequest_fuses k) h
        · rfl

@[simp] theorem execMeshRd_fuses (r : MeshReq) (s : State) : (s.after (execMeshRd r s)).fuses = s.fuses := by
  rw [execMeshRd, after_next, State.request_fuses fun _ _ _ => rfl]

theorem keepPortA_fuses (is : List (Fin 65)) (k : Packet) (s0 s : State) : (keepPortA is k s0 s).fuses = s.fuses := by
  unfold keepPortA
  dsimp only
  refine foldl_fuses (fun t x => ?_) _ _
  split
  · rfl
  · rw [State.stick_fuses, State.setMem_fuses]

@[simp] theorem execMeshWr_fuses (r : MeshReq) (portA : List (Fin 65)) (s : State) :
    (s.after (execMeshWr r portA s)).fuses = s.fuses := by
  rw [execMeshWr, after_next, State.request_fuses (keepPortA_fuses portA)]

@[simp] theorem State.aliased_fuses (s : State) (r : MeshReq) (ali : Nat) : (s.aliased r ali).fuses = s.fuses := by
  rw [State.aliased, ite_fuses, State.request_fuses fun _ _ _ => rfl, ite_self]

@[simp] theorem execAliasBitSet_fuses (r : MeshReq) (s : State) : (s.after (execAliasBitSet r s)).fuses = s.fuses := by
  simp only [execAliasBitSet, State.aliased_fuses, after_next]

@[simp] theorem execAliasBitClear_fuses (r : MeshReq) (s : State) : (s.after (execAliasBitClear r s)).fuses = s.fuses := by
  simp only [execAliasBitClear, State.aliased_fuses, after_next]

@[simp] theorem State.atom_fuses (s : State) (r : MeshReq) (aop : Nat) : (s.atom r aop).fuses = s.fuses := by
  simp only [State.atom, ite_fuses, State.request_fuses, implies_true, ite_self]

@[simp] theorem execAtomSwap_fuses (r : MeshReq) (s : State) : (s.after (execAtomSwap r s)).fuses = s.fuses := by
  simp only [execAtomSwap, State.atom_fuses, after_next]

@[simp] theorem execAtomCas_fuses (r : MeshReq) (s : State) : (s.after (execAtomCas r s)).fuses = s.fuses := by
  simp only [execAtomCas, State.atom_fuses, after_next]

@[simp] theorem execAtomFadd_fuses (r : MeshReq) (s : State) : (s.after (execAtomFadd r s)).fuses = s.fuses := by
  simp only [execAtomFadd, State.atom_fuses, after_next]

@[simp] theorem execAtomFor_fuses (r : MeshReq) (s : State) : (s.after (execAtomFor r s)).fuses = s.fuses := by
  simp only [execAtomFor, State.atom_fuses, after_next]

@[simp] theorem execAtomFand_fuses (r : MeshReq) (s : State) : (s.after (execAtomFand r s)).fuses = s.fuses := by
  simp only [execAtomFand, State.atom_fuses, after_next]

@[simp] theorem execAtomFxor_fuses (r : MeshReq) (s : State) : (s.after (execAtomFxor r s)).fuses = s.fuses := by
  simp only [execAtomFxor, State.atom_fuses, after_next]

@[simp] theorem execAtomUmin_fuses (r : MeshReq) (s : State) : (s.after (execAtomUmin r s)).fuses = s.fuses := by
  simp only [execAtomUmin, State.atom_fuses, after_next]

@[simp] theorem execAtomUmax_fuses (r : MeshReq) (s : State) : (s.after (execAtomUmax r s)).fuses = s.fuses := by
  simp only [execAtomUmax, State.atom_fuses, after_next]

@[simp] theorem State.steal_fuses (s : State) (p : ℕ) (u : Fin 4) : (s.steal p u).fuses = s.fuses := by
  simp only [State.steal, ite_fuses, State.updTile_fuses, ite_self]

@[simp] theorem execTapSteal_fuses (p : TileIx) (u : Fin 4) (r : MeshReq) (s : State) :
    (s.after (execTapSteal p u r s)).fuses = s.fuses := by
  unfold execTapSteal
  dsimp only
  rw [after_next]
  generalize areaOf r.addr.toNat = area
  split
  · rw [ite_fuses, ite_fuses, State.steal_fuses, State.request_fuses fun _ _ _ => rfl, ite_self, ite_self]
  · rfl

/-! ### Frames of ticks (Machine/Tick.lean) -/

@[simp] theorem State.tick_fuses (s : State) : (s.tick).fuses = s.fuses := by
  simp -implicitDefEqProofs only [State.tick]



/-! ## The fuse programmer -/

theorem Fuses.keptIn_refl (f : Fuses) : f.keptIn f := ⟨le_rfl, le_rfl, fun _ _ => rfl⟩

theorem Fuses.keptIn.trans {f g h : Fuses} (hfg : f.keptIn g) (hgh : g.keptIn h) : f.keptIn h := by
  obtain ⟨hv, hc, hs⟩ := hfg
  obtain ⟨hv', hc', hs'⟩ := hgh
  exact ⟨hv.trans hv', hc.trans hc', fun i hi => by rw [hs' i (by rwa [hs i hi]), hs i hi]⟩

/-- The slot a hand-over would program is blank: the active slot is the highest programmed one (R433). -/
theorem Fuses.slot_blank (f : Fuses) {k : Nat} (hk : k < 4) (hnext : ∀ a ∈ f.active, a < k) : tget none f.slots k = none := by
  by_contra hne
  have hsome : (tget none f.slots k).isSome = true := Option.isSome_iff_ne_none.mpr hne
  have hmem : k ∈ [3, 2, 1, 0] := by
    simp only [List.mem_cons, List.not_mem_nil]
    omega
  cases ha : f.active with
  | none => exact absurd hsome (List.find?_eq_none.mp ha k hmem)
  | some a =>
    obtain ⟨-, above, below, hl, habove⟩ := List.find?_eq_some_iff_append.mp ha
    have hsorted : [3, 2, 1, 0].Pairwise (· > ·) := by decide
    rw [hl, List.pairwise_append, List.pairwise_cons] at hsorted
    obtain ⟨-, ⟨hbelow, -⟩, -⟩ := hsorted
    rw [hl, List.mem_append, List.mem_cons] at hmem
    rcases hmem with h | rfl | h
    · exact absurd hsome (by simpa using habove k h)
    · exact lt_irrefl _ (hnext k ha)
    · exact lt_asymm (hbelow k h) (hnext a ha)

theorem State.handover_slot {s : State} {vpp : Bool} {slot : Nat} {hash : List Byte} (h : s.handover vpp = (1, slot, hash)) :
    tget none s.fuses.slots slot = none := by
  unfold State.handover at h
  generalize s.flashBytes 0x08010000 5522 = r at h
  dsimp only at h
  split_ifs at h with hold hmet
  · exact absurd (congrArg Prod.fst h) (by simp)
  · obtain ⟨-, -, -, hnext, hlt, -⟩ := hmet
    obtain rfl : num r 1 1 = slot := congrArg (fun x => x.2.1) h
    refine s.fuses.slot_blank hlt fun a ha => ?_
    rw [hnext, ha]
    exact Nat.lt_succ_self a
  · exact absurd (congrArg Prod.fst h) (by simp)

/-- A counter goes up to the floor of the manifest at most, and never down. -/
theorem le_raised (p : Prop) [Decidable p] (v floor : Nat) : v ≤ if p then max v (min floor (v + 64)) else v := by
  split <;> omega

theorem State.programFuses_keeps (s : State) (e : BootIn) : s.fuses.keptIn (s.programFuses e).fuses := by
  unfold State.programFuses
  rcases hh : s.handover e.vpp with ⟨kind, slot, hash⟩
  dsimp only
  rw [ite_fuses, State.bootHalt_fuses, State.updBoot_fuses, State.updBoot_fuses, State.updBoot_fuses, ite_self]
  refine ⟨le_raised .., le_raised .., fun i hi => ?_⟩
  dsimp only
  split
  · next hk =>
    subst hk
    rw [tget_tset_ne]
    rintro rfl
    exact hi (State.handover_slot hh)
  · rfl

theorem Fuses.keptIn_of_eq {f g : Fuses} (h : g = f) : f.keptIn g := h ▸ f.keptIn_refl

theorem execBootStage_keeps (e : BootIn) (s : State) : s.fuses.keptIn (s.after (execBootStage e s)).fuses := by
  unfold execBootStage
  dsimp only
  split
  · exact s.fuses.keptIn_refl
  · split
    · refine Fuses.keptIn_of_eq ?_
      split_ifs <;> simp only [after_next, State.bootHalt_fuses, State.updBoot_fuses]
    · refine Fuses.keptIn_of_eq ?_
      simp only [after_next, State.updBoot_fuses, ite_fuses, State.failLanes_fuses, ite_self]
    · refine Fuses.keptIn_of_eq ?_
      split
      · rw [after_next, State.bootHalt_fuses]
      · rw [after_next, State.updBoot_fuses, foldl_fuses fun u p => u.failTile_fuses ..]
    · refine Fuses.keptIn_of_eq ?_
      split_ifs <;> simp only [after_next, State.bootHalt_fuses, State.updBoot_fuses]
    · refine Fuses.keptIn_of_eq ?_
      split_ifs <;> simp only [after_next, State.slotFails_fuses, State.updBoot_fuses]
    · refine Fuses.keptIn_of_eq ?_
      split_ifs <;> simp only [after_next, State.slotFails_fuses, State.updBoot_fuses]
    · refine Fuses.keptIn_of_eq ?_
      split_ifs <;> simp only [after_next, State.slotFails_fuses, State.updBoot_fuses, State.loadSections_fuses]
    · rw [after_next]
      exact s.programFuses_keeps e
    · refine Fuses.keptIn_of_eq ?_
      split <;> simp only [after_next, State.bootComplete_fuses, State.bootHalt_fuses]
    · exact s.fuses.keptIn_refl

@[simp] theorem execRequestTranslateRetry_fuses (r : Recip) (s : State) :
    (s.after (execRequestTranslateRetry r s)).fuses = s.fuses := by
  unfold execRequestTranslateRetry
  dsimp only
  split
  · next h =>
    obtain ⟨x, -, hx⟩ := List.exists_of_findSome?_eq_some h
    rw [after_next, State.finish_fuses]
    exact firstMoved_fuses (bodyOf_fuses _) s hx
  · rw [after_next]

@[simp] theorem execUnknownOpcode_fuses (r : Recip) (s : State) : (s.after (execUnknownOpcode r s)).fuses = s.fuses := by
  rw [execUnknownOpcode, after_next, runCommand_fuses fun _ _ _ => rfl]

theorem exec_keeps (c : Instr) (s : State) : s.fuses.keptIn (s.after (exec c s)).fuses := by
  cases c with
  | bootStage e => exact execBootStage_keeps e s
  | _ =>
    refine Fuses.keptIn_of_eq ?_
    simp [exec, runCommand_fuses, execAgingSet, execAttest, execCtxPin, execCuppingControl, execDebugUnlock, execDramDescribe,
      execEnvSet, execEventAck, execEventSubscribe, execFaultInject, execFaultLogRead, execFwActivate, execFwUpdateStage,
      execGetStatus, execGraphStart, execGraphStop, execIdentify, execKeyDestroy, execKeyLoad, execLaneConfig, execLaneState,
      execLatencyToleranceSet, execMarkAdvance, execMarkSet, execMemAtomic, execMemFill, execMemRead, execMemWrite, execNop,
      execOwnerEnroll, execPartCreate, execPartDestroy, execPartGrant, execPartQuery, execPartRevoke, execPartnerDefine,
      execPercolatorControl, execPersLoad, execPersUnload, execPowerCapSet, execPowerQuery, execReadTelemetry, execScrubRange,
      execSessionRekey, execStreamClassify, execStreamClose, execStreamCreditSet, execStreamOpen, execStreamReplay,
      execStreamStats, execTaskArm, execTaskCancel, execTaskQuery, execTaskSignal, execTimeSet]

/-- Settles O4: the fuse programmer is the one writer of the fuses. It raises the two counters, and it writes a slot only where
that slot was blank; every other row, and a tick, leaves the fuses as they were. -/
theorem blownFusesStayBlown : Obligations.BlownFusesStayBlown := by
  intro f s t hf ht
  unfold step at ht
  split at ht
  · cases ht
    rwa [State.tick_fuses]
  · next c rest _ =>
    have hk := exec_keeps c { s with pending := rest }
    rw [ht, after_next] at hk
    exact hf.trans hk

end Sys2Proof.Machine
end


section
/-!
SUPPORT. The work of the commands about the device: identity, status, telemetry, environment, time, aging, latency tolerance and
power; with the statements about them (O45, O46).
-/
namespace Sys2Proof.Machine

/-! ## Bytes of a RESULT -/

@[simp] theorem length_leBytes (n v : Nat) : (leBytes n v).length = n := by simp [leBytes]

theorem length_padTo (n : Nat) (b : List Byte) : (padTo n b).length = n := by
  simp only [padTo, List.length_take, List.length_append, List.length_replicate]
  omega

/-- The RESULT stands after the 14 bytes of status, identity and position (Table 11-7). -/
theorem slice_packet_result (y : Reply) (x p h : Nat) : slice (y.packet x p h) 14 12 = padTo 12 y.result := by
  have hlen := length_padTo 12 y.result
  have hcut (pre mac : List Byte) (hpre : pre.length = 14) : slice (pre ++ padTo 12 y.result ++ mac) 14 12 = padTo 12 y.result := by
    rw [slice, List.append_assoc, List.drop_append_of_le_length hpre.ge, List.drop_of_length_le hpre.le, List.nil_append]
    exact List.take_left' hlen
  unfold Reply.packet
  dsimp only
  split <;> exact hcut _ _ (by simp only [List.length_append, length_leBytes])

section
variable {c : CmdRec} {s : State}

/-! ## Identity and status (R361, R362) -/

theorem authenticate_open (hmac : c.flags.testBit 1 = false) (hop : c.opcode = 0x0001 ∨ c.opcode = 0x0002) :
    s.authenticate c = some false := by
  have hopen : openOpcode c.opcode = true := by rcases hop with h | h <;> rw [h] <;> rfl
  simp [State.authenticate, hmac, hopen]

theorem bodyNop_answers (hst : c.stray [] = false) (i : CmdIn) : bodyNop c i s = .reply stOk [] s := by
  rw [bodyNop, checked_none (by simp [hst])]

theorem resultOf_identity (v a : Nat) :
    resultOf [(14, 2, 0x00A1), (16, 2, 0x7440), (18, 1, stepping), (20, 4, v), (24, 1, a)] =
      [0xA1, 0x00, 0x40, 0x74, BitVec.ofNat 8 stepping, 0] ++ leBytes 4 v ++ [BitVec.ofNat 8 a, 0] := by
  simp [resultOf, leBytes, List.range_succ]

theorem bodyIdentify_answers (hst : c.stray [] = false) (i : CmdIn) :
    bodyIdentify c i s = .reply stOk ([0xA1, 0x00, 0x40, 0x74, BitVec.ofNat 8 stepping, 0]
      ++ leBytes 4 s.boot.fwVersion ++ [BitVec.ofNat 8 s.boot.active, 0]) s := by
  rw [bodyIdentify, checked_none (by simp [hst]), resultOf_identity]

theorem bodyGetStatus_answers (hst : c.stray [] = false) (i : CmdIn) :
    bodyGetStatus c i s = .reply stOk (resultOf [(14, 2, s.boot.status),
      (16, 1, bit s.boot.ready + 2 * bit (s.perc.status == 1) + 4 * bit (c.po && s.logUnread)),
      (18, 1, if c.po then 0 else (s.part c.stamp).state), (20, 2, s.inFlight c.stamp),
      (22, 2, (s.evb c.stamp).entries.length)]) s := by
  rw [bodyGetStatus, checked_none (by simp [hst])]

/-! ## Surroundings (R363, R374, R375) -/

theorem bodyReadTelemetry_reads (hst : c.stray [(16, 1)] = false) {n : Nat} (hn : n = c.num 16 1)
    (hknown : n ≤ 10 ∨ 16 ≤ n ∧ n ≤ 24) (i : CmdIn) :
    bodyReadTelemetry c i s = .reply stOk (resultOf [(14, 4, reading (tget 0 s.power.now n)),
        (18, 4, reading ((tget none s.power.low n).getD (tget 0 s.power.now n))),
        (22, 4, reading ((tget none s.power.high n).getD (tget 0 s.power.now n)))])
      { s with power := { s.power with low := tset none s.power.low n none, high := tset none s.power.high n none } } := by
  subst hn
  rw [bodyReadTelemetry, checked_none (by simpa [firstFail, hst] using fun h => ⟨by omega, by omega⟩)]

theorem bodyEnvSet_writes (hst : c.stray [(16, 3)] = false) (htj : 60 ≤ c.num 16 1 ∧ c.num 16 1 ≤ 105)
    (hwarn : c.num 17 1 = 0 ∨ 50 ≤ c.num 17 1 ∧ c.num 17 1 + 5 ≤ c.num 16 1) (hair : c.num 18 1 ≤ 7) (i : CmdIn) :
    bodyEnvSet c i s = .reply stOk []
      { s with power := { s.power with tjMax := c.num 16 1, tjWarn := c.num 17 1, airflow := c.num 18 1 } } := by
  have h0 : c.num 16 1 ≠ 0 := by omega
  have hlow : ¬c.num 16 1 < 60 := by omega
  have hhigh : ¬105 < c.num 16 1 := by omega
  rw [bodyEnvSet, checked_none (by
    simp only [firstFail_none_iff, List.forall_mem_cons]
    simp [hst, h0, hlow, hhigh, Nat.not_lt.mpr hair]
    omega)]

theorem timeOp_eq (c : CmdRec) (h : c.num 16 1 = 1 ∨ c.num 16 1 = 2 ∨ c.num 16 1 = 3) :
    c.timeOp = if c.num 16 1 = 1 then .load (c.num 24 6) (field (c.num 20 4) 0 30)
      else if c.num 16 1 = 2 then .adjust (BitVec.ofNat 32 (c.num 20 4)).toInt else .incr (BitVec.ofNat 32 (c.num 20 4)) := by
  unfold CmdRec.timeOp
  rcases h with h | h | h <;> rw [h] <;> rfl

theorem bodyTimeSet_queues
    (hop : c.num 16 1 = 1 ∧ c.stray [(16, 1), (20, 10)] = false ∧ c.num 20 4 < 2 ^ 30 ∨
      (c.num 16 1 = 2 ∨ c.num 16 1 = 3) ∧ c.stray [(16, 1), (20, 4)] = false ∧ c.num 20 4 ≠ 0)
    {u v : TimeUnit} (hu : u = { s.time with ops := s.time.ops ++ [c.timeOp] }) (hv : v = if s.time.locked then u.cycle else u)
    (i : CmdIn) :
    bodyTimeSet c i s = .reply stOk (resultOf [(14, 4, v.ns), (18, 4, v.sec % 2 ^ 32), (22, 1, bit (!v.locked))])
      { s with time := v } := by
  subst hu hv
  rw [bodyTimeSet, checked_none (by
    rcases hop with ⟨h1, hst, hlt⟩ | ⟨h23, hst, h0⟩
    · simpa [firstFail, h1, hst] using hlt
    · rcases h23 with h | h <;> simp [firstFail, h, hst, h0])]
  dsimp only [State.updTime]
  split <;> rfl

/-! ## Tasks and power (R203, R388 to R391) -/

/-- What the same update of each sector of a list leaves. -/
theorem sector_foldl_updSector (f : Sector → Sector) (k : Nat) : ∀ (ns : List Nat) (s : State), ns.Nodup →
    (ns.foldl (fun s n => State.updSector s n f) s).sector k = if k ∈ ns then f (s.sector k) else s.sector k
  | [], _, _ => rfl
  | n :: ns, s, h => by
    obtain ⟨hn, hns⟩ := List.nodup_cons.mp h
    rw [List.foldl_cons, sector_foldl_updSector f k ns _ hns]
    by_cases hk : k = n
    · subst hk; simp [hn]
    · simp [hk, State.updSector_sector]

theorem foldl_updSector_sectors (f : Sector → Sector) : ∀ (ns : List Nat) (s : State),
    ns.foldl (fun s n => State.updSector s n f) s =
      { s with sectors := (ns.foldl (fun s n => State.updSector s n f) s).sectors }
  | [], _ => rfl
  | n :: ns, s => by rw [List.foldl_cons, foldl_updSector_sectors f ns]; rfl

/-- A dispatcher with the aging parameter of partition `q` set to `v`. -/
def Sector.aged (q : Nat) (v : Nat) (x : Sector) : Sector := { x with urg := tset 0 x.urg q (BitVec.ofNat 8 v) }

theorem urgOf_aged (q v p : Nat) (x : Sector) : (x.aged q v).urgOf p = if p = q then v % 256 else x.urgOf p := by
  rw [Sector.aged, Sector.urgOf, tget_tset]
  split
  · exact BitVec.toNat_ofNat ..
  · rfl

theorem bodyAgingSet_sets (hst : c.stray [(16, 1)] = false) (i : CmdIn) :
    bodyAgingSet c i s = .reply stOk (resultOf [(14, 1, (s.sector 0).urgOf c.stamp)])
      ((List.range 8).foldl (fun s n => State.updSector s n (Sector.aged c.stamp (c.num 16 1))) s) := by
  rw [bodyAgingSet, checked_none (by simp [hst])]
  rfl

theorem bodyLatencyToleranceSet_sets (hst : c.stray [(16, 8)] = false) (hmax : c.num 20 4 ≤ 65535)
    (hloaded : ∀ v ∈ (s.part c.stamp).loaded, v.2.holdoff ≤ c.num 20 4) (i : CmdIn) :
    bodyLatencyToleranceSet c i s = .reply stOk (resultOf [(14, 4, (s.part c.stamp).tol), (18, 4, s.holdoffOf c.stamp)])
      { (s.setPart c.stamp { s.part c.stamp with tol := c.num 16 4 }) with
        holdoff := tset 4096 s.holdoff c.stamp (c.num 20 4) } := by
  have hnone : (s.part c.stamp).loaded.any (fun v => decide (c.num 20 4 < v.2.holdoff)) = false := by
    simpa using fun a b h => hloaded (a, b) h
  rw [bodyLatencyToleranceSet, checked_none (by simp [-List.any_eq_false, firstFail, hst, Nat.not_lt.mpr hmax, hnone])]
  rfl

theorem bodyPowerQuery_sector (hpo : c.stamp = 16) (hn : c.num 16 1 < 8) (hst : c.stray [(16, 1)] = false) (i : CmdIn) :
    bodyPowerQuery c i s = .reply stOk (resultOf [(14, 1, (s.sector (c.num 16 1)).pstate.code),
      (16, 2, (s.sector (c.num 16 1)).clk), (18, 2, (s.sector (c.num 16 1)).ldo),
      (20, 2, (BitVec.ofInt 16 (s.sector (c.num 16 1)).temp).toNat), (22, 4, reading (tget 0 s.power.now (17 + c.num 16 1)))]) s := by
  have hpo' : c.po = true := by simpa [CmdRec.po] using hpo
  rw [bodyPowerQuery, checked_none (by simp [firstFail, hpo', hst, Nat.not_lt.mpr hn.le])]
  simp [hpo', hn.ne]

theorem bodyPowerQuery_device (hpo : c.stamp = 16) (hn : c.num 16 1 = 8) (hst : c.stray [(16, 1)] = false) (i : CmdIn) :
    bodyPowerQuery c i s = .reply stOk (resultOf [(20, 2, Config.free s.drawn % 2 ^ 16), (22, 4, reading (tget 0 s.power.now 16))])
      { s with drawn := s.drawn + 1 } := by
  have hpo' : c.po = true := by simpa [CmdRec.po] using hpo
  rw [bodyPowerQuery, checked_none (by simp [firstFail, hpo', hst, hn])]
  simp [hpo', hn, State.draw]

theorem bodyPowerQuery_partition (hpo : c.stamp ≠ 16) (hst : c.stray [] = false) (i : CmdIn) :
    bodyPowerQuery c i s = .reply stOk (resultOf [(14, 4, (s.part c.stamp).tol), (18, 4, s.holdoffOf c.stamp)]) s := by
  have hpo' : c.po = false := by simpa [CmdRec.po] using hpo
  rw [bodyPowerQuery, checked_none (by simp [firstFail, hpo', hst])]
  simp [hpo']

theorem bodyPowerCapSet_writes (hst : c.stray [(16, 4)] = false) (hcap : 40000 ≤ c.num 16 4 ∧ c.num 16 4 ≤ 185000) (i : CmdIn) :
    bodyPowerCapSet c i s = .reply stOk (resultOf [(14, 4, s.power.cap)]) { s with power := { s.power with cap := c.num 16 4 } } := by
  obtain ⟨hlow, hhigh⟩ := hcap
  have h0 : c.num 16 4 ≠ 0 := by omega
  rw [bodyPowerCapSet, checked_none (by simp [firstFail, hst, h0, Nat.not_lt.mpr hlow, Nat.not_lt.mpr hhigh])]

end

/-- Settles O45. -/
theorem nopAndIdentifyAnswer : Obligations.NopAndIdentifyAnswer := by
  intro s r c rest auth b
  exact ⟨fun hmac hop => authenticate_open hmac hop,
    fun h hst => exec_accepted (body := bodyNop) rfl h (bodyNop_answers (c := b.taken c auth) hst {}),
    fun h hst => exec_accepted (body := bodyIdentify) rfl h (bodyIdentify_answers (c := b.taken c auth) hst {}),
    slice_packet_result, rfl⟩

/-- Settles O46: each command's work where it begins. -/
theorem deviceCommandsAnswer : Obligations.DeviceCommandsAnswer := by
  intro s r c rest auth b
  refine ⟨fun h hst => ?status, fun h hst hknown => ?telemetry, fun h hst htj hwarn hair => ?env, fun h hop => ?time,
    fun h hst => ?aging, fun h hst hmax hloaded => ?latency,
    fun n h hn => ⟨fun hpo hlt hst => ?sector, fun hpo h8 hst => ?device, fun hpo hst => ?partition⟩, fun h hst hcap => ?cap⟩
  case status =>
    exact exec_accepted (body := bodyGetStatus) rfl h (bodyGetStatus_answers (c := b.taken c auth) hst {})
  case telemetry =>
    exact exec_accepted (body := bodyReadTelemetry) rfl h (bodyReadTelemetry_reads (c := b.taken c auth) hst rfl hknown {})
  case env =>
    exact exec_accepted (body := bodyEnvSet) rfl h (bodyEnvSet_writes (c := b.taken c auth) hst htj hwarn hair {})
  case time =>
    intro op u v
    have hop' : op = c.timeOp := (timeOp_eq c (by omega)).symm
    exact exec_accepted (body := bodyTimeSet) rfl h
      (bodyTimeSet_queues (c := b.taken c auth) (v := v) hop (congrArg (fun o => { b.time with ops := b.time.ops ++ [o] }) hop') rfl {})
  case aging =>
    refine ⟨_, exec_accepted (body := bodyAgingSet) rfl h (bodyAgingSet_sets (c := b.taken c auth) hst {}), fun n hn => ?_,
      foldl_updSector_sectors ..⟩
    rw [sector_foldl_updSector _ _ _ _ List.nodup_range, if_pos (List.mem_range.mpr hn), urgOf_aged]
    refine ⟨if_pos rfl, rfl, fun q hq => ?_⟩
    rw [urgOf_aged]
    exact if_neg hq
  case latency =>
    exact exec_accepted (body := bodyLatencyToleranceSet) rfl h
      (bodyLatencyToleranceSet_sets (c := b.taken c auth) hst hmax hloaded {})
  case sector =>
    subst hn
    exact exec_accepted (body := bodyPowerQuery) rfl h (bodyPowerQuery_sector (c := b.taken c auth) hpo hlt hst {})
  case device =>
    subst hn
    exact ⟨_, exec_accepted (body := bodyPowerQuery) rfl h (bodyPowerQuery_device (c := b.taken c auth) hpo h8 hst {})⟩
  case partition =>
    exact exec_accepted (body := bodyPowerQuery) rfl h (bodyPowerQuery_partition (c := b.taken c auth) hpo hst {})
  case cap =>
    exact exec_accepted (body := bodyPowerCapSet) rfl h (bodyPowerCapSet_writes (c := b.taken c auth) hst hcap {})

end Sys2Proof.Machine
end


section
/-!
SUPPORT. Clocks and their ceilings: the clock step, the cap loop, the thermal loop and the critical alarm; with the statement about
them (O58).
-/
namespace Sys2Proof.Machine

/-! ## The clock step (R475, R477) -/

section
variable {s : State} {n : SecIx} (hstate : (s.sector n).pstate = .brew ∨ (s.sector n).pstate = .steep)
  (hfree : (s.sector n).committed = false)
include hstate hfree

theorem clockStep_runs : ¬(((s.sector n).pstate ≠ .brew ∧ (s.sector n).pstate ≠ .steep) ∨ (s.sector n).committed) := by
  rcases hstate with h | h <;> simp [h, hfree]

theorem clockStep_up (h : (s.sector n).clk + 25 ≤ s.ceiling n) : exec (.clockStep n) s =
    .next (s.setSector n { s.sector n with clk := (s.sector n).clk + 25, ldo := supplyAt ((s.sector n).clk + 25) }) :=
  congrArg _ ((if_neg (clockStep_runs hstate hfree)).trans (if_pos h))

theorem clockStep_down (h : s.ceiling n < (s.sector n).clk) : exec (.clockStep n) s =
    .next (s.setSector n { s.sector n with clk := (s.sector n).clk - 25, ldo := supplyAt ((s.sector n).clk - 25) }) :=
  congrArg _ ((if_neg (clockStep_runs hstate hfree)).trans ((if_neg (by omega)).trans (if_pos h)))

theorem clockStep_stays (hle : (s.sector n).clk ≤ s.ceiling n) (hlt : s.ceiling n < (s.sector n).clk + 25) :
    exec (.clockStep n) s = .next s :=
  congrArg _ ((if_neg (clockStep_runs hstate hfree)).trans ((if_neg (by omega)).trans (if_neg (by omega))))

end

/-! ## Readings (R363) -/

/-- What a fold that writes the power manager alone leaves of the rest. -/
theorem foldl_only_power {β : Type} {f : State → β → State} (hf : ∀ s b, f s b = { s with power := (f s b).power }) (l : List β)
    (s : State) : l.foldl f s = { s with power := (l.foldl f s).power } := by
  have hrest := foldl_keeps (fun u : State => { u with power := {} }) (f := f) (fun u b => by rw [hf u b]) l s
  exact congrArg (fun u : State => { u with power := (l.foldl f s).power }) hrest

/-- A state that differs from `m` in the power manager alone, as `m` does from `s`, differs from `s` in it alone. -/
theorem only_power_trans {s m t : State} (hm : m = { s with power := m.power }) (ht : t = { m with power := t.power }) :
    t = { s with power := t.power } :=
  ht.trans (congrArg (fun v : State => { v with power := t.power }) hm)

/-! ## The cap loop (R480) -/

/-- One pass of the cap loop over the power manager that has taken its readings. -/
def Power.capPass (u : Power) : Power :=
  if u.cap = 185000 then { u with p := 1600, under := 0 }
  else if u.cap < u.watts then { u with p := if 400 < u.p then u.p - 25 else u.p, under := 0 }
  else if u.watts + 2000 < u.cap then
    if 99 ≤ u.under ∧ u.p < 1600 then { u with p := u.p + 25, under := 0 } else { u with under := u.under + 1 }
  else { u with under := 0 }

section
variable (u : Power)

theorem capPass_rest : u.capPass = { u with p := u.capPass.p, under := u.capPass.under } := by
  unfold Power.capPass
  split_ifs <;> rfl

variable {u}

theorem capPass_none (h : u.cap = 185000) : u.capPass.p = 1600 := by rw [Power.capPass, if_pos h]

variable (hcap : u.cap ≠ 185000)
include hcap

theorem capPass_over (h : u.cap < u.watts) :
    u.capPass.p = (if 400 < u.p then u.p - 25 else u.p) ∧ u.capPass.under = 0 := by
  rw [Power.capPass, if_neg hcap, if_pos h]
  exact ⟨rfl, rfl⟩

theorem capPass_counts (h : u.watts + 2000 < u.cap) (hu : u.under < 99) : u.capPass.p = u.p ∧ u.capPass.under = u.under + 1 := by
  rw [Power.capPass, if_neg hcap, if_neg (by omega), if_pos h, if_neg (by omega)]
  exact ⟨rfl, rfl⟩

theorem capPass_raises (h : u.watts + 2000 < u.cap) (hu : 99 ≤ u.under) (hp : u.p < 1600) :
    u.capPass.p = u.p + 25 ∧ u.capPass.under = 0 := by
  rw [Power.capPass, if_neg hcap, if_neg (by omega), if_pos h, if_pos ⟨hu, hp⟩]
  exact ⟨rfl, rfl⟩

theorem capPass_holds (h : u.watts ≤ u.cap) (hnear : u.cap ≤ u.watts + 2000) : u.capPass.p = u.p ∧ u.capPass.under = 0 := by
  rw [Power.capPass, if_neg hcap, if_neg (by omega), if_neg (by omega)]
  exact ⟨rfl, rfl⟩

end

/-- The state that has taken the device's power and its sectors'. -/
def State.metered (s : State) (w : Nat) (l : List (BitVec 32)) : State :=
  (List.range (min 8 l.length)).foldl (fun s i => State.sense s (17 + i) (l.getD i 0).toNat) (s.sense 16 w)

theorem metered_rest (s : State) (w : Nat) (l : List (BitVec 32)) : s.metered w l = { s with power := (s.metered w l).power } := by
  have h := foldl_only_power (f := fun s i => State.sense s (17 + i) (l.getD i 0).toNat) (fun _ _ => rfl)
    (List.range (min 8 l.length)) (s.sense 16 w)
  exact h

theorem metered_power (s : State) (w : Nat) (l : List (BitVec 32)) : (s.metered w l).power.p = s.power.p ∧
    (s.metered w l).power.cap = s.power.cap ∧ (s.metered w l).power.under = s.power.under ∧
    tget 0 (s.metered w l).power.now 16 = w := by
  have h := foldl_keeps (fun s : State => (s.power.p, s.power.cap, s.power.under, tget 0 s.power.now 16))
    (f := fun s i => State.sense s (17 + i) (l.getD i 0).toNat) (fun s i => by
      simp only [State.sense]
      rw [tget_tset_ne _ _ (by omega)]) (List.range (min 8 l.length)) (s.sense 16 w)
  have h16 : tget 0 (s.sense 16 w).power.now 16 = w := tget_tset_same ..
  simp only [Prod.mk.injEq, h16] at h
  exact h

/-- After boot an update of the power is the readings and one pass of the loop. -/
theorem powerCapUpdate_passes {s : State} (hready : s.boot.ready = true) (w : BitVec 32) (l : List (BitVec 32)) {u : Power}
    (hu : u = { (s.metered w.toNat l).power with watts := w.toNat }) :
    ∃ t, exec (.powerCapUpdate w l) s = .next t ∧ t = { s with power := t.power } ∧
      ∃ sticky, t.power =
        { u.capPass with capUnmet := decide (u.cap < u.watts) && u.capPass.p == 400, sticky := sticky } := by
  have hm : (s.metered w.toNat l).boot.ready = true := by rw [metered_rest]; exact hready
  have hexec : exec (.powerCapUpdate w l) s = .next (pmStick { s.metered w.toNat l with
      power := { (if !(s.metered w.toNat l).boot.ready then u else u.capPass) with
        capUnmet := decide (u.cap < u.watts) && (if !(s.metered w.toNat l).boot.ready then u else u.capPass).p == 400
          && (s.metered w.toNat l).boot.ready } }
      ((if (if !(s.metered w.toNat l).boot.ready then u else u.capPass).p < u.p then 1 else 0) |||
        (if decide (u.cap < u.watts) && (if !(s.metered w.toNat l).boot.ready then u else u.capPass).p == 400
          && (s.metered w.toNat l).boot.ready then 2 else 0))) := by
    subst hu; rfl
  simp only [hm, Bool.not_true, Bool.false_eq_true, if_false, Bool.and_true] at hexec
  exact ⟨_, hexec, only_power_trans (metered_rest s w.toNat l) rfl, _, rfl⟩

/-! ## The thermal loop (R481, R482) -/

theorem tget_foldl_tset_of_key {α : Type} [DecidableEq α] (d : α) (v : Nat → α) (k : Nat) : ∀ (es : List Nat) (t : Tab α),
    tget d (es.foldl (fun t e => tset d t e (v e)) t) k = if k ∈ es then v k else tget d t k
  | [], _ => by simp
  | e :: es, t => by
    rw [List.foldl_cons, tget_foldl_tset_of_key d v k es, tget_tset]
    by_cases he : k = e
    · simp [he]
    · simp [he]

/-- The state that has taken the reading of sensor `k`, the sensor of a sector from 0 to 7. -/
def State.felt (temps : List (BitVec 16)) (s : State) (k : Nat) : State :=
  if k < 8 then (State.sense s k (temps.getD k 0).toInt).updSector k fun x => { x with temp := (temps.getD k 0).toInt }
  else State.sense s k (temps.getD k 0).toInt

theorem felt_now (temps : List (BitVec 16)) (s : State) (k : Nat) :
    (s.felt temps k).power.now = tset 0 s.power.now k (temps.getD k 0).toInt := by
  unfold State.felt
  split <;> rfl

theorem foldl_felt_now (temps : List (BitVec 16)) (ks : List Nat) (s : State) : (ks.foldl (State.felt temps) s).power.now =
    ks.foldl (fun t k => tset 0 t k (temps.getD k 0).toInt) s.power.now := by
  induction ks generalizing s with
  | nil => rfl
  | cons k ks ih => rw [List.foldl_cons, List.foldl_cons, ih, felt_now]

theorem foldl_felt_boot (temps : List (BitVec 16)) (ks : List Nat) (s : State) :
    (ks.foldl (State.felt temps) s).boot = s.boot ∧ (ks.foldl (State.felt temps) s).power.crit = s.power.crit := by
  have h := foldl_keeps (fun s : State => (s.boot, s.power.crit)) (f := State.felt temps)
    (fun s k => by unfold State.felt; split <;> rfl) ks s
  exact ⟨congrArg Prod.fst h, congrArg Prod.snd h⟩

/-- One pass of the loop for sector `n` writes that sector, and the sticky bits of the power manager, or nothing. -/
theorem thermal_cases (s0 s : State) (n : Nat) :
    s0.thermal s n = s ∨ (∃ f, s0.thermal s n = s.updSector n f) ∨ ∃ f bits, s0.thermal s n = pmStick (s.updSector n f) bits := by
  unfold State.thermal
  dsimp only
  split
  · exact .inl rfl
  · split
    · exact .inr (.inr ⟨_, _, rfl⟩)
    · split
      · split
        · exact .inr (.inl ⟨_, rfl⟩)
        · exact .inr (.inl ⟨_, rfl⟩)
      · exact .inr (.inl ⟨_, rfl⟩)

theorem thermal_rest (s0 s : State) (n : Nat) : s0.thermal s n =
    { s with sectors := (s0.thermal s n).sectors, power := { s.power with sticky := (s0.thermal s n).power.sticky } } := by
  rcases thermal_cases s0 s n with h | ⟨f, h⟩ | ⟨f, bits, h⟩ <;> rw [h] <;> rfl

theorem thermal_other (s0 s : State) {n m : Nat} (h : m ≠ n) : (s0.thermal s n).sector m = s.sector m := by
  have hupd (f : Sector → Sector) : (s.updSector n f).sector m = s.sector m := by rw [State.updSector_sector, if_neg h]
  rcases thermal_cases s0 s n with ht | ⟨f, ht⟩ | ⟨f, bits, ht⟩ <;> rw [ht]
  · exact hupd f
  · exact hupd f

/-- A live sector at its limit, or too far over a neighbour, loses 25 MHz of its ceiling, down to 400 MHz. -/
theorem thermal_hot (s0 s : State) {n : Nat} (hlive : (s0.sector n).live = true) (hsame : s.sector n = s0.sector n)
    (hhot : 16 * (s0.power.tjMax : Int) ≤ (s0.sector n).temp ∨ 480 < s0.tdiff n) :
    ((s0.thermal s n).sector n).limit =
        (if 400 < (s0.sector n).limit then (s0.sector n).limit - 25 else (s0.sector n).limit) ∧
      ((s0.thermal s n).sector n).limitBy =
        bit (decide (16 * (s0.power.tjMax : Int) ≤ (s0.sector n).temp)) + 2 * bit (decide (480 < s0.tdiff n)) := by
  have hlimit : (decide (16 * (s0.power.tjMax : Int) ≤ (s0.sector n).temp) || decide (480 < s0.tdiff n)) = true := by
    simpa using hhot
  simp only [State.thermal, hlive, hlimit, Bool.not_true, Bool.false_eq_true, if_false, if_true, decide_eq_true_eq]
  have hn := State.updSector_sector_same s n fun y =>
    { y with limit := if 400 < (s0.sector n).limit then y.limit - 25 else y.limit
             limitBy := bit (decide (16 * (s0.power.tjMax : Int) ≤ (s0.sector n).temp)) + 2 * bit (decide (480 < s0.tdiff n))
             okCount := 0 }
  rw [hsame] at hn
  exact ⟨congrArg Sector.limit hn, congrArg Sector.limitBy hn⟩

theorem foldl_thermal_rest (s0 : State) (ns : List Nat) (s : State) : ns.foldl s0.thermal s =
    { s with sectors := (ns.foldl s0.thermal s).sectors,
             power := { s.power with sticky := (ns.foldl s0.thermal s).power.sticky } } := by
  induction ns generalizing s with
  | nil => rfl
  | cons n ns ih =>
    rw [List.foldl_cons, ih, thermal_rest s0 s n]

theorem foldl_thermal_other (s0 : State) {m : Nat} : ∀ (ns : List Nat) (s : State), m ∉ ns →
    (ns.foldl s0.thermal s).sector m = s.sector m
  | [], _, _ => rfl
  | n :: ns, s, h => by
    rw [List.mem_cons, not_or] at h
    obtain ⟨hn, hns⟩ := h
    rw [List.foldl_cons, foldl_thermal_other s0 ns _ hns, thermal_other s0 s hn]

/-- Of all the passes the one of the sector itself decides. -/
theorem foldl_thermal_sector (s0 : State) {m : Nat} {ns : List Nat} {s : State} (hd : ns.Nodup) (hm : m ∈ ns)
    (hs : s.sector m = s0.sector m) :
    ∃ u : State, u.sector m = s0.sector m ∧ (ns.foldl s0.thermal s).sector m = (s0.thermal u m).sector m := by
  induction ns generalizing s with
  | nil => exact absurd hm List.not_mem_nil
  | cons n ns ih =>
    obtain ⟨hn, hns⟩ := List.nodup_cons.mp hd
    rw [List.foldl_cons]
    by_cases h : m = n
    · subst h
      exact ⟨s, hs, foldl_thermal_other s0 ns _ hn⟩
    · exact ih hns ((List.mem_cons.mp hm).resolve_left h) (by rw [thermal_other s0 s h, hs])

/-! ## The critical alarm (R482) -/

theorem pmStick_power (s : State) (bits : BitVec 32) :
    (pmStick s bits).power = { s.power with sticky := s.power.sticky ||| bits } := rfl

theorem pmStick_rest {s u : State} (h : u = { s with power := u.power, sectors := u.sectors }) (bits : BitVec 32) :
    pmStick u bits = { s with power := (pmStick u bits).power, sectors := (pmStick u bits).sectors } :=
  congrArg (fun v : State => { v with power := (pmStick u bits).power }) h

/-- The thermal ceiling of a sector falls to 400 MHz. -/
def Sector.cooled (x : Sector) : Sector := { x with limit := 400, limitBy := 1, okCount := 0 }

/-- A sensor 5 °C over the limit drops the ceiling of every sector. -/
theorem criticalAlarm_drops {s : State} (h : ∃ k, k < 11 ∧ 16 * ((s.power.tjMax : Int) + 5) ≤ tget 0 s.power.now k) :
    ∃ u : State, exec .criticalAlarm s = .next (pmStick u 0x20) ∧ u.power = { s.power with crit := true } ∧
      u = { s with power := u.power, sectors := u.sectors } ∧ ∀ n, n < 8 → u.sector n = (s.sector n).cooled := by
  obtain ⟨a, ha⟩ : ∃ a : State, a = { s with power := { s.power with crit := true } } := ⟨_, rfl⟩
  have hhot : (List.range 11).any (fun k => decide (16 * ((s.power.tjMax : Int) + 5) ≤ tget 0 s.power.now k)) = true := by
    simpa only [List.any_eq_true, List.mem_range, decide_eq_true_eq] using h
  refine ⟨(List.range 8).foldl (fun s n => State.updSector s n Sector.cooled) a, ?_, ?_, ?_, fun n hn => ?_⟩
  · subst ha
    exact if_neg (by simp only [hhot, Bool.not_true, Bool.false_eq_true, not_false_eq_true])
  · rw [foldl_keeps State.power (f := fun s n => State.updSector s n Sector.cooled) (fun _ _ => rfl), ha]
  · rw [foldl_updSector_sectors, ha]
  · rw [sector_foldl_updSector _ _ _ _ List.nodup_range, if_pos (List.mem_range.mpr hn), ha]
    rfl

theorem criticalClear_clears {s : State} (h : ∀ k, k < 11 → tget 0 s.power.now k ≤ 16 * ((s.power.tjMax : Int) - 3)) :
    exec .criticalClear s = .next { s with power := { s.power with crit := false } } := by
  refine congrArg _ (if_pos ?_)
  simpa only [List.all_eq_true, List.mem_range, decide_eq_true_eq] using h

/-- Settles O58. That no ceiling moves before READY (log 78), and how LIMIT_BY is kept (log 46), are the model's own choices. -/
theorem clocksFollowTheirCeilings : Obligations.ClocksFollowTheirCeilings := by
  intro s
  refine ⟨fun n => ⟨rfl, fun hstate hfree => ⟨clockStep_up hstate hfree, clockStep_down hstate hfree,
      clockStep_stays hstate hfree⟩⟩, fun w l hready => ?cap, fun temps => ?thermal, fun h => ?alarm, criticalClear_clears⟩
  case cap =>
    obtain ⟨u, hu⟩ : ∃ u : Power, u = { (s.metered w.toNat l).power with watts := w.toNat } := ⟨_, rfl⟩
    obtain ⟨t, hexec, hrest, sticky, hpower⟩ := powerCapUpdate_passes hready w l hu
    obtain ⟨hp, hcap, hunder, hnow⟩ := metered_power s w.toNat l
    have hup : s.power.p = u.p := by rw [hu, ← hp]
    have hucap : s.power.cap = u.cap := by rw [hu, ← hcap]
    have huunder : s.power.under = u.under := by rw [hu, ← hunder]
    have huwatts : w.toNat = u.watts := by rw [hu]
    have hunow : tget 0 u.now 16 = w.toNat := by rw [hu, ← hnow]
    have hcapU : t.power.capUnmet = (decide (u.cap < u.watts) && t.power.p == 400) := by rw [hpower]
    have hpU : t.power.p = u.capPass.p := by rw [hpower]
    have hunderU : t.power.under = u.capPass.under := by rw [hpower]
    rw [capPass_rest] at hpower
    refine ⟨t, hexec, by rw [hpower, huwatts], hrest, by rw [hpower, hucap], by rw [hpower]; exact hunow, ?_⟩
    rw [hup, hucap, huunder, huwatts, hpU, hunderU]
    exact ⟨by rw [hcapU, hpU], capPass_none, capPass_over, capPass_counts, capPass_raises, capPass_holds⟩
  case thermal =>
    intro u warn v
    have hfold : (List.range (min 11 temps.length)).foldl (State.felt temps) s = u := rfl
    obtain ⟨hboot, hcrit⟩ := foldl_felt_boot temps (List.range (min 11 temps.length)) s
    rw [hfold] at hboot hcrit
    have hvboot : v.boot = s.boot := by rw [← hboot]; exact apply_ite State.boot .. |>.trans (ite_self _)
    have hvcrit : v.power.crit = s.power.crit := by rw [← hcrit]; exact apply_ite (fun s : State => s.power.crit) .. |>.trans (ite_self _)
    have hexec : exec (.thermalUpdate temps) s =
        .next (if !v.boot.ready || v.power.crit then v else (List.range 8).foldl v.thermal v) := by
      have hv : (if u.power.tjWarn != 0 && warn then pmStick u 0x10 else u) = v := if_congr (by simp) rfl rfl
      rw [← hv]
      rfl
    rw [hvboot, hvcrit] at hexec
    refine ⟨fun k hk hlen => ?_, fun h => ?_, fun hready hc => ?_⟩
    · rw [← hfold, foldl_felt_now, tget_foldl_tset_of_key, if_pos (List.mem_range.mpr (by omega))]
    · rw [hexec, if_pos (by rcases h with h | h <;> simp [h])]
    · rw [hready, hc] at hexec
      refine ⟨_, hexec, foldl_thermal_rest v _ v, fun n hn hlive hhot => ?_⟩
      obtain ⟨w, hw, hsector⟩ := foldl_thermal_sector v (s := v) (List.nodup_range (n := 8)) (List.mem_range.mpr hn) rfl
      simp only [Bool.not_true, Bool.false_or, Bool.false_eq_true, if_false, hsector]
      exact thermal_hot v w hlive hw hhot
  case alarm =>
    obtain ⟨u, hexec, hpower, hrest, hsector⟩ := criticalAlarm_drops h
    exact ⟨_, hexec, by rw [pmStick_power, hpower], pmStick_rest hrest _, hsector⟩

end Sys2Proof.Machine
end


section
/-!
SUPPORT. Device reset, its release, and the stages of boot; with the statement about them (O59).
-/
namespace Sys2Proof.Machine

/-! ## Device reset (R488, R520, R523) -/

theorem resetRelease_starts {s : State} {b : BoardIn} (hheld : s.boot.held = true) (hrails : b.rails = true) (hrst : b.rstN = true)
    (htest : b.testEn = false) {t : State} (ht : t = b.flash.foldl (fun s e => State.flashWrite s e.1.toNat e.2) s) :
    exec (.resetRelease b) s = .next { t with smbAddr := b.smb, boot := { t.boot with held := false, status := 0 } } := by
  subst ht
  exact if_neg (by simp [hheld, hrails, hrst, htest])

/-! ## The stages of boot (R489 to R506) -/

section
variable {s : State} {e : BootIn} (hheld : s.boot.held = false) (hready : s.boot.ready = false)
include hheld hready

/-- A stage that runs is neither held in reset nor complete. -/
theorem bootStage_runs : ¬(s.boot.held ∨ s.boot.ready) := by simp [hheld, hready]

section
variable (hst : s.boot.status = 0)
include hst

theorem bootStage0_halts (hf : e.fuses = false) : exec (.bootStage e) s = .next (s.bootHalt 0x8005) := by
  rw [exec, execBootStage, if_neg (bootStage_runs hheld hready), hst]
  simp [hf]

theorem bootStage0_passes (hf : e.fuses = true) (htap : s.tap.instr = .idcode ∨ s.tap.instr = .bypass) :
    exec (.bootStage e) s = .next (s.setBoot { s.boot with status := 1 }) := by
  rw [exec, execBootStage, if_neg (bootStage_runs hheld hready), hst]
  simp [hf, htap, State.updBoot, State.setBoot]

end

theorem bootStage1_passes (hst : s.boot.status = 1) (hw : e.calW = true) (he : e.calE = true) :
    exec (.bootStage e) s = .next (s.setBoot { s.boot with status := 2 }) := by
  rw [exec, execBootStage, if_neg (bootStage_runs hheld hready), hst]
  simp [hw, he, State.updBoot, State.setBoot]

section
variable (hst : s.boot.status = 2)
include hst

theorem bootStage2_halts (h : e.selfTest.val ≠ 0) : exec (.bootStage e) s = .next (s.bootHalt (0x8000 + e.selfTest.val)) := by
  rw [exec, execBootStage, if_neg (bootStage_runs hheld hready), hst]
  exact if_pos h

theorem bootStage2_passes (h : e.selfTest.val = 0) {t : State}
    (ht : t = e.badTiles.foldl (fun s p => State.failTile s p.val) s) :
    exec (.bootStage e) s = .next (t.setBoot { t.boot with status := 3 }) := by
  subst ht
  rw [exec, execBootStage, if_neg (bootStage_runs hheld hready), hst]
  exact if_neg (not_not.mpr h)

end

section
variable (hst : s.boot.status = 3)
include hst

theorem bootStage3_noFlash (h : e.flash = false ∨ s.tap.drives = true) : exec (.bootStage e) s = .next (s.bootHalt 0x8201) := by
  rw [exec, execBootStage, if_neg (bootStage_runs hheld hready), hst]
  exact if_pos (by simpa using h)

variable (hf : e.flash = true) (hcut : s.tap.drives = false)
include hf hcut

theorem bootStage3_badProfile (h : e.profile = false) : exec (.bootStage e) s = .next (s.bootHalt 0x8202) := by
  rw [exec, execBootStage, if_neg (bootStage_runs hheld hready), hst]
  exact (if_neg (by simp [hf, hcut])).trans (if_pos (by simp [h]))

theorem bootStage3_passes (h : e.profile = true) : exec (.bootStage e) s =
    .next (s.setBoot { s.boot with pref := s.preferred.1, ctrlValid := s.preferred.2, status := 4 + s.preferred.1 }) := by
  rw [exec, execBootStage, if_neg (bootStage_runs hheld hready), hst]
  exact (if_neg (by simp [hf, hcut])).trans (if_neg (by simp [h]))

end

/-- Stages 4 and 5 verify a slot: it becomes active, or it fails. -/
theorem bootStage45_verifies {x : Nat} (hx : x < 2) (hst : s.boot.status = 4 + x) {why : Nat}
    (hwhy : why = if e.slot = false ∨ s.tap.drives = true then 1 else verifyReason s.fuses (s.slotImage x)) :
    exec (.bootStage e) s = .next (if why = 0 then s.setBoot { s.boot with active := x, status := 6 } else s.slotFails x why) := by
  have hwhy' : (if !e.slot ∨ s.tap.drives then 1 else verifyReason s.fuses (s.slotImage x)) = why := by
    rw [hwhy]
    exact if_congr (by simp) rfl rfl
  have hslot : exec (.bootStage e) s = if why ≠ 0 then .next (s.slotFails x why)
      else .next (s.updBoot fun b => { b with active := x, status := 6 }) := by
    rw [exec, execBootStage, if_neg (bootStage_runs hheld hready), hst, ← hwhy']
    obtain rfl | rfl : x = 0 ∨ x = 1 := by omega
    all_goals simp only [Nat.add_zero, Nat.reduceAdd, Nat.sub_self, Nat.reduceSub]
  rw [hslot]
  by_cases h0 : why = 0
  · rw [if_neg (not_not.mpr h0), if_pos h0]
    rfl
  · rw [if_pos h0, if_neg h0]

theorem bootStage6_loads (hst : s.boot.status = 6) {i : List Byte} (hi : i = s.slotImage s.boot.active) (hslot : e.slot = true)
    (hcut : s.tap.drives = false) {t : State} (ht : t = s.loadSections i (loadReason i).2) :
    exec (.bootStage e) s = .next (if (loadReason i).1 = 0
      then t.setBoot { t.boot with status := 7, reason := t.boot.reason.setIfInBounds t.boot.active 0 }
      else s.slotFails s.boot.active (loadReason i).1) := by
  have hgo : exec (.bootStage e) s = if (loadReason i).1 ≠ 0 then .next (s.slotFails s.boot.active (loadReason i).1)
      else .next (t.updBoot fun b => { b with status := 7, reason := b.reason.setIfInBounds b.active 0 }) := by
    rw [exec, execBootStage, if_neg (bootStage_runs hheld hready), hst]
    simp only [hslot, hcut, Bool.not_true, Bool.false_eq_true, or_self, if_false, ← hi, ht]
  rw [hgo]
  by_cases h0 : (loadReason i).1 = 0
  · rw [if_neg (not_not.mpr h0), if_pos h0]
    rfl
  · rw [if_pos h0, if_neg h0]

theorem bootStage7_programs (hst : s.boot.status = 7) : exec (.bootStage e) s = .next (s.programFuses e) := by
  rw [exec, execBootStage, if_neg (bootStage_runs hheld hready), hst]
  rfl

section
variable (hst : s.boot.status = 8)
include hst

theorem bootStage8_halts (h : e.firmware = false) : exec (.bootStage e) s = .next (s.bootHalt 0x8401) := by
  rw [exec, execBootStage, if_neg (bootStage_runs hheld hready), hst]
  simp [h]

theorem bootStage8_completes (h : e.firmware = true) : exec (.bootStage e) s = .next s.bootComplete := by
  rw [exec, execBootStage, if_neg (bootStage_runs hheld hready), hst]
  simp [h]

end

end

/-! ## The completed boot (R412 to R414, R476) -/

/-- The lane table records enter their lanes. -/
def State.tabled (s : State) : State :=
  (List.range (s.boot.lanes.length / 24)).foldl (fun s i => State.laneTable s (laneRecord s.boot.lanes i)) s

/-- The ceilings of the sectors rise. -/
def State.unceiled (s : State) : State :=
  (List.range 8).foldl (fun s i =>
    State.updSector s i fun x => { x with clkMax := s.boot.clocks.getD i 1600, limit := 1600 }) s

/-- The end of a completed boot: lane tables, and the ceilings of the clocks. -/
def State.raised (s : State) : State :=
  { s.tabled.unceiled with power := { s.tabled.unceiled.power with p := 1600 } }

theorem bootComplete_eq (s : State) :
    ∃ u : State, s.bootComplete = u.raised ∧ u.boot.ready = true ∧ u.boot.nonce.length = 32 ∧ u.flash = s.flash :=
  ⟨_, rfl, rfl, length_leBytes .., rfl⟩

theorem tabled_keeps (s : State) : (s.tabled.boot, s.tabled.flash) = (s.boot, s.flash) :=
  foldl_keeps (fun s : State => (s.boot, s.flash)) (f := fun s i => State.laneTable s (laneRecord s.boot.lanes i))
    (fun _ _ => rfl) (List.range (s.boot.lanes.length / 24)) s

theorem unceiled_keeps (s : State) : (s.unceiled.boot, s.unceiled.flash) = (s.boot, s.flash) :=
  foldl_keeps (fun s : State => (s.boot, s.flash))
    (f := fun s i => State.updSector s i fun x => { x with clkMax := s.boot.clocks.getD i 1600, limit := 1600 })
    (fun _ _ => rfl) (List.range 8) s

theorem raised_keeps (s : State) : s.raised.boot = s.boot ∧ s.raised.flash = s.flash := by
  have h := (unceiled_keeps s.tabled).trans (tabled_keeps s)
  exact ⟨congrArg Prod.fst h, congrArg Prod.snd h⟩

theorem foldl_raises_limit {n : Nat} (ns : List Nat) {s : State} (h : n ∈ ns ∨ (s.sector n).limit = 1600) :
    ((ns.foldl (fun s i => State.updSector s i fun x => { x with clkMax := s.boot.clocks.getD i 1600, limit := 1600 }) s).sector
      n).limit = 1600 := by
  induction ns generalizing s with
  | nil => exact h.resolve_left List.not_mem_nil
  | cons i ns ih =>
    rw [List.foldl_cons]
    refine ih ?_
    by_cases hi : n = i
    · subst hi
      rw [State.updSector_sector_same]
      exact .inr rfl
    · rw [State.updSector_sector, if_neg hi]
      exact h.imp_left fun h => (List.mem_cons.mp h).resolve_left hi

theorem sector_of_power (u : State) (w : Power) (n : Nat) : ({ u with power := w } : State).sector n = u.sector n := rfl

theorem raised_limit (s : State) {n : Nat} (hn : n < 8) : (s.raised.sector n).limit = 1600 := by
  rw [State.raised, sector_of_power, State.unceiled]
  exact foldl_raises_limit _ (.inl (List.mem_range.mpr hn))

/-- Settles O59. What outlasts a reset (log 79) and how a stage ends in the next (log 80) are the model's own choices. -/
theorem resetAndBootStages : Obligations.ResetAndBootStages := by
  intro s
  refine ⟨⟨s.deviceReset, rfl, rfl, rfl, rfl, rfl, rfl, rfl, rfl, rfl, rfl, rfl, rfl, rfl⟩,
    fun b hheld hrails hrst htest => resetRelease_starts hheld hrails hrst htest rfl,
    fun e hheld hready => ⟨fun hst => ⟨bootStage0_halts hheld hready hst, bootStage0_passes hheld hready hst⟩,
      bootStage1_passes hheld hready,
      fun hst => ⟨bootStage2_halts hheld hready hst, fun h t => bootStage2_passes hheld hready hst h⟩,
      fun hst => ⟨bootStage3_noFlash hheld hready hst, bootStage3_badProfile hheld hready hst, bootStage3_passes hheld hready hst⟩,
      fun x hx hst => bootStage45_verifies hheld hready hx hst rfl,
      fun i hst hi hslot hcut => bootStage6_loads hheld hready hst hi hslot hcut rfl,
      bootStage7_programs hheld hready,
      fun hst => ⟨bootStage8_halts hheld hready hst, fun hfw => ?complete⟩⟩,
    fun code => ⟨rfl, rfl, rfl⟩, rfl⟩
  case complete =>
    obtain ⟨u, hu, hr, hnonce, hflash⟩ := bootComplete_eq s
    obtain ⟨hboot, hflash'⟩ := raised_keeps u
    refine ⟨_, bootStage8_completes hheld hready hst hfw, ?_, ?_, ?_, fun n hn => ?_, s.bootComplete_fuses, ?_⟩
    · rw [hu, hboot, hr]
    · rw [hu, hboot, hnonce]
    · rw [hu]; rfl
    · rw [hu, raised_limit u hn]
    · rw [hu, hflash', hflash]

end Sys2Proof.Machine
end


section
/-!
SUPPORT. Why the end of a recovery can touch a task of another partition in a state whose table of tasks is not canonical; with
the statement about recovery (O55).
-/
namespace Sys2Proof.Machine

/-- Partition 0 is about to resume. Its table lists task 5 twice: an armed task of partition 3, which is what a read of the task
finds, and behind it one of partition 0, for which the task counts as partition 0's too. -/
def resumingOverTwice : State :=
  { tasks := [(5, { st := { ctrl := 0x03000000#32 }, state := .armed }), (5, { st := { ctrl := 0#32 } })]
    recovery := [(0, some { phase := 5 })] }

/-- The state of task 5 after a row. -/
def task5After : Host.Outcome State Fault Refusal → Option TaskState
  | .next t => some (t.task 5).state
  | _ => none

/-- The resumption makes the task idle. -/
theorem resume_idles_task : task5After (exec (.recoveryResume 0) resumingOverTwice) = some .idle := by decide +kernel

/-- Refutes O55: its clause on the tasks of other partitions is not limited to a canonical table of tasks, as the one on the
partition's own tasks is. In `resumingOverTwice` task 5 reads as partition 3's and the resumption of partition 0 resets it. -/
theorem not_recoveryRunsItsPhases : ¬ Obligations.RecoveryRunsItsPhases := by
  intro h
  obtain ⟨-, -, -, hphases⟩ := h resumingOverTwice 0 { cls := 2, part := 0, source := 0 }
  obtain ⟨-, -, -, -, -, hresume⟩ := hphases { phase := 5 } rfl
  obtain ⟨t, hexec, -, -, -, hothers, -⟩ := hresume rfl
  have htask : t.task 5 = resumingOverTwice.task 5 := hothers 5 (by decide)
  have hidle := resume_idles_task
  rw [hexec, task5After, htask] at hidle
  exact absurd hidle (by decide)

end Sys2Proof.Machine
end


section
/-!
SUPPORT. The work of the security commands: enrolment and rekeying, attestation, MACsec keys, debug unlock, field update; with the
statement about them (O54).
-/
namespace Sys2Proof.Machine

/-! ## Operations of the security engine (R430) -/

/-- An operation whose work, once its descriptor can be used, takes its data and runs in a slot of its bank is a row of the engine;
what it does there is never to go on waiting unchanged. -/
theorem engineRow_of_body {row : Recip → Instr} {op : Nat} {bank : CmdRec → Nat} {d : CmdRec → Desc} {n : CmdRec → Nat}
    {ok : CmdRec → State → Prop} {work : CmdRec → List Byte → State → CmdOut} (body : CmdRec → CmdIn → State → CmdOut)
    (hrow : ∀ r s, exec (row r) s = .next (s.runCommand r (· == op) body))
    (htaken : ∀ (b : State) c auth, bank (b.taken c auth) = bank c ∧ d (b.taken c auth) = d c ∧ n (b.taken c auth) = n c ∧
      ∀ z, ok c z → ok (b.taken c auth) z)
    (hbody : ∀ c i z, ok c z → z.descReady c (d c) (n c) false → i.progress = [] →
      body c i z = withInput c i (d c) (n c) z fun data w => whenSlot (bank c) data w (work c data))
    (hmoved : ∀ c data z, (work c data z).moved (.engine data) z = true) : engineRow row op bank d n ok work := by
  intro s r
  refine ⟨fun c rest auth h hok => ?starts, fun x data h hok hready hslot => ?goesOn⟩
  case starts =>
    obtain ⟨hbank, hd, hn, hok'⟩ := htaken (s.begun r c rest auth) c auth
    refine takesInput_of_withInput (hrow r s) h fun hready => ?_
    have hb := hbody ((s.begun r c rest auth).taken c auth) {} (s.begun r c rest auth) (hok' _ hok) (by rw [hd, hn]; exact hready) rfl
    rw [hbank, hd, hn] at hb
    exact hb
  case goesOn =>
    have hb := hbody x.cmd { wait := some (.engine data) } (s.without x) hok hready rfl
    rw [withInput_held _ rfl, whenSlot_now _ hslot] at hb
    rw [hrow, runCommand_waited h nofun body (by rw [hb]; exact hmoved ..), hb]

/-- A command that waited goes on waiting for something else. -/
theorem exec_stays {i : Instr} {s : State} {r : Recip} {op : Nat} {body : CmdRec → CmdIn → State → CmdOut} {x : Running}
    {p q : List Nat} {t : State} (hrow : exec i s = .next (s.runCommand r (· == op) body)) (h : s.Resumes r x op p) (hne : q ≠ p)
    (hbody : body x.cmd { wait := some (.again p) } (s.without x) = .wait (.again q) t) :
    exec i s = .next (s.stays x (.again q) t) := by
  rw [hrow, runCommand_resumes h body (by rw [hbody]; simp [CmdOut.moved, hne]), hbody]
  rfl

/-! ## Enrolment and rekeying (R369, R400, R418 to R421) -/

/-- The work of OWNER_ENROLL on its request. -/
def enrolWork (k : CmdRec) (data : List Byte) (z : State) : CmdOut :=
  let st := z.enrolStatus k.stamp data
  let y := z.keyExchange 1 k.stamp data (slice data 153 97) (slice data 250 1184) []
  let o := y.2.written k (k.desc 32) y.1.1
  let pq := (num data 1 1).testBit 0
  let w := o.2.installSession k.stamp { o.2.role k.stamp with
    session := some y.1.2
    ownerHash := Config.sha384 (slice data 56 97 ++ if pq then slice data 1434 1952 else [])
    pqsig := pq
    ecPub := slice data 56 97
    pqPub := if pq then slice data 1434 1952 else [] }
  if st ≠ stOk then .reply st [] z
  else if o.1 = false then .reply stPoison [] o.2
  else .reply stOk [] (if k.stamp < 16 then w.setPart k.stamp { w.part k.stamp with state := 2 } else w)

/-- What OWNER_ENROLL asks of its parameters and its role. -/
def enrolOk (k : CmdRec) (z : State) : Prop :=
  k.stray [(16, 32)] = false ∧ (k.desc 16).rsv = 0 ∧ (k.desc 32).rsv = 0 ∧ 6791 ≤ (k.desc 16).len ∧ 4678 ≤ (k.desc 32).len ∧
    z.descReady k (k.desc 32) 4678 true ∧ (z.role k.stamp).session = none ∧ z.partBusy k.stamp = false ∧ z.enrolling k.stamp = false

theorem enrolWork_moved (k : CmdRec) (data : List Byte) (z : State) : (enrolWork k data z).moved (.engine data) z = true := by
  unfold enrolWork
  dsimp only
  split_ifs <;> rfl

theorem bodyOwnerEnroll_takes {c : CmdRec} {i : CmdIn} {z : State} (hok : enrolOk c z) (h : z.descReady c (c.desc 16) 6791 false) :
    bodyOwnerEnroll c i z = withInput c i (c.desc 16) 6791 z fun data w => whenSlot c.stamp data w (enrolWork c data) := by
  obtain ⟨hst, hrd, hre, hld, hle, he, hsession, hbusy, henrolling⟩ := hok
  have hld0 : (c.desc 16).len ≠ 0 := by omega
  have hle0 : (c.desc 32).len ≠ 0 := by omega
  rw [bodyOwnerEnroll, checked_none (by
      simp [firstFail, hst, hrd, hre, hld0, hle0, Desc.short, Nat.not_lt.mpr hld, Nat.not_lt.mpr hle, spaceBad_of_descReady h,
        spaceBad_of_descReady he, descFails_of_descReady h, descFails_of_descReady he, descTags_of_descReady h,
        descTags_of_descReady he, hsession, hbusy, henrolling]),
    whenDesc_of_descReady h, whenDesc_of_descReady he]
  congr 1
  funext data w
  congr 1
  funext u
  simp only [enrolWork, output_written hle0, Bool.not_eq_true', State.updPart]

/-- The work of SESSION_REKEY on its request. -/
def rekeyWork (k : CmdRec) (data : List Byte) (z : State) : CmdOut :=
  match (z.role k.stamp).session with
  | none => .reply stAuth [] z
  | some x =>
    let st := rekeyStatus (z.role k.stamp) x data
    let y := z.keyExchange 2 k.stamp data (slice data 40 97) (slice data 137 1184) x.prk
    let o := y.2.written k (k.desc 32) y.1.1
    if st ≠ stOk then .reply st [] z
    else if o.1 = false then .reply stPoison [] o.2
    else .reply stOk [] (o.2.installSession k.stamp { z.role k.stamp with session := some y.1.2 })

/-- What SESSION_REKEY asks of its parameters and its role. -/
def rekeyOk (k : CmdRec) (z : State) : Prop :=
  k.stray [(16, 32)] = false ∧ (k.desc 16).rsv = 0 ∧ (k.desc 32).rsv = 0 ∧ 4726 ≤ (k.desc 16).len ∧ 4678 ≤ (k.desc 32).len ∧
    z.descReady k (k.desc 32) 4678 true ∧ z.partBusy k.stamp = false

theorem rekeyWork_moved (k : CmdRec) (data : List Byte) (z : State) : (rekeyWork k data z).moved (.engine data) z = true := by
  unfold rekeyWork
  split
  · rfl
  · dsimp only
    split_ifs <;> rfl

theorem bodySessionRekey_takes {c : CmdRec} {i : CmdIn} {z : State} (hok : rekeyOk c z) (h : z.descReady c (c.desc 16) 4726 false) :
    bodySessionRekey c i z = withInput c i (c.desc 16) 4726 z fun data w => whenSlot c.stamp data w (rekeyWork c data) := by
  obtain ⟨hst, hrd, hre, hld, hle, he, hbusy⟩ := hok
  have hld0 : (c.desc 16).len ≠ 0 := by omega
  have hle0 : (c.desc 32).len ≠ 0 := by omega
  rw [bodySessionRekey, checked_none (by
      simp [firstFail, hst, hrd, hre, hld0, hle0, Desc.short, Nat.not_lt.mpr hld, Nat.not_lt.mpr hle, spaceBad_of_descReady h,
        spaceBad_of_descReady he, descFails_of_descReady h, descFails_of_descReady he, descTags_of_descReady h,
        descTags_of_descReady he, hbusy]),
    whenDesc_of_descReady h, whenDesc_of_descReady he]
  congr 1
  funext data w
  congr 1
  funext u
  unfold rekeyWork
  cases hsess : (u.role c.stamp).session <;> simp only [output_written hle0, Bool.not_eq_true', hsess]

/-! ## Attestation (R397, R426, R427) -/

/-- The bytes of the report that are written: the certificates only where they fit. -/
def reportLen (k : CmdRec) (z : State) : Nat :=
  if (k.desc 48).len < 4460 + z.certificates.length then 4460 else 4460 + z.certificates.length

/-- The report, signed and written. -/
def reportSent (k : CmdRec) (body : List Byte) (z : State) : CmdOut :=
  let o := ({ z with drawn := z.drawn + 2 } : State).written k (k.desc 48)
    ((body ++ padTo 96 (Config.ecdsaSign dakEc body z.drawn) ++ padTo 3309 (Config.pqSign dakPqSeed body (z.drawn + 1))
      ++ leBytes 3 0 ++ leBytes 4 z.certificates.length ++ z.certificates).take (reportLen k z))
  .reply (if o.1 then stOk else stPoison) (if o.1 then resultOf [(14, 4, 4460 + z.certificates.length)] else []) o.2

section
variable {c : CmdRec} {z : State} (hlen : 4460 ≤ (c.desc 48).len) (h : z.descReady c (c.desc 48) (reportLen c z) true)
include h

/-- The range of the report can be written at once. -/
theorem report_reaches : ¬((c.desc 48).space = 1 ∧ z.rangeAt c.stamp (c.desc 48).addr (reportLen c z) true = 2) := by
  rcases h with ⟨hd, -⟩ | ⟨-, hr, -⟩ <;> omega

theorem attestWrite_waits (hslot : z.secSlot ≠ c.stamp) (body : List Byte) :
    attestWrite c body z = .wait (.again (body.map (·.toNat))) z := by
  have hreach := report_reaches h
  unfold reportLen at hreach
  rw [attestWrite, if_neg hreach, if_pos hslot]

include hlen

theorem attestWrite_sends (hslot : z.secSlot = c.stamp) (body : List Byte) : attestWrite c body z = reportSent c body z := by
  have hreach := report_reaches h
  unfold reportLen at hreach
  have hlen0 : (c.desc 48).len ≠ 0 := by omega
  rw [attestWrite, if_neg hreach, if_neg (not_not.mpr hslot)]
  simp only [replyWith_written hlen0, State.draw]
  rfl

theorem bodyAttest_begins (hrsv : (c.desc 48).rsv = 0) (i : CmdIn) (hi : i.progress = []) :
    bodyAttest c i z = attestWrite c (z.reportBody c.stamp (c.sub 16 32)) z := by
  have hfails := descFails_of_descReady h
  unfold reportLen at hfails
  unfold bodyAttest
  rw [hi]
  exact checked_none (by
    simp [firstFail, hrsv, Desc.short, Nat.not_lt.mpr hlen, spaceBad_of_descReady h, hfails, descTags_of_descReady h]) _ _

end

theorem bodyAttest_goesOn {c : CmdRec} {z : State} {p : List Nat} (hp : p ≠ []) :
    bodyAttest c { wait := some (.again p) } z = attestWrite c (p.map (BitVec.ofNat 8)) z := by
  obtain ⟨a, p, rfl⟩ := List.exists_cons_of_ne_nil hp
  rfl

/-! ## MACsec keys (R398, R399, R428, R429) -/

/-- The work of KEY_LOAD on its wrapped block. -/
def keyWork (k : CmdRec) (data : List Byte) (z : State) : CmdOut :=
  match (z.role k.stamp).session with
  | none => .reply stAuth [] z
  | some x => match unwrapSak k x.kwrp data with
    | none => .reply stSignature [] z
    | some sak => .reply stOk [] (z.updLane (k.num 16 1) fun y =>
      { y with sa := tset none y.sa k.saIndex (some { key := padTo 32 sak, salt := k.sub 24 12, ssci := k.num 20 4 }) })

/-- The associations of the secure channel of KEY_LOAD that hold a key. -/
def heldSas (k : CmdRec) (z : State) : List Nat :=
  ((List.range 4).map fun a => 4 * k.num 17 1 + a).filter fun j => (tget none (z.lane (k.num 16 1)).sa j).isSome

/-- What KEY_LOAD asks of its parameters and its lane. -/
def keyOk (k : CmdRec) (z : State) : Prop :=
  k.stray [(16, 3), (20, 16), (48, 16)] = false ∧ (k.desc 48).rsv = 0 ∧ 80 ≤ (k.desc 48).len ∧ k.saBad = false ∧
    (z.lane (k.num 16 1)).owner = k.stamp ∧ ((heldSas k z).length < 2 ∨ (heldSas k z).contains k.saIndex = true)

theorem keyWork_moved (k : CmdRec) (data : List Byte) (z : State) : (keyWork k data z).moved (.engine data) z = true := by
  unfold keyWork
  split
  · rfl
  · split <;> rfl

theorem bodyKeyLoad_takes {c : CmdRec} {i : CmdIn} {z : State} (hok : keyOk c z) (h : z.descReady c (c.desc 48) 80 false) :
    bodyKeyLoad c i z = withInput c i (c.desc 48) 80 z fun data w => whenSlot c.stamp data w (keyWork c data) := by
  obtain ⟨hst, hrsv, hlen, hbad, howner, hroom⟩ := hok
  have hlen0 : (c.desc 48).len ≠ 0 := by omega
  have hfull : (decide (2 ≤ (heldSas c z).length) && !(heldSas c z).contains c.saIndex) = false := by
    rcases hroom with h | h
    · simp [Nat.not_le.mpr h]
    · rw [h, Bool.not_true, Bool.and_false]
  unfold heldSas at hfull
  rw [bodyKeyLoad, checked_none (by
      simp only [firstFail, hfull]
      simp [hst, hrsv, hlen0, hbad, Desc.short, Nat.not_lt.mpr hlen, spaceBad_of_descReady h, howner,
        descFails_of_descReady h, descTags_of_descReady h]),
    whenDesc_of_descReady h]
  rfl

section
variable {c : CmdRec} {z : State} (hst : c.stray [(16, 3)] = false) (hbad : c.saBad = false)
  (howner : (z.lane (c.num 16 1)).owner = c.stamp) (hheld : tget none (z.lane (c.num 16 1)).sa c.saIndex ≠ none)
include hst hbad howner hheld

/-- KEY_DESTROY erases its association in a slot of its bank. -/
theorem bodyKeyDestroy_eq (i : CmdIn) : bodyKeyDestroy c i z = whenSlot c.stamp [] z fun s =>
    .reply stOk [] (s.updLane (c.num 16 1) fun y => { y with sa := tset none y.sa c.saIndex none }) := by
  have hheld' : (tget none (z.lane (c.num 16 1)).sa c.saIndex).isNone = false := by
    simpa [Option.isSome_iff_ne_none] using hheld
  rw [bodyKeyDestroy, checked_none (by simp [firstFail, hst, hbad, howner, hheld'])]

end

/-! ## Debug unlock (R401, R438, R439) -/

/-- The work of DEBUG_UNLOCK on its token. -/
def unlockWork (_ : CmdRec) (data : List Byte) (z : State) : CmdOut :=
  if z.tokenStatus data = stOk then .wait (.again [1, num data 1 1]) z.unlockStart else .reply (z.tokenStatus data) [] z

theorem unlockWork_moved (k : CmdRec) (data : List Byte) (z : State) : (unlockWork k data z).moved (.engine data) z = true := by
  unfold unlockWork
  split
  · rfl
  · rfl

theorem bodyDebugUnlock_takes {c : CmdRec} {i : CmdIn} {z : State}
    (hok : c.stray [(16, 16)] = false ∧ (c.desc 16).rsv = 0 ∧ 6910 ≤ (c.desc 16).len) (h : z.descReady c (c.desc 16) 6910 false)
    (hi : i.progress = []) :
    bodyDebugUnlock c i z = withInput c i (c.desc 16) 6910 z fun data w => whenSlot 16 data w (unlockWork c data) := by
  obtain ⟨hst, hrsv, hlen⟩ := hok
  unfold bodyDebugUnlock
  rw [hi]
  dsimp only
  rw [checked_none (by
      simp [firstFail, hst, hrsv, Desc.short, Nat.not_lt.mpr hlen, spaceBad_of_descReady h, descFails_of_descReady h,
        descTags_of_descReady h]),
    whenDesc_of_descReady h]
  congr 1
  funext data w
  congr 1
  funext u
  simp only [unlockWork, ite_not]

/-- The tiles of the partitions that are not ABSENT. -/
def State.ownedTiles (s : State) : List Nat := (List.range 256).filter fun p => s.existing.contains (s.ownerOf p)

section
variable {c : CmdRec} {w : State} {scope : Nat}

/-- Once every stream has closed and the sectors are awake, the tiles are zeroized. -/
theorem bodyDebugUnlock_zeroizes (hstreams : ∀ z ∈ w.streams, z.2.state ≠ 3)
    (hbrew : ∀ n ∈ sectorsOf w.ownedTiles, (w.sector n).pstate = .brew) :
    bodyDebugUnlock c { wait := some (.again [1, scope]) } w =
      .wait (.again [2, scope]) (w.ownedTiles.foldl State.startZero w) := by
  have hopen : w.streams.any (fun z => z.2.state == 3) = false := by simpa using fun a b h => hstreams (a, b) h
  have hawake : (sectorsOf w.ownedTiles).all (fun n => (w.sector n).pstate == .brew) = true := by
    simpa [List.all_eq_true] using hbrew
  refine (if_neg (by rw [hopen]; exact Bool.false_ne_true)).trans ?_
  exact if_pos hawake

/-- Zeroizing tiles that are zeroized does nothing. -/
theorem wiped_of_zeroized {ps : List Nat} (h : ∀ p ∈ ps, (w.tile p).zres = 2 ∧ (w.tile p).zeroizing = false) :
    w.wiped ps = (true, w) := by
  have hfold : ps.foldl (fun s p => if (State.tile s p).zres = 0 ∧ (State.tile s p).fenced then s.startZero p else s) w = w := by
    induction ps with
    | nil => rfl
    | cons p ps ih =>
      obtain ⟨hz, -⟩ := h p List.mem_cons_self
      have hidle : ¬((w.tile p).zres = 0 ∧ (w.tile p).fenced) := fun h0 => by
        rw [hz] at h0
        exact absurd h0.1 (by decide)
      rw [List.foldl_cons, if_neg hidle]
      exact ih fun q hq => h q (List.mem_cons_of_mem _ hq)
  have hall : ps.all (fun p => (w.tile p).zres == 2 && !(w.tile p).zeroizing) = true := by
    simpa [List.all_eq_true] using h
  simp only [State.wiped, hfold, hall]

theorem bodyDebugUnlock_frees (hzero : ∀ p ∈ w.ownedTiles, (w.tile p).zres = 2 ∧ (w.tile p).zeroizing = false)
    (hdrain : ∀ n, n < 64 → (w.router n).draining = false) :
    bodyDebugUnlock c { wait := some (.again [2, scope]) } w = .wait (.again [3, scope])
      (w.existing.foldl State.destroyEnd ((w.setTileOwner w.ownedTiles 31).unforce (sectorsOf w.ownedTiles))) := by
  have hrouters : (List.range 64).any (fun r => (w.router r).draining) = false := by simpa using hdrain
  unfold bodyDebugUnlock
  simp only [CmdIn.progress]
  rw [← State.ownedTiles, wiped_of_zeroized hzero]
  simp only [hrouters]
  rfl

theorem bodyDebugUnlock_opens (hsettled : w.destroySettled = true) (hslot : w.secSlot = 16) :
    bodyDebugUnlock c { wait := some (.again [3, scope]) } w = .reply stOk [] (w.unlockEnd scope) := by
  unfold bodyDebugUnlock
  simp only [CmdIn.progress]
  exact if_pos ⟨hsettled, hslot⟩

theorem role_foldl_setRole {p : Nat} : ∀ (rs : List Nat) {s : State}, p ∈ rs ∨ s.role p = {} →
    (rs.foldl (fun s r => State.setRole s r {}) s).role p = {}
  | [], _, h => h.resolve_left List.not_mem_nil
  | r :: rs, s, h => by
    refine role_foldl_setRole rs ?_
    by_cases hr : p = r
    · subst hr
      exact .inr (State.setRole_role_same ..)
    · rw [State.setRole_role, if_neg hr]
      exact h.imp_left fun h => (List.mem_cons.mp h).resolve_left hr

theorem role_of_dbgAccess (u : State) (a : Debug) (p : Nat) : ({ u with dbgAccess := a } : State).role p = u.role p := rfl

/-- The unlock erases every role. -/
theorem unlockEnd_role (w : State) (scope : Nat) {p : Nat} (hp : p < 17) : (w.unlockEnd scope).role p = {} := by
  obtain ⟨u, hu⟩ : ∃ u : State, w.unlockEnd scope = { (List.range 17).foldl (fun s r => State.setRole s r {}) u with
      dbgAccess := { unlocked := true, tapOpen := scope.testBit 0, fwOpen := scope.testBit 1 } } := ⟨_, rfl⟩
  rw [hu, role_of_dbgAccess]
  exact role_foldl_setRole _ (.inl (List.mem_range.mpr hp))

end

/-! ## Field update (R402, R403, R509, R510) -/

/-- The work of FW_UPDATE_STAGE on its image. -/
def stageWork (k : CmdRec) (data : List Byte) (z : State) : CmdOut :=
  let st := reasonStatus (z.imageReason data)
  if st ≠ stOk then .reply st [] z
  else .wait (.again (1 :: (data.take (num data 32 4)).map (·.toNat))) ((z.updBoot fun x =>
    { x with staged := x.staged.setIfInBounds (k.num 16 1) false, staging := true }).flashErase (slotBase (k.num 16 1)) 67108864)

/-- What FW_UPDATE_STAGE asks of its parameters and the boot. -/
def stageOk (k : CmdRec) (z : State) : Prop :=
  k.stray [(16, 1), (24, 16)] = false ∧ (k.desc 24).rsv = 0 ∧ 0 < (k.desc 24).len ∧ (k.desc 24).len ≤ 67108864 ∧ k.num 16 1 ≤ 1 ∧
    k.num 16 1 ≠ z.boot.active ∧ z.boot.staging = false

theorem stageWork_moved (k : CmdRec) (data : List Byte) (z : State) : (stageWork k data z).moved (.engine data) z = true := by
  unfold stageWork
  dsimp only
  split_ifs <;> rfl

theorem bodyFwUpdateStage_takes {c : CmdRec} {i : CmdIn} {z : State} (hok : stageOk c z)
    (h : z.descReady c (c.desc 24) (c.desc 24).len false) (hi : i.progress = []) :
    bodyFwUpdateStage c i z = withInput c i (c.desc 24) (c.desc 24).len z fun data w => whenSlot 16 data w (stageWork c data) := by
  obtain ⟨hst, hrsv, hpos, hmax, hk, hactive, hstaging⟩ := hok
  have hlen0 : (c.desc 24).len ≠ 0 := by omega
  unfold bodyFwUpdateStage
  rw [hi]
  dsimp only
  rw [checked_none (by
      simp [firstFail, hst, hrsv, hlen0, Nat.not_lt.mpr hmax, Nat.not_lt.mpr hk, hactive, hstaging, spaceBad_of_descReady h,
        descFails_of_descReady h, descTags_of_descReady h]),
    whenDesc_of_descReady h]
  rfl

section
variable {c : CmdRec} {w : State} {image : List Nat}

theorem bodyFwUpdateStage_writes : bodyFwUpdateStage c { wait := some (.again (1 :: image)) } w =
    .wait (.again (2 :: image)) (w.flashWrite (slotBase (c.num 16 1) + 64) ((image.drop 64).map (BitVec.ofNat 8))) := rfl

theorem bodyFwUpdateStage_ends {u : State}
    (hu : u = w.flashWrite (slotBase (c.num 16 1)) ((image.take 64).map (BitVec.ofNat 8))) {st : Nat}
    (hst : st = reasonStatus (u.imageReason (u.slotImage (c.num 16 1)))) :
    bodyFwUpdateStage c { wait := some (.again (2 :: image)) } w = .reply st (if st = stOk then
        resultOf [(14, 4, num (manifest (u.slotImage (c.num 16 1))) 20 4), (18, 2, num (manifest (u.slotImage (c.num 16 1))) 4 4),
          (20, 2, num (manifest (u.slotImage (c.num 16 1))) 12 4)]
        else [])
      (u.updBoot fun x => { x with staged := x.staged.setIfInBounds (c.num 16 1) (st == stOk), staging := false }) := by
  rw [hst, hu]
  rfl

end

section
variable {c : CmdRec} {b : State} (hst : c.stray [(16, 1)] = false) (hk : c.num 16 1 ≤ 1)
  (hready : c.num 16 1 = b.boot.active ∨ b.boot.staged.toList.getD (c.num 16 1) false = true) {x gen : Nat}
  (hplace : b.controlPlace = (x, gen)) {text : List Byte}
  (htext : text = leBytes 4 0x43425944 ++ leBytes 4 (gen % 2 ^ 32) ++ leBytes 1 (c.num 16 1) ++ leBytes 3 0) {n : Nat} {e : State}
  (he : (b.flashErase (0x08012000 + 0x1000 * x) 4096).draw = (n, e))
include hst hk hready hplace htext he

/-- FW_ACTIVATE whose copy reads back ends what is in flight; one whose copy does not is answered POISONED_DATA. -/
theorem bodyFwActivate_eq (i : CmdIn) : bodyFwActivate c i b =
    if Config.flashReadFails n then .reply stPoison [] (e.flashWrite (0x08012000 + 0x1000 * x) (leBytes 16 (Config.free n)))
    else .reply stOk [] (((List.range 17).foldl (fun s r => State.discardCommands s r stDiscardedReset)
      (e.flashWrite (0x08012000 + 0x1000 * x) (text ++ leBytes 4 (crc105 text)))).updBoot fun b => { b with activate := true }) := by
  have hloaded : (c.num 16 1 != b.boot.active && !(b.boot.staged.toList.getD (c.num 16 1) false)) = false := by
    rcases hready with h | h
    · simp [h]
    · rw [h, Bool.not_true, Bool.and_false]
  rw [bodyFwActivate, checked_none (by rw [hloaded, hst]; simp [firstFail, Nat.not_lt.mpr hk])]
  simp only [hplace, he, ← htext]

end

/-- Settles O54: what each operation asks and does, then each row from it. A security-engine operation made whole in one slot
(log 68), flash whose read-back fails (log 70) and log 71 are the model's own choices. -/
theorem securityCommandsAnswer : Obligations.SecurityCommandsAnswer := by
  intro s r c rest auth b
  refine ⟨?enrol, ?rekey, ⟨fun h hready => ⟨fun hslot => ?report, fun hslot => ?held⟩, fun x p hp h hready hslot => ?again⟩,
    ?load, fun h hst hbad howner hheld => ⟨fun hslot => ?destroy, fun hslot => ?later⟩,
    fun x w hw h hst hbad howner hheld hslot => ?destroyed, ?unlock,
    fun x scope w ps hw hps => ⟨fun h hstreams hbrew => ?zeroize, fun h hzero hdrain => ?free, fun h hsettled hslot => ?opens⟩,
    ?stage, fun x image w i hw hi => ⟨fun h => ?write, fun h u hu => ?finish⟩,
    fun x gen text h hst hk hready hplace htext => ?activate⟩
  case enrol =>
    exact engineRow_of_body bodyOwnerEnroll (fun _ _ => rfl) (fun _ _ _ => ⟨rfl, rfl, rfl, fun _ => id⟩)
      (fun _ _ _ hok h _ => bodyOwnerEnroll_takes hok h) enrolWork_moved
  case rekey =>
    exact engineRow_of_body bodySessionRekey (fun _ _ => rfl) (fun _ _ _ => ⟨rfl, rfl, rfl, fun _ => id⟩)
      (fun _ _ _ hok h _ => bodySessionRekey_takes hok h) rekeyWork_moved
  case load =>
    exact engineRow_of_body bodyKeyLoad (fun _ _ => rfl) (fun _ _ _ => ⟨rfl, rfl, rfl, fun _ => id⟩)
      (fun _ _ _ hok h _ => bodyKeyLoad_takes hok h) keyWork_moved
  case unlock =>
    exact engineRow_of_body bodyDebugUnlock (fun _ _ => rfl) (fun _ _ _ => ⟨rfl, rfl, rfl, fun _ => id⟩)
      (fun _ _ _ hok h hi => bodyDebugUnlock_takes hok h hi) unlockWork_moved
  case stage =>
    exact engineRow_of_body bodyFwUpdateStage (fun _ _ => rfl) (fun _ _ _ => ⟨rfl, rfl, rfl, fun _ => id⟩)
      (fun _ _ _ hok h hi => bodyFwUpdateStage_takes hok h hi) stageWork_moved
  case report =>
    obtain ⟨hrsv, hlen, hd⟩ := hready
    exact exec_accepted (body := bodyAttest) rfl h ((bodyAttest_begins (c := b.taken c auth) hlen hd hrsv {} rfl).trans
      (attestWrite_sends (c := b.taken c auth) hlen hd hslot _))
  case held =>
    obtain ⟨hrsv, hlen, hd⟩ := hready
    exact exec_accepted (body := bodyAttest) rfl h ((bodyAttest_begins (c := b.taken c auth) hlen hd hrsv {} rfl).trans
      (attestWrite_waits (c := b.taken c auth) hd hslot _))
  case again =>
    obtain ⟨-, hlen, hd⟩ := hready
    exact exec_resumed (body := bodyAttest) rfl h ((bodyAttest_goesOn hp).trans (attestWrite_sends hlen hd hslot _))
  case destroy =>
    exact exec_accepted (body := bodyKeyDestroy) rfl h
      ((bodyKeyDestroy_eq (c := b.taken c auth) hst hbad howner hheld {}).trans (whenSlot_now _ hslot))
  case later =>
    exact exec_accepted (body := bodyKeyDestroy) rfl h
      ((bodyKeyDestroy_eq (c := b.taken c auth) hst hbad howner hheld {}).trans (whenSlot_later _ hslot))
  case destroyed =>
    subst hw
    have hbody := (bodyKeyDestroy_eq hst hbad howner hheld { wait := some (.engine []) }).trans (whenSlot_now _ hslot)
    have hrun := runCommand_waited h nofun bodyKeyDestroy (by rw [hbody]; rfl)
    rw [hbody] at hrun
    exact congrArg Host.Outcome.next hrun
  case zeroize =>
    subst hw hps
    exact exec_stays (body := bodyDebugUnlock) rfl h (by simp) (bodyDebugUnlock_zeroizes hstreams hbrew)
  case free =>
    subst hw hps
    exact exec_stays (body := bodyDebugUnlock) rfl h (by simp) (bodyDebugUnlock_frees hzero hdrain)
  case opens =>
    subst hw
    exact ⟨exec_resumed (body := bodyDebugUnlock) rfl h (bodyDebugUnlock_opens hsettled hslot), rfl,
      fun p hp => unlockEnd_role _ scope hp⟩
  case write =>
    subst hw hi
    exact exec_stays (body := bodyFwUpdateStage) rfl h (by simp) bodyFwUpdateStage_writes
  case finish =>
    subst hw hi
    exact exec_resumed (body := bodyFwUpdateStage) rfl h (bodyFwUpdateStage_ends hu rfl)
  case activate =>
    intro e
    have heq := bodyFwActivate_eq (c := b.taken c auth) hst hk hready hplace htext (n := e.1) (e := e.2) rfl {}
    exact ⟨fun hgood => exec_accepted (body := bodyFwActivate) rfl h (heq.trans (if_neg (by rw [hgood]; exact Bool.false_ne_true))),
      fun hbad => exec_accepted (body := bodyFwActivate) rfl h (heq.trans (if_pos hbad))⟩

end Sys2Proof.Machine
end
